-- ==== Sys2Proof/Word.lean ====
section
/-! DEFINITION. The word types of the KV-1536 and their plainest arithmetic (00 R1: bit 0 is least significant,
multi-byte data is little-endian). -/

namespace Sys2Proof

/-- One byte of memory. -/
abbrev Byte := BitVec 8
/-- A 32-bit word: an instruction, a vector lane, an accumulator element. -/
abbrev W32 := BitVec 32
/-- A 64-bit word: a scalar register, a control register, a mask. -/
abbrev W64 := BitVec 64

/-- The field [hi:lo] of a number. -/
def bits (w hi lo : Nat) : Nat := w / 2 ^ lo % 2 ^ (hi + 1 - lo)

/-- The single bit [n] of a number. -/
def bit (w n : Nat) : Bool := w / 2 ^ n % 2 == 1

/-- A Bool as a number. -/
def b2n (b : Bool) : Nat := if b then 1 else 0

/-- A number of `n` bits read as two's complement. -/
def signed (n w : Nat) : Int := if w % 2 ^ n < 2 ^ (n - 1) then (w % 2 ^ n : Nat) else ((w % 2 ^ n : Nat) : Int) - (2 ^ n : Nat)

/-- The `n`-bit two's-complement code of an integer, as a number below 2^n. -/
def wrapInt (n : Nat) (i : Int) : Nat := (i % ((2 ^ n : Nat) : Int)).toNat

/-- A 64-bit word read as a signed integer. -/
def W64.signed (w : W64) : Int := w.toInt

/-- The 64-bit word of an integer modulo 2^64. -/
def w64OfInt (i : Int) : W64 := BitVec.ofInt 64 i

/-- The n low-order bytes of a number, least significant first (00 R1: little-endian). -/
def toBytes : Nat → Nat → List Byte
  | 0, _ => []
  | n + 1, v => BitVec.ofNat 8 v :: toBytes n (v / 256)

/-- The number whose little-endian bytes are given. -/
def ofBytes : List Byte → Nat
  | [] => 0
  | b :: r => b.toNat + 256 * ofBytes r

end Sys2Proof
end

