-- ==== Sys2Proof/Syntax.lean ====
section
/-! DEFINITION. The instructions and events of the KV-1536: one constructor per row of the table of operations.
A constructor of an instruction word carries its raw fields (02 R15, R16), each an unsigned number; a constructor
of an event row carries what names the event. The field names are those of 02 R15: d, a, b operands, g guard slot,
t transient, la lookahead, m mask, sz access size, home, ord, scope. -/

namespace Sys2Proof

/-- A unit that counts corrected errors (18 R353). -/
inductive HwUnit where
  | core (i : Nat)
  | channel (c : Nat)
  | router (i : Nat)
  | port (p : Nat)
  deriving DecidableEq, Repr

/-- Where an uncorrectable error strikes (03 R44, R47, 06 R98, 18 R346): the 64-byte line of the memory key `addr`,
the register file of a context, or CXL port `p`, whose transfers fail from one such error to the next. -/
inductive ErrSite where
  | line (addr : Nat)
  | regFile (core ctx : Nat)
  | cxlPort (p : Nat)
  deriving DecidableEq, Repr

/-- A message on its way (04 R66, R67, R69). -/
structure Msg where
  /-- Receiving logical core and ring. -/
  dest : Nat
  ring : Nat
  eos : Bool
  fab : Bool
  /-- Sender: fabric device number, domain, core and context. -/
  sdev : Nat
  sdom : Nat
  score : Nat
  sctx : Nat
  /-- The destination word, for MSGFAIL. -/
  destWord : W64
  payload : List Byte
  deriving DecidableEq, Repr

/-- A remote matrix command on its way (04 R74). -/
structure RemoteCmd where
  target : Nat
  score : Nat
  sctx : Nat
  sdom : Nat
  ensign : Nat
  word : W32
  opd : W64
  opa : W64
  opb : W64
  destWord : W64
  deriving DecidableEq, Repr

/-- An event record (05 R89); `held` marks a record of a copy or bulk engine, which waits when the queue is
full (05 R91), and `seq` is the sequence number of its command (0 for other records), which no reader of the queue sees. -/
structure EvRec where
  kind : Nat
  tag : Nat
  status : Nat
  ctx : Nat
  count : Nat
  word1 : W64
  held : Bool
  seq : Nat
  deriving DecidableEq, Repr

/-- A fault record on its way to the concentrator (18 R354), without its timebase. -/
structure FaultRec where
  kind : Nat
  cause : Nat
  code : Nat
  ctx : Nat
  core : Nat
  unit : Nat
  addr : W64
  pc : W64
  deriving DecidableEq, Repr

/-- The key of an ordered step at an adder (17 R332): communicator, sequence number and destination. -/
structure StepKey where
  comm : Nat
  seq : Nat
  dst : W64
  deriving DecidableEq, Repr

/-- A chunk of a fired work entry (17 R332). -/
structure Chunk where
  /-- Sending entry: die, handle index, posting core and context; `fab` when it comes from another device. -/
  die : Nat
  idx : Nat
  core : Nat
  ctx : Nat
  /-- The privilege of the context that posted the entry (03 R52). -/
  priv : Bool
  fab : Bool
  tag : Nat
  comm : Nat
  reduce : Bool
  rop : Nat
  rfmt : Nat
  desc : W32
  ordered : Bool
  seq : Nat
  dst : W64
  rank : Nat
  ncontrib : Nat
  rctr : Nat
  target : Nat
  len : Nat
  off : Nat
  data : List Byte
  deriving DecidableEq, Repr

/-- The rows of the table of operations: 259 instruction words, then 96 events. -/
inductive Instr where
  /-- R136: Writes wA + wB modulo 2^64 to wD. -/
  | add (d a b : Nat) (t : Bool) (g : Nat)
  /-- R136: Writes wA - wB modulo 2^64 to wD. -/
  | sub (d a b : Nat) (t : Bool) (g : Nat)
  /-- R136: Writes the bitwise AND of wA and wB to wD. -/
  | and (d a b : Nat) (t : Bool) (g : Nat)
  /-- R136: Writes the bitwise OR of wA and wB to wD. -/
  | or (d a b : Nat) (t : Bool) (g : Nat)
  /-- R136: Writes the bitwise XOR of wA and wB to wD. -/
  | xor (d a b : Nat) (t : Bool) (g : Nat)
  /-- R136: Writes wA AND NOT wB to wD. -/
  | andn (d a b : Nat) (t : Bool) (g : Nat)
  /-- R136: Shifts wA left by wB[5:0], bringing in zeros. -/
  | sll (d a b : Nat) (t : Bool) (g : Nat)
  /-- R136: Shifts wA right by wB[5:0], bringing in zeros. -/
  | srl (d a b : Nat) (t : Bool) (g : Nat)
  /-- R136: Shifts wA right by wB[5:0], bringing in copies of the sign bit. -/
  | sra (d a b : Nat) (t : Bool) (g : Nat)
  /-- R136: Rotates wA right by wB[5:0]. -/
  | ror (d a b : Nat) (t : Bool) (g : Nat)
  /-- R136: Writes 1 if wA < wB as signed values, else 0. -/
  | slt (d a b : Nat) (t : Bool) (g : Nat)
  /-- R136: Writes 1 if wA < wB as unsigned values, else 0. -/
  | sltu (d a b : Nat) (t : Bool) (g : Nat)
  /-- R136: Writes the signed smaller of wA and wB. -/
  | min (d a b : Nat) (t : Bool) (g : Nat)
  /-- R136: Writes the signed larger of wA and wB. -/
  | max (d a b : Nat) (t : Bool) (g : Nat)
  /-- R136: Writes the unsigned smaller of wA and wB. -/
  | minu (d a b : Nat) (t : Bool) (g : Nat)
  /-- R136: Writes the unsigned larger of wA and wB. -/
  | maxu (d a b : Nat) (t : Bool) (g : Nat)
  /-- R136: Writes the low 64 bits of wA times wB. -/
  | mul (d a b : Nat) (t : Bool) (g : Nat)
  /-- R136: Writes the high 64 bits of the signed 128-bit product. -/
  | mulh (d a b : Nat) (t : Bool) (g : Nat)
  /-- R136: Writes the high 64 bits of the unsigned 128-bit product. -/
  | mulhu (d a b : Nat) (t : Bool) (g : Nat)
  /-- R136: Writes the count of leading zero bits of wA. -/
  | clz (d a : Nat) (t : Bool) (g : Nat)
  /-- R136: Writes the count of trailing zero bits of wA. -/
  | ctz (d a : Nat) (t : Bool) (g : Nat)
  /-- R136: Writes the count of one bits of wA. -/
  | popc (d a : Nat) (t : Bool) (g : Nat)
  /-- R136: Writes wA[7:0] sign-extended. -/
  | sextb (d a : Nat) (t : Bool) (g : Nat)
  /-- R136: Writes wA[15:0] sign-extended. -/
  | sexth (d a : Nat) (t : Bool) (g : Nat)
  /-- R136: Writes wA[31:0] sign-extended. -/
  | sextw (d a : Nat) (t : Bool) (g : Nat)
  /-- R136: Writes wA[31:0] zero-extended. -/
  | zextw (d a : Nat) (t : Bool) (g : Nat)
  /-- R136: Writes wA times 2 plus wB. -/
  | shadd1 (d a b : Nat) (t : Bool) (g : Nat)
  /-- R136: Writes wA times 4 plus wB. -/
  | shadd2 (d a b : Nat) (t : Bool) (g : Nat)
  /-- R136: Writes wA times 8 plus wB. -/
  | shadd3 (d a b : Nat) (t : Bool) (g : Nat)
  /-- R139: Signed division truncated towards zero, with the fixed results for a zero divisor and for overflow. -/
  | div (d a b la : Nat)
  /-- R139: Unsigned division, giving all ones for a zero divisor. -/
  | divu (d a b la : Nat)
  /-- R139: Signed remainder, taking the sign of the dividend. -/
  | rem (d a b la : Nat)
  /-- R139: Unsigned remainder, giving the dividend for a zero divisor. -/
  | remu (d a b la : Nat)
  /-- R137: Writes wA plus the gathered immediate. -/
  | addi (d a imm g : Nat)
  /-- R137: Writes wA AND the sign-extended immediate. -/
  | andi (d a imm g : Nat)
  /-- R137: Writes wA OR the sign-extended immediate. -/
  | ori (d a imm g : Nat)
  /-- R137: Writes wA XOR the sign-extended immediate. -/
  | xori (d a imm g : Nat)
  /-- R137: Writes 1 if wA is below the immediate as signed values. -/
  | slti (d a imm g : Nat)
  /-- R137: Writes 1 if wA is below the sign-extended immediate as unsigned values. -/
  | sltiu (d a imm g : Nat)
  /-- R138: Shifts wA left by an immediate amount. -/
  | slli (d a sh g : Nat)
  /-- R138: Shifts wA right logically by an immediate amount. -/
  | srli (d a sh g : Nat)
  /-- R138: Shifts wA right arithmetically by an immediate amount. -/
  | srai (d a sh g : Nat)
  /-- R138: Rotates wA right by an immediate amount. -/
  | rori (d a sh g : Nat)
  /-- R137: Writes the gathered immediate to wD. -/
  | movi (d imm g : Nat)
  /-- R140: Sets guard slot qD to whether wA equals wB. -/
  | qsetEq (d a b g : Nat)
  /-- R140: Sets guard slot qD to whether wA differs from wB. -/
  | qsetNe (d a b g : Nat)
  /-- R140: Sets guard slot qD to whether wA < wB, signed. -/
  | qsetLt (d a b g : Nat)
  /-- R140: Sets guard slot qD to whether wA >= wB, signed. -/
  | qsetGe (d a b g : Nat)
  /-- R140: Sets guard slot qD to whether wA < wB, unsigned. -/
  | qsetLtu (d a b g : Nat)
  /-- R140: Sets guard slot qD to whether wA >= wB, unsigned. -/
  | qsetGeu (d a b g : Nat)
  /-- R140: Sets qD to qA AND qB. -/
  | qand (d a b g : Nat)
  /-- R140: Sets qD to qA OR qB. -/
  | qor (d a b g : Nat)
  /-- R140: Sets qD to qA XOR qB. -/
  | qxor (d a b g : Nat)
  /-- R140: Sets qD to qA AND NOT qB. -/
  | qandn (d a b g : Nat)
  /-- R140: Sets qD to NOT qA. -/
  | qnot (d a g : Nat)
  /-- R140: Sets qD true. -/
  | qtrue (d g : Nat)
  /-- R140: Sets qD false. -/
  | qfalse (d g : Nat)
  /-- R140: Makes qD unresolved with no value. -/
  | qunres (d g : Nat)
  /-- R141: Branches by the word displacement when wA equals wB. -/
  | beq (a b disp : Nat)
  /-- R141: Branches when wA differs from wB. -/
  | bne (a b disp : Nat)
  /-- R141: Branches when wA < wB, signed. -/
  | blt (a b disp : Nat)
  /-- R141: Branches when wA >= wB, signed. -/
  | bge (a b disp : Nat)
  /-- R141: Branches when wA < wB, unsigned. -/
  | bltu (a b disp : Nat)
  /-- R141: Branches when wA >= wB, unsigned. -/
  | bgeu (a b disp : Nat)
  /-- R141: Branches when guard slot a is true, waiting if it is pending. -/
  | bqt (a disp : Nat)
  /-- R141: Branches when guard slot a is false. -/
  | bqf (a disp : Nat)
  /-- R142: Jumps by a 26-bit word displacement. -/
  | j (disp : Nat)
  /-- R142: Checks depth and overflow, writes the return address to w31, adds one to CWP and jumps. -/
  | call (disp : Nat)
  /-- R143: Jumps to the address in wA, raising ALIGN for a misaligned target. -/
  | jr (a g : Nat)
  /-- R143: Calls the address in wA after the alignment, depth and overflow checks. -/
  | callr (a g : Nat)
  /-- R143: Pops the loop levels of the depth, checks underflow, subtracts one from CWP and jumps to w15. -/
  | ret (g : Nat)
  /-- R109: Loads 1, 2, 4 or 8 bytes sign-extended into wD. -/
  | ld (d a off sz home la : Nat)
  /-- R109: Loads 1, 2 or 4 bytes zero-extended into wD. -/
  | ldn (d a off sz home la : Nat)
  /-- R109: Stores the low bytes of wD to memory. -/
  | st (d a off sz home la : Nat)
  /-- R111: Loads 64 lanes from memory into vD under a mask and sets its tag to the element class. -/
  | ldv (d a m cls la : Nat)
  /-- R111: Stores the active lanes of vD to memory. -/
  | stv (d a m la : Nat)
  /-- R112: Loads a 4 KiB tile, gives it the neutral side area and the tag of its XLFMT descriptor. -/
  | ldx (d a la : Nat)
  /-- R112: Loads a tile and its 512-byte side area, tagging it block-scaled. -/
  | ldxSc (d a la : Nat)
  /-- R112: Stores the 4 KiB of a tile. -/
  | stx (d a la : Nat)
  /-- R112: Stores a tile and its side area. -/
  | stxSc (d a la : Nat)
  /-- R113: Loads each active lane from wA plus four times its index. -/
  | gather (d a vi m cls la : Nat)
  /-- R113: Stores the active lanes to indexed addresses, the highest duplicate lane winning. -/
  | scatter (d a vi m la : Nat)
  /-- R88: Waits at the word's home until it is full, then loads it. -/
  | lds (d a ord scope la : Nat)
  /-- R88: Waits until the word is full, loads it and sets it empty in one access. -/
  | ldsE (d a ord scope la : Nat)
  /-- R88: Stores a word and sets its full-empty bit full. -/
  | stf (d a ord scope la : Nat)
  /-- R88: Sets a word's full-empty bit empty. -/
  | sete (a ord scope la : Nat)
  /-- R114: Atomically swaps wD with the memory word at its home. -/
  | amoSwap (d a sz ord scope la : Nat)
  /-- R114: Atomically adds wD to the memory word and returns the old value. -/
  | amoAdd (d a sz ord scope la : Nat)
  /-- R114: Atomic bitwise AND at the home. -/
  | amoAnd (d a sz ord scope la : Nat)
  /-- R114: Atomic bitwise OR at the home. -/
  | amoOr (d a sz ord scope la : Nat)
  /-- R114: Atomic bitwise XOR at the home. -/
  | amoXor (d a sz ord scope la : Nat)
  /-- R114: Atomic signed minimum at the home. -/
  | amoMin (d a sz ord scope la : Nat)
  /-- R114: Atomic signed maximum at the home. -/
  | amoMax (d a sz ord scope la : Nat)
  /-- R114: Atomic unsigned minimum at the home. -/
  | amoMinu (d a sz ord scope la : Nat)
  /-- R114: Atomic unsigned maximum at the home. -/
  | amoMaxu (d a sz ord scope la : Nat)
  /-- R115: Atomic floating add rounded under RNE, the unordered form. -/
  | amoFadd (d a sz ord scope la : Nat)
  /-- R115: Adds an F32 value exactly into a 64-byte exact cell. -/
  | amoFaddX (d a ord scope la : Nat)
  /-- R115: Atomic floating minimum at the home. -/
  | amoFmin (d a sz ord scope la : Nat)
  /-- R115: Atomic floating maximum at the home. -/
  | amoFmax (d a sz ord scope la : Nat)
  /-- R116: Loads with relaxed or acquire order at a scope. -/
  | ldo (d a sz acq scope la : Nat)
  /-- R116: Stores with relaxed or release order at a scope. -/
  | sto (d a sz rel scope la : Nat)
  /-- R117: Compares the word with wD and, if equal, writes w(d+1), returning the old value. -/
  | cas (d a sz ord scope la : Nat)
  /-- R118: Waits for the context's long-latency instructions, then orders accesses at its scope. -/
  | fence (ord scope : Nat)
  /-- R110: Loads a translation into the micro-TLB and cluster TLB. -/
  | prefTlb (a off home : Nat)
  /-- R110: Loads a translation and brings the line into the memory-side cache. -/
  | prefMsc (a off home : Nat)
  /-- R67: Captures a payload from own local store and places a message in the send queue. -/
  | send (d a b g la : Nat)
  /-- R67: Captures a payload and holds the message in a hold entry of the context. -/
  | sends (d a b g la : Nat)
  /-- R68: Releases the context's held messages into the send queue in SENDS order. -/
  | hoist (g : Nat)
  /-- R68: Discards the context's held messages. -/
  | strike (g : Nat)
  /-- R74: Sends a matrix command with its operands and an ensign to another core's matrix engine. -/
  | mcmd (d a b g la : Nat)
  /-- R72: Waits for a current message on a receive ring and returns its header address. -/
  | rbwait (d a b g la : Nat)
  /-- R72: Advances the ring past its current message. -/
  | rbadv (a g : Nat)
  /-- R73: Binds a ring to the context's vq stream operand with a pennant and tag. -/
  | stbind (d a b g : Nat)
  /-- R73: Ends the stream binding, discarding a partly consumed message. -/
  | stunbind (g : Nat)
  /-- R81: Checks a copy command and places it in the core's copy queue. -/
  | cp (d a b g la : Nat)
  /-- R81: Captures a shape record and queues a two-dimensional copy. -/
  | cp2d (d a b g la : Nat)
  /-- R81: Captures an index record and queues a gather or scatter copy. -/
  | cpidx (d a b g la : Nat)
  /-- R83: Waits for the context's earlier copy commands, or those of one tag, and acquires. -/
  | cpwait (a g la : Nat)
  /-- R82: Queues a copy-with-reduce whose result is order-free. -/
  | cpredO (d a b g la : Nat)
  /-- R82: Queues a copy-with-reduce updating in place, order-dependent. -/
  | cpredU (d a b g la : Nat)
  /-- R93: Removes the oldest event record into wD and wA, or NONE. -/
  | evpop (d a g : Nat)
  /-- R93: Waits up to wB cycles for an event record and pops it. -/
  | evwait (d a b g la : Nat)
  /-- R93: Posts a SOFT record to the event queue of a named core. -/
  | evpost (d a b g : Nat)
  /-- R329: Captures a work-entry record and posts it ARMED, or READY, to a communicator. -/
  | qpost (d a b g la : Nat)
  /-- R331: Re-arms or frees a persistent DONE work entry. -/
  | qarm (a b g : Nat)
  /-- R328: Adds to a counter at its die's collective engine, returning the old value, as a system release. -/
  | ctradd (d a b g la : Nat)
  /-- R328: Waits until a counter reaches a threshold, as a system acquire. -/
  | ctrwait (d a b g la : Nat)
  /-- R328: Sets a counter to a value, as a system release. -/
  | ctrset (a b g : Nat)
  /-- R176: Adds active floating elements with one RNE rounding. -/
  | vadd (d a b m : Nat) (t : Bool)
  /-- R176: Subtracts active floating elements. -/
  | vsub (d a b m : Nat) (t : Bool)
  /-- R176: Multiplies active floating elements. -/
  | vmul (d a b m : Nat) (t : Bool)
  /-- R176: Takes the smaller floating element. -/
  | vmin (d a b m : Nat) (t : Bool)
  /-- R176: Takes the larger floating element. -/
  | vmax (d a b m : Nat) (t : Bool)
  /-- R176: Clears the sign of each active element. -/
  | vabs (d a m : Nat) (t : Bool)
  /-- R176: Flips the sign of each active element. -/
  | vneg (d a m : Nat) (t : Bool)
  /-- R178: Adds I32 lanes modulo 2^32. -/
  | viadd (d a b m : Nat) (t : Bool)
  /-- R178: Subtracts I32 lanes modulo 2^32. -/
  | visub (d a b m : Nat) (t : Bool)
  /-- R178: Multiplies I32 lanes, keeping the low 32 bits. -/
  | vimul (d a b m : Nat) (t : Bool)
  /-- R178: Signed minimum of I32 lanes. -/
  | vimin (d a b m : Nat) (t : Bool)
  /-- R178: Signed maximum of I32 lanes. -/
  | vimax (d a b m : Nat) (t : Bool)
  /-- R178: Unsigned minimum of I32 lanes. -/
  | viminu (d a b m : Nat) (t : Bool)
  /-- R178: Unsigned maximum of I32 lanes. -/
  | vimaxu (d a b m : Nat) (t : Bool)
  /-- R178: Saturating signed add of I32 lanes. -/
  | viadds (d a b m : Nat) (t : Bool)
  /-- R178: Saturating signed subtract of I32 lanes. -/
  | visubs (d a b m : Nat) (t : Bool)
  /-- R179: Bitwise AND of 32-bit lanes. -/
  | vand (d a b m : Nat) (t : Bool)
  /-- R179: Bitwise OR of 32-bit lanes. -/
  | vor (d a b m : Nat) (t : Bool)
  /-- R179: Bitwise XOR of 32-bit lanes. -/
  | vxor (d a b m : Nat) (t : Bool)
  /-- R179: Shifts each lane left by b[i][4:0]. -/
  | vsll (d a b m : Nat) (t : Bool)
  /-- R179: Shifts each lane right logically. -/
  | vsrl (d a b m : Nat) (t : Bool)
  /-- R179: Shifts each lane right arithmetically. -/
  | vsra (d a b m : Nat) (t : Bool)
  /-- R180: Writes mask bits for floating equality. -/
  | vfcmpEq (d a b m : Nat) (t : Bool)
  /-- R180: Writes mask bits for floating less-than, NV on NaN. -/
  | vfcmpLt (d a b m : Nat) (t : Bool)
  /-- R180: Writes mask bits for floating less-or-equal. -/
  | vfcmpLe (d a b m : Nat) (t : Bool)
  /-- R180: Writes mask bits where either operand is a NaN. -/
  | vfcmpUn (d a b m : Nat) (t : Bool)
  /-- R180: Writes mask bits for I32 equality. -/
  | vicmpEq (d a b m : Nat) (t : Bool)
  /-- R180: Writes mask bits for signed I32 less-than. -/
  | vicmpLt (d a b m : Nat) (t : Bool)
  /-- R180: Writes mask bits for unsigned I32 less-than. -/
  | vicmpLtu (d a b m : Nat) (t : Bool)
  /-- R181: Copies active lanes of vA with its tag. -/
  | vmov (d a m : Nat) (t : Bool)
  /-- R181: Writes wA into every active element, keeping vD's tag. -/
  | vsplat (d a m : Nat) (t : Bool)
  /-- R181: Extracts one element into wD. -/
  | vext (d a b m : Nat) (t : Bool)
  /-- R181: Inserts wA into element j of vD if active. -/
  | vins (d a b m : Nat) (t : Bool)
  /-- R181: Selects each lane from vA or vB by the mask. -/
  | vsel (d a b m : Nat) (t : Bool)
  /-- R181: Permutes 32-bit lanes of vA by the I32 indices of vB. -/
  | vperm (d a b m : Nat) (t : Bool)
  /-- R183: Divides active elements, rounded once; long-latency. -/
  | vdiv (d a b m p la : Nat)
  /-- R183: Square root of active elements. -/
  | vsqrt (d a m p la : Nat)
  /-- R183: Reciprocal of active elements. -/
  | vrcp (d a m p la : Nat)
  /-- R165: Bit-exact base-2 exponential of F32 elements. -/
  | vexp2 (d a m la : Nat)
  /-- R166: Bit-exact base-2 logarithm of F32 elements. -/
  | vlog2 (d a m la : Nat)
  /-- R184: Writes the exact sum of active elements, rounded once, to wD. -/
  | vraddO (d a m : Nat) (t : Bool)
  /-- R184: Writes the fixed lane tree sum to wD. -/
  | vraddU (d a m : Nat) (t : Bool)
  /-- R184: Writes the smallest active element to wD. -/
  | vrmin (d a m : Nat) (t : Bool)
  /-- R184: Writes the largest active element to wD. -/
  | vrmax (d a m : Nat) (t : Bool)
  /-- R184: Writes the exact prefix sums, each rounded once. -/
  | vscanO (d a b m : Nat) (t : Bool)
  /-- R184: Writes the sequential prefix sums. -/
  | vscanU (d a b m : Nat) (t : Bool)
  /-- R184: Writes the I32 sum modulo 2^32 to wD. -/
  | viradd (d a m : Nat) (t : Bool)
  /-- R185: Converts elements into descriptor fB's format under RNE. -/
  | vcvtRne (d a b m : Nat) (t : Bool)
  /-- R185: Converts elements under RTZ. -/
  | vcvtRtz (d a b m : Nat) (t : Bool)
  /-- R185: Converts elements under RDN. -/
  | vcvtRdn (d a b m : Nat) (t : Bool)
  /-- R185: Converts elements under RUP. -/
  | vcvtRup (d a b m : Nat) (t : Bool)
  /-- R186: Converts into a narrow format with stochastic rounding from vB. -/
  | vcvtSr (d a b f : Nat) (t : Bool)
  /-- R188: Encodes 64 F32 lanes as four 18-byte block-scaled blocks. -/
  | vpackb (d a b m : Nat) (t : Bool)
  /-- R188: Decodes four packed blocks into 64 F32 lanes. -/
  | vunpackb (d a b m : Nat) (t : Bool)
  /-- R187: Converts F32 to I32 under RNE with saturation. -/
  | vftoi (d a m : Nat) (t : Bool)
  /-- R187: Converts I32 to F32 under RNE. -/
  | vitof (d a m : Nat) (t : Bool)
  /-- R177: Computes a times b plus d, rounded once. -/
  | vfma (d a b m : Nat) (t : Bool)
  /-- R177: Computes a times b minus d, rounded once. -/
  | vfms (d a b m : Nat) (t : Bool)
  /-- R177: Computes minus a times b minus d, rounded once. -/
  | vfnma (d a b m : Nat) (t : Bool)
  /-- R177: Computes minus a times b plus d, rounded once. -/
  | vfnms (d a b m : Nat) (t : Bool)
  /-- R189: Bitwise AND of two masks. -/
  | mand (d a b : Nat) (t : Bool)
  /-- R189: Bitwise OR of two masks. -/
  | mor (d a b : Nat) (t : Bool)
  /-- R189: Bitwise XOR of two masks. -/
  | mxor (d a b : Nat) (t : Bool)
  /-- R189: mA AND NOT mB. -/
  | mandn (d a b : Nat) (t : Bool)
  /-- R189: NOT of a mask. -/
  | mnot (d a : Nat) (t : Bool)
  /-- R189: Writes the count of one bits of a mask to wD. -/
  | mpopc (d a : Nat) (t : Bool)
  /-- R196: Enters the matrix queue; multiplies tiles or latches exactly into an accumulator region with one rounding. -/
  | mma (a b row col s g la : Nat)
  /-- R197: MMA with the A operand down-converted from an accumulator region. -/
  | mmac (a b row col s g la : Nat)
  /-- R198: Zeroes an accumulator region. -/
  | accz (d g la : Nat)
  /-- R198: Loads an accumulator region from strided memory. -/
  | accld (d a b g la : Nat)
  /-- R198: Stores an accumulator region to strided memory. -/
  | accst (d a b g la : Nat)
  /-- R199: Converts a 64-row region into a tile under a descriptor. -/
  | acccvt (d a b g la : Nat)
  /-- R198: Copies one accumulator region to another of equal shape. -/
  | accmov (d a g la : Nat)
  /-- R200: Copies a tile's bytes, side area and tag. -/
  | xmov (d a g la : Nat)
  /-- R200: Transposes a tile. -/
  | xtr (d a g la : Nat)
  /-- R200: Zeroes a tile's bytes and side area, keeping its tag. -/
  | xzero (d g la : Nat)
  /-- R200: Converts a tile into another format under a descriptor. -/
  | xcvt (d a b g la : Nat)
  /-- R202: LU-factors a square block with pivoting and tiny-pivot replacement. -/
  | tfact (d a b g la : Nat)
  /-- R203: Solves with a factor tile for each column of xB. -/
  | tsolve (d a b g la : Nat)
  /-- R205: Raises the array level and holds it for n array commands. -/
  | burst (d g : Nat)
  /-- R205: Waits for the context's earlier matrix commands to complete. -/
  | mwait (g : Nat)
  /-- R223: Configures an encounter ring with this core as owner. -/
  | rgcfg (d g : Nat)
  /-- R224: Writes entries into the core's own match table. -/
  | rgmt (d a b g la : Nat)
  /-- R225: Sends match-table update records to ring members. -/
  | rgmtu (d a g la : Nat)
  /-- R226: Captures a tile into the core's injection slot for its family. -/
  | rginj (d a b g la : Nat)
  /-- R227: Starts the ring, loading the counter and entering slotted tiles at beat 0. -/
  | rgstart (d g : Nat)
  /-- R228: Waits until the ring is idle or a limit passes and returns the status word. -/
  | rgwait (d a g la : Nat)
  /-- R228: Returns the ring status word at once. -/
  | rgstat (d g : Nat)
  /-- R229: Returns a parked tile to the injection slot with LAP 0. -/
  | rgreinj (d g la : Nat)
  /-- R230: Releases the owner's ring, discarding its tiles. -/
  | rgret (g : Nat)
  /-- R244: Checks and installs an auction configuration, optionally zeroing prices. -/
  | aucfg (d a g la : Nat)
  /-- R245: Loads price registers from memory. -/
  | prld (d a b g la : Nat)
  /-- R245: Stores price registers to memory. -/
  | prst (d a b g la : Nat)
  /-- R243: Begins or continues an auction and runs it to completion. -/
  | aubid (d g la : Nat)
  /-- R243: Begins or continues an auction and runs one round. -/
  | austep (d g la : Nat)
  /-- R246: Writes one result record per token of a partition. -/
  | aures (d a g la : Nat)
  /-- R247: Returns the engine or a partition status word without waiting. -/
  | austat (d a g : Nat)
  /-- R253: Captures and checks a projection configuration record. -/
  | vpjCfg (d g : Nat)
  /-- R259: Projects weight tiles into a state block, updating maximum, normaliser, heap and labels. -/
  | vpj (d a b g la : Nat)
  /-- R262: Merges a left and a right state block in shard order. -/
  | vpjMrg (d a b g la : Nat)
  /-- R264: Copies, drains or merges heap entries of one row to memory. -/
  | vpjRd (d a b g la : Nat)
  /-- R265: Regenerates logits, forms gradients and accumulates the hidden gradient. -/
  | vpjRegen (d a b g la : Nat)
  /-- R258: Writes fresh row records of a state block. -/
  | vpjInit (d g la : Nat)
  /-- R271: Starts the lowest idle helper context at a code address, waiting if none is idle. -/
  | start (d a b g : Nat)
  /-- R272: Ends its context, striking held messages and releasing at package scope. -/
  | exit (g : Nat)
  /-- R273: Removes the context from issue selection for a number of cycles. -/
  | yield (a g : Nat)
  /-- R290: Makes the core a follower of a leader core, or completes with 0. -/
  | follow (d a g : Nat)
  /-- R292: Ends following, resuming each follower's own fetch. -/
  | unfollow (g : Nat)
  /-- R274: Reads a work-identifier field, the header, or advances to the next identifier. -/
  | wid (d a g : Nat)
  /-- R279: Enqueues a ready pennant in the cluster's ready queue. -/
  | pnpush (a g : Nat)
  /-- R280: Decrements a pennant's join counter and enqueues it when it reaches zero. -/
  | join (d a g : Nat)
  /-- R287: Contributes a bit to a halyard episode and resolves a guard slot with the result. -/
  | vote (d a b g : Nat)
  /-- R286: Arrives at a halyard barrier with an optional time limit. -/
  | haly (d a b g : Nat)
  /-- R288: Contributes a value to a canonical-tree sum over the members. -/
  | hsum (d a b g : Nat)
  /-- R294: Pushes, re-enters or skips a hardware loop level. -/
  | lpset (a endOff : Nat)
  /-- R298: Pops the innermost current loop level. -/
  | lppop
  /-- R133: Reads a control register into wD. -/
  | mfc (d n : Nat)
  /-- R133: Writes wD to a control register under its access code. -/
  | mtc (d n : Nat)
  /-- R133: Sets the bits of wD in a control register. -/
  | msc (d n : Nat)
  /-- R133: Clears the bits of wD in a control register. -/
  | mcc (d n : Nat)
  /-- R349: Traps with cause TRAP, AUX wD and code n. -/
  | trap (d n : Nat)
  /-- R348: Checks the frame, restores the level below and re-injects its replay entries. -/
  | tret
  /-- R349: Traps with cause SYSC to the domain's SYSV entry, privileged. -/
  | sysc (d n : Nat)
  /-- R349: Begins a debug halt if BRKHALT is set, otherwise traps with cause BRK. -/
  | brk (n : Nat)
  /-- R349: Stops for debug if ATTACH is set, otherwise kills the context. -/
  | halt (d : Nat)
  /-- R124: Parks frame LOW of the trapped context in a half-row or its image slot. -/
  | spillw (d : Nat)
  /-- R125: Restores frame LOW-1 of the trapped context. -/
  | fillw
  /-- R24: Carries 22 immediate bits to the consumer of its chain. -/
  | hintImm (payload : Nat)
  /-- R23: Names the die to which the consumer's request is sent. -/
  | hintHome (payload : Nat)
  /-- R23: Carries an access modifier such as NT to the consumer. -/
  | hintMod (payload : Nat)
  /-- R144: Changes nothing. -/
  | nop
  /-- R20: Reaching a word that is not an instruction raises ILLEGAL. -/
  | illegalWord (w : Nat)
  /-- R129: An issued long-latency instruction completes, writing its result and ORing its flags. -/
  | instructionComplete (core ctx idx : Nat)
  /-- R290: The leader issues the instruction after FOLLOW and the waiting follower begins following. -/
  | followEngage (core : Nat)
  /-- R54: A page walk ends in a leaf or a fault and answers every joined requester. -/
  | pageWalkComplete (core domain : Nat) (va : Nat)
  /-- R65: The acknowledgement of a posted fabric store arrives at its context. -/
  | postedStoreAck (core ctx : Nat)
  /-- R59: A failed posted fabric store is recorded for the next system-scope release. -/
  | postedStoreFail (core ctx pa : Nat)
  /-- R44: An uncorrectable memory error marks its line lost until fully rewritten. -/
  | uncorrectableError (site : ErrSite)
  /-- R353: A unit counts a corrected error against the timebase. -/
  | correctedError (unit : HwUnit)
  /-- R353: A lasting unit is retired at its next launch boundary and a record is posted. -/
  | unitRetire (unit : HwUnit)
  /-- R88: A word becoming full serves its parked LDS and LDS.E requests in order. -/
  | parkedRequestServe (addr : Nat)
  /-- R88: A request refused for lack of parking room is retried after 256 cycles. -/
  | ldsParkRetry (core ctx : Nat)
  /-- R71: An arriving message is written to its ring or overflow area, or dropped. -/
  | messageArrival (msg : Msg)
  /-- R63: A message to an unreachable device fails with MSGFAIL to the sender. -/
  | messageFail (msg : Msg)
  /-- R74: A remote matrix command is checked against the ensign table and buffered or refused. -/
  | remoteCommandArrival (cmd : RemoteCmd)
  /-- R91: A record is placed in the event queue, the overflow area, held by its engine, or lost. -/
  | eventRecordArrival (core : Nat) (rec : EvRec)
  /-- R280: The hardware joins a pennant for a stream end or an AJ exit, or posts PNFAIL. -/
  | hardwarePost (core : Nat) (addr : W64)
  /-- R78: A copy command leaves the core's copy queue when its bulk engine has room. -/
  | bulkQueueAdmit (core : Nat)
  /-- R78: An engine starts moving a copy command's runs. -/
  | copyCommandStart (core id : Nat)
  /-- R85: Every destination write is visible and CP_DONE is posted as a release. -/
  | copyCommandComplete (core id : Nat)
  /-- R86: An engine access fault ends the command with CP_ERR. -/
  | copyCommandFault (core id : Nat)
  /-- R191: A ring task, remote command or context command is admitted to the matrix queue. -/
  | matrixQueueAdmit (core : Nat)
  /-- R192: A matrix command starts in the engine and reads its tiles, latches and elements. -/
  | matrixCommandStart (core : Nat)
  /-- R192: A matrix command completes, writing results and posting MCMD_DONE or MX_ERR for remote ones. -/
  | matrixCommandComplete (core : Nat)
  /-- R204: Every 64 cycles with work or a hold the array level rises one step to the cap. -/
  | arrayLevelRise (core : Nat)
  /-- R204: After 64 idle cycles the array level falls one step every 64 cycles. -/
  | arrayLevelFall (core : Nat)
  /-- R205: A BURST hold ends after 4,096 cycles without an array command. -/
  | burstHoldExpire (core : Nat)
  /-- R219: A beat ends: tiles move one position and the next beat's checks run. -/
  | ringBeatEnd (ring : Nat)
  /-- R220: A ring task completes and decrements the completion counter, or ends in RING_ERR. -/
  | ringTaskComplete (core : Nat)
  /-- R222: The ring becomes idle with the counter at zero and RING_DONE is posted. -/
  | ringIdle (ring : Nat)
  /-- R234: The die's auction engine admits the next command in arrival order. -/
  | auctionCommandAdmit (die : Nat)
  /-- R239: One Jacobi round of bids, keeps and price changes completes. -/
  | auctionRound (die : Nat)
  /-- R261: One projection tile is applied and the next begins, or the command stops. -/
  | vpjTileBoundary (core ctx idx : Nat)
  /-- R333: At a chunk boundary the engine chooses a communicator and admits a chunk, reserving step buffer. -/
  | collectiveChunkAdmit (die : Nat)
  /-- R332: A chunk is written, reduced in place, or contributed to a step at the target. -/
  | chunkArrival (chunk : Chunk)
  /-- R332: A complete step writes its rounded results, increments RCTR and releases its buffer. -/
  | stepResultWrite (key : StepKey)
  /-- R334: A step open CLATE microseconds is abandoned and LATE is posted. -/
  | stepAbandon (key : StepKey)
  /-- R330: A work entry completes, incrementing counters and posting QP_DONE or QP_ERR. -/
  | entryComplete (die idx : Nat)
  /-- R305: Every 100 microseconds slots are freed, granted and taken, and the reserve target is recomputed. -/
  | quantumBoundary
  /-- R308: A pre-empted launch part restores its save area and its contexts resume. -/
  | preemptResume (core : Nat)
  /-- R302: Writing QTAIL gives the queue work, taking a free slot at once. -/
  | qtailWrite (fn q : Nat) (v : W64)
  /-- R304: The launch unit reads and checks the head packet, rejecting it with a completion record. -/
  | launchPacketRead (q : Nat)
  /-- R306: The launch unit deals identifiers to a free core and starts its control context. -/
  | dealIdentifier (q core : Nat)
  /-- R313: After all contexts end and posted writes are acknowledged, the digest and completion record are written. -/
  | launchComplete (q : Nat)
  /-- R272: After its helpers exit, a control context restarts with its next identifier or becomes idle. -/
  | controlContextRestart (core : Nat)
  /-- R271: A waiting START receives the next helper context that becomes idle. -/
  | startHelperAssign (core : Nat)
  /-- R278: An idle helper pops a pennant and becomes live, or PNFAIL is posted. -/
  | pennantPop (core : Nat)
  /-- R276: A pennant waiting 4,096 cycles moves to the next higher-priority queue. -/
  | pennantAgePromote (cluster prio idx : Nat)
  /-- R285: The last member arrives and every member receives the barrier, vote or sum result. -/
  | halyardEpisodeComplete (op : Nat) (word : W64) (launch : Nat)
  /-- R286: A HALY limit passes before release and the member withdraws with wD = 1. -/
  | halyLimitExpire (core : Nat)
  /-- R72: An RBWAIT limit passes and wD receives 0. -/
  | rbwaitTimeout (core ctx : Nat)
  /-- R93: An EVWAIT limit passes and NONE is returned. -/
  | evwaitTimeout (core : Nat)
  /-- R228: An RGWAIT limit passes and the status word is returned. -/
  | rgwaitTimeout (core ctx : Nat)
  /-- R273: A yielded context returns to issue selection. -/
  | yieldExpire (core ctx : Nat)
  /-- R360: A shared physical core switches to the partner logical core. -/
  | partnerSwitch (core : Nat)
  /-- R354: A fault record is appended to the fault queue, latched, or counted lost. -/
  | faultRecordAppend (die : Nat) (rec : FaultRec)
  /-- R354: The host consumes records, and die latches drain into the freed room. -/
  | fqheadWrite (v : W64)
  /-- R58: GO with KIND 0 starts a single-page invalidation. -/
  | xlinvPage (domain : Nat)
  /-- R58: GO with KIND 1 starts an all-of-domain invalidation. -/
  | xlinvDomain (domain : Nat)
  /-- R58: GO with KIND 2 starts an invalidation of all domains. -/
  | xlinvAllDomains
  /-- R58: GO with KIND 3 starts nothing and sets ERR. -/
  | xlinvReserved
  /-- R56: An invalidation completes and BUSY clears. -/
  | xlinvComplete
  /-- R373: Installs key material and owner in a key slot after flushing its cache lines. -/
  | keyInstall
  /-- R373: Zeroes a key slot's material and owner after flushing its cache lines. -/
  | keyErase
  /-- R373: A key command finishes and waiting accesses proceed under the new state. -/
  | keyCommandComplete
  /-- R367: Writing GO starts a random-engine buffer fill. -/
  | rngFill (stream : Nat)
  /-- R367: A fill ends, advancing RNGCTR and clearing GO, or faults setting ERR. -/
  | rngFillComplete (stream : Nat)
  /-- R64: Sets the device's fabric number unless VALID is already set. -/
  | devnumWrite (fn : Nat) (v : W64)
  /-- R64: A fabric port exchanges device numbers and is marked failed on a duplicate. -/
  | linkTraining (port : Nat) (neighbour : Nat)
  /-- R277: The physical function sets a cluster's ready-queue area, ignored while a launch runs. -/
  | pnqbaseWrite (fn n : Nat) (v : W64)
  /-- R70: Enabling a ring reads its descriptor and hands its counts to the network interface. -/
  | rbenWrite (core ctx : Nat) (v : W64)
  /-- R372: The physical function sets a domain's enable, privilege and owner. -/
  | domctlWrite (fn n : Nat) (v : W64)
  /-- R372: Clearing EN takes effect once no launch part of the domain runs. -/
  | domainDisable (n : Nat)
  /-- R327: Writing a communicator's control, clearing its counters when DOMAIN changes. -/
  | cctlWrite (fn c : Nat) (v : W64)
  /-- R355: A DBGCTL HALT begins a debug halt of a domain. -/
  | dbgHalt (domain : Nat)
  /-- R355: RESUME writes held data to memory and resumes the domain's contexts. -/
  | dbgResume (domain : Nat)
  /-- R357: STEP issues one instruction on each core, or on CORE only, then stops again. -/
  | dbgStep (domain : Nat) (one : Bool) (core : Nat)
  /-- R357: STEP with SUPER runs each core until its next VOTE or HALY, then stops. -/
  | dbgSuperstep (domain : Nat) (one : Bool) (core : Nat)
  /-- R355: All contexts stopped and buffers settled: HALTED is set and a record posted. -/
  | debugHaltComplete
  /-- R376: Runs the five bring-up steps from ROM verification to READY. -/
  | coldReset
  /-- R376: Writing DEVSTAT[63] flushes caches, stops launches and reruns steps 3 to 5. -/
  | warmReset
  /-- R376: A virtual function reset clears EN in every domain it owns. -/
  | functionLevelReset (fn : Nat)
  /-- R378: Writing LINKREQ requests retraining to x8 or x16. -/
  | linkWidthRequest (v : W64)
  /-- R378: Link retraining ends and a pending clock request takes effect. -/
  | linkRetrainComplete
  /-- R378: Writing DIEFREQ requests a die clock change. -/
  | dieClockRequest (die : Nat) (v : W64)
  /-- R378: A requested die clock takes effect. -/
  | dieClockChange (die : Nat)
  /-- R377: Each 1 ms the device adjusts clocks and array cap to keep draw under PWRCAP. -/
  | powerCapWindow
  /-- R375: Signs the measurements with a host nonce into a report. -/
  | attestationReport (nonce : List Byte)
  /-- R324: A host write to device memory takes its place in coherence order. -/
  | hostWrite (fn pa : Nat) (bytes : List Byte)
  /-- R324: A host read of device memory, poisoned for a lost line. -/
  | hostRead (fn pa n : Nat)
  /-- R133: A write to a register with no row of its own, under its access code. -/
  | registerWrite (fn off size : Nat) (v : W64)
  /-- R45: Before a power-down the reset sequence writes the memory-side caches back. -/
  | powerDown
  /-- R63: A fabric port loses its link, so routes avoid it and devices no path reaches become unreachable. -/
  | fabricLinkLoss (port : Nat)
  /-- R302: A write to QCTL sets a launch queue's enable, domain, priority and size, which can give the queue work or change the priority of undealt identifiers. -/
  | qctlWrite (fn q : Nat) (v : W64)
  /-- R354: A write to FQCTL enables or resizes the fault queue, so die latches drain into the room that appears or records start latching. -/
  | fqctlWrite (v : W64)
  /-- R370: An IDE_KM message from the host programs the keys of the host port's link IDE stream. -/
  | ideKmKeyProgram (key : List Byte)
  /-- R375: The host opens an SPDM session that the device authenticates with its identity key. -/
  | spdmSession (nonce : List Byte)
  deriving DecidableEq, Repr

/-- The words of majors 0x3C and 0x3D, each the constructor of Instr of the same name. The compiler cannot build the
constructors of Instr with a tag above 244, so the step reads these words through this type. -/
inductive SysWord where
  | mfc (d n : Nat)
  | mtc (d n : Nat)
  | msc (d n : Nat)
  | mcc (d n : Nat)
  | trap (d n : Nat)
  | tret
  | sysc (d n : Nat)
  | brk (n : Nat)
  | halt (d : Nat)
  | spillw (d : Nat)
  | fillw
  | hintImm (payload : Nat)
  | hintHome (payload : Nat)
  | hintMod (payload : Nat)
  deriving DecidableEq, Repr

/-- The instruction of a SYS word or HINT. -/
noncomputable def SysWord.toInstr : SysWord → Instr
  | .mfc d n => .mfc d n
  | .mtc d n => .mtc d n
  | .msc d n => .msc d n
  | .mcc d n => .mcc d n
  | .trap d n => .trap d n
  | .tret => .tret
  | .sysc d n => .sysc d n
  | .brk n => .brk n
  | .halt d => .halt d
  | .spillw d => .spillw d
  | .fillw => .fillw
  | .hintImm p => .hintImm p
  | .hintHome p => .hintHome p
  | .hintMod p => .hintMod p

end Sys2Proof
end

