-- ==== Sys2Proof/WellFormed.lean ====
section
/-! DEFINITION. Which instructions have a word: the checks of 02 R16, R17, R18 and R23 on their fields, each under its
own name. An event has no word; its well-formedness asks nothing. -/

namespace Sys2Proof

/-- Every field fits the width that the layouts of 02 R15 give it. -/
def Instr.fieldsFit : Instr → Bool
  | .add d a b _ g => d < 32 && a < 32 && b < 32 && g < 8
  | .sub d a b _ g => d < 32 && a < 32 && b < 32 && g < 8
  | .and d a b _ g => d < 32 && a < 32 && b < 32 && g < 8
  | .or d a b _ g => d < 32 && a < 32 && b < 32 && g < 8
  | .xor d a b _ g => d < 32 && a < 32 && b < 32 && g < 8
  | .andn d a b _ g => d < 32 && a < 32 && b < 32 && g < 8
  | .sll d a b _ g => d < 32 && a < 32 && b < 32 && g < 8
  | .srl d a b _ g => d < 32 && a < 32 && b < 32 && g < 8
  | .sra d a b _ g => d < 32 && a < 32 && b < 32 && g < 8
  | .ror d a b _ g => d < 32 && a < 32 && b < 32 && g < 8
  | .slt d a b _ g => d < 32 && a < 32 && b < 32 && g < 8
  | .sltu d a b _ g => d < 32 && a < 32 && b < 32 && g < 8
  | .min d a b _ g => d < 32 && a < 32 && b < 32 && g < 8
  | .max d a b _ g => d < 32 && a < 32 && b < 32 && g < 8
  | .minu d a b _ g => d < 32 && a < 32 && b < 32 && g < 8
  | .maxu d a b _ g => d < 32 && a < 32 && b < 32 && g < 8
  | .mul d a b _ g => d < 32 && a < 32 && b < 32 && g < 8
  | .mulh d a b _ g => d < 32 && a < 32 && b < 32 && g < 8
  | .mulhu d a b _ g => d < 32 && a < 32 && b < 32 && g < 8
  | .clz d a _ g => d < 32 && a < 32 && g < 8
  | .ctz d a _ g => d < 32 && a < 32 && g < 8
  | .popc d a _ g => d < 32 && a < 32 && g < 8
  | .sextb d a _ g => d < 32 && a < 32 && g < 8
  | .sexth d a _ g => d < 32 && a < 32 && g < 8
  | .sextw d a _ g => d < 32 && a < 32 && g < 8
  | .zextw d a _ g => d < 32 && a < 32 && g < 8
  | .shadd1 d a b _ g => d < 32 && a < 32 && b < 32 && g < 8
  | .shadd2 d a b _ g => d < 32 && a < 32 && b < 32 && g < 8
  | .shadd3 d a b _ g => d < 32 && a < 32 && b < 32 && g < 8
  | .div d a b la => d < 32 && a < 32 && b < 32 && la < 16
  | .divu d a b la => d < 32 && a < 32 && b < 32 && la < 16
  | .rem d a b la => d < 32 && a < 32 && b < 32 && la < 16
  | .remu d a b la => d < 32 && a < 32 && b < 32 && la < 16
  | .addi d a imm g => d < 32 && a < 32 && imm < 8192 && g < 8
  | .andi d a imm g => d < 32 && a < 32 && imm < 8192 && g < 8
  | .ori d a imm g => d < 32 && a < 32 && imm < 8192 && g < 8
  | .xori d a imm g => d < 32 && a < 32 && imm < 8192 && g < 8
  | .slti d a imm g => d < 32 && a < 32 && imm < 8192 && g < 8
  | .sltiu d a imm g => d < 32 && a < 32 && imm < 8192 && g < 8
  | .slli d a sh g => d < 32 && a < 32 && sh < 64 && g < 8
  | .srli d a sh g => d < 32 && a < 32 && sh < 64 && g < 8
  | .srai d a sh g => d < 32 && a < 32 && sh < 64 && g < 8
  | .rori d a sh g => d < 32 && a < 32 && sh < 64 && g < 8
  | .movi d imm g => d < 32 && imm < 8192 && g < 8
  | .qsetEq d a b g => d < 8 && a < 32 && b < 32 && g < 8
  | .qsetNe d a b g => d < 8 && a < 32 && b < 32 && g < 8
  | .qsetLt d a b g => d < 8 && a < 32 && b < 32 && g < 8
  | .qsetGe d a b g => d < 8 && a < 32 && b < 32 && g < 8
  | .qsetLtu d a b g => d < 8 && a < 32 && b < 32 && g < 8
  | .qsetGeu d a b g => d < 8 && a < 32 && b < 32 && g < 8
  | .qand d a b g => d < 8 && a < 8 && b < 8 && g < 8
  | .qor d a b g => d < 8 && a < 8 && b < 8 && g < 8
  | .qxor d a b g => d < 8 && a < 8 && b < 8 && g < 8
  | .qandn d a b g => d < 8 && a < 8 && b < 8 && g < 8
  | .qnot d a g => d < 8 && a < 8 && g < 8
  | .qtrue d g => d < 8 && g < 8
  | .qfalse d g => d < 8 && g < 8
  | .qunres d g => d < 8 && g < 8
  | .beq a b disp => a < 32 && b < 32 && disp < 8192
  | .bne a b disp => a < 32 && b < 32 && disp < 8192
  | .blt a b disp => a < 32 && b < 32 && disp < 8192
  | .bge a b disp => a < 32 && b < 32 && disp < 8192
  | .bltu a b disp => a < 32 && b < 32 && disp < 8192
  | .bgeu a b disp => a < 32 && b < 32 && disp < 8192
  | .bqt a disp => a < 8 && disp < 8192
  | .bqf a disp => a < 8 && disp < 8192
  | .j disp => disp < 67108864
  | .call disp => disp < 67108864
  | .jr a g => a < 32 && g < 8
  | .callr a g => a < 32 && g < 8
  | .ret g => g < 8
  | .ld d a off sz home la => d < 32 && a < 32 && off < 256 && sz < 4 && home < 4 && la < 16
  | .ldn d a off sz home la => d < 32 && a < 32 && off < 256 && sz < 4 && home < 4 && la < 16
  | .st d a off sz home la => d < 32 && a < 32 && off < 256 && sz < 4 && home < 4 && la < 16
  | .ldv d a m cls la => d < 32 && a < 32 && m < 8 && cls < 4 && la < 16
  | .stv d a m la => d < 32 && a < 32 && m < 8 && la < 16
  | .ldx d a la => d < 8 && a < 32 && la < 16
  | .ldxSc d a la => d < 8 && a < 32 && la < 16
  | .stx d a la => d < 8 && a < 32 && la < 16
  | .stxSc d a la => d < 8 && a < 32 && la < 16
  | .gather d a vi m cls la => d < 32 && a < 32 && vi < 32 && m < 8 && cls < 4 && la < 16
  | .scatter d a vi m la => d < 32 && a < 32 && vi < 32 && m < 8 && la < 16
  | .lds d a ord scope la => d < 32 && a < 32 && ord < 4 && scope < 8 && la < 16
  | .ldsE d a ord scope la => d < 32 && a < 32 && ord < 4 && scope < 8 && la < 16
  | .stf d a ord scope la => d < 32 && a < 32 && ord < 4 && scope < 8 && la < 16
  | .sete a ord scope la => a < 32 && ord < 4 && scope < 8 && la < 16
  | .amoSwap d a sz ord scope la => d < 32 && a < 32 && sz < 2 && ord < 4 && scope < 8 && la < 16
  | .amoAdd d a sz ord scope la => d < 32 && a < 32 && sz < 2 && ord < 4 && scope < 8 && la < 16
  | .amoAnd d a sz ord scope la => d < 32 && a < 32 && sz < 2 && ord < 4 && scope < 8 && la < 16
  | .amoOr d a sz ord scope la => d < 32 && a < 32 && sz < 2 && ord < 4 && scope < 8 && la < 16
  | .amoXor d a sz ord scope la => d < 32 && a < 32 && sz < 2 && ord < 4 && scope < 8 && la < 16
  | .amoMin d a sz ord scope la => d < 32 && a < 32 && sz < 2 && ord < 4 && scope < 8 && la < 16
  | .amoMax d a sz ord scope la => d < 32 && a < 32 && sz < 2 && ord < 4 && scope < 8 && la < 16
  | .amoMinu d a sz ord scope la => d < 32 && a < 32 && sz < 2 && ord < 4 && scope < 8 && la < 16
  | .amoMaxu d a sz ord scope la => d < 32 && a < 32 && sz < 2 && ord < 4 && scope < 8 && la < 16
  | .amoFadd d a sz ord scope la => d < 32 && a < 32 && sz < 2 && ord < 4 && scope < 8 && la < 16
  | .amoFaddX d a ord scope la => d < 32 && a < 32 && ord < 4 && scope < 8 && la < 16
  | .amoFmin d a sz ord scope la => d < 32 && a < 32 && sz < 2 && ord < 4 && scope < 8 && la < 16
  | .amoFmax d a sz ord scope la => d < 32 && a < 32 && sz < 2 && ord < 4 && scope < 8 && la < 16
  | .ldo d a sz acq scope la => d < 32 && a < 32 && sz < 2 && acq < 2 && scope < 8 && la < 16
  | .sto d a sz rel scope la => d < 32 && a < 32 && sz < 2 && rel < 2 && scope < 8 && la < 16
  | .cas d a sz ord scope la => d < 32 && a < 32 && sz < 2 && ord < 4 && scope < 8 && la < 16
  | .fence ord scope => ord < 4 && scope < 8
  | .prefTlb a off home => a < 32 && off < 256 && home < 4
  | .prefMsc a off home => a < 32 && off < 256 && home < 4
  | .send d a b g la => d < 32 && a < 32 && b < 32 && g < 8 && la < 16
  | .sends d a b g la => d < 32 && a < 32 && b < 32 && g < 8 && la < 16
  | .hoist g => g < 8
  | .strike g => g < 8
  | .mcmd d a b g la => d < 32 && a < 32 && b < 32 && g < 8 && la < 16
  | .rbwait d a b g la => d < 32 && a < 32 && b < 32 && g < 8 && la < 16
  | .rbadv a g => a < 32 && g < 8
  | .stbind d a b g => d < 32 && a < 32 && b < 32 && g < 8
  | .stunbind g => g < 8
  | .cp d a b g la => d < 32 && a < 32 && b < 32 && g < 8 && la < 16
  | .cp2d d a b g la => d < 32 && a < 32 && b < 32 && g < 8 && la < 16
  | .cpidx d a b g la => d < 32 && a < 32 && b < 32 && g < 8 && la < 16
  | .cpwait a g la => a < 32 && g < 8 && la < 16
  | .cpredO d a b g la => d < 32 && a < 32 && b < 32 && g < 8 && la < 16
  | .cpredU d a b g la => d < 32 && a < 32 && b < 32 && g < 8 && la < 16
  | .evpop d a g => d < 32 && a < 32 && g < 8
  | .evwait d a b g la => d < 32 && a < 32 && b < 32 && g < 8 && la < 16
  | .evpost d a b g => d < 32 && a < 32 && b < 32 && g < 8
  | .qpost d a b g la => d < 32 && a < 32 && b < 32 && g < 8 && la < 16
  | .qarm a b g => a < 32 && b < 32 && g < 8
  | .ctradd d a b g la => d < 32 && a < 32 && b < 32 && g < 8 && la < 16
  | .ctrwait d a b g la => d < 32 && a < 32 && b < 32 && g < 8 && la < 16
  | .ctrset a b g => a < 32 && b < 32 && g < 8
  | .vadd d a b m _ => d < 32 && a < 32 && b < 32 && m < 8
  | .vsub d a b m _ => d < 32 && a < 32 && b < 32 && m < 8
  | .vmul d a b m _ => d < 32 && a < 32 && b < 32 && m < 8
  | .vmin d a b m _ => d < 32 && a < 32 && b < 32 && m < 8
  | .vmax d a b m _ => d < 32 && a < 32 && b < 32 && m < 8
  | .vabs d a m _ => d < 32 && a < 32 && m < 8
  | .vneg d a m _ => d < 32 && a < 32 && m < 8
  | .viadd d a b m _ => d < 32 && a < 32 && b < 32 && m < 8
  | .visub d a b m _ => d < 32 && a < 32 && b < 32 && m < 8
  | .vimul d a b m _ => d < 32 && a < 32 && b < 32 && m < 8
  | .vimin d a b m _ => d < 32 && a < 32 && b < 32 && m < 8
  | .vimax d a b m _ => d < 32 && a < 32 && b < 32 && m < 8
  | .viminu d a b m _ => d < 32 && a < 32 && b < 32 && m < 8
  | .vimaxu d a b m _ => d < 32 && a < 32 && b < 32 && m < 8
  | .viadds d a b m _ => d < 32 && a < 32 && b < 32 && m < 8
  | .visubs d a b m _ => d < 32 && a < 32 && b < 32 && m < 8
  | .vand d a b m _ => d < 32 && a < 32 && b < 32 && m < 8
  | .vor d a b m _ => d < 32 && a < 32 && b < 32 && m < 8
  | .vxor d a b m _ => d < 32 && a < 32 && b < 32 && m < 8
  | .vsll d a b m _ => d < 32 && a < 32 && b < 32 && m < 8
  | .vsrl d a b m _ => d < 32 && a < 32 && b < 32 && m < 8
  | .vsra d a b m _ => d < 32 && a < 32 && b < 32 && m < 8
  | .vfcmpEq d a b m _ => d < 8 && a < 32 && b < 32 && m < 8
  | .vfcmpLt d a b m _ => d < 8 && a < 32 && b < 32 && m < 8
  | .vfcmpLe d a b m _ => d < 8 && a < 32 && b < 32 && m < 8
  | .vfcmpUn d a b m _ => d < 8 && a < 32 && b < 32 && m < 8
  | .vicmpEq d a b m _ => d < 8 && a < 32 && b < 32 && m < 8
  | .vicmpLt d a b m _ => d < 8 && a < 32 && b < 32 && m < 8
  | .vicmpLtu d a b m _ => d < 8 && a < 32 && b < 32 && m < 8
  | .vmov d a m _ => d < 32 && a < 32 && m < 8
  | .vsplat d a m _ => d < 32 && a < 32 && m < 8
  | .vext d a b m _ => d < 32 && a < 32 && b < 32 && m < 8
  | .vins d a b m _ => d < 32 && a < 32 && b < 32 && m < 8
  | .vsel d a b m _ => d < 32 && a < 32 && b < 32 && m < 8
  | .vperm d a b m _ => d < 32 && a < 32 && b < 32 && m < 8
  | .vdiv d a b m p la => d < 32 && a < 32 && b < 32 && m < 8 && p < 2 && la < 16
  | .vsqrt d a m p la => d < 32 && a < 32 && m < 8 && p < 2 && la < 16
  | .vrcp d a m p la => d < 32 && a < 32 && m < 8 && p < 2 && la < 16
  | .vexp2 d a m la => d < 32 && a < 32 && m < 8 && la < 16
  | .vlog2 d a m la => d < 32 && a < 32 && m < 8 && la < 16
  | .vraddO d a m _ => d < 32 && a < 32 && m < 8
  | .vraddU d a m _ => d < 32 && a < 32 && m < 8
  | .vrmin d a m _ => d < 32 && a < 32 && m < 8
  | .vrmax d a m _ => d < 32 && a < 32 && m < 8
  | .vscanO d a b m _ => d < 32 && a < 32 && b < 32 && m < 8
  | .vscanU d a b m _ => d < 32 && a < 32 && b < 32 && m < 8
  | .viradd d a m _ => d < 32 && a < 32 && m < 8
  | .vcvtRne d a b m _ => d < 32 && a < 32 && b < 16 && m < 8
  | .vcvtRtz d a b m _ => d < 32 && a < 32 && b < 16 && m < 8
  | .vcvtRdn d a b m _ => d < 32 && a < 32 && b < 16 && m < 8
  | .vcvtRup d a b m _ => d < 32 && a < 32 && b < 16 && m < 8
  | .vcvtSr d a b f _ => d < 32 && a < 32 && b < 32 && f < 8
  | .vpackb d a b m _ => d < 32 && a < 32 && b < 16 && m < 8
  | .vunpackb d a b m _ => d < 32 && a < 32 && b < 16 && m < 8
  | .vftoi d a m _ => d < 32 && a < 32 && m < 8
  | .vitof d a m _ => d < 32 && a < 32 && m < 8
  | .vfma d a b m _ => d < 32 && a < 32 && b < 32 && m < 8
  | .vfms d a b m _ => d < 32 && a < 32 && b < 32 && m < 8
  | .vfnma d a b m _ => d < 32 && a < 32 && b < 32 && m < 8
  | .vfnms d a b m _ => d < 32 && a < 32 && b < 32 && m < 8
  | .mand d a b _ => d < 8 && a < 8 && b < 8
  | .mor d a b _ => d < 8 && a < 8 && b < 8
  | .mxor d a b _ => d < 8 && a < 8 && b < 8
  | .mandn d a b _ => d < 8 && a < 8 && b < 8
  | .mnot d a _ => d < 8 && a < 8
  | .mpopc d a _ => d < 32 && a < 8
  | .mma a b row col s g la => a < 8 && b < 16 && row < 8 && col < 2 && s < 8 && g < 8 && la < 16
  | .mmac a b row col s g la => a < 32 && b < 16 && row < 8 && col < 2 && s < 8 && g < 8 && la < 16
  | .accz d g la => d < 32 && g < 8 && la < 16
  | .accld d a b g la => d < 32 && a < 32 && b < 32 && g < 8 && la < 16
  | .accst d a b g la => d < 32 && a < 32 && b < 32 && g < 8 && la < 16
  | .acccvt d a b g la => d < 8 && a < 32 && b < 16 && g < 8 && la < 16
  | .accmov d a g la => d < 32 && a < 32 && g < 8 && la < 16
  | .xmov d a g la => d < 8 && a < 8 && g < 8 && la < 16
  | .xtr d a g la => d < 8 && a < 8 && g < 8 && la < 16
  | .xzero d g la => d < 8 && g < 8 && la < 16
  | .xcvt d a b g la => d < 8 && a < 8 && b < 16 && g < 8 && la < 16
  | .tfact d a b g la => d < 8 && a < 8 && b < 32 && g < 8 && la < 16
  | .tsolve d a b g la => d < 8 && a < 8 && b < 8 && g < 8 && la < 16
  | .burst d g => d < 32 && g < 8
  | .mwait g => g < 8
  | .rgcfg d g => d < 32 && g < 8
  | .rgmt d a b g la => d < 32 && a < 32 && b < 32 && g < 8 && la < 16
  | .rgmtu d a g la => d < 32 && a < 32 && g < 8 && la < 16
  | .rginj d a b g la => d < 32 && a < 32 && b < 32 && g < 8 && la < 16
  | .rgstart d g => d < 32 && g < 8
  | .rgwait d a g la => d < 32 && a < 32 && g < 8 && la < 16
  | .rgstat d g => d < 32 && g < 8
  | .rgreinj d g la => d < 32 && g < 8 && la < 16
  | .rgret g => g < 8
  | .aucfg d a g la => d < 32 && a < 32 && g < 8 && la < 16
  | .prld d a b g la => d < 32 && a < 32 && b < 32 && g < 8 && la < 16
  | .prst d a b g la => d < 32 && a < 32 && b < 32 && g < 8 && la < 16
  | .aubid d g la => d < 32 && g < 8 && la < 16
  | .austep d g la => d < 32 && g < 8 && la < 16
  | .aures d a g la => d < 32 && a < 32 && g < 8 && la < 16
  | .austat d a g => d < 32 && a < 32 && g < 8
  | .vpjCfg d g => d < 32 && g < 8
  | .vpj d a b g la => d < 32 && a < 32 && b < 32 && g < 8 && la < 16
  | .vpjMrg d a b g la => d < 32 && a < 32 && b < 32 && g < 8 && la < 16
  | .vpjRd d a b g la => d < 32 && a < 32 && b < 32 && g < 8 && la < 16
  | .vpjRegen d a b g la => d < 32 && a < 32 && b < 32 && g < 8 && la < 16
  | .vpjInit d g la => d < 32 && g < 8 && la < 16
  | .start d a b g => d < 32 && a < 32 && b < 32 && g < 8
  | .exit g => g < 8
  | .yield a g => a < 32 && g < 8
  | .follow d a g => d < 32 && a < 32 && g < 8
  | .unfollow g => g < 8
  | .wid d a g => d < 32 && a < 32 && g < 8
  | .pnpush a g => a < 32 && g < 8
  | .join d a g => d < 32 && a < 32 && g < 8
  | .vote d a b g => d < 8 && a < 32 && b < 32 && g < 8
  | .haly d a b g => d < 32 && a < 32 && b < 32 && g < 8
  | .hsum d a b g => d < 32 && a < 32 && b < 32 && g < 8
  | .lpset a endOff => a < 32 && endOff < 2048
  | .lppop => true
  | .mfc d n => d < 32 && n < 4096
  | .mtc d n => d < 32 && n < 4096
  | .msc d n => d < 32 && n < 4096
  | .mcc d n => d < 32 && n < 4096
  | .trap d n => d < 32 && n < 4096
  | .tret => true
  | .sysc d n => d < 32 && n < 4096
  | .brk n => n < 4096
  | .halt d => d < 32
  | .spillw d => d < 32
  | .fillw => true
  | .hintImm payload => payload < 4194304
  | .hintHome payload => payload < 4
  | .hintMod payload => payload < 256
  | .nop => true
  | .illegalWord _ => true
  | .instructionComplete _ _ _ => true
  | .followEngage _ => true
  | .pageWalkComplete _ _ _ => true
  | .postedStoreAck _ _ => true
  | .postedStoreFail _ _ _ => true
  | .uncorrectableError _ => true
  | .correctedError _ => true
  | .unitRetire _ => true
  | .parkedRequestServe _ => true
  | .ldsParkRetry _ _ => true
  | .messageArrival _ => true
  | .messageFail _ => true
  | .remoteCommandArrival _ => true
  | .eventRecordArrival _ _ => true
  | .hardwarePost _ _ => true
  | .bulkQueueAdmit _ => true
  | .copyCommandStart _ _ => true
  | .copyCommandComplete _ _ => true
  | .copyCommandFault _ _ => true
  | .matrixQueueAdmit _ => true
  | .matrixCommandStart _ => true
  | .matrixCommandComplete _ => true
  | .arrayLevelRise _ => true
  | .arrayLevelFall _ => true
  | .burstHoldExpire _ => true
  | .ringBeatEnd _ => true
  | .ringTaskComplete _ => true
  | .ringIdle _ => true
  | .auctionCommandAdmit _ => true
  | .auctionRound _ => true
  | .vpjTileBoundary _ _ _ => true
  | .collectiveChunkAdmit _ => true
  | .chunkArrival _ => true
  | .stepResultWrite _ => true
  | .stepAbandon _ => true
  | .entryComplete _ _ => true
  | .quantumBoundary => true
  | .preemptResume _ => true
  | .qtailWrite _ _ _ => true
  | .launchPacketRead _ => true
  | .dealIdentifier _ _ => true
  | .launchComplete _ => true
  | .controlContextRestart _ => true
  | .startHelperAssign _ => true
  | .pennantPop _ => true
  | .pennantAgePromote _ _ _ => true
  | .halyardEpisodeComplete _ _ _ => true
  | .halyLimitExpire _ => true
  | .rbwaitTimeout _ _ => true
  | .evwaitTimeout _ => true
  | .rgwaitTimeout _ _ => true
  | .yieldExpire _ _ => true
  | .partnerSwitch _ => true
  | .faultRecordAppend _ _ => true
  | .fqheadWrite _ => true
  | .xlinvPage _ => true
  | .xlinvDomain _ => true
  | .xlinvAllDomains => true
  | .xlinvReserved => true
  | .xlinvComplete => true
  | .keyInstall => true
  | .keyErase => true
  | .keyCommandComplete => true
  | .rngFill _ => true
  | .rngFillComplete _ => true
  | .devnumWrite _ _ => true
  | .linkTraining _ _ => true
  | .pnqbaseWrite _ _ _ => true
  | .rbenWrite _ _ _ => true
  | .domctlWrite _ _ _ => true
  | .domainDisable _ => true
  | .cctlWrite _ _ _ => true
  | .dbgHalt _ => true
  | .dbgResume _ => true
  | .dbgStep _ _ _ => true
  | .dbgSuperstep _ _ _ => true
  | .debugHaltComplete => true
  | .coldReset => true
  | .warmReset => true
  | .functionLevelReset _ => true
  | .linkWidthRequest _ => true
  | .linkRetrainComplete => true
  | .dieClockRequest _ _ => true
  | .dieClockChange _ => true
  | .powerCapWindow => true
  | .attestationReport _ => true
  | .hostWrite _ _ _ => true
  | .hostRead _ _ _ => true
  | .registerWrite _ _ _ _ => true
  | .powerDown => true
  | .fabricLinkLoss _ => true
  | .qctlWrite _ _ _ => true
  | .fqctlWrite _ => true
  | .ideKmKeyProgram _ => true
  | .spdmSession _ => true

/-- 02 R17: a word that names m0 or q0 as a destination is ILLEGAL. -/
def Instr.destOk : Instr → Bool
  | .qsetEq d _ _ _ => d != 0
  | .qsetNe d _ _ _ => d != 0
  | .qsetLt d _ _ _ => d != 0
  | .qsetGe d _ _ _ => d != 0
  | .qsetLtu d _ _ _ => d != 0
  | .qsetGeu d _ _ _ => d != 0
  | .qand d _ _ _ => d != 0
  | .qor d _ _ _ => d != 0
  | .qxor d _ _ _ => d != 0
  | .qandn d _ _ _ => d != 0
  | .qnot d _ _ => d != 0
  | .qtrue d _ => d != 0
  | .qfalse d _ => d != 0
  | .qunres d _ => d != 0
  | .vfcmpEq d _ _ _ _ => d != 0
  | .vfcmpLt d _ _ _ _ => d != 0
  | .vfcmpLe d _ _ _ _ => d != 0
  | .vfcmpUn d _ _ _ _ => d != 0
  | .vicmpEq d _ _ _ _ => d != 0
  | .vicmpLt d _ _ _ _ => d != 0
  | .vicmpLtu d _ _ _ _ => d != 0
  | .mand d _ _ _ => d != 0
  | .mor d _ _ _ => d != 0
  | .mxor d _ _ _ => d != 0
  | .mandn d _ _ _ => d != 0
  | .mnot d _ _ => d != 0
  | .vote d _ _ _ => d != 0
  | _ => true

/-- 02 R17: a word with t = 1 whose destination is w0 is ILLEGAL. -/
def Instr.transientOk : Instr → Bool
  | .add d _ _ t _ => !(t && d == 0)
  | .sub d _ _ t _ => !(t && d == 0)
  | .and d _ _ t _ => !(t && d == 0)
  | .or d _ _ t _ => !(t && d == 0)
  | .xor d _ _ t _ => !(t && d == 0)
  | .andn d _ _ t _ => !(t && d == 0)
  | .sll d _ _ t _ => !(t && d == 0)
  | .srl d _ _ t _ => !(t && d == 0)
  | .sra d _ _ t _ => !(t && d == 0)
  | .ror d _ _ t _ => !(t && d == 0)
  | .slt d _ _ t _ => !(t && d == 0)
  | .sltu d _ _ t _ => !(t && d == 0)
  | .min d _ _ t _ => !(t && d == 0)
  | .max d _ _ t _ => !(t && d == 0)
  | .minu d _ _ t _ => !(t && d == 0)
  | .maxu d _ _ t _ => !(t && d == 0)
  | .mul d _ _ t _ => !(t && d == 0)
  | .mulh d _ _ t _ => !(t && d == 0)
  | .mulhu d _ _ t _ => !(t && d == 0)
  | .clz d _ t _ => !(t && d == 0)
  | .ctz d _ t _ => !(t && d == 0)
  | .popc d _ t _ => !(t && d == 0)
  | .sextb d _ t _ => !(t && d == 0)
  | .sexth d _ t _ => !(t && d == 0)
  | .sextw d _ t _ => !(t && d == 0)
  | .zextw d _ t _ => !(t && d == 0)
  | .shadd1 d _ _ t _ => !(t && d == 0)
  | .shadd2 d _ _ t _ => !(t && d == 0)
  | .shadd3 d _ _ t _ => !(t && d == 0)
  | .vext d _ _ _ t => !(t && d == 0)
  | .vraddO d _ _ t => !(t && d == 0)
  | .vraddU d _ _ t => !(t && d == 0)
  | .vrmin d _ _ t => !(t && d == 0)
  | .vrmax d _ _ t => !(t && d == 0)
  | .viradd d _ _ t => !(t && d == 0)
  | .mpopc d _ t => !(t && d == 0)
  | _ => true

/-- 02 R16: scopes 5 to 7 are ILLEGAL. -/
def Instr.scopeOk : Instr → Bool
  | .lds _ _ _ scope _ => scope < 5
  | .ldsE _ _ _ scope _ => scope < 5
  | .stf _ _ _ scope _ => scope < 5
  | .sete _ _ scope _ => scope < 5
  | .amoSwap _ _ _ _ scope _ => scope < 5
  | .amoAdd _ _ _ _ scope _ => scope < 5
  | .amoAnd _ _ _ _ scope _ => scope < 5
  | .amoOr _ _ _ _ scope _ => scope < 5
  | .amoXor _ _ _ _ scope _ => scope < 5
  | .amoMin _ _ _ _ scope _ => scope < 5
  | .amoMax _ _ _ _ scope _ => scope < 5
  | .amoMinu _ _ _ _ scope _ => scope < 5
  | .amoMaxu _ _ _ _ scope _ => scope < 5
  | .amoFadd _ _ _ _ scope _ => scope < 5
  | .amoFaddX _ _ _ scope _ => scope < 5
  | .amoFmin _ _ _ _ scope _ => scope < 5
  | .amoFmax _ _ _ _ scope _ => scope < 5
  | .ldo _ _ _ _ scope _ => scope < 5
  | .sto _ _ _ _ scope _ => scope < 5
  | .cas _ _ _ _ scope _ => scope < 5
  | .fence _ scope => scope < 5
  | _ => true

/-- The remaining constraints: LDN of size D, GATHER class 3, FENCE order 0, CAS of w0 or an odd register, latches
12 to 15, LPSET end 0 (02 R18, 06 R113) and the reserved modifiers of HINT.MOD (02 R23). -/
def Instr.constraintOk : Instr → Bool
  | .ldn _ _ _ sz _ _ => sz != 3
  | .gather _ _ _ _ cls _ => cls != 3
  | .cas d _ _ _ _ _ => d % 2 == 0 && d != 0
  | .fence ord _ => ord != 0
  | .mma _ b _ _ _ _ _ => b < 12
  | .mmac _ b _ _ _ _ _ => b < 12
  | .lpset _ endOff => endOff != 0
  | .hintMod payload => payload == 1
  | _ => true

/-- Why a word is not an instruction (02 R20). -/
inductive Reject where
  /-- Fewer than four bytes. -/
  | short
  /-- Major 0x00, 0x1F, 0x2A-0x2F or 0x3F. -/
  | major
  /-- A selector value that the major map does not list. -/
  | selector
  /-- A must-be-zero field or bit is not zero, or a field is wider than the file it names. -/
  | mustBeZero
  /-- m0 or q0 as a destination (R17). -/
  | destination
  /-- t = 1 with destination w0 (R17). -/
  | transientW0
  /-- Scope 5-7 (R16). -/
  | scope
  /-- Another constraint of R18. -/
  | constraint
  /-- A reserved HINT kind (R23). -/
  | hintKind
  deriving DecidableEq, Repr

/-- The first check that an instruction's fields fail, or none. -/
def Instr.problem (i : Instr) : Option Reject :=
  if !i.fieldsFit then some .mustBeZero
  else if !i.destOk then some .destination
  else if !i.transientOk then some .transientW0
  else if !i.scopeOk then some .scope
  else if !i.constraintOk then some .constraint
  else none

/-- The instruction passes every check, so it has a word (if it is not an event). -/
def Instr.wellFormed (i : Instr) : Bool := i.fieldsFit && i.destOk && i.transientOk && i.scopeOk && i.constraintOk

end Sys2Proof
end

