-- ==== Sys2Proof/Decode.lean ====
section
/-! DEFINITION. Decoding a 32-bit word (02 R14-R20, R23), total, rejecting by name, and after it the encoder, written
from the same layouts. A rejected word raises ILLEGAL when it is reached (02 R20, R21).
The compiler cannot build a constructor with a tag above 244, so the words of majors 0x3C and 0x3D (which stand last in
Instr) decode to a SysWord first, and the definitions that name them as an Instr are for the kernel only. -/

namespace Sys2Proof

/-- The instruction if it passes the checks of R16-R18 and R23, else the first check it fails. -/
def check (i : Instr) : Except Reject Instr :=
  match i.problem with
  | none => .ok i
  | some r => .error r

/-- `check i` when every must-be-zero field is zero (02 R18, R19). -/
def zeros (l : List Nat) (i : Instr) : Except Reject Instr :=
  if l.all (· == 0) then check i else .error .mustBeZero

/-- Major 0x01 (02 R18), format R. -/
def dec01 (d a b fn t g : Nat) : Except Reject Instr :=
  match fn with
  | 0 => check (.add d a b (t == 1) g)
  | 1 => check (.sub d a b (t == 1) g)
  | 2 => check (.and d a b (t == 1) g)
  | 3 => check (.or d a b (t == 1) g)
  | 4 => check (.xor d a b (t == 1) g)
  | 5 => check (.andn d a b (t == 1) g)
  | 6 => check (.sll d a b (t == 1) g)
  | 7 => check (.srl d a b (t == 1) g)
  | 8 => check (.sra d a b (t == 1) g)
  | 9 => check (.ror d a b (t == 1) g)
  | 10 => check (.slt d a b (t == 1) g)
  | 11 => check (.sltu d a b (t == 1) g)
  | 12 => check (.min d a b (t == 1) g)
  | 13 => check (.max d a b (t == 1) g)
  | 14 => check (.minu d a b (t == 1) g)
  | 15 => check (.maxu d a b (t == 1) g)
  | 16 => check (.mul d a b (t == 1) g)
  | 17 => check (.mulh d a b (t == 1) g)
  | 18 => check (.mulhu d a b (t == 1) g)
  | 19 => zeros [b] (.clz d a (t == 1) g)
  | 20 => zeros [b] (.ctz d a (t == 1) g)
  | 21 => zeros [b] (.popc d a (t == 1) g)
  | 22 => zeros [b] (.sextb d a (t == 1) g)
  | 23 => zeros [b] (.sexth d a (t == 1) g)
  | 24 => zeros [b] (.sextw d a (t == 1) g)
  | 25 => zeros [b] (.zextw d a (t == 1) g)
  | 26 => check (.shadd1 d a b (t == 1) g)
  | 27 => check (.shadd2 d a b (t == 1) g)
  | 28 => check (.shadd3 d a b (t == 1) g)
  | _ => .error .selector

/-- Major 0x02 (02 R18), format RL. -/
def dec02 (d a b fn z la : Nat) : Except Reject Instr :=
  match fn with
  | 0 => zeros [z] (.div d a b la)
  | 1 => zeros [z] (.divu d a b la)
  | 2 => zeros [z] (.rem d a b la)
  | 3 => zeros [z] (.remu d a b la)
  | _ => .error .selector

/-- Major 0x03 (02 R18), format I. -/
def dec03 (d a imm g : Nat) : Except Reject Instr :=
  check (.addi d a imm g)

/-- Major 0x04 (02 R18), format I. -/
def dec04 (d a imm g : Nat) : Except Reject Instr :=
  check (.andi d a imm g)

/-- Major 0x05 (02 R18), format I. -/
def dec05 (d a imm g : Nat) : Except Reject Instr :=
  check (.ori d a imm g)

/-- Major 0x06 (02 R18), format I. -/
def dec06 (d a imm g : Nat) : Except Reject Instr :=
  check (.xori d a imm g)

/-- Major 0x07 (02 R18), format I. -/
def dec07 (d a imm g : Nat) : Except Reject Instr :=
  check (.slti d a imm g)

/-- Major 0x08 (02 R18), format I. -/
def dec08 (d a imm g : Nat) : Except Reject Instr :=
  check (.sltiu d a imm g)

/-- Major 0x09 (02 R18), format I. -/
def dec09 (d a imm g : Nat) : Except Reject Instr :=
  match imm / 64 with
  | 0 => check (.slli d a (imm % 64) g)
  | 1 => check (.srli d a (imm % 64) g)
  | 2 => check (.srai d a (imm % 64) g)
  | 3 => check (.rori d a (imm % 64) g)
  | _ => .error .selector

/-- Major 0x0A (02 R18), format I. -/
def dec0A (d a imm g : Nat) : Except Reject Instr :=
  zeros [a] (.movi d imm g)

/-- Major 0x0B (02 R18), format R. -/
def dec0B (d a b fn t g : Nat) : Except Reject Instr :=
  match fn with
  | 0 => zeros [t] (.qsetEq d a b g)
  | 1 => zeros [t] (.qsetNe d a b g)
  | 2 => zeros [t] (.qsetLt d a b g)
  | 3 => zeros [t] (.qsetGe d a b g)
  | 4 => zeros [t] (.qsetLtu d a b g)
  | 5 => zeros [t] (.qsetGeu d a b g)
  | 8 => zeros [t] (.qand d a b g)
  | 9 => zeros [t] (.qor d a b g)
  | 10 => zeros [t] (.qxor d a b g)
  | 11 => zeros [t] (.qandn d a b g)
  | 12 => zeros [b, t] (.qnot d a g)
  | 13 => zeros [a, b, t] (.qtrue d g)
  | 14 => zeros [a, b, t] (.qfalse d g)
  | 15 => zeros [a, b, t] (.qunres d g)
  | _ => .error .selector

/-- Major 0x0C (02 R18), format B. -/
def dec0C (a b cond disp : Nat) : Except Reject Instr :=
  match cond with
  | 0 => check (.beq a b disp)
  | 1 => check (.bne a b disp)
  | 2 => check (.blt a b disp)
  | 3 => check (.bge a b disp)
  | 4 => check (.bltu a b disp)
  | 5 => check (.bgeu a b disp)
  | 6 => zeros [b] (.bqt a disp)
  | 7 => zeros [b] (.bqf a disp)
  | _ => .error .selector

/-- Major 0x0D (02 R18), format J. -/
def dec0D (disp : Nat) : Except Reject Instr :=
  check (.j disp)

/-- Major 0x0E (02 R18), format J. -/
def dec0E (disp : Nat) : Except Reject Instr :=
  check (.call disp)

/-- Major 0x0F (02 R18), format R. -/
def dec0F (d a b fn t g : Nat) : Except Reject Instr :=
  match fn with
  | 0 => zeros [d, b, t] (.jr a g)
  | 1 => zeros [d, b, t] (.callr a g)
  | 2 => zeros [d, a, b, t] (.ret g)
  | _ => .error .selector

/-- Major 0x10 (02 R18), format M. -/
def dec10 (d a off sz home la : Nat) : Except Reject Instr :=
  check (.ld d a off sz home la)

/-- Major 0x11 (02 R18), format M. -/
def dec11 (d a off sz home la : Nat) : Except Reject Instr :=
  check (.ldn d a off sz home la)

/-- Major 0x12 (02 R18), format M. -/
def dec12 (d a off sz home la : Nat) : Except Reject Instr :=
  check (.st d a off sz home la)

/-- Major 0x13 (02 R18), format VL. -/
def dec13 (d a fn m sub la : Nat) : Except Reject Instr :=
  match fn with
  | 0 => check (.ldv d a m sub la)
  | 1 => zeros [sub] (.stv d a m la)
  | 2 => match sub with
    | 0 => zeros [m] (.ldx d a la)
    | 1 => zeros [m] (.ldxSc d a la)
    | _ => .error .selector
  | 3 => match sub with
    | 0 => zeros [m] (.stx d a la)
    | 1 => zeros [m] (.stxSc d a la)
    | _ => .error .selector
  | _ => .error .selector

/-- Major 0x14 (02 R18), format VL. -/
def dec14 (d a fn m sub la : Nat) : Except Reject Instr :=
  match fn / 32 with
  | 0 => check (.gather d a (fn % 32) m sub la)
  | 1 => zeros [sub] (.scatter d a (fn % 32) m la)
  | _ => .error .selector

/-- Major 0x15 (02 R18), format A. -/
def dec15 (d a op ord scope sz z la : Nat) : Except Reject Instr :=
  match op with
  | 0 => zeros [1 - sz, z] (.lds d a ord scope la)
  | 1 => zeros [1 - sz, z] (.ldsE d a ord scope la)
  | 2 => zeros [1 - sz, z] (.stf d a ord scope la)
  | 3 => zeros [d, 1 - sz, z] (.sete a ord scope la)
  | _ => .error .selector

/-- Major 0x16 (02 R18), format A. -/
def dec16 (d a op ord scope sz z la : Nat) : Except Reject Instr :=
  match op with
  | 0 => zeros [z] (.amoSwap d a sz ord scope la)
  | 1 => zeros [z] (.amoAdd d a sz ord scope la)
  | 2 => zeros [z] (.amoAnd d a sz ord scope la)
  | 3 => zeros [z] (.amoOr d a sz ord scope la)
  | 4 => zeros [z] (.amoXor d a sz ord scope la)
  | 5 => zeros [z] (.amoMin d a sz ord scope la)
  | 6 => zeros [z] (.amoMax d a sz ord scope la)
  | 7 => zeros [z] (.amoMinu d a sz ord scope la)
  | 8 => zeros [z] (.amoMaxu d a sz ord scope la)
  | 9 => zeros [z] (.amoFadd d a sz ord scope la)
  | 10 => zeros [sz, z] (.amoFaddX d a ord scope la)
  | 11 => zeros [z] (.amoFmin d a sz ord scope la)
  | 12 => zeros [z] (.amoFmax d a sz ord scope la)
  | _ => .error .selector

/-- Major 0x17 (02 R18), format A. -/
def dec17 (d a op ord scope sz z la : Nat) : Except Reject Instr :=
  match op with
  | 0 => zeros [z] (.ldo d a sz ord scope la)
  | 1 => zeros [z, ord % 2] (.sto d a sz (ord / 2) scope la)
  | 2 => zeros [z] (.cas d a sz ord scope la)
  | _ => .error .selector

/-- Major 0x18 (02 R18), format A. -/
def dec18 (d a op ord scope sz z la : Nat) : Except Reject Instr :=
  zeros [d, a, op, sz, z, la] (.fence ord scope)

/-- Major 0x19 (02 R18), format M. -/
def dec19 (d a off sz home la : Nat) : Except Reject Instr :=
  match d with
  | 0 => zeros [sz, la] (.prefTlb a off home)
  | 1 => zeros [sz, la] (.prefMsc a off home)
  | _ => .error .selector

/-- Major 0x1A (02 R18), format X. -/
def dec1A (op g d a b la : Nat) : Except Reject Instr :=
  match op with
  | 0 => check (.send d a b g la)
  | 1 => check (.sends d a b g la)
  | 2 => zeros [d, a, b, la] (.hoist g)
  | 3 => zeros [d, a, b, la] (.strike g)
  | 4 => check (.mcmd d a b g la)
  | _ => .error .selector

/-- Major 0x1B (02 R18), format X. -/
def dec1B (op g d a b la : Nat) : Except Reject Instr :=
  match op with
  | 0 => check (.rbwait d a b g la)
  | 1 => zeros [d, b, la] (.rbadv a g)
  | 2 => zeros [la] (.stbind d a b g)
  | 3 => zeros [d, a, b, la] (.stunbind g)
  | _ => .error .selector

/-- Major 0x1C (02 R18), format X. -/
def dec1C (op g d a b la : Nat) : Except Reject Instr :=
  match op with
  | 0 => check (.cp d a b g la)
  | 1 => check (.cp2d d a b g la)
  | 2 => check (.cpidx d a b g la)
  | 3 => zeros [d, b] (.cpwait a g la)
  | 4 => check (.cpredO d a b g la)
  | 5 => check (.cpredU d a b g la)
  | _ => .error .selector

/-- Major 0x1D (02 R18), format X. -/
def dec1D (op g d a b la : Nat) : Except Reject Instr :=
  match op with
  | 0 => zeros [b, la] (.evpop d a g)
  | 1 => check (.evwait d a b g la)
  | 2 => zeros [la] (.evpost d a b g)
  | _ => .error .selector

/-- Major 0x1E (02 R18), format X. -/
def dec1E (op g d a b la : Nat) : Except Reject Instr :=
  match op with
  | 0 => check (.qpost d a b g la)
  | 1 => zeros [d, la] (.qarm a b g)
  | 2 => check (.ctradd d a b g la)
  | 3 => check (.ctrwait d a b g la)
  | 4 => zeros [d, la] (.ctrset a b g)
  | _ => .error .selector

/-- Major 0x20 (02 R18), format V. -/
def dec20 (d a b fn m t z : Nat) : Except Reject Instr :=
  match fn with
  | 0 => zeros [z] (.vadd d a b m (t == 1))
  | 1 => zeros [z] (.vsub d a b m (t == 1))
  | 2 => zeros [z] (.vmul d a b m (t == 1))
  | 3 => zeros [z] (.vmin d a b m (t == 1))
  | 4 => zeros [z] (.vmax d a b m (t == 1))
  | 5 => zeros [b, z] (.vabs d a m (t == 1))
  | 6 => zeros [b, z] (.vneg d a m (t == 1))
  | _ => .error .selector

/-- Major 0x21 (02 R18), format V. -/
def dec21 (d a b fn m t z : Nat) : Except Reject Instr :=
  match fn with
  | 0 => zeros [z] (.viadd d a b m (t == 1))
  | 1 => zeros [z] (.visub d a b m (t == 1))
  | 2 => zeros [z] (.vimul d a b m (t == 1))
  | 3 => zeros [z] (.vimin d a b m (t == 1))
  | 4 => zeros [z] (.vimax d a b m (t == 1))
  | 5 => zeros [z] (.viminu d a b m (t == 1))
  | 6 => zeros [z] (.vimaxu d a b m (t == 1))
  | 7 => zeros [z] (.viadds d a b m (t == 1))
  | 8 => zeros [z] (.visubs d a b m (t == 1))
  | _ => .error .selector

/-- Major 0x22 (02 R18), format V. -/
def dec22 (d a b fn m t z : Nat) : Except Reject Instr :=
  match fn with
  | 0 => zeros [z] (.vand d a b m (t == 1))
  | 1 => zeros [z] (.vor d a b m (t == 1))
  | 2 => zeros [z] (.vxor d a b m (t == 1))
  | 3 => zeros [z] (.vsll d a b m (t == 1))
  | 4 => zeros [z] (.vsrl d a b m (t == 1))
  | 5 => zeros [z] (.vsra d a b m (t == 1))
  | _ => .error .selector

/-- Major 0x23 (02 R18), format V. -/
def dec23 (d a b fn m t z : Nat) : Except Reject Instr :=
  match fn with
  | 0 => zeros [z] (.vfcmpEq d a b m (t == 1))
  | 1 => zeros [z] (.vfcmpLt d a b m (t == 1))
  | 2 => zeros [z] (.vfcmpLe d a b m (t == 1))
  | 3 => zeros [z] (.vfcmpUn d a b m (t == 1))
  | 4 => zeros [z] (.vicmpEq d a b m (t == 1))
  | 5 => zeros [z] (.vicmpLt d a b m (t == 1))
  | 6 => zeros [z] (.vicmpLtu d a b m (t == 1))
  | _ => .error .selector

/-- Major 0x24 (02 R18), format V. -/
def dec24 (d a b fn m t z : Nat) : Except Reject Instr :=
  match fn with
  | 0 => zeros [b, z] (.vmov d a m (t == 1))
  | 1 => zeros [b, z] (.vsplat d a m (t == 1))
  | 2 => zeros [z] (.vext d a b m (t == 1))
  | 3 => zeros [z] (.vins d a b m (t == 1))
  | 4 => zeros [z] (.vsel d a b m (t == 1))
  | 5 => zeros [z] (.vperm d a b m (t == 1))
  | _ => .error .selector

/-- Major 0x25 (02 R18), format VL. -/
def dec25 (d a fn m sub la : Nat) : Except Reject Instr :=
  match fn / 32 with
  | 0 => check (.vdiv d a (fn % 32) m sub la)
  | 1 => match fn % 32 with
    | 0 => check (.vsqrt d a m sub la)
    | 1 => check (.vrcp d a m sub la)
    | 2 => zeros [sub] (.vexp2 d a m la)
    | 3 => zeros [sub] (.vlog2 d a m la)
    | _ => .error .selector
  | _ => .error .selector

/-- Major 0x26 (02 R18), format V. -/
def dec26 (d a b fn m t z : Nat) : Except Reject Instr :=
  match fn with
  | 0 => zeros [b, z] (.vraddO d a m (t == 1))
  | 1 => zeros [b, z] (.vraddU d a m (t == 1))
  | 2 => zeros [b, z] (.vrmin d a m (t == 1))
  | 3 => zeros [b, z] (.vrmax d a m (t == 1))
  | 4 => zeros [z] (.vscanO d a b m (t == 1))
  | 5 => zeros [z] (.vscanU d a b m (t == 1))
  | 6 => zeros [b, z] (.viradd d a m (t == 1))
  | _ => .error .selector

/-- Major 0x27 (02 R18), format V. -/
def dec27 (d a b fn m t z : Nat) : Except Reject Instr :=
  match fn with
  | 0 => zeros [z] (.vcvtRne d a b m (t == 1))
  | 1 => zeros [z] (.vcvtRtz d a b m (t == 1))
  | 2 => zeros [z] (.vcvtRdn d a b m (t == 1))
  | 3 => zeros [z] (.vcvtRup d a b m (t == 1))
  | 4 => zeros [z] (.vcvtSr d a b m (t == 1))
  | 5 => zeros [z] (.vpackb d a b m (t == 1))
  | 6 => zeros [z] (.vunpackb d a b m (t == 1))
  | 7 => zeros [b, z] (.vftoi d a m (t == 1))
  | 8 => zeros [b, z] (.vitof d a m (t == 1))
  | _ => .error .selector

/-- Major 0x28 (02 R18), format V. -/
def dec28 (d a b fn m t z : Nat) : Except Reject Instr :=
  match fn with
  | 0 => zeros [z] (.vfma d a b m (t == 1))
  | 1 => zeros [z] (.vfms d a b m (t == 1))
  | 2 => zeros [z] (.vfnma d a b m (t == 1))
  | 3 => zeros [z] (.vfnms d a b m (t == 1))
  | _ => .error .selector

/-- Major 0x29 (02 R18), format V. -/
def dec29 (d a b fn m t z : Nat) : Except Reject Instr :=
  match fn with
  | 0 => zeros [m, z] (.mand d a b (t == 1))
  | 1 => zeros [m, z] (.mor d a b (t == 1))
  | 2 => zeros [m, z] (.mxor d a b (t == 1))
  | 3 => zeros [m, z] (.mandn d a b (t == 1))
  | 4 => zeros [b, m, z] (.mnot d a (t == 1))
  | 5 => zeros [b, m, z] (.mpopc d a (t == 1))
  | _ => .error .selector

/-- Major 0x30 (02 R18), format MMA. -/
def dec30 (op g row col a b s z la : Nat) : Except Reject Instr :=
  match op with
  | 0 => zeros [z] (.mma a b row col s g la)
  | 1 => zeros [z] (.mmac a b row col s g la)
  | _ => .error .selector

/-- Major 0x31 (02 R18), format X. -/
def dec31 (op g d a b la : Nat) : Except Reject Instr :=
  match op with
  | 0 => zeros [a, b] (.accz d g la)
  | 1 => check (.accld d a b g la)
  | 2 => check (.accst d a b g la)
  | 3 => check (.acccvt d a b g la)
  | 4 => zeros [b] (.accmov d a g la)
  | _ => .error .selector

/-- Major 0x32 (02 R18), format X. -/
def dec32 (op g d a b la : Nat) : Except Reject Instr :=
  match op with
  | 0 => zeros [b] (.xmov d a g la)
  | 1 => zeros [b] (.xtr d a g la)
  | 2 => zeros [a, b] (.xzero d g la)
  | 3 => check (.xcvt d a b g la)
  | _ => .error .selector

/-- Major 0x33 (02 R18), format X. -/
def dec33 (op g d a b la : Nat) : Except Reject Instr :=
  match op with
  | 0 => check (.tfact d a b g la)
  | 1 => check (.tsolve d a b g la)
  | _ => .error .selector

/-- Major 0x34 (02 R18), format X. -/
def dec34 (op g d a b la : Nat) : Except Reject Instr :=
  match op with
  | 0 => zeros [a, b, la] (.burst d g)
  | 1 => zeros [d, a, b, la] (.mwait g)
  | _ => .error .selector

/-- Major 0x35 (02 R18), format X. -/
def dec35 (op g d a b la : Nat) : Except Reject Instr :=
  match op with
  | 0 => zeros [a, b, la] (.rgcfg d g)
  | 1 => check (.rgmt d a b g la)
  | 2 => zeros [b] (.rgmtu d a g la)
  | 3 => check (.rginj d a b g la)
  | 4 => zeros [a, b, la] (.rgstart d g)
  | 5 => zeros [b] (.rgwait d a g la)
  | 6 => zeros [a, b, la] (.rgstat d g)
  | 7 => zeros [a, b] (.rgreinj d g la)
  | 8 => zeros [d, a, b, la] (.rgret g)
  | _ => .error .selector

/-- Major 0x36 (02 R18), format X. -/
def dec36 (op g d a b la : Nat) : Except Reject Instr :=
  match op with
  | 0 => zeros [b] (.aucfg d a g la)
  | 1 => check (.prld d a b g la)
  | 2 => check (.prst d a b g la)
  | 3 => zeros [a, b] (.aubid d g la)
  | 4 => zeros [a, b] (.austep d g la)
  | 5 => zeros [b] (.aures d a g la)
  | 6 => zeros [b, la] (.austat d a g)
  | _ => .error .selector

/-- Major 0x37 (02 R18), format X. -/
def dec37 (op g d a b la : Nat) : Except Reject Instr :=
  match op with
  | 0 => zeros [a, b, la] (.vpjCfg d g)
  | 1 => check (.vpj d a b g la)
  | 2 => check (.vpjMrg d a b g la)
  | 3 => check (.vpjRd d a b g la)
  | 4 => check (.vpjRegen d a b g la)
  | 5 => zeros [a, b] (.vpjInit d g la)
  | _ => .error .selector

/-- Major 0x38 (02 R18), format X. -/
def dec38 (op g d a b la : Nat) : Except Reject Instr :=
  match op with
  | 0 => zeros [la] (.start d a b g)
  | 1 => zeros [d, a, b, la] (.exit g)
  | 2 => zeros [d, b, la] (.yield a g)
  | 3 => zeros [b, la] (.follow d a g)
  | 4 => zeros [d, a, b, la] (.unfollow g)
  | 5 => zeros [b, la] (.wid d a g)
  | _ => .error .selector

/-- Major 0x39 (02 R18), format X. -/
def dec39 (op g d a b la : Nat) : Except Reject Instr :=
  match op with
  | 0 => zeros [d, b, la] (.pnpush a g)
  | 1 => zeros [b, la] (.join d a g)
  | _ => .error .selector

/-- Major 0x3A (02 R18), format X. -/
def dec3A (op g d a b la : Nat) : Except Reject Instr :=
  match op with
  | 0 => zeros [la] (.vote d a b g)
  | 1 => zeros [la] (.haly d a b g)
  | 2 => zeros [la] (.hsum d a b g)
  | _ => .error .selector

/-- Major 0x3B (02 R18), format L. -/
def dec3B (op z a endOff la : Nat) : Except Reject Instr :=
  match op with
  | 0 => zeros [z, la] (.lpset a endOff)
  | 1 => zeros [z, a, endOff, la] .lppop
  | _ => .error .selector

/-- Major 0x3E (02 R18), format N. -/
def dec3E (payload : Nat) : Except Reject Instr :=
  zeros [payload] .nop

/-- The instruction of a word of any major but 0x3C and 0x3D, or why it is none (02 R20). -/
def decodeOps (w : Nat) : Except Reject Instr :=
  match bits w 31 26 with
  | 1 => dec01 (bits w 25 21) (bits w 20 16) (bits w 15 11) (bits w 10 4) (bits w 3 3) (bits w 2 0)
  | 2 => dec02 (bits w 25 21) (bits w 20 16) (bits w 15 11) (bits w 10 7) (bits w 6 4) (bits w 3 0)
  | 3 => dec03 (bits w 25 21) (bits w 20 16) (bits w 15 3) (bits w 2 0)
  | 4 => dec04 (bits w 25 21) (bits w 20 16) (bits w 15 3) (bits w 2 0)
  | 5 => dec05 (bits w 25 21) (bits w 20 16) (bits w 15 3) (bits w 2 0)
  | 6 => dec06 (bits w 25 21) (bits w 20 16) (bits w 15 3) (bits w 2 0)
  | 7 => dec07 (bits w 25 21) (bits w 20 16) (bits w 15 3) (bits w 2 0)
  | 8 => dec08 (bits w 25 21) (bits w 20 16) (bits w 15 3) (bits w 2 0)
  | 9 => dec09 (bits w 25 21) (bits w 20 16) (bits w 15 3) (bits w 2 0)
  | 10 => dec0A (bits w 25 21) (bits w 20 16) (bits w 15 3) (bits w 2 0)
  | 11 => dec0B (bits w 25 21) (bits w 20 16) (bits w 15 11) (bits w 10 4) (bits w 3 3) (bits w 2 0)
  | 12 => dec0C (bits w 25 21) (bits w 20 16) (bits w 15 13) (bits w 12 0)
  | 13 => dec0D (bits w 25 0)
  | 14 => dec0E (bits w 25 0)
  | 15 => dec0F (bits w 25 21) (bits w 20 16) (bits w 15 11) (bits w 10 4) (bits w 3 3) (bits w 2 0)
  | 16 => dec10 (bits w 25 21) (bits w 20 16) (bits w 15 8) (bits w 7 6) (bits w 5 4) (bits w 3 0)
  | 17 => dec11 (bits w 25 21) (bits w 20 16) (bits w 15 8) (bits w 7 6) (bits w 5 4) (bits w 3 0)
  | 18 => dec12 (bits w 25 21) (bits w 20 16) (bits w 15 8) (bits w 7 6) (bits w 5 4) (bits w 3 0)
  | 19 => dec13 (bits w 25 21) (bits w 20 16) (bits w 15 9) (bits w 8 6) (bits w 5 4) (bits w 3 0)
  | 20 => dec14 (bits w 25 21) (bits w 20 16) (bits w 15 9) (bits w 8 6) (bits w 5 4) (bits w 3 0)
  | 21 => dec15 (bits w 25 21) (bits w 20 16) (bits w 15 12) (bits w 11 10) (bits w 9 7) (bits w 6 6) (bits w 5 4) (bits w 3 0)
  | 22 => dec16 (bits w 25 21) (bits w 20 16) (bits w 15 12) (bits w 11 10) (bits w 9 7) (bits w 6 6) (bits w 5 4) (bits w 3 0)
  | 23 => dec17 (bits w 25 21) (bits w 20 16) (bits w 15 12) (bits w 11 10) (bits w 9 7) (bits w 6 6) (bits w 5 4) (bits w 3 0)
  | 24 => dec18 (bits w 25 21) (bits w 20 16) (bits w 15 12) (bits w 11 10) (bits w 9 7) (bits w 6 6) (bits w 5 4) (bits w 3 0)
  | 25 => dec19 (bits w 25 21) (bits w 20 16) (bits w 15 8) (bits w 7 6) (bits w 5 4) (bits w 3 0)
  | 26 => dec1A (bits w 25 22) (bits w 21 19) (bits w 18 14) (bits w 13 9) (bits w 8 4) (bits w 3 0)
  | 27 => dec1B (bits w 25 22) (bits w 21 19) (bits w 18 14) (bits w 13 9) (bits w 8 4) (bits w 3 0)
  | 28 => dec1C (bits w 25 22) (bits w 21 19) (bits w 18 14) (bits w 13 9) (bits w 8 4) (bits w 3 0)
  | 29 => dec1D (bits w 25 22) (bits w 21 19) (bits w 18 14) (bits w 13 9) (bits w 8 4) (bits w 3 0)
  | 30 => dec1E (bits w 25 22) (bits w 21 19) (bits w 18 14) (bits w 13 9) (bits w 8 4) (bits w 3 0)
  | 32 => dec20 (bits w 25 21) (bits w 20 16) (bits w 15 11) (bits w 10 5) (bits w 4 2) (bits w 1 1) (bits w 0 0)
  | 33 => dec21 (bits w 25 21) (bits w 20 16) (bits w 15 11) (bits w 10 5) (bits w 4 2) (bits w 1 1) (bits w 0 0)
  | 34 => dec22 (bits w 25 21) (bits w 20 16) (bits w 15 11) (bits w 10 5) (bits w 4 2) (bits w 1 1) (bits w 0 0)
  | 35 => dec23 (bits w 25 21) (bits w 20 16) (bits w 15 11) (bits w 10 5) (bits w 4 2) (bits w 1 1) (bits w 0 0)
  | 36 => dec24 (bits w 25 21) (bits w 20 16) (bits w 15 11) (bits w 10 5) (bits w 4 2) (bits w 1 1) (bits w 0 0)
  | 37 => dec25 (bits w 25 21) (bits w 20 16) (bits w 15 9) (bits w 8 6) (bits w 5 4) (bits w 3 0)
  | 38 => dec26 (bits w 25 21) (bits w 20 16) (bits w 15 11) (bits w 10 5) (bits w 4 2) (bits w 1 1) (bits w 0 0)
  | 39 => dec27 (bits w 25 21) (bits w 20 16) (bits w 15 11) (bits w 10 5) (bits w 4 2) (bits w 1 1) (bits w 0 0)
  | 40 => dec28 (bits w 25 21) (bits w 20 16) (bits w 15 11) (bits w 10 5) (bits w 4 2) (bits w 1 1) (bits w 0 0)
  | 41 => dec29 (bits w 25 21) (bits w 20 16) (bits w 15 11) (bits w 10 5) (bits w 4 2) (bits w 1 1) (bits w 0 0)
  | 48 => dec30 (bits w 25 24) (bits w 23 21) (bits w 20 18) (bits w 17 17) (bits w 16 12) (bits w 11 8) (bits w 7 5) (bits w 4 4) (bits w 3 0)
  | 49 => dec31 (bits w 25 22) (bits w 21 19) (bits w 18 14) (bits w 13 9) (bits w 8 4) (bits w 3 0)
  | 50 => dec32 (bits w 25 22) (bits w 21 19) (bits w 18 14) (bits w 13 9) (bits w 8 4) (bits w 3 0)
  | 51 => dec33 (bits w 25 22) (bits w 21 19) (bits w 18 14) (bits w 13 9) (bits w 8 4) (bits w 3 0)
  | 52 => dec34 (bits w 25 22) (bits w 21 19) (bits w 18 14) (bits w 13 9) (bits w 8 4) (bits w 3 0)
  | 53 => dec35 (bits w 25 22) (bits w 21 19) (bits w 18 14) (bits w 13 9) (bits w 8 4) (bits w 3 0)
  | 54 => dec36 (bits w 25 22) (bits w 21 19) (bits w 18 14) (bits w 13 9) (bits w 8 4) (bits w 3 0)
  | 55 => dec37 (bits w 25 22) (bits w 21 19) (bits w 18 14) (bits w 13 9) (bits w 8 4) (bits w 3 0)
  | 56 => dec38 (bits w 25 22) (bits w 21 19) (bits w 18 14) (bits w 13 9) (bits w 8 4) (bits w 3 0)
  | 57 => dec39 (bits w 25 22) (bits w 21 19) (bits w 18 14) (bits w 13 9) (bits w 8 4) (bits w 3 0)
  | 58 => dec3A (bits w 25 22) (bits w 21 19) (bits w 18 14) (bits w 13 9) (bits w 8 4) (bits w 3 0)
  | 59 => dec3B (bits w 25 22) (bits w 21 20) (bits w 19 15) (bits w 14 4) (bits w 3 0)
  | 62 => dec3E (bits w 25 0)
  | _ => .error .major

/-- A SysWord when every must-be-zero field is zero. -/
def zerosSys (l : List Nat) (i : SysWord) : Except Reject SysWord :=
  if l.all (· == 0) then .ok i else .error .mustBeZero

/-- Major 0x3C (02 R18), layout X, SYS. -/
def dec3C (op d z n la : Nat) : Except Reject SysWord :=
  match op with
  | 0 => zerosSys [z, la] (.mfc d n)
  | 1 => zerosSys [z, la] (.mtc d n)
  | 2 => zerosSys [z, la] (.msc d n)
  | 3 => zerosSys [z, la] (.mcc d n)
  | 4 => zerosSys [z, la] (.trap d n)
  | 5 => zerosSys [d, z, n, la] .tret
  | 6 => zerosSys [z, la] (.sysc d n)
  | 7 => zerosSys [d, z, la] (.brk n)
  | 8 => zerosSys [z, n, la] (.halt d)
  | 9 => zerosSys [z, n, la] (.spillw d)
  | 10 => zerosSys [d, z, n, la] .fillw
  | _ => .error .selector

/-- Major 0x3D (02 R23), layout H: a reserved kind, a reserved modifier or a non-zero must-be-zero part is ILLEGAL. -/
def dec3D (kind payload : Nat) : Except Reject SysWord :=
  match kind with
  | 0 => .ok (.hintImm payload)
  | 1 => zerosSys [payload / 4] (.hintHome payload)
  | 2 => if payload = 1 then .ok (.hintMod payload) else .error .constraint
  | _ => .error .hintKind

/-- The SYS word or HINT of a word of major 0x3C or 0x3D. -/
def decodeSys (w : Nat) : Except Reject SysWord :=
  if bits w 31 26 = 60 then dec3C (bits w 25 22) (bits w 21 17) (bits w 16 16) (bits w 15 4) (bits w 3 0)
  else dec3D (bits w 25 22) (bits w 21 0)

/-- Whether a word's major is SYS or HINT. -/
def isSysMajor (w : Nat) : Bool := bits w 31 26 == 60 || bits w 31 26 == 61

/-- The instruction of a word, or why it is none (02 R20). -/
noncomputable def decodeNat (w : Nat) : Except Reject Instr :=
  if isSysMajor w then
    match decodeSys w with
    | .ok i => .ok i.toInstr
    | .error r => .error r
  else decodeOps w

/-- Decoding of a fetched word. -/
noncomputable def decode (w : W32) : Except Reject Instr := decodeNat w.toNat

/-- Decoding at the head of any bytes: the little-endian word's instruction and the bytes after it (02 R14). -/
noncomputable def decodeBytes : List Byte → Except Reject (Instr × List Byte)
  | b0 :: b1 :: b2 :: b3 :: rest =>
    match decodeNat (ofBytes [b0, b1, b2, b3]) with
    | .ok i => .ok (i, rest)
    | .error r => .error r
  | _ => .error .short

/-- The R layout of 02 R15. -/
def encR (major d a b fn t g : Nat) : Nat :=
  major * 2 ^ 26 + d * 2 ^ 21 + a * 2 ^ 16 + b * 2 ^ 11 + fn * 2 ^ 4 + t * 2 ^ 3 + g

/-- The RL layout of 02 R15. -/
def encRL (major d a b fn la : Nat) : Nat :=
  major * 2 ^ 26 + d * 2 ^ 21 + a * 2 ^ 16 + b * 2 ^ 11 + fn * 2 ^ 7 + la

/-- The I layout of 02 R15. -/
def encI (major d a imm g : Nat) : Nat :=
  major * 2 ^ 26 + d * 2 ^ 21 + a * 2 ^ 16 + imm * 2 ^ 3 + g

/-- The B layout of 02 R15. -/
def encB (major a b cond disp : Nat) : Nat :=
  major * 2 ^ 26 + a * 2 ^ 21 + b * 2 ^ 16 + cond * 2 ^ 13 + disp

/-- The J layout of 02 R15. -/
def encJ (major disp : Nat) : Nat :=
  major * 2 ^ 26 + disp

/-- The M layout of 02 R15. -/
def encM (major d a off sz home la : Nat) : Nat :=
  major * 2 ^ 26 + d * 2 ^ 21 + a * 2 ^ 16 + off * 2 ^ 8 + sz * 2 ^ 6 + home * 2 ^ 4 + la

/-- The A layout of 02 R15. -/
def encA (major d a op ord scope sz la : Nat) : Nat :=
  major * 2 ^ 26 + d * 2 ^ 21 + a * 2 ^ 16 + op * 2 ^ 12 + ord * 2 ^ 10 + scope * 2 ^ 7 + sz * 2 ^ 6 + la

/-- The V layout of 02 R15. -/
def encV (major d a b fn m t : Nat) : Nat :=
  major * 2 ^ 26 + d * 2 ^ 21 + a * 2 ^ 16 + b * 2 ^ 11 + fn * 2 ^ 5 + m * 2 ^ 2 + t * 2 ^ 1

/-- The VL layout of 02 R15. -/
def encVL (major d a fn m sub la : Nat) : Nat :=
  major * 2 ^ 26 + d * 2 ^ 21 + a * 2 ^ 16 + fn * 2 ^ 9 + m * 2 ^ 6 + sub * 2 ^ 4 + la

/-- The X layout of 02 R15. -/
def encX (major op g d a b la : Nat) : Nat :=
  major * 2 ^ 26 + op * 2 ^ 22 + g * 2 ^ 19 + d * 2 ^ 14 + a * 2 ^ 9 + b * 2 ^ 4 + la

/-- The X, MMA layout of 02 R15. -/
def encMma (major op g row col a b s la : Nat) : Nat :=
  major * 2 ^ 26 + op * 2 ^ 24 + g * 2 ^ 21 + row * 2 ^ 18 + col * 2 ^ 17 + a * 2 ^ 12 + b * 2 ^ 8 + s * 2 ^ 5 + la

/-- The X, LOOP layout of 02 R15. -/
def encLoop (major op a endOff la : Nat) : Nat :=
  major * 2 ^ 26 + op * 2 ^ 22 + a * 2 ^ 15 + endOff * 2 ^ 4 + la

/-- The X, SYS layout of 02 R15. -/
def encSys (major op d n la : Nat) : Nat :=
  major * 2 ^ 26 + op * 2 ^ 22 + d * 2 ^ 17 + n * 2 ^ 4 + la

/-- The H layout of 02 R15. -/
def encH (major kind payload : Nat) : Nat :=
  major * 2 ^ 26 + kind * 2 ^ 22 + payload

/-- The word of an instruction, none for an event (02 R15-R19, R23). -/
def encodeNat : Instr → Option Nat
  | .add d a b t g => some (encR 1 d a b 0 (b2n t) g)
  | .sub d a b t g => some (encR 1 d a b 1 (b2n t) g)
  | .and d a b t g => some (encR 1 d a b 2 (b2n t) g)
  | .or d a b t g => some (encR 1 d a b 3 (b2n t) g)
  | .xor d a b t g => some (encR 1 d a b 4 (b2n t) g)
  | .andn d a b t g => some (encR 1 d a b 5 (b2n t) g)
  | .sll d a b t g => some (encR 1 d a b 6 (b2n t) g)
  | .srl d a b t g => some (encR 1 d a b 7 (b2n t) g)
  | .sra d a b t g => some (encR 1 d a b 8 (b2n t) g)
  | .ror d a b t g => some (encR 1 d a b 9 (b2n t) g)
  | .slt d a b t g => some (encR 1 d a b 10 (b2n t) g)
  | .sltu d a b t g => some (encR 1 d a b 11 (b2n t) g)
  | .min d a b t g => some (encR 1 d a b 12 (b2n t) g)
  | .max d a b t g => some (encR 1 d a b 13 (b2n t) g)
  | .minu d a b t g => some (encR 1 d a b 14 (b2n t) g)
  | .maxu d a b t g => some (encR 1 d a b 15 (b2n t) g)
  | .mul d a b t g => some (encR 1 d a b 16 (b2n t) g)
  | .mulh d a b t g => some (encR 1 d a b 17 (b2n t) g)
  | .mulhu d a b t g => some (encR 1 d a b 18 (b2n t) g)
  | .clz d a t g => some (encR 1 d a 0 19 (b2n t) g)
  | .ctz d a t g => some (encR 1 d a 0 20 (b2n t) g)
  | .popc d a t g => some (encR 1 d a 0 21 (b2n t) g)
  | .sextb d a t g => some (encR 1 d a 0 22 (b2n t) g)
  | .sexth d a t g => some (encR 1 d a 0 23 (b2n t) g)
  | .sextw d a t g => some (encR 1 d a 0 24 (b2n t) g)
  | .zextw d a t g => some (encR 1 d a 0 25 (b2n t) g)
  | .shadd1 d a b t g => some (encR 1 d a b 26 (b2n t) g)
  | .shadd2 d a b t g => some (encR 1 d a b 27 (b2n t) g)
  | .shadd3 d a b t g => some (encR 1 d a b 28 (b2n t) g)
  | .div d a b la => some (encRL 2 d a b 0 la)
  | .divu d a b la => some (encRL 2 d a b 1 la)
  | .rem d a b la => some (encRL 2 d a b 2 la)
  | .remu d a b la => some (encRL 2 d a b 3 la)
  | .addi d a imm g => some (encI 3 d a imm g)
  | .andi d a imm g => some (encI 4 d a imm g)
  | .ori d a imm g => some (encI 5 d a imm g)
  | .xori d a imm g => some (encI 6 d a imm g)
  | .slti d a imm g => some (encI 7 d a imm g)
  | .sltiu d a imm g => some (encI 8 d a imm g)
  | .slli d a sh g => some (encI 9 d a sh g)
  | .srli d a sh g => some (encI 9 d a (64 + sh) g)
  | .srai d a sh g => some (encI 9 d a (128 + sh) g)
  | .rori d a sh g => some (encI 9 d a (192 + sh) g)
  | .movi d imm g => some (encI 10 d 0 imm g)
  | .qsetEq d a b g => some (encR 11 d a b 0 0 g)
  | .qsetNe d a b g => some (encR 11 d a b 1 0 g)
  | .qsetLt d a b g => some (encR 11 d a b 2 0 g)
  | .qsetGe d a b g => some (encR 11 d a b 3 0 g)
  | .qsetLtu d a b g => some (encR 11 d a b 4 0 g)
  | .qsetGeu d a b g => some (encR 11 d a b 5 0 g)
  | .qand d a b g => some (encR 11 d a b 8 0 g)
  | .qor d a b g => some (encR 11 d a b 9 0 g)
  | .qxor d a b g => some (encR 11 d a b 10 0 g)
  | .qandn d a b g => some (encR 11 d a b 11 0 g)
  | .qnot d a g => some (encR 11 d a 0 12 0 g)
  | .qtrue d g => some (encR 11 d 0 0 13 0 g)
  | .qfalse d g => some (encR 11 d 0 0 14 0 g)
  | .qunres d g => some (encR 11 d 0 0 15 0 g)
  | .beq a b disp => some (encB 12 a b 0 disp)
  | .bne a b disp => some (encB 12 a b 1 disp)
  | .blt a b disp => some (encB 12 a b 2 disp)
  | .bge a b disp => some (encB 12 a b 3 disp)
  | .bltu a b disp => some (encB 12 a b 4 disp)
  | .bgeu a b disp => some (encB 12 a b 5 disp)
  | .bqt a disp => some (encB 12 a 0 6 disp)
  | .bqf a disp => some (encB 12 a 0 7 disp)
  | .j disp => some (encJ 13 disp)
  | .call disp => some (encJ 14 disp)
  | .jr a g => some (encR 15 0 a 0 0 0 g)
  | .callr a g => some (encR 15 0 a 0 1 0 g)
  | .ret g => some (encR 15 0 0 0 2 0 g)
  | .ld d a off sz home la => some (encM 16 d a off sz home la)
  | .ldn d a off sz home la => some (encM 17 d a off sz home la)
  | .st d a off sz home la => some (encM 18 d a off sz home la)
  | .ldv d a m cls la => some (encVL 19 d a 0 m cls la)
  | .stv d a m la => some (encVL 19 d a 1 m 0 la)
  | .ldx d a la => some (encVL 19 d a 2 0 0 la)
  | .ldxSc d a la => some (encVL 19 d a 2 0 1 la)
  | .stx d a la => some (encVL 19 d a 3 0 0 la)
  | .stxSc d a la => some (encVL 19 d a 3 0 1 la)
  | .gather d a vi m cls la => some (encVL 20 d a vi m cls la)
  | .scatter d a vi m la => some (encVL 20 d a (vi + 32) m 0 la)
  | .lds d a ord scope la => some (encA 21 d a 0 ord scope 1 la)
  | .ldsE d a ord scope la => some (encA 21 d a 1 ord scope 1 la)
  | .stf d a ord scope la => some (encA 21 d a 2 ord scope 1 la)
  | .sete a ord scope la => some (encA 21 0 a 3 ord scope 1 la)
  | .amoSwap d a sz ord scope la => some (encA 22 d a 0 ord scope sz la)
  | .amoAdd d a sz ord scope la => some (encA 22 d a 1 ord scope sz la)
  | .amoAnd d a sz ord scope la => some (encA 22 d a 2 ord scope sz la)
  | .amoOr d a sz ord scope la => some (encA 22 d a 3 ord scope sz la)
  | .amoXor d a sz ord scope la => some (encA 22 d a 4 ord scope sz la)
  | .amoMin d a sz ord scope la => some (encA 22 d a 5 ord scope sz la)
  | .amoMax d a sz ord scope la => some (encA 22 d a 6 ord scope sz la)
  | .amoMinu d a sz ord scope la => some (encA 22 d a 7 ord scope sz la)
  | .amoMaxu d a sz ord scope la => some (encA 22 d a 8 ord scope sz la)
  | .amoFadd d a sz ord scope la => some (encA 22 d a 9 ord scope sz la)
  | .amoFaddX d a ord scope la => some (encA 22 d a 10 ord scope 0 la)
  | .amoFmin d a sz ord scope la => some (encA 22 d a 11 ord scope sz la)
  | .amoFmax d a sz ord scope la => some (encA 22 d a 12 ord scope sz la)
  | .ldo d a sz acq scope la => some (encA 23 d a 0 acq scope sz la)
  | .sto d a sz rel scope la => some (encA 23 d a 1 (rel * 2) scope sz la)
  | .cas d a sz ord scope la => some (encA 23 d a 2 ord scope sz la)
  | .fence ord scope => some (encA 24 0 0 0 ord scope 0 0)
  | .prefTlb a off home => some (encM 25 0 a off 0 home 0)
  | .prefMsc a off home => some (encM 25 1 a off 0 home 0)
  | .send d a b g la => some (encX 26 0 g d a b la)
  | .sends d a b g la => some (encX 26 1 g d a b la)
  | .hoist g => some (encX 26 2 g 0 0 0 0)
  | .strike g => some (encX 26 3 g 0 0 0 0)
  | .mcmd d a b g la => some (encX 26 4 g d a b la)
  | .rbwait d a b g la => some (encX 27 0 g d a b la)
  | .rbadv a g => some (encX 27 1 g 0 a 0 0)
  | .stbind d a b g => some (encX 27 2 g d a b 0)
  | .stunbind g => some (encX 27 3 g 0 0 0 0)
  | .cp d a b g la => some (encX 28 0 g d a b la)
  | .cp2d d a b g la => some (encX 28 1 g d a b la)
  | .cpidx d a b g la => some (encX 28 2 g d a b la)
  | .cpwait a g la => some (encX 28 3 g 0 a 0 la)
  | .cpredO d a b g la => some (encX 28 4 g d a b la)
  | .cpredU d a b g la => some (encX 28 5 g d a b la)
  | .evpop d a g => some (encX 29 0 g d a 0 0)
  | .evwait d a b g la => some (encX 29 1 g d a b la)
  | .evpost d a b g => some (encX 29 2 g d a b 0)
  | .qpost d a b g la => some (encX 30 0 g d a b la)
  | .qarm a b g => some (encX 30 1 g 0 a b 0)
  | .ctradd d a b g la => some (encX 30 2 g d a b la)
  | .ctrwait d a b g la => some (encX 30 3 g d a b la)
  | .ctrset a b g => some (encX 30 4 g 0 a b 0)
  | .vadd d a b m t => some (encV 32 d a b 0 m (b2n t))
  | .vsub d a b m t => some (encV 32 d a b 1 m (b2n t))
  | .vmul d a b m t => some (encV 32 d a b 2 m (b2n t))
  | .vmin d a b m t => some (encV 32 d a b 3 m (b2n t))
  | .vmax d a b m t => some (encV 32 d a b 4 m (b2n t))
  | .vabs d a m t => some (encV 32 d a 0 5 m (b2n t))
  | .vneg d a m t => some (encV 32 d a 0 6 m (b2n t))
  | .viadd d a b m t => some (encV 33 d a b 0 m (b2n t))
  | .visub d a b m t => some (encV 33 d a b 1 m (b2n t))
  | .vimul d a b m t => some (encV 33 d a b 2 m (b2n t))
  | .vimin d a b m t => some (encV 33 d a b 3 m (b2n t))
  | .vimax d a b m t => some (encV 33 d a b 4 m (b2n t))
  | .viminu d a b m t => some (encV 33 d a b 5 m (b2n t))
  | .vimaxu d a b m t => some (encV 33 d a b 6 m (b2n t))
  | .viadds d a b m t => some (encV 33 d a b 7 m (b2n t))
  | .visubs d a b m t => some (encV 33 d a b 8 m (b2n t))
  | .vand d a b m t => some (encV 34 d a b 0 m (b2n t))
  | .vor d a b m t => some (encV 34 d a b 1 m (b2n t))
  | .vxor d a b m t => some (encV 34 d a b 2 m (b2n t))
  | .vsll d a b m t => some (encV 34 d a b 3 m (b2n t))
  | .vsrl d a b m t => some (encV 34 d a b 4 m (b2n t))
  | .vsra d a b m t => some (encV 34 d a b 5 m (b2n t))
  | .vfcmpEq d a b m t => some (encV 35 d a b 0 m (b2n t))
  | .vfcmpLt d a b m t => some (encV 35 d a b 1 m (b2n t))
  | .vfcmpLe d a b m t => some (encV 35 d a b 2 m (b2n t))
  | .vfcmpUn d a b m t => some (encV 35 d a b 3 m (b2n t))
  | .vicmpEq d a b m t => some (encV 35 d a b 4 m (b2n t))
  | .vicmpLt d a b m t => some (encV 35 d a b 5 m (b2n t))
  | .vicmpLtu d a b m t => some (encV 35 d a b 6 m (b2n t))
  | .vmov d a m t => some (encV 36 d a 0 0 m (b2n t))
  | .vsplat d a m t => some (encV 36 d a 0 1 m (b2n t))
  | .vext d a b m t => some (encV 36 d a b 2 m (b2n t))
  | .vins d a b m t => some (encV 36 d a b 3 m (b2n t))
  | .vsel d a b m t => some (encV 36 d a b 4 m (b2n t))
  | .vperm d a b m t => some (encV 36 d a b 5 m (b2n t))
  | .vdiv d a b m p la => some (encVL 37 d a b m p la)
  | .vsqrt d a m p la => some (encVL 37 d a 32 m p la)
  | .vrcp d a m p la => some (encVL 37 d a 33 m p la)
  | .vexp2 d a m la => some (encVL 37 d a 34 m 0 la)
  | .vlog2 d a m la => some (encVL 37 d a 35 m 0 la)
  | .vraddO d a m t => some (encV 38 d a 0 0 m (b2n t))
  | .vraddU d a m t => some (encV 38 d a 0 1 m (b2n t))
  | .vrmin d a m t => some (encV 38 d a 0 2 m (b2n t))
  | .vrmax d a m t => some (encV 38 d a 0 3 m (b2n t))
  | .vscanO d a b m t => some (encV 38 d a b 4 m (b2n t))
  | .vscanU d a b m t => some (encV 38 d a b 5 m (b2n t))
  | .viradd d a m t => some (encV 38 d a 0 6 m (b2n t))
  | .vcvtRne d a b m t => some (encV 39 d a b 0 m (b2n t))
  | .vcvtRtz d a b m t => some (encV 39 d a b 1 m (b2n t))
  | .vcvtRdn d a b m t => some (encV 39 d a b 2 m (b2n t))
  | .vcvtRup d a b m t => some (encV 39 d a b 3 m (b2n t))
  | .vcvtSr d a b f t => some (encV 39 d a b 4 f (b2n t))
  | .vpackb d a b m t => some (encV 39 d a b 5 m (b2n t))
  | .vunpackb d a b m t => some (encV 39 d a b 6 m (b2n t))
  | .vftoi d a m t => some (encV 39 d a 0 7 m (b2n t))
  | .vitof d a m t => some (encV 39 d a 0 8 m (b2n t))
  | .vfma d a b m t => some (encV 40 d a b 0 m (b2n t))
  | .vfms d a b m t => some (encV 40 d a b 1 m (b2n t))
  | .vfnma d a b m t => some (encV 40 d a b 2 m (b2n t))
  | .vfnms d a b m t => some (encV 40 d a b 3 m (b2n t))
  | .mand d a b t => some (encV 41 d a b 0 0 (b2n t))
  | .mor d a b t => some (encV 41 d a b 1 0 (b2n t))
  | .mxor d a b t => some (encV 41 d a b 2 0 (b2n t))
  | .mandn d a b t => some (encV 41 d a b 3 0 (b2n t))
  | .mnot d a t => some (encV 41 d a 0 4 0 (b2n t))
  | .mpopc d a t => some (encV 41 d a 0 5 0 (b2n t))
  | .mma a b row col s g la => some (encMma 48 0 g row col a b s la)
  | .mmac a b row col s g la => some (encMma 48 1 g row col a b s la)
  | .accz d g la => some (encX 49 0 g d 0 0 la)
  | .accld d a b g la => some (encX 49 1 g d a b la)
  | .accst d a b g la => some (encX 49 2 g d a b la)
  | .acccvt d a b g la => some (encX 49 3 g d a b la)
  | .accmov d a g la => some (encX 49 4 g d a 0 la)
  | .xmov d a g la => some (encX 50 0 g d a 0 la)
  | .xtr d a g la => some (encX 50 1 g d a 0 la)
  | .xzero d g la => some (encX 50 2 g d 0 0 la)
  | .xcvt d a b g la => some (encX 50 3 g d a b la)
  | .tfact d a b g la => some (encX 51 0 g d a b la)
  | .tsolve d a b g la => some (encX 51 1 g d a b la)
  | .burst d g => some (encX 52 0 g d 0 0 0)
  | .mwait g => some (encX 52 1 g 0 0 0 0)
  | .rgcfg d g => some (encX 53 0 g d 0 0 0)
  | .rgmt d a b g la => some (encX 53 1 g d a b la)
  | .rgmtu d a g la => some (encX 53 2 g d a 0 la)
  | .rginj d a b g la => some (encX 53 3 g d a b la)
  | .rgstart d g => some (encX 53 4 g d 0 0 0)
  | .rgwait d a g la => some (encX 53 5 g d a 0 la)
  | .rgstat d g => some (encX 53 6 g d 0 0 0)
  | .rgreinj d g la => some (encX 53 7 g d 0 0 la)
  | .rgret g => some (encX 53 8 g 0 0 0 0)
  | .aucfg d a g la => some (encX 54 0 g d a 0 la)
  | .prld d a b g la => some (encX 54 1 g d a b la)
  | .prst d a b g la => some (encX 54 2 g d a b la)
  | .aubid d g la => some (encX 54 3 g d 0 0 la)
  | .austep d g la => some (encX 54 4 g d 0 0 la)
  | .aures d a g la => some (encX 54 5 g d a 0 la)
  | .austat d a g => some (encX 54 6 g d a 0 0)
  | .vpjCfg d g => some (encX 55 0 g d 0 0 0)
  | .vpj d a b g la => some (encX 55 1 g d a b la)
  | .vpjMrg d a b g la => some (encX 55 2 g d a b la)
  | .vpjRd d a b g la => some (encX 55 3 g d a b la)
  | .vpjRegen d a b g la => some (encX 55 4 g d a b la)
  | .vpjInit d g la => some (encX 55 5 g d 0 0 la)
  | .start d a b g => some (encX 56 0 g d a b 0)
  | .exit g => some (encX 56 1 g 0 0 0 0)
  | .yield a g => some (encX 56 2 g 0 a 0 0)
  | .follow d a g => some (encX 56 3 g d a 0 0)
  | .unfollow g => some (encX 56 4 g 0 0 0 0)
  | .wid d a g => some (encX 56 5 g d a 0 0)
  | .pnpush a g => some (encX 57 0 g 0 a 0 0)
  | .join d a g => some (encX 57 1 g d a 0 0)
  | .vote d a b g => some (encX 58 0 g d a b 0)
  | .haly d a b g => some (encX 58 1 g d a b 0)
  | .hsum d a b g => some (encX 58 2 g d a b 0)
  | .lpset a endOff => some (encLoop 59 0 a endOff 0)
  | .lppop => some (encLoop 59 1 0 0 0)
  | .mfc d n => some (encSys 60 0 d n 0)
  | .mtc d n => some (encSys 60 1 d n 0)
  | .msc d n => some (encSys 60 2 d n 0)
  | .mcc d n => some (encSys 60 3 d n 0)
  | .trap d n => some (encSys 60 4 d n 0)
  | .tret => some (encSys 60 5 0 0 0)
  | .sysc d n => some (encSys 60 6 d n 0)
  | .brk n => some (encSys 60 7 0 n 0)
  | .halt d => some (encSys 60 8 d 0 0)
  | .spillw d => some (encSys 60 9 d 0 0)
  | .fillw => some (encSys 60 10 0 0 0)
  | .hintImm payload => some (encH 61 0 payload)
  | .hintHome payload => some (encH 61 1 payload)
  | .hintMod payload => some (encH 61 2 payload)
  | .nop => some (62 * 2 ^ 26)
  | .illegalWord _ => none
  | .instructionComplete _ _ _ => none
  | .followEngage _ => none
  | .pageWalkComplete _ _ _ => none
  | .postedStoreAck _ _ => none
  | .postedStoreFail _ _ _ => none
  | .uncorrectableError _ => none
  | .correctedError _ => none
  | .unitRetire _ => none
  | .parkedRequestServe _ => none
  | .ldsParkRetry _ _ => none
  | .messageArrival _ => none
  | .messageFail _ => none
  | .remoteCommandArrival _ => none
  | .eventRecordArrival _ _ => none
  | .hardwarePost _ _ => none
  | .bulkQueueAdmit _ => none
  | .copyCommandStart _ _ => none
  | .copyCommandComplete _ _ => none
  | .copyCommandFault _ _ => none
  | .matrixQueueAdmit _ => none
  | .matrixCommandStart _ => none
  | .matrixCommandComplete _ => none
  | .arrayLevelRise _ => none
  | .arrayLevelFall _ => none
  | .burstHoldExpire _ => none
  | .ringBeatEnd _ => none
  | .ringTaskComplete _ => none
  | .ringIdle _ => none
  | .auctionCommandAdmit _ => none
  | .auctionRound _ => none
  | .vpjTileBoundary _ _ _ => none
  | .collectiveChunkAdmit _ => none
  | .chunkArrival _ => none
  | .stepResultWrite _ => none
  | .stepAbandon _ => none
  | .entryComplete _ _ => none
  | .quantumBoundary => none
  | .preemptResume _ => none
  | .qtailWrite _ _ _ => none
  | .launchPacketRead _ => none
  | .dealIdentifier _ _ => none
  | .launchComplete _ => none
  | .controlContextRestart _ => none
  | .startHelperAssign _ => none
  | .pennantPop _ => none
  | .pennantAgePromote _ _ _ => none
  | .halyardEpisodeComplete _ _ _ => none
  | .halyLimitExpire _ => none
  | .rbwaitTimeout _ _ => none
  | .evwaitTimeout _ => none
  | .rgwaitTimeout _ _ => none
  | .yieldExpire _ _ => none
  | .partnerSwitch _ => none
  | .faultRecordAppend _ _ => none
  | .fqheadWrite _ => none
  | .xlinvPage _ => none
  | .xlinvDomain _ => none
  | .xlinvAllDomains => none
  | .xlinvReserved => none
  | .xlinvComplete => none
  | .keyInstall => none
  | .keyErase => none
  | .keyCommandComplete => none
  | .rngFill _ => none
  | .rngFillComplete _ => none
  | .devnumWrite _ _ => none
  | .linkTraining _ _ => none
  | .pnqbaseWrite _ _ _ => none
  | .rbenWrite _ _ _ => none
  | .domctlWrite _ _ _ => none
  | .domainDisable _ => none
  | .cctlWrite _ _ _ => none
  | .dbgHalt _ => none
  | .dbgResume _ => none
  | .dbgStep _ _ _ => none
  | .dbgSuperstep _ _ _ => none
  | .debugHaltComplete => none
  | .coldReset => none
  | .warmReset => none
  | .functionLevelReset _ => none
  | .linkWidthRequest _ => none
  | .linkRetrainComplete => none
  | .dieClockRequest _ _ => none
  | .dieClockChange _ => none
  | .powerCapWindow => none
  | .attestationReport _ => none
  | .hostWrite _ _ _ => none
  | .hostRead _ _ _ => none
  | .registerWrite _ _ _ _ => none
  | .powerDown => none
  | .fabricLinkLoss _ => none
  | .qctlWrite _ _ _ => none
  | .fqctlWrite _ => none
  | .ideKmKeyProgram _ => none
  | .spdmSession _ => none

/-- The encoded word. -/
def encode (i : Instr) : Option W32 := (encodeNat i).map (BitVec.ofNat 32)

/-- The instruction that the decoder reads from a row's bits, stored as the hardware stores a word: little-endian,
with zeros above. -/
noncomputable def decodeTableWord (nbits w : Nat) : Option Instr :=
  match decodeBytes (toBytes 4 (w % 2 ^ nbits)) with
  | .ok (i, _) => some i
  | .error _ => none

end Sys2Proof
end

