-- ==== Sys2Proof/Machine/Aes.lean ====
section
/-! DEFINITION. AES-256-XTS over one 64-byte line (03 R53, 20 R373). The manual names the cipher by its standards; the block
cipher is that of FIPS 197 and the mode that of IEEE 1619 (PRESUMED, log entry 13). A block is a list of 16 bytes. -/

namespace Sys2Proof.Machine

/-- Multiplication by x in the field of the cipher. -/
def xtime (a : Nat) : Nat := if a < 128 then 2 * a else (2 * a % 256) ^^^ 0x1B

/-- The product of two field elements, by the bits of the second from the lowest of `n` up. -/
def gmul : Nat → Nat → Nat → Nat
  | 0, _, _ => 0
  | n + 1, a, b => (if b % 2 = 1 then a else 0) ^^^ gmul n (xtime a) (b / 2)

/-- The inverse in the field, 0 for 0: the power 254 as the product of the squares from the second on. -/
def ginv (a : Nat) : Nat :=
  ((List.range 7).foldl (fun (p : Nat × Nat) _ =>
    let q := gmul 8 p.1 p.1
    (q, gmul 8 p.2 q)) (a, 1)).2

/-- Rotation of a byte to the left. -/
def rotl8 (a n : Nat) : Nat := a * 2 ^ n % 256 + a / 2 ^ (8 - n)

/-- The substitution of a byte. -/
def subByte (a : Nat) : Nat :=
  let b := ginv a
  b ^^^ rotl8 b 1 ^^^ rotl8 b 2 ^^^ rotl8 b 3 ^^^ rotl8 b 4 ^^^ 0x63

/-- The inverse substitution of a byte. -/
def invSubByte (a : Nat) : Nat := ginv (rotl8 a 1 ^^^ rotl8 a 3 ^^^ rotl8 a 6 ^^^ 5)

/-- XOR of two lists. -/
def xorL (a b : List Nat) : List Nat := List.zipWith (· ^^^ ·) a b

/-- The next words of a key schedule of eight words a round, `i` counting words from 8 and `l` holding those so far, last
first. -/
def keyWords : Nat → Nat → Nat → List (List Nat) → List (List Nat)
  | 0, _, _, l => l
  | n + 1, i, rcon, l =>
    let t := l.headD []
    let t' :=
      if i % 8 = 0 then xorL ((t.drop 1 ++ t.take 1).map subByte) [rcon, 0, 0, 0]
      else if i % 8 = 4 then t.map subByte
      else t
    keyWords n (i + 1) (if i % 8 = 0 then xtime rcon else rcon) (xorL (l.getD 7 []) t' :: l)

/-- The list in pieces of `n`, at most `k` of them. -/
def chunksOf (n : Nat) : Nat → List Nat → List (List Nat)
  | 0, _ => []
  | k + 1, l => l.take n :: chunksOf n k (l.drop n)

/-- The fifteen round keys of a 32-byte key. -/
def roundKeys (key : List Nat) : List (List Nat) :=
  chunksOf 16 15 ((keyWords 52 8 1 (chunksOf 4 8 key).reverse).reverse.flatMap id)

/-- The bytes of a block in the order that the row shift leaves them: row `r` moves by `r` columns. -/
def shiftRows (s : List Nat) : List Nat := (List.range 16).map (fun i => s.getD ((i + 4 * (i % 4)) % 16) 0)

/-- The inverse of the row shift. -/
def invShiftRows (s : List Nat) : List Nat := (List.range 16).map (fun i => s.getD ((i + 12 * (i % 4)) % 16) 0)

/-- Each column times the circulant matrix of the given first row. -/
def mixWith (row : List Nat) (s : List Nat) : List Nat :=
  (List.range 16).map (fun i =>
    ((List.range 4).map (fun j => gmul 8 (s.getD (i / 4 * 4 + j) 0) (row.getD ((j + 4 - i % 4) % 4) 0))).foldl (· ^^^ ·) 0)

/-- Encryption of a block under round keys, the first already added. -/
def encRounds : List (List Nat) → List Nat → List Nat
  | [], s => s
  | [k], s => xorL (shiftRows (s.map subByte)) k
  | k :: ks, s => encRounds ks (xorL (mixWith [2, 3, 1, 1] (shiftRows (s.map subByte))) k)

/-- AES-256 encryption of a block. -/
def aesEnc (key block : List Nat) : List Nat :=
  match roundKeys key with
  | [] => block
  | k :: ks => encRounds ks (xorL block k)

/-- Decryption of a block under the round keys in reverse, the last of the schedule already added. -/
def decRounds : List (List Nat) → List Nat → List Nat
  | [], s => s
  | [k], s => xorL ((invShiftRows s).map invSubByte) k
  | k :: ks, s => decRounds ks (mixWith [14, 11, 13, 9] (xorL ((invShiftRows s).map invSubByte) k))

/-- AES-256 decryption of a block. -/
def aesDec (key block : List Nat) : List Nat :=
  match (roundKeys key).reverse with
  | [] => block
  | k :: ks => decRounds ks (xorL block k)

/-- The next tweak of a data unit: the product by x in the field of 2^128 elements. -/
def nextTweak (t : Nat) : Nat := if t < 2 ^ 127 then 2 * t else (2 * t % 2 ^ 128) ^^^ 0x87

/-- The bytes of a number, least significant first. -/
def leBytes : Nat → Nat → List Nat
  | 0, _ => []
  | n + 1, v => v % 256 :: leBytes n (v / 256)

/-- The number of little-endian bytes. -/
def ofLe : List Nat → Nat
  | [] => 0
  | b :: r => b + 256 * ofLe r

/-- The four blocks of a line through a cipher, each between its tweak. -/
def xtsBlocks (f : List Nat → List Nat) : Nat → Nat → Nat → Nat
  | 0, _, _ => 0
  | n + 1, t, v =>
    (ofLe (f (leBytes 16 (v % 2 ^ 128 ^^^ t))) ^^^ t) + 2 ^ 128 * xtsBlocks f n (nextTweak t) (v / 2 ^ 128)

/-- The line whose 64 bytes are `v`, encrypted or decrypted under 64 bytes of key material, data key first, with the line's
address as its tweak (03 R53, 20 R373). -/
def xts (enc : Bool) (mat addr v : Nat) : Nat :=
  let dk := leBytes 32 mat
  let tk := leBytes 32 (mat / 2 ^ 256)
  xtsBlocks (if enc then aesEnc dk else aesDec dk) 4 (ofLe (aesEnc tk (leBytes 16 addr))) v

end Sys2Proof.Machine
end

