-- ==== Sys2Proof/Config.lean ====
section
/-! DEFINITION. The values the manual leaves open, as constants with no body: nothing can evaluate them or prove a
value of them, so a statement about one holds whatever it is (DESIGN CHOICE, log entries 2, 3, 10, 15, 16, 17, 18, 30,
46, 70). -/

namespace Sys2Proof

/-- The free choice number `n`: which agent moves next, which word of a copy lands first, which of the orders the
manual leaves open is taken (16 R320, 05 R85, 14 R276; DESIGN CHOICE, log entry 2). -/
opaque Config.choice : Nat → Nat

/-- The free 64-bit value number `n`: data the manual does not define, such as a reply of another device or a
poisoned host read (03 R44, 04 R64; DESIGN CHOICE, log entry 16). -/
opaque Config.freeWord : Nat → W64

/-- Whether a path over the fabric reaches device `dev` while the listed ports of this device are marked failed, at time `t`
(04 R63; DESIGN CHOICE, log entry 16). -/
opaque Config.path (dev : Nat) (failed : List Nat) (t : Nat) : Bool

/-- Whether a part with CXL expanders or the SRAM dies has a TDISP entry in its capability list (20 R371; DESIGN CHOICE, log entry 46). -/
opaque Config.tdispEntry : Bool

/-- The version and the length of a capability entry (20 R371; DESIGN CHOICE, log entry 46). -/
opaque Config.capVersion (id : Nat) : Nat
opaque Config.capLength (id : Nat) : Nat

/-- The `.fmt` descriptors of the kernel image at an address, with its text: register and descriptor (02 R39; DESIGN CHOICE, log
entry 18). -/
opaque Config.fmtNotes (kimg text : Nat) : List (Nat × W32)

/-- The SHAKE256 digest of the firmware public key that the ROM of the I/O die holds (20 R374; DESIGN CHOICE, log entry 15). -/
opaque Config.romDigest : List Byte

/-- The firmware public key that stands with the images (20 R374; DESIGN CHOICE, log entry 15). -/
opaque Config.firmwareKey : List Byte

/-- The firmware images: security version, bytes and signature (20 R374; DESIGN CHOICE, log entry 15). -/
opaque Config.firmware : List (Nat × List Byte × List Byte)

/-- The fused rollback counter (20 R374; DESIGN CHOICE, log entry 15). -/
opaque Config.rollback : Nat

/-- The fuse configuration and the fused seed of the identity key (20 R375; DESIGN CHOICE, log entry 15). -/
opaque Config.fuses : List Byte
opaque Config.fusedSeed : List Byte

/-- Whether physical core `p` fails the self-test that begins when `n` free values have been taken (20 R376; DESIGN CHOICE, log entry
15). -/
opaque Config.coreFails (n p : Nat) : Bool

/-- The bytes the expander on CXL port `p` presents, read at bring-up (03 R47, R57; DESIGN CHOICE, log entry 17). -/
opaque Config.cxlBytes (p : Nat) : Nat

/-- The handle from which QPOST looks for a free entry of its die's table, as a function of the handles taken (17 R329, 19 R365; DESIGN
CHOICE, log entry 30). -/
opaque Config.handleFrom (taken : List Nat) : Nat

/-- The rank of a sender whose core no rank entry of the communicator names (17 R333; DESIGN CHOICE, log entry 30). -/
opaque Config.strayRank (comm core : Nat) : Nat

/-- How many free values may be taken while a store is on its way (16 R325; DESIGN CHOICE, log entry 70). -/
opaque Config.landBound : Nat

/-- Whether the part has its SRAM dies (06 R95, R100; DESIGN CHOICE, log entry 10). -/
opaque Config.sramPresent : Bool

end Sys2Proof
end

