-- ==== Sys2Proof/Machine/Num.lean ====
section
/-! DEFINITION. Exact arithmetic and the number formats (08 R146-R155, R162, R164-R168, R171).
Values are exact; nothing is rounded except where a function of this file names a format and a mode (00 R4). -/

namespace Sys2Proof.Machine

/-- The five floating flags of FSTAT: bit 4 NV, 3 DZ, 2 OF, 1 UF, 0 NX (07 R135). -/
abbrev Flags := BitVec 5

/-- Invalid operation. -/
def flNV : Flags := 16#5
/-- Division by zero. -/
def flDZ : Flags := 8#5
/-- Overflow. -/
def flOF : Flags := 4#5
/-- Underflow. -/
def flUF : Flags := 2#5
/-- Inexact. -/
def flNX : Flags := 1#5

/-- A flag if a condition holds. -/
def flIf (c : Bool) (f : Flags) : Flags := if c then f else 0#5

/-- An exact value: a NaN, an infinity, or (-1)^neg × m × 2^e, which is a signed zero when m = 0. -/
inductive Val where
  | nan
  | inf (neg : Bool)
  | fin (neg : Bool) (m : Nat) (e : Int)
  deriving DecidableEq, Repr

/-- A format's finite grid and special codes (08 R146, R149, R152). `E = 0` is integer-coded. -/
structure Fmt where
  S : Bool
  E : Nat
  M : Nat
  bias : Int
  ieee : Bool
  deriving DecidableEq, Repr

/-- F64 (08 R146). -/
def fF64 : Fmt := ⟨true, 11, 52, 1023, true⟩
/-- F32 (08 R146). -/
def fF32 : Fmt := ⟨true, 8, 23, 127, true⟩
/-- F16 (08 R146). -/
def fF16 : Fmt := ⟨true, 5, 10, 15, true⟩
/-- H16 (08 R146). -/
def fH16 : Fmt := ⟨true, 8, 7, 127, true⟩

/-- Code width in bits (08 R152). -/
def Fmt.width (f : Fmt) : Nat := b2n f.S + f.E + f.M

/-- The canonical NaN of an IEEE-like or fixed format; +0 where there is no NaN code (08 R147, R152). -/
def Fmt.nan (f : Fmt) : Nat :=
  if f.ieee && f.E != 0 then (2 ^ f.E - 1) * 2 ^ f.M + (if f.M = 0 then 0 else 2 ^ (f.M - 1)) else 0

/-- Whether the format has a NaN code. -/
def Fmt.hasNan (f : Fmt) : Bool := f.ieee && f.E != 0

/-- The exponent of the smallest normal value, 1 - bias. -/
def Fmt.emin (f : Fmt) : Int := 1 - f.bias

/-- The exact value a code represents (08 R146, R152). -/
def Fmt.decode (f : Fmt) (c : Nat) : Val :=
  let n := f.width
  let c := c % 2 ^ n
  if f.E = 0 then
    let v : Int := if f.S then signed n c else (c : Int)
    .fin (decide (v < 0)) v.natAbs (-f.bias)
  else
    let s := f.S && decide (c / 2 ^ (n - 1) = 1)
    let ef := c / 2 ^ f.M % 2 ^ f.E
    let mf := c % 2 ^ f.M
    if f.ieee && ef = 2 ^ f.E - 1 then
      if f.M = 0 || mf ≠ 0 then .nan else .inf s
    else if ef = 0 then .fin s mf (1 - f.bias - (f.M : Int))
    else .fin s (2 ^ f.M + mf) ((ef : Int) - f.bias - (f.M : Int))

/-- The rounding modes of 08 R154, R155 and R158: `raz` rounds away from zero, `sr r` is stochastic with the
random word r. -/
inductive Rnd where
  | rne | rtz | rdn | rup | raz
  | sr (r : Nat)
  deriving DecidableEq, Repr

/-- 2^k for a signed k, as a numerator and a denominator. -/
def pow2Num (k : Int) : Nat := if 0 ≤ k then 2 ^ k.toNat else 1
/-- 2^-k for a negative k. -/
def pow2Den (k : Int) : Nat := if 0 ≤ k then 1 else 2 ^ (-k).toNat

/-- ⌊log2 (num/den)⌋ for num, den > 0. -/
def ilog2Q (num den : Nat) : Int :=
  let a : Int := (Nat.log2 num : Int) - (Nat.log2 den : Int)
  if num * pow2Den a < den * pow2Num a then a - 1 else a

/-- num/den in units of 2^q, as an integer part and whether a remainder is left, with the doubled remainder
compared to one unit: (floor, remainder, unit). -/
def inUnits (num den : Nat) (q : Int) : Nat × Nat × Nat :=
  let nu := num * pow2Den q
  let de := den * pow2Num q
  (nu / de, nu % de, de)

/-- One of two adjacent grid values, floor or floor + 1, for a magnitude with remainder `r` of `de` (08 R154,
R155). `tieUp` says whether the upper one has the even code. -/
def pick (mode : Rnd) (neg : Bool) (r de : Nat) (tieUp : Bool) : Nat :=
  if r = 0 then 0 else
  match mode with
  | .rne => if 2 * r > de || (2 * r = de && tieUp) then 1 else 0
  | .rtz => 0
  | .raz => 1
  | .rdn => if neg then 1 else 0
  | .rup => if neg then 0 else 1
  | .sr w =>
    -- t is measured from the lower of the two values: for a negative x that is the larger magnitude
    if neg then (if w * de < (de - r) * 2 ^ 32 then 0 else 1)
    else (if w * de < r * 2 ^ 32 then 1 else 0)

/-- The quantum exponent of the grid at a magnitude of exponent k (08 R153; subnormals share one quantum). -/
def Fmt.quantum (f : Fmt) (k : Int) : Int :=
  if f.E = 0 then -f.bias else (max k f.emin) - (f.M : Int)

/-- Rounds num/den (> 0) onto the grid with an unbounded exponent: the integer count of quanta, the quantum's
exponent, and whether it differs from the exact value. -/
def Fmt.roundGrid (f : Fmt) (mode : Rnd) (neg : Bool) (num den : Nat) : Nat × Int × Bool :=
  let k := ilog2Q num den
  let q := f.quantum k
  let (n, r, de) := inUnits num den q
  let tieUp : Bool :=
    if f.E ≠ 0 && f.M = 0 && decide (f.emin ≤ k) then decide ((k + f.bias) % 2 ≠ 0) else n % 2 == 1
  (n + pick mode neg r de tieUp, q, r != 0)

/-- The largest finite magnitude as a count and an exponent (08 R152). -/
def Fmt.fmax (f : Fmt) : Nat × Int :=
  if f.E = 0 then (2 ^ f.M - 1, -f.bias)
  else
    let top : Int := ((2 ^ f.E - (if f.ieee then 2 else 1) : Nat) : Int) - f.bias
    (2 ^ (f.M + 1) - 1, top - (f.M : Int))

/-- The largest magnitude below zero: 2^M quanta for a signed integer-coded format, else as `fmax`; zero when
unsigned (08 R152, R153). -/
def Fmt.fminMag (f : Fmt) : Nat × Int :=
  if !f.S then (0, 0) else if f.E = 0 then (2 ^ f.M, -f.bias) else f.fmax

/-- a × 2^p compared with b × 2^q. -/
def ltScaled (a : Nat) (p : Int) (b : Nat) (q : Int) : Bool :=
  if p ≤ q then decide (a < b * 2 ^ (q - p).toNat) else decide (a * 2 ^ (p - q).toNat < b)

/-- The code of the representable value (-1)^neg × n × 2^q. -/
def Fmt.encode (f : Fmt) (neg : Bool) (n : Nat) (q : Int) : Nat :=
  if f.E = 0 then
    wrapInt f.width (if neg then -(n : Int) else n)
  else
    let sgn := if neg && f.S then 2 ^ (f.E + f.M) else 0
    if n = 0 then sgn
    else
      let k : Int := (Nat.log2 n : Int) + q
      if k < f.emin then sgn + n * pow2Num (q - (f.emin - f.M)) / pow2Den (q - (f.emin - f.M))
      else
        let d : Int := q - (k - f.M)
        let man := n * pow2Num d / pow2Den d
        sgn + (k + f.bias).toNat * 2 ^ f.M + (man - 2 ^ f.M)

/-- The code and flags of an overflow (08 R153). -/
def Fmt.overflow (f : Fmt) (mode : Rnd) (neg : Bool) : Nat × Flags :=
  let sat : Nat := if neg then f.encode true f.fminMag.1 f.fminMag.2 else f.encode false f.fmax.1 f.fmax.2
  if !f.hasNan then (sat, flOF ||| flNX)
  else
    let toInf : Bool := match mode with
      | .rtz => false
      | .rdn => neg
      | .rup => !neg
      | _ => true
    if !toInf then (sat, flOF ||| flNX)
    else if f.M = 0 then (f.nan, flOF ||| flNX ||| flNV)
    else ((if neg && f.S then 2 ^ (f.E + f.M) else 0) + (2 ^ f.E - 1) * 2 ^ f.M, flOF ||| flNX)

/-- Whether a magnitude, rounded with an unbounded exponent, is below the smallest normal (08 R162). Under stochastic rounding, where the
manual does not say which rounding this is, it is RNE (DESIGN CHOICE, log entry 80). -/
def Fmt.tiny (f : Fmt) (mode : Rnd) (neg : Bool) (num den : Nat) : Bool :=
  if f.E = 0 then false
  else
    let k := ilog2Q num den
    let q := k - (f.M : Int)
    let (n, r, de) := inUnits num den q
    let tieUp : Bool := if f.M = 0 then decide ((k + f.bias) % 2 ≠ 0) else n % 2 == 1
    let n' := n + pick (match mode with | .sr _ => .rne | m => m) neg r de tieUp
    ltScaled n' q 1 f.emin

/-- Converts the exact non-zero value (-1)^neg × num/den (08 R153, the last case, with R162's flags). A value beyond the largest finite one
that RNE still rounds to it may, under stochastic rounding, go to the grid value above it, and then overflows (08 R155; DESIGN CHOICE, log
entry 80). -/
def Fmt.roundQ (f : Fmt) (mode : Rnd) (neg : Bool) (num den : Nat) : Nat × Flags :=
  if neg && !f.S then
    if f.hasNan then (f.nan, flNV) else (0, flNX ||| flIf (f.tiny mode neg num den) flUF)
  else
    let past (n : Nat) (q : Int) : Bool :=
      let lim := if neg then f.fminMag else f.fmax
      ltScaled lim.1 lim.2 n q
    let (n0, q0, _) := f.roundGrid .rne neg num den
    let mode' : Rnd := match mode with
      | .sr r => if past n0 q0 then .rne else .sr r
      | m => m
    let (n, q, ix) := f.roundGrid mode' neg num den
    if past n q then f.overflow mode' neg
    else (f.encode neg n q, flIf ix flNX ||| flIf (ix && f.tiny mode' neg num den) flUF)

/-- Converts an exact value into a format (08 R153). -/
def Fmt.convert (f : Fmt) (mode : Rnd) (v : Val) : Nat × Flags :=
  match v with
  | .nan => if f.hasNan then (f.nan, 0#5) else (0, flNV)
  | .inf neg =>
    if !f.hasNan then
      (if neg then f.encode true f.fminMag.1 f.fminMag.2 else f.encode false f.fmax.1 f.fmax.2, flNV)
    else if neg && !f.S then (f.nan, flNV)
    else if f.M = 0 then (f.nan, flNV)
    else ((if neg then 2 ^ (f.E + f.M) else 0) + (2 ^ f.E - 1) * 2 ^ f.M, 0#5)
  | .fin neg 0 _ => (f.encode (neg && f.E != 0) 0 0, 0#5)
  | .fin neg m e => f.roundQ mode neg (m * pow2Num e) (pow2Den e)

/-- The negation of a value. -/
def Val.neg : Val → Val
  | .nan => .nan
  | .inf s => .inf !s
  | .fin s m e => .fin (!s) m e

/-- Whether a value is a NaN. -/
def Val.isNan : Val → Bool
  | .nan => true
  | _ => false

/-- Whether a value is an infinity. -/
def Val.isInf : Val → Bool
  | .inf _ => true
  | _ => false

/-- Whether a value is finite. -/
def Val.isFin : Val → Bool
  | .fin .. => true
  | _ => false

/-- Whether a value is a zero. -/
def Val.isZero : Val → Bool
  | .fin _ 0 _ => true
  | _ => false

/-- The sign of a value. -/
def Val.sign : Val → Bool
  | .nan => false
  | .inf s => s
  | .fin s _ _ => s

/-- The exact product, and whether it is 0 × ∞. A NaN operand gives a NaN. -/
def Val.mul (a b : Val) : Val × Bool :=
  match a, b with
  | .nan, _ => (.nan, false)
  | _, .nan => (.nan, false)
  | .inf s, .inf t => (.inf (s != t), false)
  | .inf s, .fin t m _ => if m = 0 then (.nan, true) else (.inf (s != t), false)
  | .fin t m _, .inf s => if m = 0 then (.nan, true) else (.inf (s != t), false)
  | .fin s m e, .fin t n f => (.fin (s != t) (m * n) (e + f), false)

/-- An exact sum in progress. `inv` records 0 × ∞ or opposite infinities; `negz` that every addend so far was −0. -/
structure Sum where
  nan : Bool
  inv : Bool
  pinf : Bool
  ninf : Bool
  negz : Bool
  m : Int
  e : Int
  deriving DecidableEq, Repr

/-- The empty sum. -/
def Sum.zero : Sum := ⟨false, false, false, false, true, 0, 0⟩

/-- Adds m × 2^e exactly. -/
def Sum.addInt (s : Sum) (m : Int) (e : Int) : Sum :=
  if m = 0 then s
  else if s.m = 0 then { s with m := m, e := e }
  else if e ≤ s.e then { s with m := s.m * (2 ^ (s.e - e).toNat : Nat) + m, e := e }
  else { s with m := s.m + m * (2 ^ (e - s.e).toNat : Nat) }

/-- Adds an exact value. -/
def Sum.add (s : Sum) (v : Val) : Sum :=
  match v with
  | .nan => { s with nan := true, negz := false }
  | .inf neg => if neg then { s with ninf := true, negz := false } else { s with pinf := true, negz := false }
  | .fin neg m e =>
    { s.addInt (if neg then -(m : Int) else (m : Int)) e with negz := s.negz && neg && m == 0 }

/-- Adds an exact product, recording 0 × ∞. -/
def Sum.addProd (s : Sum) (p : Val × Bool) : Sum :=
  if p.2 then { s with nan := true, inv := true, negz := false } else s.add p.1

/-- The value of a sum: a NaN where one came in or infinities of both signs met (10 R196, 09 R176). -/
def Sum.val (s : Sum) : Val :=
  if s.nan || (s.pinf && s.ninf) then .nan
  else if s.pinf then .inf false
  else if s.ninf then .inf true
  else .fin (if s.m = 0 then s.negz else decide (s.m < 0)) s.m.natAbs s.e

/-- Whether a sum is an invalid operation (08 R162). -/
def Sum.invalid (s : Sum) : Bool := s.inv || (s.pinf && s.ninf)

/-- Rounds a sum once under RNE, with its flags. -/
def Sum.round (s : Sum) (f : Fmt) : Nat × Flags :=
  let (c, fl) := f.convert .rne s.val
  (c, fl ||| flIf s.invalid flNV)

/-- Round(a + b, RNE) with its flags (09 R176). -/
def fadd (f : Fmt) (a b : Nat) : Nat × Flags :=
  ((Sum.zero.add (f.decode a)).add (f.decode b)).round f

/-- Round(a − b, RNE). -/
def fsub (f : Fmt) (a b : Nat) : Nat × Flags :=
  ((Sum.zero.add (f.decode a)).add (f.decode b).neg).round f

/-- Round(a × b, RNE). -/
def fmul (f : Fmt) (a b : Nat) : Nat × Flags :=
  let p := (f.decode a).mul (f.decode b)
  let (c, fl) := f.convert .rne p.1
  (c, fl ||| flIf p.2 flNV)

/-- Round(±(a × b) ± d, RNE), rounded once (09 R177). -/
def ffma (f : Fmt) (negProd negAdd : Bool) (a b d : Nat) : Nat × Flags :=
  let p := (f.decode a).mul (f.decode b)
  let p := if negProd then (p.1.neg, p.2) else p
  let dv := f.decode d
  ((Sum.zero.addProd p).add (if negAdd then dv.neg else dv)).round f

/-- Compares two values numerically: `some true` when a < b, `none` when either is a NaN. -/
def Val.lt (a b : Val) : Option Bool :=
  match a, b with
  | .nan, _ => none
  | _, .nan => none
  | .inf s, .inf t => some (s && !t)
  | .inf s, .fin .. => some s
  | .fin .., .inf t => some !t
  | .fin s m e, .fin t n f =>
    let x : Int := if s then -(m : Int) else m
    let y : Int := if t then -(n : Int) else n
    if e ≤ f then some (decide (x < y * (2 ^ (f - e).toNat : Nat)))
    else some (decide (x * (2 ^ (e - f).toNat : Nat) < y))

/-- a < b, false with a NaN. -/
def Val.ltB (a b : Val) : Bool := (a.lt b).getD false

/-- a = b numerically, false with a NaN; −0 equals +0. -/
def Val.eqB (a b : Val) : Bool :=
  !a.isNan && !b.isNan && !a.ltB b && !b.ltB a

/-- The order of MIN and MAX: numeric, with −0 below +0 (09 R176). -/
def Val.below (a b : Val) : Bool :=
  a.ltB b || (a.eqB b && a.isZero && a.sign && !b.sign)

/-- The smaller (or larger) of two codes; a NaN operand gives the canonical NaN (09 R176). -/
def fmin (f : Fmt) (a b : Nat) : Nat :=
  let x := f.decode a; let y := f.decode b
  if x.isNan || y.isNan then f.nan else if y.below x then b else a
/-- The larger of two codes. -/
def fmax2 (f : Fmt) (a b : Nat) : Nat :=
  let x := f.decode a; let y := f.decode b
  if x.isNan || y.isNan then f.nan else if x.below y then b else a

/-- a with its sign cleared; a NaN gives the canonical NaN (09 R176). -/
def fabs (f : Fmt) (a : Nat) : Nat :=
  if (f.decode a).isNan then f.nan else a % 2 ^ (f.width - 1)

/-- a with its sign flipped; a NaN gives the canonical NaN. -/
def fneg (f : Fmt) (a : Nat) : Nat :=
  if (f.decode a).isNan then f.nan
  else if a / 2 ^ (f.width - 1) % 2 = 1 then a % 2 ^ (f.width - 1) else a % 2 ^ (f.width - 1) + 2 ^ (f.width - 1)

/-- The infinity of a fixed format. -/
def Fmt.infCode (f : Fmt) (neg : Bool) : Nat := b2n neg * 2 ^ (f.E + f.M) + (2 ^ f.E - 1) * 2 ^ f.M

/-- The exact quotient rounded once under RNE (08 R164). -/
def fdiv (f : Fmt) (a b : Nat) : Nat × Flags :=
  match f.decode a, f.decode b with
  | .nan, _ => (f.nan, 0#5)
  | _, .nan => (f.nan, 0#5)
  | .inf _, .inf _ => (f.nan, flNV)
  | .inf s, .fin t _ _ => (f.infCode (s != t), 0#5)
  | .fin s _ _, .inf t => (f.encode (s != t) 0 0, 0#5)
  | .fin s m e, .fin t n g =>
    if n = 0 then (if m = 0 then (f.nan, flNV) else (f.infCode (s != t), flDZ))
    else if m = 0 then (f.encode (s != t) 0 0, 0#5)
    else f.roundQ .rne (s != t) (m * pow2Num (e - g)) (n * pow2Den (e - g))

/-- 1 ÷ a (08 R164): DZ for a zero. -/
def frcp (f : Fmt) (a : Nat) : Nat × Flags := fdiv f (f.encode false 1 0) a

/-- The integer square root by bits from 2^k down: the largest r with r² ≤ n, r < 2^(k+1). -/
def isqrtAux : Nat → Nat → Nat → Nat
  | 0, n, r => if (r + 1) * (r + 1) ≤ n then r + 1 else r
  | k + 1, n, r => isqrtAux k n (if (r + 2 ^ (k + 1)) * (r + 2 ^ (k + 1)) ≤ n then r + 2 ^ (k + 1) else r)

/-- ⌊√n⌋. -/
def isqrt (n : Nat) : Nat := isqrtAux (Nat.log2 n / 2 + 1) n 0

/-- √a rounded once under RNE (08 R164). -/
def fsqrt (f : Fmt) (a : Nat) : Nat × Flags :=
  match f.decode a with
  | .nan => (f.nan, 0#5)
  | .inf s => if s then (f.nan, flNV) else (f.infCode false, 0#5)
  | .fin s m e =>
    if m = 0 then (f.encode s 0 0, 0#5)
    else if s then (f.nan, flNV)
    else
      -- scale so that the root has at least M + 4 bits; a remainder becomes a sticky half unit
      let sh : Nat := 2 * (f.M + 4) + (if (e % 2) = 0 then 0 else 1)
      let n := m * 2 ^ sh
      let r := isqrt n
      let e2 : Int := (e - sh) / 2 - 1
      f.roundQ .rne false ((2 * r + (if r * r = n then 0 else 1)) * pow2Num e2) (pow2Den e2)

/-- The F32 significand of 2^(i/128), in units of 2^-23: the integer nearest 2^(23 + i/128) (08 R165, table T).
The search keeps the largest c with c^128 ≤ 2^(128 × 23 + i). -/
def expTabAux (i : Nat) : Nat → Nat → Nat
  | 0, c => if (c + 1) ^ 128 ≤ 2 ^ (2944 + i) then c + 1 else c
  | k + 1, c => expTabAux i k (if (c + 2 ^ (k + 1)) ^ 128 ≤ 2 ^ (2944 + i) then c + 2 ^ (k + 1) else c)

/-- T[i] as a significand of 24 bits: rounded to nearest by comparing the midpoint (08 R165). -/
def expTab (i : Nat) : Nat :=
  let c := expTabAux i 22 (2 ^ 23)
  if (2 * c + 1) ^ 128 ≤ 2 ^ (3072 + i) then c + 1 else c

/-- An F32 step rounded under RNE. -/
def rne32 (v : Val) : Nat := (fF32.convert .rne v).1
/-- RNE(a × b) in F32. -/
def mul32 (a b : Nat) : Nat := (fmul fF32 a b).1
/-- RNE(a + b) in F32. -/
def add32 (a b : Nat) : Nat := (fadd fF32 a b).1

/-- EXP2 of an F32 code (08 R165). -/
def exp2 (x : Nat) : Nat × Flags :=
  match fF32.decode x with
  | .nan => (fF32.nan, 0#5)
  | .inf s => (if s then 0 else fF32.infCode false, 0#5)
  | .fin s m e =>
    if m = 0 then (0x3F800000, 0#5)
    else if decide (9 ≤ (Nat.log2 m : Int) + e) then
      -- |x| ≥ 512: T[i] × p × 2^n lies beyond both ends of the format whatever i and p are
      if s then (0, flUF ||| flNX) else (fF32.infCode false, flOF ||| flNX)
    else
      let y : Int := if s then -(m : Int) else m
      -- k = ⌊x × 128⌋
      let k : Int := if 0 ≤ e + 7 then y * (2 ^ (e + 7).toNat : Nat) else Int.fdiv y ((2 ^ (-(e + 7)).toNat : Nat) : Int)
      let n := Int.fdiv k 128
      let i := (k - 128 * n).toNat
      -- f = x − k ÷ 128, exact
      let fr := ((Sum.zero.addInt y e).addInt (-k) (-7))
      let f : Val := .fin false fr.m.natAbs fr.e
      let mulF (h : Nat) : Nat := rne32 ((fF32.decode h).mul f).1
      let h := mulF 0x3D635847
      let h := add32 h 0x3E75FDF0
      let h := mulF h
      let h := add32 h 0x3F317218
      let h := mulF h
      let p := add32 h 0x3F800000
      match fF32.decode p with
      | .fin _ pm pe => fF32.convert .rne (.fin false (expTab i * pm) (pe - 23 + n))
      | _ => (fF32.nan, 0#5)

/-- The largest index i with T[i] ≤ m, for a significand m of 24 bits (08 R166). -/
def logIdx (m : Nat) : Nat → Nat
  | 0 => 0
  | i + 1 => if expTab (i + 1) ≤ m then i + 1 else logIdx m i

/-- LOG2 of an F32 code (08 R166). -/
def log2f (x : Nat) : Nat × Flags :=
  match fF32.decode x with
  | .nan => (fF32.nan, 0#5)
  | .inf s => if s then (fF32.nan, flNV) else (fF32.infCode false, 0#5)
  | .fin s m e =>
    if m = 0 then (fF32.infCode true, flDZ)
    else if s then (fF32.nan, flNV)
    else
      let l := Nat.log2 m
      let ex : Int := (l : Int) + e
      let sig := if l ≤ 23 then m * 2 ^ (23 - l) else m / 2 ^ (l - 23)
      let i := logIdx sig 127
      let t := expTab i
      let u := if sig = t then 0 else (fF32.roundQ .rne false (sig - t) t).1
      let h := mul32 0x3EF6384F u
      let h := add32 h 0xBF38AA3B
      let h := mul32 h u
      let h := add32 h 0x3FB8AA3B
      let q := mul32 h u
      (((Sum.zero.addInt ex 0).addInt i (-7)).add (fF32.decode q)).round fF32 |> fun (c, fl) =>
        (if c = 0x80000000 then 0 else c, fl)

end Sys2Proof.Machine
end

