-- ==== Sys2Proof/Machine/Format.lean ====
section
/-! DEFINITION. Format descriptors, format tags, block scaling, tile layouts and exact cells (08 R149-R152, R156-R161,
R169-R171). -/

namespace Sys2Proof.Machine

/-- A format tag (08 R159): an 8-bit code and, for NARROW codes, descriptor bits [23:0]. -/
structure Tag where
  code : Nat
  desc : Nat
  deriving DecidableEq, Repr

/-- RAW. -/
def Tag.raw : Tag := ⟨0x00, 0⟩
/-- F32. -/
def Tag.f32 : Tag := ⟨0x01, 0⟩
/-- F64. -/
def Tag.f64 : Tag := ⟨0x02, 0⟩
/-- F16. -/
def Tag.f16 : Tag := ⟨0x03, 0⟩
/-- H16. -/
def Tag.h16 : Tag := ⟨0x04, 0⟩
/-- I32. -/
def Tag.i32 : Tag := ⟨0x05, 0⟩

/-- KIND of a descriptor (08 R149). -/
def descKind (d : Nat) : Nat := bits d 31 28

/-- The narrow format of a descriptor's BIAS, IEEE, M, E and S (08 R149). -/
def descFmt (d : Nat) : Fmt :=
  ⟨bit d 3, bits d 7 4, bits d 11 8, signed 8 (bits d 23 16), bit d 12⟩

/-- Whether a descriptor is valid (08 R151). -/
def descValid (d : Nat) : Bool :=
  if descKind d = 0 then
    decide (1 ≤ bits d 7 4 + bits d 11 8) && decide (b2n (bit d 3) + bits d 7 4 + bits d 11 8 ≤ 8)
      && (!bit d 12 || decide (2 ≤ bits d 7 4))
  else decide (descKind d ≤ 5)

/-- The tag a tile takes under a descriptor (08 R159); `scaled` marks a block-scaled narrow tile. -/
def descTag (d : Nat) (scaled : Bool) : Tag :=
  match descKind d with
  | 0 => ⟨if scaled then 0x86 else 0x06, d % 2 ^ 24⟩
  | 1 => .f16
  | 2 => .h16
  | 3 => .f32
  | 4 => .f64
  | _ => .raw

/-- The format of a descriptor of KIND 0 to 4. -/
def descToFmt (d : Nat) : Fmt :=
  match descKind d with
  | 0 => descFmt d
  | 1 => fF16
  | 2 => fH16
  | 3 => fF32
  | _ => fF64

/-- The format of a floating or narrow tag. -/
def Tag.fmt? (t : Tag) : Option Fmt :=
  match t.code with
  | 1 => some fF32
  | 2 => some fF64
  | 3 => some fF16
  | 4 => some fH16
  | 6 => some (descFmt t.desc)
  | 0x86 => some (descFmt t.desc)
  | _ => none

/-- The matrix format classes (10 R193). -/
inductive Cls where
  | c8 | c4 | c16 | f32 | f64
  deriving DecidableEq, Repr

/-- The class of a tag the matrix engine accepts (10 R193). -/
def Tag.cls? (t : Tag) : Option Cls :=
  match t.code with
  | 1 => some .f32
  | 2 => some .f64
  | 3 => some .c16
  | 4 => some .c16
  | 6 => some (if (descFmt t.desc).width ≤ 4 then .c4 else .c8)
  | 0x86 => some (if (descFmt t.desc).width ≤ 4 then .c4 else .c8)
  | _ => none

/-- K of a class (10 R193). -/
def Cls.k : Cls → Nat
  | .c8 => 64
  | .c4 => 128
  | .c16 => 32
  | .f32 => 8
  | .f64 => 4

/-- N of a class: 64 output columns, 32 for F64 (10 R193). -/
def Cls.n : Cls → Nat
  | .f64 => 32
  | _ => 64

/-- Element positions in a 64-byte row (10 R194). -/
def Cls.perRow : Cls → Nat
  | .c8 => 64
  | .c4 => 128
  | .c16 => 32
  | .f32 => 16
  | .f64 => 8

/-- The little-endian number of `n` bytes from position `p` of a byte function. -/
def readAt (rd : Nat → Byte) (p : Nat) : Nat → Nat
  | 0 => 0
  | n + 1 => (rd p).toNat + 256 * readAt rd (p + 1) n

/-- The code at element position `e` of a tile of class `c` (08 R157). -/
def tileCode (c : Cls) (rd : Nat → Byte) (e : Nat) : Nat :=
  match c with
  | .c8 => (rd e).toNat
  | .c4 => if e % 2 = 0 then (rd (e / 2)).toNat % 16 else (rd (e / 2)).toNat / 16
  | .c16 => readAt rd (2 * e) 2
  | .f32 => readAt rd (4 * e) 4
  | .f64 => readAt rd (8 * e) 8

/-- The value of an element of a block: NaN block, or the code times 2^(E8 − 127) × 2^(−μ) (08 R156). -/
def blockElem (f : Fmt) (code e8 mu : Nat) : Val :=
  if e8 = 0xFF then .nan
  else match f.decode code with
    | .fin s m e => .fin s m (e + (e8 : Int) - 127 - (mu : Int))
    | v => v

/-- The value of element position `e` of a tile, with block scales for tag 0x86 (08 R156, R157, 10 R194). -/
def tileVal (t : Tag) (rd side : Nat → Byte) (e : Nat) : Val :=
  match t.fmt?, t.cls? with
  | some f, some c =>
    let code := tileCode c rd e
    if t.code = 0x86 then
      let b := e / 16
      if c = .c4 then blockElem f code (side b).toNat 0
      else blockElem f code (side (2 * b)).toNat ((side (2 * b + 1)).toNat / 2 ^ (e % 16 / 2) % 2)
    else f.decode code
  | _, _ => .nan

/-- |v| rounded away from zero onto F's grid stays within Fmax, for |v| = num/den (08 R158, RAZ). -/
def razFits (f : Fmt) (m : Nat) (e : Int) : Bool :=
  if m = 0 then true
  else
    let (n, q, _) := f.roundGrid .raz false (m * pow2Num e) (pow2Den e)
    !ltScaled f.fmax.1 f.fmax.2 n q

/-- The smallest e in 0-254 with RAZ(a × 2^(127 − e)) ≤ Fmax, or 254 (08 R158). -/
def blockE8 (f : Fmt) (m : Nat) (e : Int) : Nat → Nat → Nat
  | 0, _ => 254
  | fuel + 1, c => if razFits f m (e + 127 - (c : Int)) then c else blockE8 f m e fuel (c + 1)

/-- The larger of two magnitudes m × 2^e. -/
def maxMag (a b : Nat × Int) : Nat × Int := if ltScaled a.1 a.2 b.1 b.2 then b else a

/-- The magnitude of a finite value. -/
def Val.mag : Val → Nat × Int
  | .fin _ m e => (m, e)
  | _ => (0, 0)

/-- A value times 2^k. -/
def Val.scale (v : Val) (k : Int) : Val :=
  match v with
  | .fin s m e => .fin s m (e + k)
  | v => v

/-- A block: its codes, E8, μ byte and flags. -/
structure Block where
  codes : List Nat
  e8 : Nat
  mu : Nat
  flags : Flags
  deriving DecidableEq, Repr

/-- The μ bits, pair by pair: μ_p is set when the doubled pair still fits (08 R158). -/
def blockMu (f : Fmt) (e8 : Nat) : List Val → Nat
  | a :: b :: r =>
    let m := maxMag a.mag b.mag
    b2n (razFits f m.1 (m.2 + 128 - (e8 : Int))) + 2 * blockMu f e8 r
  | _ => 0

/-- Encodes 16 exact values into a block (08 R158). -/
def encodeBlock (f : Fmt) (carryMu : Bool) (mode : Rnd) (vs : List Val) : Block :=
  if vs.any (fun v => !v.isFin) then ⟨vs.map (fun _ => 0), 0xFF, 0, flNV⟩
  else
    let a := vs.foldl (fun m v => maxMag m v.mag) (0, 0)
    let e8 := if a.1 = 0 then 0 else blockE8 f a.1 a.2 255 0
    let mu := if carryMu then blockMu f e8 vs else 0
    let cs := vs.zipIdx.map fun (v, j) => f.convert mode (v.scale (127 - (e8 : Int) + (mu / 2 ^ (j / 2) % 2 : Nat)))
    ⟨cs.map (·.1), e8, mu, cs.foldl (fun fl c => fl ||| c.2) 0#5⟩

/-- The neutral side byte `i` of a tag (08 R157). -/
def neutralSide (t : Tag) (i : Nat) : Byte :=
  if t.cls? = some .c4 then 127#8 else if i % 2 = 0 then 127#8 else 0#8

/-- One contribution to an exact cell (08 R169, R170), on the cell's 64 bytes as a little-endian number each:
SUM in bytes 0-39, FL in 40, COUNT in 48-55; bytes 41-47 and 56-63 become zero. -/
def cellAdd (cell : List Byte) (v : Val) : List Byte :=
  let sum := ofBytes (cell.take 40)
  let fl := ((cell.drop 40).headD 0#8).toNat % 16
  let count := ofBytes ((cell.drop 48).take 8)
  let (sum', fl') : Nat × Nat := match v with
    | .nan => (sum, fl ||| 1)
    | .inf s => (sum, fl ||| (if s then 4 else 2))
    | .fin s m e =>
      if m = 0 then (sum, fl)
      else
        let (n, r, de) := inUnits (m * pow2Num e) (pow2Den e) (-160)
        let n' := n + pick .rne s r de (n % 2 == 1)
        (wrapInt 320 ((sum : Int) + (if s then -(n' : Int) else n')), if r = 0 then fl else fl ||| 8)
  toBytes 40 sum' ++ toBytes 8 fl' ++ toBytes 8 ((count + 1) % 2 ^ 64) ++ toBytes 8 0

/-- Reads a cell into a format (08 R171). -/
def cellRead (f : Fmt) (cell : List Byte) : Nat × Flags :=
  let fl := ((cell.drop 40).headD 0#8).toNat
  let s := signed 320 (ofBytes (cell.take 40))
  let (c, g) : Nat × Flags :=
    if bit fl 0 || (bit fl 1 && bit fl 2) then (f.nan, flIf (!bit fl 0) flNV)
    else if bit fl 1 then (f.infCode false, 0#5)
    else if bit fl 2 then (f.infCode true, 0#5)
    else f.convert .rne (.fin (decide (s < 0)) s.natAbs (-160))
  (c, g ||| flIf (bit fl 3) flNX)

/-- The exact sum of values rounded once, read as a cell is read (08 R167, R171, 09 R184): an exact zero is +0. -/
def exactSum (f : Fmt) (vs : List Val) : Nat × Flags :=
  let s := vs.foldl Sum.add Sum.zero
  if s.nan || (s.pinf && s.ninf) then (f.nan, flIf (!s.nan) flNV)
  else if s.pinf then (f.infCode false, 0#5)
  else if s.ninf then (f.infCode true, 0#5)
  else f.convert .rne (.fin (decide (s.m < 0)) s.m.natAbs s.e)

/-- The canonical NaN for any NaN code, and every other code as it is (08 R147). -/
def Fmt.canon (f : Fmt) (c : Nat) : Nat := if (f.decode c).isNan then f.nan else c

/-- One level of a tree of codes: pairs combined in order, an absent node giving way (08 R167), an unpaired last
node passing up (14 R288). -/
def treeLevel (comb : Nat → Nat → Nat × Flags) : List (Option Nat) → List (Option Nat) × Flags
  | a :: b :: r =>
    let (t, fl) := treeLevel comb r
    match a, b with
    | some x, some y => let (c, g) := comb x y; (some c :: t, fl ||| g)
    | some x, none => (some x :: t, fl)
    | none, y => (y :: t, fl)
  | [a] => ([a], 0#5)
  | [] => ([], 0#5)

/-- The whole tree, level by level, while more than one node remains; `fuel` bounds the levels. -/
def treeSum (comb : Nat → Nat → Nat × Flags) : Nat → List (Option Nat) → Option Nat × Flags
  | 0, l => (l.headD none, 0#5)
  | fuel + 1, l =>
    match l with
    | [] => (none, 0#5)
    | [a] => (a, 0#5)
    | l =>
      let (l', fl) := treeLevel comb l
      let (r, g) := treeSum comb fuel l'
      (r, fl ||| g)

end Sys2Proof.Machine
end

