-- ==== Sys2Proof/Machine/Table.lean ====
section
/-! DEFINITION. Sparse tables and memory as plain data: a list of key and value pairs with rising keys, read through a
default. Memory is such a table of bytes whose default is 0 (DESIGN CHOICE, log entry 4). -/

namespace Sys2Proof

/-- A sparse table: pairs with strictly rising keys. -/
abbrev Tbl (α : Type) := List (Nat × α)

/-- The value at a key, or the default `d`. -/
def Tbl.get {α : Type} (d : α) : Tbl α → Nat → α
  | [], _ => d
  | (k, v) :: r, n => if k = n then v else Tbl.get d r n

/-- The value at a key, if there is one. -/
def Tbl.find {α : Type} : Tbl α → Nat → Option α
  | [], _ => none
  | (k, v) :: r, n => if k = n then some v else Tbl.find r n

/-- Writes a value at a key. -/
def Tbl.put {α : Type} : Tbl α → Nat → α → Tbl α
  | [], n, x => [(n, x)]
  | (k, v) :: r, n, x =>
    if k = n then (n, x) :: r else if n < k then (n, x) :: (k, v) :: r else (k, v) :: Tbl.put r n x

/-- Removes a key. -/
def Tbl.erase {α : Type} : Tbl α → Nat → Tbl α
  | [], _ => []
  | (k, v) :: r, n => if k = n then Tbl.erase r n else (k, v) :: Tbl.erase r n

/-- Writes a value at a key; writing the default removes the entry, so that equal tables are equal lists. -/
def Tbl.set {α : Type} [DecidableEq α] (d : α) (t : Tbl α) (n : Nat) (x : α) : Tbl α :=
  if x = d then Tbl.erase t n else Tbl.put t n x

/-- The keys rise strictly. -/
def Tbl.sorted {α : Type} : Tbl α → Bool
  | [] => true
  | [_] => true
  | (k, _) :: (k', v') :: r => decide (k < k') && Tbl.sorted ((k', v') :: r)

/-- Puts an element before the first whose key is greater. -/
def insertBy {α : Type} (key : α → Nat) (x : α) : List α → List α
  | [] => [x]
  | y :: r => if key x < key y then x :: y :: r else y :: insertBy key x r

/-- A list in the order of its keys; equal keys keep their order. -/
def sortBy {α : Type} (key : α → Nat) (l : List α) : List α := l.foldl (fun r x => insertBy key x r) []

/-- Memory: bytes by address (Host.Cell). -/
abbrev Mem := List Host.Cell

/-- What an address that no entry lists reads as (DESIGN CHOICE, log entry 4). -/
def Mem.unlisted : Byte := 0

/-- The byte at an address. -/
def Mem.byte (m : Mem) (a : Nat) : Byte := Tbl.get Mem.unlisted m a

/-- Writes one byte. -/
def Mem.setByte (m : Mem) (a : Nat) (b : Byte) : Mem := Tbl.set Mem.unlisted m a b

/-- The canonical form: addresses rise strictly and no entry holds what an unlisted address reads as. -/
def Memory.wf (m : Mem) : Bool := Tbl.sorted m && m.all (fun c => c.2 != Mem.unlisted)

/-- The number whose little-endian bytes are the `n` bytes from address `a`. -/
def Mem.read : Mem → Nat → Nat → Nat
  | [], _, _ => 0
  | (k, b) :: r, a, n => (if a ≤ k ∧ k < a + n then b.toNat * 2 ^ (8 * (k - a)) else 0) + Mem.read r a n

/-- The cells of the non-zero bytes of `v`, taken as 2^l little-endian bytes from address `a`. -/
def Mem.cells : Nat → Nat → Nat → Mem
  | 0, a, v => if v % 256 = 0 then [] else [(a, BitVec.ofNat 8 v)]
  | l + 1, a, v =>
    if v = 0 then [] else Mem.cells l a (v % 2 ^ (8 * 2 ^ l)) ++ Mem.cells l (a + 2 ^ l) (v / 2 ^ (8 * 2 ^ l))

/-- The least l with n ≤ 2^l. -/
def log2Up (n : Nat) : Nat := if n ≤ 1 then 0 else Nat.log2 (n - 1) + 1

/-- Writes the `n` low-order bytes of `v` from address `a`, least significant first. -/
def Mem.write (m : Mem) (a n v : Nat) : Mem :=
  m.filter (fun c => decide (c.1 < a)) ++ Mem.cells (log2Up n) a (v % 2 ^ (8 * n)) ++
    m.filter (fun c => decide (a + n ≤ c.1))

/-- Sets the `n` bytes from `a` to zero. -/
def Mem.clear (m : Mem) (a n : Nat) : Mem := m.filter (fun c => !decide (a ≤ c.1 ∧ c.1 < a + n))

/-- The number of the bytes of a list, least significant first, as `Mem.write` takes it. -/
def Mem.writeBytes (m : Mem) (a : Nat) (l : List Byte) : Mem := Mem.write m a l.length (ofBytes l)

/-- The `n` bytes from `a`. -/
def Mem.bytes (m : Mem) (a n : Nat) : List Byte := toBytes n (Mem.read m a n)

end Sys2Proof
end

