-- ==== Sys2Proof/Machine/State.lean ====
section
/-! DEFINITION. The state of a KV-1536 package as plain data: contexts, cores, engines, memory, device registers and the
launch unit, and the state after reset. Tables are sparse (Table.lean); a key that is not listed holds the default
that its field's docstring names. Numbers that the manual adds, shifts or masks as a word are bit vectors; counts,
indices, addresses of memory cells and register contents wider than a word are as the field says. -/

namespace Sys2Proof.Machine

/-- Why a step stops without a next state. No instruction word of the manual raises one: every trap, wait and error
the manual describes is a next state. -/
inductive Fault where
  /-- An event names a unit that the device does not have (a core of 1,536 or above, a context above 10, a die, ring,
  stream, port or channel out of range). Raised by the event rows of the table of operations. Safe. -/
  | noSuchUnit
  deriving DecidableEq, Repr

/-- Why a step refuses an instruction. -/
inductive Refusal where
  /-- The instruction has no meaning in the model. Raised only by an arm of `exec`. Safe. -/
  | notModelled (mnemonic : String)
  deriving DecidableEq, Repr

/-- The names of traps and stops (18 R342). -/
inductive Cause where
  | illegal | format | lookahead | stale | winovf | winunf | align | xlate | prot | heapspill | aucap | brk | sysc
  | memfault | trap | preempt | debug
  deriving DecidableEq, Repr

/-- The cause number of 18 R342. -/
def Cause.num : Cause → Nat
  | .illegal => 0x01 | .format => 0x02 | .lookahead => 0x03 | .stale => 0x04 | .winovf => 0x05 | .winunf => 0x06
  | .align => 0x07 | .xlate => 0x08 | .prot => 0x09 | .heapspill => 0x0A | .aucap => 0x0B | .brk => 0x0C
  | .sysc => 0x0D | .memfault => 0x0E | .trap => 0x0F | .preempt => 0x10 | .debug => 0x11

/-- The storage that a register name stands for (07 R121, R130: w registers count by storage). -/
inductive RegId where
  /-- w1-w7. -/
  | common (n : Nat)
  /-- w8-w15 at depth 0. -/
  | base (n : Nat)
  /-- Register `j` of frame `d`. -/
  | frame (d j : Nat)
  /-- A handler's own w1-w31 (18 R344). -/
  | hand (n : Nat)
  | v (n : Nat)
  | vq
  | m (n : Nat)
  | x (n : Nat)
  | s (n : Nat)
  | f (n : Nat)
  deriving DecidableEq, Repr

/-- A result in the bypass (07 R128). -/
structure Bypassed where
  /-- The register its d field names. -/
  reg : RegId
  /-- The entry that still has to write it, by sequence number; none once the value stands. -/
  seq : Option Nat
  val : Nat
  /-- For a vector, the tag it carries. -/
  tag : Nat
  deriving DecidableEq, Repr

/-- The state of a guard slot (07 R132). -/
inductive QSlot where
  /-- Unresolved with no value, as QUNRES leaves it. -/
  | empty
  /-- Unresolved, pending on the entry with this sequence number. -/
  | pending (seq : Nat)
  | val (b : Bool)
  deriving DecidableEq, Repr

/-- A level of the loop stack (14 R293). -/
structure Loop where
  start : W64
  fin : W64
  count : W64
  init : W64
  /-- The window depth at which it was pushed. -/
  win : Nat
  deriving DecidableEq, Repr

/-- A HINT of a pending chain (02 R23). -/
inductive Hint where
  | imm (payload : Nat)
  | home (die : Nat)
  | mod (modifier : Nat)
  deriving DecidableEq, Repr

/-- The result that an engine holds for a context that no longer waits in its window (18 R348: written at TRET). -/
inductive Res where
  | none
  | w (v : W64)
  | w2 (v1 v2 : W64)
  | q (b : Bool)
  | tile (n : Nat) (bytes side : Nat) (tag : Tag)
  /-- A tile and PIVMASK. -/
  | tfact (n : Nat) (bytes side : Nat) (tag : Tag) (mask : Nat)
  | fault (cause : Cause) (code : Nat) (aux : W64)
  /-- The register results of an effect that took place while the window of its instruction was still open (07 R129, R130). -/
  | regs (l : List (RegId × W64))
  /-- The projection configuration of a VPJ.CFG. -/
  | cfg (l : List Nat)
  deriving DecidableEq, Repr

/-- An issued long-latency instruction with its captured operands (07 R130, 18 R340). -/
structure Entry where
  /-- Its sequence number in the context. -/
  seq : Nat
  instr : Instr
  word : W32
  /-- Its own address, or that of the first HINT of its chain. -/
  pc : W64
  /-- Its own address, for the end evaluation. -/
  own : W64
  imm : Option W64
  opd : W64
  opa : W64
  opb : W64
  mask : W64
  /-- The HOME HINT's die in [1:0], the MOD HINT's modifier in [15:8]. -/
  hints : Nat
  va : Nat
  vb : Nat
  /-- Instructions of its window that have not issued. -/
  left : Nat
  /-- Its effect is already in progress and is not issued again. -/
  await : Bool
  /-- The end evaluation of R295 is made when it completes (18 R341). -/
  atEnd : Bool
  /-- Operands captured beside the replay entry: tags, descriptors, scales, pieces of records. -/
  ext : List Nat
  /-- The privilege at issue (03 R52). -/
  priv : Bool
  /-- The core's cycle in which it issued, 0 for an entry that a frame brought back (10 R191). -/
  cyc : Nat
  deriving DecidableEq, Repr

/-- What a context does (14 R270, 18 R346, R351). -/
inductive Life where
  | idle
  | live
  /-- Killed by a fatal fault. -/
  | dead
  /-- Stopped by pre-emption or debug, to resume as TRET from its frame would. -/
  | stopped
  deriving DecidableEq, Repr

/-- The scalar registers (07 R120-R122). -/
structure RegFile where
  /-- w1-w7, default 0. -/
  common : Tbl W64
  /-- w8-w15 at depth 0, default 0. -/
  base : Tbl W64
  /-- Register j of frame D under key 16 D + j, default 0. -/
  stack : Tbl W64
  cwp : Nat
  low : Nat
  deriving DecidableEq, Repr

/-- The vector, mask and tile registers with their tags (07 R120, 08 R159). Contents are little-endian numbers. -/
structure VecFile where
  /-- v0-v31, 256 bytes each, default 0. -/
  v : Tbl Nat
  /-- Tag codes, default 0 (RAW). -/
  vtag : Tbl Nat
  /-- m1-m7, default 0. -/
  m : Tbl W64
  /-- x0-x7, 4,096 bytes each, default 0. -/
  x : Tbl Nat
  /-- Their side areas, 512 bytes each, default 0. -/
  side : Tbl Nat
  /-- Tags, default RAW. -/
  xtag : Tbl Tag
  deriving DecidableEq, Repr

/-- The special registers of a context (07 R134, R135, 08 R150, 10 R207, 06 R100, 14 R300). -/
structure SpecFile where
  fstat : Flags
  /-- f0-f15, default 0x0007_0348. -/
  f : Tbl W32
  /-- s0-s7, default 0x3F80_0000. -/
  s : Tbl W32
  pivthr : W64
  pivreg : W64
  pivmask : W32
  xlfmt : W32
  wid : W64
  widhdr : W64
  deriving DecidableEq, Repr

/-- The stream binding of a context (04 R73). -/
structure Stream where
  ring : Nat
  tag : Nat
  /-- Payload bytes of the current message already consumed. -/
  used : Nat
  deriving DecidableEq, Repr

/-- The fetch and issue state of a context. -/
structure Flow where
  pc : W64
  /-- The pending HINT chain in fetch order, and the address of its first HINT (02 R25). -/
  chain : List Hint
  chainPc : W64
  /-- q1-q7, default true. -/
  q : Tbl QSlot
  /-- Loop stack, outermost level first. -/
  loops : List Loop
  /-- The three most recent results, oldest first. -/
  bypass : List Bypassed
  /-- Registers whose latest write was transient, with the tag code that write carried. -/
  stale : List (RegId × Nat)
  /-- Issued and unfinished long-latency instructions, in program order. -/
  inflight : List Entry
  /-- The next sequence number. -/
  seq : Nat
  /-- Instructions that are finished while their windows are still open (07 R129, 18 R341). -/
  gone : List Entry := []
  deriving DecidableEq, Repr

/-- What a trap frame does not hold of a stopped level: the stale registers and the effects in progress (18 R348). -/
structure Saved where
  level : Nat
  /-- The privilege that the level ran with as a handler. -/
  hpriv : Bool
  stale : List (RegId × Nat)
  awaiting : List Entry
  /-- The slots that wait on an entry, with its sequence number. -/
  slots : List (Nat × Nat)
  /-- The places of the bypass, oldest first: the register of each, and the entry that has still to write it. -/
  byp : List (RegId × Option Nat)
  /-- Its unfinished instructions in program order: sequence number and address. -/
  queue : List (Nat × W64)
  deriving DecidableEq, Repr

/-- A store that a context has made and that is still on its way (03 R59, 04 R65, 16 R320, R322): it stands in memory once it has
landed, and a posted one stays listed until its acknowledgement. -/
structure Store where
  /-- The first byte in this package's memory; none for a place outside it. -/
  key : Option Nat
  /-- The fabric device, and the physical address that the leaf gave. -/
  dev : Nat
  pa : Nat
  /-- The key slot of its page, under whose key it lands (03 R53, 19 R369). -/
  mat : Nat
  n : Nat
  v : Nat
  /-- A store to the fabric aperture. -/
  posted : Bool
  landed : Bool
  /-- The number of free values taken when it was made: what the bound of its stay on the way counts from (16 R325; the model's own
  field; DESIGN CHOICE, log entry 70). -/
  birth : Nat
  deriving DecidableEq, Repr

/-- A core that waits to follow, or follows, a leader (14 R290, R291). -/
structure Follow where
  leader : Nat
  /-- The address of the instruction after the FOLLOW. -/
  at_ : W64
  /-- Following has begun. -/
  on : Bool
  /-- Words the leader has issued and the follower has not, with their addresses, oldest first, at most 64; the flag marks
  a word that ends following. -/
  queue : List (W64 × Nat × Bool)
  deriving DecidableEq, Repr

/-- A context (14 R270). -/
structure Ctx where
  life : Life
  rf : RegFile
  vec : VecFile
  spec : SpecFile
  flow : Flow
  /-- STATUS.LEVEL as the hardware holds it (18 R338). -/
  level : Nat
  /-- The running handler is privileged (18 R344, R349). -/
  hpriv : Bool
  /-- The handler's own w1-w31, default 0. -/
  hw : Tbl W64
  /-- The pending flag set of handler mode (18 R345). -/
  hflags : Flags
  /-- Saved levels. -/
  saved : List Saved
  /-- Results of effects that ended while their entry stood in a frame. -/
  results : List (Nat × Res)
  /-- What remote commands and VPJ.CFG have written to the registers of level 0 while those stand in a frame: they join the registers
  when level 0 is taken up again (10 R206, 18 R348). -/
  late : List Res
  stream : Option Stream
  /-- Projection configuration: the 128 bytes of R253 and the captured descriptors f; empty when there is none. -/
  vpj : List Nat
  /-- Held messages, oldest first (04 R68). -/
  held : List Msg
  /-- Stores on their way, oldest first (04 R65, 16 R320), and the physical address of the first posted one that failed. -/
  stores : List Store
  postFail : Option Nat
  /-- The pennant that the helper runs: its parent and its AJ flag (14 R272, R275). -/
  pennant : Option (W64 × Bool)
  /-- The helper was started by START and has not exited. -/
  started : Bool
  /-- The core's state as a follower (14 R290). -/
  follow : Option Follow
  /-- The core cycle of its last issue or of becoming live, from which its age counts, and the ready cycles for which it has
  been passed over (15 R312); the first cycle in which it may be selected again after YIELD (14 R273). -/
  last : Nat
  passed : Nat
  yielded : Nat
  /-- Single step left before stopping again (18 R357). -/
  stepping : Bool
  deriving DecidableEq, Repr

/-- A copy command (05 R79-R82). -/
structure Copy where
  /-- Its number in the model: of two commands of one bulk engine, the one that arrived first has the lower. -/
  id : Nat
  /-- Sequence number of its instruction. -/
  seq : Nat
  core : Nat
  ctx : Nat
  domain : Nat
  priv : Bool
  /-- 0 CP, 1 CP2D, 2 CPIDX, 3 CPRED.o, 4 CPRED.u. -/
  form : Nat
  ctl : W64
  dst : W64
  src : W64
  rows : Nat
  dstride : W64
  sstride : W64
  idx : W64
  mode : Nat
  /-- Descriptor for RFMT 6. -/
  desc : W32
  /-- Started. What it reads now is indices (1) or sources (2), or it writes (3). -/
  started : Bool
  stage : Nat
  /-- The words still to be read, each with its number in the stage, its address and its width, and the words read. -/
  reads : List (Nat × W64 × Nat)
  data : Tbl Nat
  /-- Destination and source of each run. -/
  runs : List (W64 × W64)
  /-- The words still to be written: address, width in bytes and value, in the order of writing. -/
  todo : List (Nat × Nat × Nat)
  flags : Flags
  err : Option (Nat × W64)
  deriving DecidableEq, Repr

/-- The source of a matrix command (10 R191). -/
inductive MqSrc where
  /-- Context and sequence number of its entry. -/
  | ctx (k seq : Nat)
  | remote (cmd : RemoteCmd)
  /-- A ring task: its ring while that exists, match table entry and index, whether against the trailing tile, scale, and
  the families' tags. -/
  | ring (ring : Option Nat) (entry : W64) (index : Nat) (trail : Bool) (scale : W32) (cwTag ccwTag : Tag)
  deriving DecidableEq, Repr

/-- An entry of the matrix queue. -/
structure MqEntry where
  src : MqSrc
  started : Bool
  flags : Flags
  res : Res
  /-- Copy of the entry for a context command. -/
  entry : Option Entry
  deriving DecidableEq, Repr

/-- A tile on a ring (11 R211). -/
structure RTile where
  hdr : W64
  bytes : Nat
  side : Nat
  ret : W64
  /-- Injected and not yet counted (11 R227). -/
  fresh : Bool
  deriving DecidableEq, Repr

/-- The launch part of a core (14 R269, 15 R306). -/
structure Part where
  queue : Nat
  domain : Nat
  prio : Nat
  comm : Bool
  kimg : W64
  widhdr : W64
  args : List W64
  /-- Initial descriptors of the kernel's .fmt notes. -/
  fmts : List (Nat × W32)
  /-- Identifiers dealt and not yet taken. -/
  run : List W64
  /-- Identifiers whose runs completed on this core. -/
  done : Nat
  /-- NEXT has found the run exhausted (14 R274). -/
  exhausted : Bool
  /-- The declared promise: 0 none, 1 run, 2 bitwise (19 R362). -/
  promise : Nat
  /-- Some context of the part died. -/
  died : Bool
  /-- The part has ended: no context runs work of the launch here (14 R272). -/
  ended : Bool
  deriving DecidableEq, Repr

/-- A cached translation (03 R54): domain, page base, page size log and leaf entry. -/
structure TlbEntry where
  domain : Nat
  vpn : Nat
  log : Nat
  leaf : Nat
  deriving DecidableEq, Repr

/-- The receive side of a ring as the network interface holds it (04 R69, R70). -/
structure RxRing where
  base : Nat
  slotLog : Nat
  cntLog : Nat
  dom : Nat
  ovfLog : Nat
  head : W32
  tail : W32
  ovfBase : W64
  ovfHead : W32
  ovfTail : W32
  drops : W32
  /-- The domain that set RBEN. -/
  owner : Nat
  deriving DecidableEq, Repr

/-- A core (14 R270, 04, 05, 06, 10, 11). -/
structure Core where
  /-- Contexts 0-10. -/
  ctxs : Tbl Ctx
  /-- Issue cycles of the core so far (15 R312). -/
  cycle : Nat
  /-- Element (row, col) under key 64 row + col, default 0. -/
  acc : Tbl W32
  /-- Written marks of half-rows, key 2 row + half, default false. -/
  marks : Tbl Bool
  /-- SPMAP0-31, default 0. -/
  spmap : Tbl W64
  /-- RBTAB, RBOVF, RBXDROP, ENS0-15, EVSTAT, EVLOST, LSCORR by number, default 0. -/
  creg : Tbl W64
  /-- Enabled rings. -/
  rx : Tbl RxRing
  /-- The context that a ring is bound to. -/
  bound : Tbl Nat
  /-- Send queue, 16 entries, oldest first. -/
  sendq : List Msg
  /-- Event queue, 64 records, oldest first. -/
  evq : List EvRec
  /-- EVOVFB, the domain that wrote it, and the overflow counts. -/
  evovfb : W64
  evdom : Nat
  evhead : Nat
  evtail : Nat
  /-- Copy queue, two entries, and the running commands of the copy unit. -/
  copyq : List Copy
  copyRun : List Copy
  /-- Matrix queue and remote-command buffer. -/
  mq : List MqEntry
  rcbuf : List RemoteCmd
  /-- Array level, commands a BURST hold still waits for (10 R204, R205). -/
  mxlevel : Nat
  burst : Nat
  /-- Match table, default 0. -/
  matchTab : Tbl W64
  /-- Ring that the core belongs to. -/
  ring : Option Nat
  micro : List TlbEntry
  /-- The vector unit has earlier work, so that a V word enters the vector queue (09 R174), and the memory path has, so that a
  store stands on its way and a wide access is made part by part (06 R104, 16 R316); which cycles those are is free (the
  model's own fields; DESIGN CHOICE, log entry 45). -/
  vbusy : Bool
  mbusy : Bool
  part : Option Part
  /-- The domain whose data the core holds (06 R99). -/
  lastDom : Nat
  /-- The register-file lines, local store and accumulator words corrected since reset are in LSCORR; the recent
  corrected errors of the unit (18 R353), and whether it has been declared lasting. -/
  errs : List Nat
  lasting : Bool
  deriving DecidableEq, Repr

/-- What is on its way between units (04 R67, R74, 05 R91, 14 R280, 18 R354, 17 R332). -/
structure Net where
  /-- Event records for a core, oldest first. -/
  recs : List (Nat × EvRec)
  /-- Fault records of a die. -/
  frecs : List (Nat × FaultRec)
  /-- Hardware posts of a pennant: core, address, queue of the launch and domain. -/
  posts : List (Nat × W64 × Nat × Nat)
  /-- Remote matrix commands. -/
  rcmds : List RemoteCmd
  /-- Chunks of work entries. -/
  chunks : List Chunk
  /-- LDS requests parked at their home, in the order they were parked: core, context, sequence number of the entry, word key. -/
  parked : List (Nat × Nat × Nat × Nat)
  deriving DecidableEq, Repr

/-- Match table updates of one RGMT or RGMTU (11 R224, R225). -/
structure MatchUpdate where
  core : Nat
  ctx : Nat
  seq : Nat
  /-- Target core, index and entry. -/
  items : List (Nat × Nat × W64)
  deriving DecidableEq, Repr

/-- A ring (11 R209-R230), under its first member's core index. -/
structure Ring where
  owner : Nat
  /-- The configuration word. -/
  cfg : W64
  domain : Nat
  cwTag : Tag
  ccwTag : Tag
  counter : Nat
  beats : Nat
  tasks : Nat
  /-- A tile entered at the last RGSTART, and RING_DONE has been posted since. -/
  entered : Bool
  doneSent : Bool
  /-- Latches of position p: key 4 p + 0 CW current, 1 CW trailing, 2 CCW current, 3 CCW trailing. -/
  latch : Tbl RTile
  /-- Injection slots and parks, key 2 p + family. -/
  slot : Tbl RTile
  park : Tbl RTile
  /-- Match table updates that wait for a boundary. -/
  pend : List MatchUpdate
  /-- Not idle: a tile is in flight or a return write is not complete (11 R222). -/
  running : Bool
  /-- Tasks formed in the beat that have not entered a matrix queue: core and source. -/
  formed : List (Nat × MqSrc)
  deriving DecidableEq, Repr

/-- A partition of an auction engine (12 R236). -/
structure Partition where
  tok0 : Nat
  ntok : Nat
  nexp : Nat
  pbase : Nat
  sparse : Bool
  cand : Nat
  aulim : Nat
  eps : Nat
  aff : W64
  caps : List Nat
  /-- The rows captured when the auction began, as candidate lists of expert and affinity. -/
  rows : List (List (Nat × Int))
  /-- For each token, the expert that holds it, the held bid and the FB mark. -/
  held : List (Option (Nat × Int × Bool))
  rounds : Nat
  complete : Bool
  fallback : Bool
  fbcount : Nat
  /-- Rounds run before it became complete, 0 while it is not. -/
  doneRounds : Nat
  deriving DecidableEq, Repr

/-- An auction command in the engine's queue (12 R234): 0 AUCFG, 1 PRLD, 2 PRST, 3 AUBID, 4 AUSTEP, 5 AURES. -/
structure AuCmd where
  core : Nat
  ctx : Nat
  seq : Nat
  op : Nat
  d : W64
  a : W64
  b : W64
  domain : Nat
  priv : Bool
  /-- Admitted: its rounds are running. -/
  running : Bool
  deriving DecidableEq, Repr

/-- An auction engine (12 R233-R247). In package mode, engine 0 is the joined engine. -/
structure Auction where
  /-- Price registers, default 0. -/
  prices : Tbl W32
  /-- The domain of the last AUCFG. -/
  domain : Nat
  /-- 0 unconfigured, 1 idle, 2 running, 3 done. -/
  state : Nat
  pkg : Bool
  parts : List Partition
  psat : Bool
  rounds : Nat
  /-- Commands in arrival order. -/
  queue : List AuCmd
  deriving DecidableEq, Repr

/-- A work entry (17 R329, R330): 0 free, 1 ARMED, 2 READY, 3 ACTIVE, 4 DONE. -/
structure Work where
  state : Nat
  comm : Nat
  core : Nat
  ctx : Nat
  priv : Bool
  record : List Byte
  desc : W32
  threshold : W64
  /-- When it became READY, in the order of becoming ready. -/
  ready : Nat
  /-- Bytes already sent, and chunks not yet handled at the target. -/
  sent : Nat
  outstanding : Nat
  err : Option (Nat × W64)
  deriving DecidableEq, Repr

/-- A contribution to a step: rank, sender, and the bytes received so far by offset. -/
structure Contribution where
  rank : Nat
  core : Nat
  ctx : Nat
  fab : Bool
  tag : Nat
  /-- The descriptor that its entry carries, for RFMT 6. -/
  desc : W32
  parts : List (Nat × List Byte)
  deriving DecidableEq, Repr

/-- An open step of an adder (17 R332). -/
structure AdderStep where
  comm : Nat
  seq : Nat
  dst : W64
  stack : Nat
  ncontrib : Nat
  rop : Nat
  rfmt : Nat
  len : Nat
  rctr : Nat
  target : Nat
  /-- Bytes of step buffer reserved. -/
  bytes : Nat
  /-- The privilege of the entry whose chunk opened it, with which it writes its results (DESIGN CHOICE, log entry 55). -/
  priv : Bool
  contribs : List Contribution
  /-- Counter when the step was opened. -/
  opened : Nat
  deriving DecidableEq, Repr

/-- The collective engines (17). -/
structure Coll where
  /-- Counters, key 4096 die + index, default 0. -/
  ctr : Tbl W64
  /-- Work entries, key 4096 die + index. -/
  work : Tbl Work
  steps : List AdderStep
  /-- Keys completed, most recent first: communicator, sequence number, destination, stack. -/
  completed : List (Nat × Nat × W64 × Nat)
  /-- A counter of entries becoming READY. -/
  tick : Nat
  /-- Entries of other devices that this one has handled in part: the entry as a chunk without data, the bytes handled, and whether one
  of its chunks has failed (17 R330). -/
  inbound : List (Chunk × Nat × Bool)
  deriving DecidableEq, Repr

/-- A launch in progress at the head of a queue (15 R302-R313). -/
structure Launch where
  /-- The packet's 128 bytes. -/
  pkt : List Byte
  addr : W64
  /-- Identifiers dealt, as offsets from WID0; groups of a serial field are dealt whole. -/
  dealt : List W64
  /-- Cores that received identifiers, with the identifiers, in the order of dealing. -/
  trace : List (Nat × W64)
  /-- The core of each serial group: the fields other than serial and free, masked, with the core. -/
  groups : List (W64 × Nat)
  /-- Usable cores fixed at the first dealing. -/
  usable : List Nat
  /-- Replayed runs: core and identifiers not yet dealt. -/
  replay : List (Nat × W64)
  /-- Regions of the result digest: argument, length and padding ranges (19 R363). -/
  regions : List (Nat × Nat × List (Nat × Nat))
  fmts : List (Nat × W32)
  /-- Limits of RBWAIT, EVWAIT, RGWAIT and HALY are honoured (19 R362). -/
  promise : Nat
  completedRuns : Nat
  died : Bool
  /-- A save-area or trace access faulted (STATUS 5). -/
  bad : Bool
  /-- The dealing has fixed the usable cores (15 R309). -/
  begun : Bool
  /-- Cores whose control context died in the launch (18 R347). -/
  deadCores : List Nat
  deriving DecidableEq, Repr

/-- The event queue of a core with what counts its overflow area (05 R91, R92). -/
structure EvState where
  evq : List EvRec
  evovfb : W64
  evdom : Nat
  evhead : Nat
  evtail : Nat
  /-- EVSTAT and EVLOST. -/
  stat : W64
  lost : W64
  /-- Records on their way to it. -/
  coming : List EvRec
  deriving DecidableEq, Repr

/-- A pre-empted part as the launch unit keeps it: its core, its contexts, and what the save area does not hold of its core: the written
marks of the accumulator, the empty words of the local store and the event queue (15 R308, 06 R108, 05 R87, R92). -/
structure Stopped where
  core : Nat
  part : Part
  ctxs : Tbl Ctx
  marks : Tbl Bool
  empty : Tbl Bool
  ev : EvState
  deriving DecidableEq, Repr

/-- The launch unit (15, 14 R276). -/
structure LaunchUnit where
  /-- Head launches in progress, by queue. -/
  active : Tbl Launch
  /-- Slots in use: slot number, queue and the number of the grant; all grants of one quantum boundary have the same. -/
  slots : List (Nat × Nat × Nat)
  /-- Waiting queues, longest waiting first. -/
  waiting : List Nat
  grants : Nat
  stopped : List Stopped
  /-- Cores whose parts have stopped for pre-emption while engine commands admitted there complete, with the queue that takes the
  core (15 R308). -/
  taking : List (Nat × Nat)
  /-- The target of each die's communication reserve at the last boundary, default 0 (15 R309). -/
  rsvTarget : Tbl Nat
  /-- Ready queues of pennants, key 4 cluster + priority: the counts of the slots in use, oldest first. -/
  pennants : Tbl (List Nat)
  /-- Tail counts of the ready queues. -/
  pntail : Tbl Nat
  /-- The `.fmt` descriptors of kernels by image address, as the loader leaves them; those of an image that is not listed are free
  (DESIGN CHOICE, log entry 18). -/
  fmtTab : List (W64 × List (Nat × W32))
  deriving DecidableEq, Repr

/-- An open halyard episode (14 R285). -/
structure Episode where
  /-- 0 VOTE, 1 HALY, 2 HSUM. -/
  op : Nat
  word : W64
  launch : Nat
  /-- The core at which a word of extent 0, 1 or 2 counts, by its cluster or die. -/
  place : Nat
  /-- Arrivals: core, sequence number of the entry, value. -/
  arrived : List (Nat × Nat × W64)
  deriving DecidableEq, Repr

/-- What a holding buffer holds during a debug halt (18 R355). -/
inductive Held where
  /-- A write: the die whose buffer has it, the key of its first byte, the key slot of its page, its width and its value. -/
  | write (die key slot n v : Nat)
  /-- A message, at its receiving die (19 R369). -/
  | msg (m : Msg)
  /-- The increment of a counter, which follows the writes before it (17 R336). -/
  | ctr (id : Nat)
  deriving DecidableEq, Repr

/-- Debug, keys, random engine, reset and the host port (18 R355, 19 R367, 20). -/
structure Admin where
  /-- Key slots: owner and material, default none. -/
  keys : Tbl (Nat × Nat)
  /-- A key command in progress: 1 INSTALL, 2 ERASE. -/
  keyBusy : Nat
  /-- Random fills in progress: streams. -/
  fills : List Nat
  /-- Invalidations in order: kind, domain and address (03 R58). -/
  xlinv : List (Nat × Nat × W64)
  /-- Domain halted or being halted, and whether the halt is complete. -/
  halting : Option Nat
  halted : Bool
  stepping : Bool
  /-- Superstep stepping (18 R357). -/
  super : Bool
  /-- What the holding buffers of the dies hold during a halt, in arrival order. -/
  held : List Held
  /-- Domains whose EN was cleared while parts still run (20 R372). -/
  disabling : List Nat
  /-- Fabric ports marked failed, and CXL ports whose transfers fail (03 R47). -/
  failedPorts : List Nat
  cxlErr : List Nat
  /-- The physical core of each logical core, where it is not that of its own row and column (01 R7), and the physical cores
  retired. -/
  phys : Tbl Nat
  deadPhys : List Nat
  /-- Of two logical cores that share a physical core, the one that it runs, by physical core; default the lower (19 R360). -/
  shared : Tbl Nat
  /-- The step of bring-up whose work goes on, 0 for none (20 R376). -/
  boot : Nat
  /-- Requests pending: link width, die clocks (20 R378), and the values in force. -/
  linkPending : Bool
  /-- 16 or 8 lanes, 0 while the link is down (20 R370). -/
  linkWidth : Nat
  diePending : List Nat
  dieClock : Tbl Nat
  /-- Array level cap (10 R204). -/
  arrayCap : Nat
  /-- What host reads, reports and sessions returned, newest first; a poisoned read carries the flag. -/
  replies : List (Bool × List Byte)
  /-- IDE stream key programmed through IDE_KM (20 R370). -/
  ideKey : List Byte
  /-- SPDM sessions authenticated with the identity key (20 R375). -/
  sessions : Nat
  /-- The TDISP state of the device interface of each virtual function: 0 unlocked, 1 locked, 2 running, 3 error, and the nonce of its
  last lock (20 R370; PRESUMED, log entry 71). -/
  tdi : Tbl (Nat × List Byte)
  /-- Errors of channels, routers and ports (18 R353): unit number by kind, times, lasting. -/
  unitErrs : List (HwUnit × List Nat)
  lastingUnits : List HwUnit
  retiredUnits : List HwUnit
  /-- Fault queue latches by die (18 R354). -/
  latches : Tbl (List FaultRec)
  deriving DecidableEq, Repr

/-- The whole package. -/
structure State where
  cores : Tbl Core
  /-- Memory: HBM4E and CXL under physical addresses, local store byte `o` of core `i` under 2^52 + 2^20 i + o. -/
  mem : Mem
  /-- Empty words by key; a word not listed is full (05 R87). -/
  fe : Tbl Bool
  /-- Lost lines with the bytes rewritten since the error (03 R44). -/
  lost : Tbl (List Nat)
  /-- The key material each line was written under, default 0 for plaintext (03 R53). -/
  lineKey : Tbl Nat
  /-- Device registers by offset from 0xE_0000_0000_0000; a register not listed holds its reset value. -/
  dreg : Tbl W64
  /-- Cluster TLBs, key 2 die + cluster, default empty. -/
  ctlb : Tbl (List TlbEntry)
  net : Net
  rings : Tbl Ring
  auction : Tbl Auction
  coll : Coll
  launch : LaunchUnit
  episodes : List Episode
  admin : Admin
  /-- The device's time base in microseconds (18 R353; DESIGN CHOICE, log entry 3). -/
  time : Nat
  /-- Number of free values already taken (the model's own field; DESIGN CHOICE, log entry 2). -/
  fresh : Nat
  /-- The core and context that `exec` acts for (the model's own field; DESIGN CHOICE, log entry 2). -/
  cur : Nat × Nat
  /-- Events from outside the package, in order (the model's own field; DESIGN CHOICE, log entry 1). -/
  agenda : List Instr
  deriving DecidableEq, Repr

/-- A context after reset: idle, with the reset values of its special registers (07 R127, R134; DESIGN CHOICE, log entry 5). -/
def Ctx.reset : Ctx where
  life := .idle
  rf := ⟨[], [], [], 0, 0⟩
  vec := ⟨[], [], [], [], [], []⟩
  spec := ⟨0, [], [], 0, 0, 0, 0, 0, 0⟩
  flow := ⟨0, [], 0, [], [], [], [], [], 0, []⟩
  level := 0
  hpriv := false
  hw := []
  hflags := 0
  saved := []
  results := []
  late := []
  stream := none
  vpj := []
  held := []
  stores := []
  postFail := none
  pennant := none
  started := false
  follow := none
  last := 0
  passed := 0
  yielded := 0
  stepping := false

/-- A core after reset (06 R99, R100, 20 R376). -/
def Core.reset : Core where
  ctxs := []
  cycle := 0
  acc := []
  marks := []
  spmap := []
  creg := []
  rx := []
  bound := []
  sendq := []
  evq := []
  evovfb := 0
  evdom := 0
  evhead := 0
  evtail := 0
  copyq := []
  copyRun := []
  mq := []
  rcbuf := []
  mxlevel := 0
  burst := 0
  matchTab := []
  ring := none
  micro := []
  vbusy := false
  mbusy := false
  part := none
  lastDom := 0
  errs := []
  lasting := false

/-- An auction engine after reset: unconfigured (12 R243; DESIGN CHOICE, log entry 5). -/
def Auction.reset : Auction := ⟨[], 0, 0, false, [], false, 0, []⟩

/-- The launch unit after reset. -/
def LaunchUnit.reset : LaunchUnit := ⟨[], [], [], 0, [], [], [], [], [], []⟩

/-- Debug, keys, random engine and host port after reset. -/
def Admin.reset : Admin where
  keys := []
  keyBusy := 0
  fills := []
  xlinv := []
  halting := none
  halted := false
  stepping := false
  super := false
  held := []
  disabling := []
  failedPorts := []
  cxlErr := []
  phys := []
  deadPhys := []
  shared := []
  boot := 0
  linkPending := false
  linkWidth := 16
  diePending := []
  dieClock := []
  arrayCap := 4
  replies := []
  ideKey := []
  sessions := 0
  tdi := []
  unitErrs := []
  lastingUnits := []
  retiredUnits := []
  latches := []

/-- The package right after reset: no launch runs, every store and table is clear (20 R376), and every device register
holds its reset value. -/
def State.reset : State where
  cores := []
  mem := []
  fe := []
  lost := []
  lineKey := []
  dreg := []
  ctlb := []
  net := ⟨[], [], [], [], [], []⟩
  rings := []
  auction := []
  coll := ⟨[], [], [], [], 0, []⟩
  launch := LaunchUnit.reset
  episodes := []
  admin := Admin.reset
  time := 0
  fresh := 0
  cur := (0, 0)
  agenda := []

end Sys2Proof.Machine
end

