-- ==== Sys2Proof/Machine/Flags.lean ====
section
/-! DEFINITION. The sticky floating flags (07 R135) and where they gather: FSTAT of a context, or its pending flag set
while it runs a handler (18 R345). The flags of each operation are computed with its result in Num.lean and
Format.lean. -/

namespace Sys2Proof.Machine

/-- ORs flags into FSTAT, or into the pending set in handler mode (07 R135, 18 R345). -/
def Ctx.orFlags (c : Ctx) (f : Flags) : Ctx :=
  if c.level = 0 then { c with spec := { c.spec with fstat := c.spec.fstat ||| f } }
  else { c with hflags := c.hflags ||| f }

/-- Flags of engine work for a context join its FSTAT when it runs at level 0, and otherwise the set that joins it at the return or the
resumption: the FSTAT of a context that has stopped stands in its image (08 R163, 18 R345, R351). -/
def Ctx.lateFlags (c : Ctx) (f : Flags) : Ctx := if c.life = .stopped then { c with hflags := c.hflags ||| f } else c.orFlags f

/-- What an access to FSTAT reads: the pending set in handler mode (18 R345). -/
def Ctx.flags (c : Ctx) : Flags := if c.level = 0 then c.spec.fstat else c.hflags

/-- What a write of FSTAT sets. -/
def Ctx.setFlags (c : Ctx) (f : Flags) : Ctx :=
  if c.level = 0 then { c with spec := { c.spec with fstat := f } } else { c with hflags := f }

end Sys2Proof.Machine
end

