-- ==== Sys2Proof/Machine/Base.lean ====
section
/-! DEFINITION. Reading and writing parts of the state: cores, contexts, registers by storage, device registers and the
free values. -/

namespace Sys2Proof.Machine

/-- Core `c`. -/
def State.core (s : State) (c : Nat) : Core := Tbl.get Core.reset s.cores c

/-- Replaces core `c`. -/
def State.setCore (s : State) (c : Nat) (x : Core) : State := { s with cores := Tbl.put s.cores c x }

/-- Context `k` of a core. -/
def Core.ctx (x : Core) (k : Nat) : Ctx := Tbl.get Ctx.reset x.ctxs k

/-- Replaces context `k` of a core. -/
def Core.setCtx (x : Core) (k : Nat) (c : Ctx) : Core := { x with ctxs := Tbl.put x.ctxs k c }

/-- Context `k` of core `c`. -/
def State.ctx (s : State) (c k : Nat) : Ctx := (s.core c).ctx k

/-- Replaces context `k` of core `c`. -/
def State.setCtx (s : State) (c k : Nat) (x : Ctx) : State := s.setCore c ((s.core c).setCtx k x)

/-- The context that `exec` acts for. -/
def State.cx (s : State) : Ctx := s.ctx s.cur.1 s.cur.2

/-- Replaces the context that `exec` acts for. -/
def State.setCx (s : State) (x : Ctx) : State := s.setCtx s.cur.1 s.cur.2 x

/-- The core that `exec` acts for. -/
def State.cc (s : State) : Core := s.core s.cur.1

/-- Replaces the core that `exec` acts for. -/
def State.setCc (s : State) (x : Core) : State := s.setCore s.cur.1 x

/-- The next free choice below `n` (0 when there is none), and the state with one more taken (DESIGN CHOICE, log entry 2). -/
def State.choose (s : State) (n : Nat) : Nat × State :=
  (if n ≤ 1 then 0 else Config.choice s.fresh % n, { s with fresh := s.fresh + 1 })

/-- A free 64-bit word (DESIGN CHOICE, log entry 16). -/
def State.freeWord (s : State) : W64 × State := (Config.freeWord s.fresh, { s with fresh := s.fresh + 1 })

/-- A free number of `n` bytes, taken 64 bits at a time. -/
def State.freeBytes (s : State) : Nat → Nat × State
  | 0 => (0, s)
  | k + 1 =>
    let (w, s) := s.freeWord
    let (r, s) := s.freeBytes k
    (w.toNat + 2 ^ 64 * r, s)

/-- Reset value of the device register at an offset (03 R57, 15 R309, 17 R326, 20 R377). -/
def dregReset (off : Nat) : W64 :=
  if off = 0x101020 then 0xC000000000
  else if 0x220000 ≤ off ∧ off < 0x220080 ∧ off % 32 = 0x10 then 0x40
  else if 0x240000 ≤ off ∧ off < 0x241000 ∧ off % 64 = 0x28 then 0xC8
  else if off = 0x2B0008 then 0x11F8
  else if 0x2B0018 ≤ off ∧ off < 0x2B0038 then 0x6A4
  else 0

/-- The stored value of the device register at an offset. -/
def State.dreg! (s : State) (off : Nat) : W64 := Tbl.get (dregReset off) s.dreg off

/-- Stores a device register. -/
def State.setDreg (s : State) (off : Nat) (v : W64) : State :=
  { s with dreg := Tbl.set (dregReset off) s.dreg off v }

/-- A device register as a number. -/
def State.dregN (s : State) (off : Nat) : Nat := (s.dreg! off).toNat

/-- The domain that the launch part of a core belongs to; with none, the one it last ran. -/
def Core.domain (x : Core) : Nat :=
  match x.part with
  | some p => p.domain
  | none => x.lastDom

/-- The launch part that runs on a core. -/
def Core.running (x : Core) : Option Part := x.part.filter (fun p => !p.ended)

/-- The contexts of a domain are privileged (20 R372). -/
def State.domPriv (s : State) (d : Nat) : Bool := bit (s.dregN (0x2A0000 + 8 * d)) 8

/-- The context is privileged now (07 R134, 18 R344). -/
def State.privOf (s : State) (c k : Nat) : Bool :=
  s.domPriv (s.core c).domain || ((s.ctx c k).level != 0 && (s.ctx c k).hpriv)

/-- The storage of a w register; none for w0 (07 R121, 18 R344). -/
def Ctx.wloc (c : Ctx) (n : Nat) : Option RegId :=
  if n = 0 then none
  else if c.level ≠ 0 then some (.hand n)
  else if n < 8 then some (.common n)
  else if n < 16 then if c.rf.cwp = 0 then some (.base n) else some (.frame (c.rf.cwp - 1) n)
  else some (.frame c.rf.cwp (n - 16))

/-- What a storage place of the scalar registers holds. -/
def Ctx.wraw (c : Ctx) : RegId → W64
  | .common n => Tbl.get 0 c.rf.common n
  | .base n => Tbl.get 0 c.rf.base n
  | .frame d j => Tbl.get 0 c.rf.stack (16 * d + j)
  | .hand n => Tbl.get 0 c.hw n
  | .v _ | .vq | .m _ | .x _ | .s _ | .f _ => 0

/-- Writes a storage place of the scalar registers. -/
def Ctx.setWraw (c : Ctx) (r : RegId) (v : W64) : Ctx :=
  match r with
  | .common n => { c with rf := { c.rf with common := Tbl.set 0 c.rf.common n v } }
  | .base n => { c with rf := { c.rf with base := Tbl.set 0 c.rf.base n v } }
  | .frame d j => { c with rf := { c.rf with stack := Tbl.set 0 c.rf.stack (16 * d + j) v } }
  | .hand n => { c with hw := Tbl.set 0 c.hw n v }
  | .v _ | .vq | .m _ | .x _ | .s _ | .f _ => c

/-- Keeps the three most recent results (07 R128). -/
def lastThree (l : List Bypassed) : List Bypassed := l.drop (l.length - 3)

/-- Counts a result (07 R128). -/
def Flow.push (f : Flow) (b : Bypassed) : Flow := { f with bypass := lastThree (f.bypass ++ [b]) }

/-- The register is no longer stale. -/
def Flow.freshen (f : Flow) (r : RegId) : Flow := { f with stale := f.stale.filter (fun p => !decide (p.1 = r)) }

/-- The tag that the latest write of a stale register carried. -/
def Flow.staleTag (f : Flow) (r : RegId) : Option Nat := (f.stale.find? (fun p => decide (p.1 = r))).map (·.2)

/-- The value of the latest write of a stale register, if the bypass still holds it. -/
def Flow.bypassed (f : Flow) (r : RegId) : Option Nat :=
  ((f.bypass.filter (fun b => decide (b.reg = r))).getLast?).map (·.val)

/-- Marks a register stale with its tag. -/
def Flow.markStale (f : Flow) (r : RegId) (tag : Nat) : Flow := { f.freshen r with stale := (r, tag) :: (f.freshen r).stale }

/-- Tag code of a vector register: that of its latest write, transient or not (07 R128). -/
def Ctx.vtagOf (c : Ctx) (n : Nat) : Nat := (c.flow.staleTag (.v n)).getD (Tbl.get 0 c.vec.vtag n)

/-- Tag of a tile register. -/
def Ctx.xtagOf (c : Ctx) (n : Nat) : Tag := Tbl.get Tag.raw c.vec.xtag n

/-- Descriptor register. -/
def Ctx.fOf (c : Ctx) (n : Nat) : W32 := Tbl.get 0x70348 c.spec.f n

/-- Scale register. -/
def Ctx.sOf (c : Ctx) (n : Nat) : W32 := Tbl.get 0x3F800000 c.spec.s n

/-- Guard slot; q0 is always true (07 R120). -/
def Ctx.qOf (c : Ctx) (n : Nat) : QSlot := if n = 0 then .val true else Tbl.get (.val true) c.flow.q n

/-- Sets a guard slot. -/
def Ctx.setQ (c : Ctx) (n : Nat) (v : QSlot) : Ctx :=
  if n = 0 then c else { c with flow := { c.flow with q := Tbl.set (.val true) c.flow.q n v } }

/-- Lane `i` of a vector content. -/
def lane (v i : Nat) : Nat := v / 2 ^ (32 * i) % 2 ^ 32

/-- Lane pair `i` of a vector content. -/
def lane64 (v i : Nat) : Nat := v / 2 ^ (64 * i) % 2 ^ 64

/-- The content whose lanes of `w` bits are given, lane 0 first. -/
def ofLanes (w : Nat) : List Nat → Nat
  | [] => 0
  | x :: r => x % 2 ^ w + 2 ^ w * ofLanes w r

/-- Byte `i` of a content. -/
def byteAt (v i : Nat) : Byte := BitVec.ofNat 8 (v / 2 ^ (8 * i))

/-- Queues a record for a core's event queue (05 R89). -/
def State.post (s : State) (core : Nat) (r : EvRec) : State :=
  { s with net := { s.net with recs := s.net.recs ++ [(core, r)] } }

/-- Queues a fault record of a die (18 R354). -/
def State.postFault (s : State) (die : Nat) (r : FaultRec) : State :=
  { s with net := { s.net with frecs := s.net.frecs ++ [(die, r)] } }

end Sys2Proof.Machine
end

