-- ==== Sys2Proof/Machine/Ops.lean ====
section
/-! DEFINITION. The shared operations: translation and memory (03, 06), the step monad, registers with their bypass (07),
and taking a trap and returning from one (18). -/

namespace Sys2Proof.Machine

/-! ### Places of memory -/

/-- Key of a local-store byte. -/
def lsKey (core off : Nat) : Nat := 2 ^ 52 + core * 2 ^ 20 + off

/-- First address above the HBM4E region (03 R40). -/
def hbmEnd : Nat := 0xC000000000

/-- Where a translated address lies (03 R40, 06 R101). -/
inductive Loc where
  /-- HBM4E, with the key slot of the leaf. -/
  | hbm (pa slot : Nat)
  /-- CXL memory. -/
  | cxl (pa slot : Nat)
  /-- Local store of a core. -/
  | ls (core off : Nat)
  /-- Another device's memory, or this one's by loopback (04 R64). -/
  | fab (dev off : Nat)
  | host (off : Nat)
  | reg (off : Nat)
  deriving DecidableEq, Repr

/-- A cause and code of 03 R59. -/
abbrev Flt := Cause × Nat

/-- What an access needs of a leaf (03 R52). -/
inductive Acc where
  | read | write | rmw | fetch
  deriving DecidableEq, Repr

/-- The access classes of 03 R41 and 06 R103. -/
inductive ACls where
  /-- Loads and stores. -/
  | ls
  /-- AMO and CAS, except FADD.X. -/
  | amo
  /-- Exact cells. -/
  | cell
  /-- LDS, STF, SETE. -/
  | fe
  /-- Engine accesses that may reach local store. -/
  | eng
  /-- Engine accesses of bulk copy engines, auction engines and the random engine. -/
  | bulk
  | fetch
  deriving DecidableEq, Repr

/-- On whose behalf an access is made (03 R52). -/
structure Who where
  dom : Nat
  priv : Bool
  core : Nat
  deriving DecidableEq, Repr

/-- The region accepts the class and, for device registers, the size (03 R41, 06 R103). -/
def Loc.accepts (l : Loc) (c : ACls) (n : Nat) : Bool :=
  match l with
  | .hbm _ _ => true
  | .cxl _ _ => c == .ls || c == .amo || c == .eng || c == .bulk || c == .fetch
  | .ls _ _ => c != .bulk && c != .fetch
  | .fab _ _ => c != .fe && c != .fetch
  | .host _ => c == .ls || c == .eng || c == .bulk
  | .reg off => c == .ls && (n == 4 || n == 8) && off % n == 0

/-- Owner of a key slot; slot 0 is plaintext (20 R373). -/
def State.keyOwner (s : State) (k : Nat) : Nat := (Tbl.get (0, 0) s.admin.keys k).1

/-- Material of a key slot: 0 for plaintext, else its 512 bits with bit 512 set, so that material of zeros, which an erased slot
has too, is not plaintext (20 R373). -/
def State.keyMat (s : State) (k : Nat) : Nat := if k = 0 then 0 else 2 ^ 512 + (Tbl.get (0, 0) s.admin.keys k).2

/-- The 64 bytes of a memory line as read under key material `mat` (03 R53): those stored are what the material of the last write
encrypts them to, and a read decrypts them under its own. -/
def State.lineAs (s : State) (line mat : Nat) : Nat :=
  let t := Tbl.get 0 s.lineKey line
  let plain := Mem.read s.mem (64 * line) 64
  if t = mat then plain
  else
    let stored := if t = 0 then plain else xts true t (64 * line) plain
    (if mat = 0 then stored else xts false mat (64 * line) stored) % 2 ^ 512

/-- The lines that `n` bytes at `a` touch. -/
def linesOf (a n : Nat) : List Nat := (List.range ((a + n + 63) / 64 - a / 64)).map (· + a / 64)

/-- `n` bytes at physical address `pa` as read under key material `mat`. -/
def State.readPa (s : State) (pa n mat : Nat) : Nat :=
  if (linesOf pa n).all (fun l => Tbl.get 0 s.lineKey l == mat) then Mem.read s.mem pa n
  else (ofLanes 512 ((linesOf pa n).map (fun l => s.lineAs l mat))) / 2 ^ (8 * (pa % 64)) % 2 ^ (8 * n)

/-- Gives a line the key material of the write that follows; its other bytes become what they read as under it. -/
def State.rekey (s : State) (line mat : Nat) : State :=
  if Tbl.get 0 s.lineKey line = mat then s
  else { s with mem := Mem.write s.mem (64 * line) 64 (s.lineAs line mat), lineKey := Tbl.set 0 s.lineKey line mat }

/-- Notes bytes written to a lost line; once all 64 are written, it is lost no more (03 R44). -/
def State.heal (s : State) (a n : Nat) : State :=
  if s.lost = [] then s
  else
    (linesOf a n).foldl (fun s l =>
      match Tbl.find s.lost l with
      | none => s
      | some ws =>
        let ws' := ((List.range 64).filter (fun i => ws.contains i || decide (a ≤ 64 * l + i ∧ 64 * l + i < a + n)))
        { s with lost := if ws'.length = 64 then Tbl.erase s.lost l else Tbl.put s.lost l ws' }) s

/-- A line of the range is lost (03 R44). -/
def State.isLost (s : State) (a n : Nat) : Bool := (linesOf a n).any (fun l => (Tbl.find s.lost l).isSome)

/-- The key of a place that the package itself holds. -/
def Loc.key? : Loc → Option Nat
  | .hbm pa _ => some pa
  | .cxl pa _ => some pa
  | .ls c o => some (lsKey c o)
  | .fab _ _ => none
  | .host _ => none
  | .reg _ => none

/-- The place that a memory key names, with the key slot of an access. -/
def Loc.ofKey (k m : Nat) : Loc :=
  if lsKey 0 0 ≤ k then .ls ((k - lsKey 0 0) / 2 ^ 20) ((k - lsKey 0 0) % 2 ^ 20)
  else if k < hbmEnd then .hbm k m
  else .cxl k m

/-- Key slot of a place. -/
def Loc.mat : Loc → Nat
  | .hbm _ m => m
  | .cxl _ m => m
  | .ls _ _ | .fab _ _ | .host _ | .reg _ => 0

/-- The place `d` bytes on. -/
def Loc.plus (l : Loc) (d : Nat) : Loc :=
  match l with
  | .hbm pa m => .hbm (pa + d) m
  | .cxl pa m => .cxl (pa + d) m
  | .ls c o => .ls c (o + d)
  | .fab v o => .fab v (o + d)
  | .host o => .host (o + d)
  | .reg o => .reg (o + d)

/-- Reads memory or local store, memory under the key that stands in its slot now (20 R373). -/
def State.peek (s : State) (l : Loc) (n : Nat) : Nat :=
  match l.key? with
  | some k => s.readPa k n (s.keyMat l.mat)
  | none => 0

/-- Writes memory or local store, leaving full-empty bits alone; memory under the key that stands in its slot now (20 R373). -/
def State.poke (s : State) (l : Loc) (n v : Nat) : State :=
  match l.key? with
  | none => s
  | some k =>
    let m := s.keyMat l.mat
    let s := (linesOf k n).foldl (fun s ln => s.rekey ln m) s
    ({ s with mem := Mem.write s.mem k n v }).heal k n

/-- The full-empty bit of the word at a key says empty (05 R87). -/
def State.isEmpty (s : State) (key : Nat) : Bool := Tbl.get false s.fe (key / 8)

/-- Sets the full-empty bit of the word at a key. -/
def State.setFe (s : State) (key : Nat) (empty : Bool) : State := { s with fe := Tbl.set false s.fe (key / 8) empty }

/-- Sets the full-empty bits of a range to full. -/
def State.setFull (s : State) (l : Loc) (n : Nat) : State :=
  match l with
  | .hbm k _ => { s with fe := s.fe.filter (fun p => !decide (k / 8 ≤ p.1 ∧ p.1 ≤ (k + n - 1) / 8)) }
  | .ls c o =>
    { s with fe := s.fe.filter (fun p => !decide (lsKey c o / 8 ≤ p.1 ∧ p.1 ≤ (lsKey c o + n - 1) / 8)) }
  | .cxl _ _ | .fab _ _ | .host _ | .reg _ => s

/-! ### Translation (03 R48-R52) -/

/-- A page-table entry breaks a rule of 03 R51; `level` counts from 1 and `log` is the page size of a leaf there. -/
def pteMalformed (e level log : Nat) : Bool :=
  let addr := bits e 51 16 * 2 ^ 16
  let leaf := bit e 1
  bits e 89 52 != 0 || bits e 15 7 != 0 || (leaf && level == 1) || (!leaf && level == 4)
    || (!leaf && (bits e 127 112 != 0 || bits e 111 104 != 0 || bits e 103 90 != 0 || bits e 6 2 != 0
        || decide (hbmEnd ≤ addr)))
    || (leaf && (addr % 2 ^ log != 0
        || (bits e 127 112 != 0 && !decide (0x8000000000000 ≤ addr ∧ addr < 0x9000000000000))
        || (bits e 103 90 != 0 && !decide (addr < hbmEnd ∨ (0x100000000000 ≤ addr ∧ addr < 0x180000000000)))))

/-- Walks the levels that are left: index position and width of each (03 R49). -/
def State.walkFrom (s : State) (va : Nat) : List (Nat × Nat × Nat) → Nat → Except Flt (Nat × Nat)
  | [], _ => .error (.xlate, 0x03)
  | (level, lo, width) :: rest, table =>
    let a := table + 16 * (va / 2 ^ lo % 2 ^ width)
    if s.isLost a 16 then .error (.memfault, 0x22)
    else
      let e := s.readPa a 16 0
      if !bit e 0 then .error (.xlate, 0x02)
      else if pteMalformed e level lo then .error (.xlate, 0x03)
      else if bit e 1 then .ok (e, lo)
      else s.walkFrom va rest (bits e 51 16 * 2 ^ 16)

/-- The leaf and page size that the page tables of a domain give for an address (03 R49, R51). A walk uses the root that XLROOT holds
when it begins, also before the invalidation that follows a write of it has ended (DESIGN CHOICE, log entry 58). -/
def State.walk (s : State) (dom va : Nat) : Except Flt (Nat × Nat) :=
  let root := s.dregN (0x100000 + 8 * dom)
  if !bit root 0 then .error (.xlate, 0x04)
  else if hbmEnd ≤ bits root 51 17 * 2 ^ 17 then .error (.xlate, 0x03)
  else s.walkFrom va [(1, 39, 13), (2, 30, 9), (3, 21, 9), (4, 16, 5)] (bits root 51 17 * 2 ^ 17)

/-- A cached leaf for the address (03 R54). -/
def tlbHit (l : List TlbEntry) (dom va : Nat) : Option (Nat × Nat) :=
  (l.find? (fun e => decide (e.domain = dom ∧ e.vpn = va / 2 ^ e.log))).map (fun e => (e.leaf, e.log))

/-- The leaf for an address: from the micro-TLB, the cluster TLB or a walk. -/
def State.leafOf (s : State) (core dom va : Nat) : Except Flt (Nat × Nat) :=
  match tlbHit (s.core core).micro dom va with
  | some r => .ok r
  | none =>
    match tlbHit (Tbl.get [] s.ctlb (core / 192)) dom va with
    | some r => .ok r
    | none => s.walk dom va

/-- The leaf permits the access. Of several conditions of 03 R52 that fail at once, the first in the order of their codes is reported
(DESIGN CHOICE, log entry 57). -/
def State.leafCheck (s : State) (w : Who) (e : Nat) (a : Acc) : Option Flt :=
  let r := bit e 2
  let wr := bit e 3
  let ok := match a with
    | .read => r
    | .write => wr
    | .rmw => r && wr
    | .fetch => bit e 4
  let k := bits e 103 90
  if !ok then some (.prot, 0x10)
  else if bit e 5 && !w.priv then some (.prot, 0x11)
  else if bits e 111 104 ≠ 0 ∧ bits e 111 104 ≠ w.dom then some (.prot, 0x12)
  else if k ≠ 0 ∧ s.keyOwner k ≠ w.dom then some (.prot, 0x13)
  else none

/-- Bytes presented on CXL port `p` (03 R57). -/
def State.cxlSize (s : State) (p : Nat) : Nat := s.dregN (0x101030 + 8 * p)

/-- The device's own fabric number, once VALID (04 R64). -/
def State.devnum (s : State) : Option Nat :=
  if bit (s.dregN 0x2D0000) 63 then some (s.dregN 0x2D0000 % 2 ^ 16) else none

/-- A path reaches the device (04 R63); to the device's own number it is the loopback (04 R64). -/
def State.reachable (s : State) (dev : Nat) : Bool :=
  match s.devnum with
  | none => false
  | some own => own == dev || (decide (s.admin.failedPorts.length < 32) && Config.path dev s.admin.failedPorts s.time)

/-- The place of a physical address of a leaf with its key slot, or MEMFAULT code 0x20 where nothing is populated (03 R40). -/
def State.place (s : State) (dev pa mat : Nat) : Except Flt Loc :=
  if pa < hbmEnd then .ok (.hbm pa mat)
  else if 0x100000000000 ≤ pa ∧ pa < 0x180000000000 then
    if (pa - 0x100000000000) % 2 ^ 41 < s.cxlSize ((pa - 0x100000000000) / 2 ^ 41) then .ok (.cxl pa mat)
    else .error (.memfault, 0x20)
  else if 0x8000000000000 ≤ pa ∧ pa < 0x9000000000000 then
    let off := pa - 0x8000000000000
    if s.reachable dev && decide (off < hbmEnd ∨ (0x100000000000 ≤ off ∧ off < 0x180000000000)) then
      .ok (.fab dev off)
    else .error (.memfault, 0x20)
  else if 0xC000000000000 ≤ pa ∧ pa < 0xD000000000000 then .ok (.host (pa - 0xC000000000000))
  else if 0xE000000000000 ≤ pa ∧ pa < 0xE000100000000 then .ok (.reg (pa - 0xE000000000000))
  else .error (.memfault, 0x20)

/-- Local-store bytes present, as LSCAP reads (06 R100). -/
def lscap : Nat := if Config.sramPresent then 0x100000 else 0x80000

/-- The offset is at or above LSCAP; the part with the SRAM die absent matters only for the second half. -/
def beyondLs (off : Nat) : Bool := decide (0x80000 ≤ off) && (decide (0x100000 ≤ off) || !Config.sramPresent)

/-- A cluster-window address as its core and offset (06 R101, R102). -/
def State.window (s : State) (w : Who) (va : Nat) : Except Flt Loc :=
  let c := bits va 27 20
  let core := if c = 255 then w.core else w.core / 192 * 192 + c
  if bits va 43 28 != 0 || decide (192 ≤ c ∧ c < 255) || beyondLs (bits va 19 0) then .error (.memfault, 0x20)
  else if (match (s.core core).running with
      | some p => decide (p.domain ≠ w.dom)
      | none => false) then .error (.prot, 0x12)
  else .ok (.ls core (bits va 19 0))

/-- Translates and checks an address (03 R48-R52, 06 R101, R102). -/
def State.xlate (s : State) (w : Who) (va : W64) (a : Acc) : Except Flt Loc :=
  let v := va.toNat
  if 2 ^ 52 ≤ v then .error (.xlate, 0x01)
  else if bits v 51 44 = 0xFF then s.window w v
  else
    match s.leafOf w.core w.dom v with
    | .error f => .error f
    | .ok (e, log) =>
      match s.leafCheck w e a with
      | some f => .error f
      | none => s.place (bits e 127 112) (bits e 51 16 * 2 ^ 16 / 2 ^ log * 2 ^ log + v % 2 ^ log) (bits e 103 90)

/-- Where a place of the fabric aperture that names this device lies by the loopback (04 R64); every other place is its own home. -/
def State.home (s : State) (l : Loc) : Loc :=
  match l with
  | .fab dev off => if s.devnum = some dev then (if off < hbmEnd then .hbm off 0 else .cxl off 0) else l
  | .hbm _ _ | .cxl _ _ | .ls _ _ | .host _ | .reg _ => l

/-- Bytes from a place on that the expander of its port presents; none for a place that is not in CXL memory (03 R40). -/
def State.cxlRoom (s : State) : Loc → Option Nat
  | .cxl pa _ => some (s.cxlSize ((pa - 0x100000000000) / 2 ^ 41) - (pa - 0x100000000000) % 2 ^ 41)
  | .hbm _ _ | .ls _ _ | .fab _ _ | .host _ | .reg _ => none

/-- A memory key is of CXL memory. -/
def cxlKey (k : Nat) : Bool := decide (hbmEnd ≤ k) && decide (k < lsKey 0 0)

/-- An access of `n` bytes at a home runs past its end: beyond what an expander presents, or past LSCAP (03 R40, 06 R102). -/
def State.pastEnd (s : State) (h : Loc) (n : Nat) : Bool :=
  match h with
  | .ls _ o => beyondLs (o + n - 1)
  | h => (s.cxlRoom h).any (fun r => decide (r < n))

/-- What an access of `n` bytes at a home finds wrong: bytes past its end, a failing CXL port, or, for one that reads, a lost line, which
CXL.mem reports as poison (03 R40, R41, R44, R47; DEDUCED, log entry 47). -/
def State.homeFault (s : State) (h : Loc) (n : Nat) (a : Acc) : Option Flt :=
  if s.pastEnd h n then some (.memfault, 0x20)
  else
    match h.key? with
    | none => none
    | some k =>
      if cxlKey k && s.admin.cxlErr.contains ((k - 0x100000000000) / 2 ^ 41) then some (.memfault, 0x23)
      else if a ≠ .write ∧ s.isLost k n then some (.memfault, if cxlKey k then 0x23 else 0x22)
      else none

/-- Checks an access at its place: the class, then the home (03 R41, R44, R47). -/
def State.atPlace (s : State) (l : Loc) (n : Nat) (a : Acc) (c : ACls) : Option Flt :=
  if !l.accepts c n then some (.memfault, 0x21) else s.homeFault (s.home l) n a

/-- Translates and checks an access; a class that local store does not accept at all is refused before its window is looked at (03
R41, R44, 06 R103, 12 R248). Where several conditions of 06 R102 hold at once, MEMFAULT code 0x21 of such a class goes first, then code
0x20, then PROT code 0x12 (DESIGN CHOICE, log entry 57). -/
def State.access (s : State) (w : Who) (va : W64) (n : Nat) (a : Acc) (c : ACls) : Except Flt Loc :=
  if va.toNat < 2 ^ 52 ∧ bits va.toNat 51 44 = 0xFF ∧ !(Loc.ls 0 0).accepts c n then .error (.memfault, 0x21)
  else
  match s.xlate w va a with
  | .error f => .error f
  | .ok l =>
    match s.atPlace l n a c with
    | some f => .error f
    | none => .ok l

/-- The failing byte of `n` at a place, from its start: the first in a lost line, the first past its end, else the first of all. -/
def State.failOff (s : State) (l : Loc) (n : Nat) (f : Flt) : Nat :=
  let h := s.home l
  match f, h.key? with
  | (.memfault, 0x20), _ => (match h with
    | .ls _ o => lscap - o
    | h => (s.cxlRoom h).getD 0)
  | (.memfault, _), some k =>
    match (linesOf k n).find? (fun ln => (Tbl.find s.lost ln).isSome) with
    | some ln => 64 * ln - k
    | none => 0
  | _, _ => 0

/-- The failing address of a range of `n` bytes within one page. -/
def State.failAddr (s : State) (w : Who) (va : W64) (n : Nat) (a : Acc) (f : Flt) : W64 :=
  match s.xlate w va a with
  | .ok l => va + BitVec.ofNat 64 (s.failOff l n f)
  | .error _ => va

/-- The address is a cluster-window address in the core's own local store, by its CORE alone (06 R101). -/
def ownWindow (core : Nat) (va : W64) : Bool :=
  let v := va.toNat
  bits v 63 44 == 0xFF && (bits v 27 20 == 255 || bits v 27 20 == core % 192)

/-- The cluster-window address of an offset in the core's own local store. -/
def windowAddr (core off : Nat) : W64 := BitVec.ofNat 64 (0xFF00000000000 + core % 192 * 2 ^ 20 + off)

/-! ### The monad of a meaning -/

/-- Why a meaning stops before its end. -/
inductive Stop where
  /-- A trap; `pre` marks one found before issue, whose instruction leaves no entry (18 R341). -/
  | trap (cause : Cause) (code : Nat) (aux : W64) (pre : Bool)
  /-- Its condition does not hold yet; nothing has changed. -/
  | wait
  deriving DecidableEq, Repr

/-- A meaning: it reads and writes the state, and traps or waits with no effect at all. -/
abbrev M (α : Type) := StateT State (Except Stop) α

/-- Traps before issue. -/
def trapPre {α : Type} (c : Cause) (code : Nat) (aux : W64) : M α := fun _ => .error (.trap c code aux true)

/-- Traps after issue. -/
def trapPost {α : Type} (c : Cause) (code : Nat) (aux : W64) : M α := fun _ => .error (.trap c code aux false)

/-- Waits. -/
def waitM {α : Type} : M α := fun _ => .error .wait

/-- The running context. -/
def getCx : M Ctx := fun s => .ok (s.cx, s)

/-- Changes the running context. -/
def modCx (f : Ctx → Ctx) : M Unit := fun s => .ok ((), s.setCx (f s.cx))

/-- The running core. -/
def getCc : M Core := fun s => .ok (s.cc, s)

/-- Changes the running core. -/
def modCc (f : Core → Core) : M Unit := fun s => .ok ((), s.setCc (f s.cc))

/-- The running core's index and the context's number. -/
def getCur : M (Nat × Nat) := fun s => .ok (s.cur, s)

/-- On whose behalf the running context accesses memory. -/
def State.who (s : State) : Who := ⟨s.cc.domain, s.privOf s.cur.1 s.cur.2, s.cur.1⟩

/-- A fault on an access, after issue, with the address in the auxiliary word (03 R59). -/
def liftFlt {α : Type} (aux : W64) (r : Except Flt α) : M α :=
  match r with
  | .ok x => fun s => .ok (x, s)
  | .error (c, code) => trapPost c code aux

/-- Reads a w register, from the bypass if its latest write was transient (07 R128). -/
def rW (n : Nat) : M W64 := fun s =>
  match s.cx.wloc n with
  | none => .ok (0, s)
  | some r =>
    match s.cx.flow.staleTag r with
    | none => .ok (s.cx.wraw r, s)
    | some _ =>
      match s.cx.flow.bypassed r with
      | some v => .ok (BitVec.ofNat 64 v, s)
      | none => .error (.trap .stale 0 (BitVec.ofNat 64 n) true)

/-- The context after a result in a w register, transient or not (07 R128). A write of w0, which is discarded, counts as no result
(DESIGN CHOICE, log entry 8). -/
def Ctx.writeW (c : Ctx) (n : Nat) (v : W64) (t : Bool) : Ctx :=
  match c.wloc n with
  | none => c
  | some r =>
    let c := { c with flow := c.flow.push ⟨r, none, v.toNat, 0⟩ }
    if t then { c with flow := c.flow.markStale r 0 } else { c.setWraw r v with flow := c.flow.freshen r }

/-- Writes a result to a w register. -/
def wW (n : Nat) (v : W64) (t : Bool := false) : M Unit := modCx (fun c => c.writeW n v t)

/-- The context after a write of a w register that counts as no result of its own (07 R128). -/
def Ctx.fileW (c : Ctx) (n : Nat) (v : W64) : Ctx :=
  match c.wloc n with
  | none => c
  | some r => { c.setWraw r v with flow := c.flow.freshen r }

/-- Reads a mask register; m0 is all ones. -/
def rM (n : Nat) : M W64 := fun s =>
  if n = 0 then .ok (BitVec.allOnes 64, s)
  else
    match s.cx.flow.staleTag (.m n) with
    | none => .ok (Tbl.get 0 s.cx.vec.m n, s)
    | some _ =>
      match s.cx.flow.bypassed (.m n) with
      | some v => .ok (BitVec.ofNat 64 v, s)
      | none => .error (.trap .stale 0 (BitVec.ofNat 64 (64 + n)) true)

/-- The context after a result in a mask register. -/
def Ctx.writeM (c : Ctx) (n : Nat) (v : W64) (t : Bool) : Ctx :=
  let c := { c with flow := c.flow.push ⟨.m n, none, v.toNat, 0⟩ }
  if t then { c with flow := c.flow.markStale (.m n) 0 }
  else { c with vec := { c.vec with m := Tbl.set 0 c.vec.m n v }, flow := c.flow.freshen (.m n) }

/-- Reads a vector register. -/
def rV (n : Nat) : M Nat := fun s =>
  match s.cx.flow.staleTag (.v n) with
  | none => .ok (Tbl.get 0 s.cx.vec.v n, s)
  | some _ =>
    match s.cx.flow.bypassed (.v n) with
    | some v => .ok (v, s)
    | none => .error (.trap .stale 0 (BitVec.ofNat 64 (32 + n)) true)

/-- Writes a vector register's contents and tag in the file. -/
def Ctx.fileV (c : Ctx) (n val tag : Nat) : Ctx :=
  { c with vec := { c.vec with v := Tbl.set 0 c.vec.v n val, vtag := Tbl.set 0 c.vec.vtag n tag },
           flow := c.flow.freshen (.v n) }

/-- The context after a result in a vector register with its tag. -/
def Ctx.writeV (c : Ctx) (n val tag : Nat) (t : Bool) : Ctx :=
  let c := { c with flow := c.flow.push ⟨.v n, none, val, tag⟩ }
  if t then { c with flow := c.flow.markStale (.v n) tag } else c.fileV n val tag

/-- Writes a result to a vector register. -/
def wV (n val tag : Nat) (t : Bool) : M Unit := modCx (fun c => c.writeV n val tag t)

/-- Writes a tile register whole. -/
def Ctx.writeX (c : Ctx) (n bytes side : Nat) (tag : Tag) : Ctx :=
  { c with vec := { c.vec with x := Tbl.set 0 c.vec.x n bytes, side := Tbl.set 0 c.vec.side n side,
                               xtag := Tbl.set Tag.raw c.vec.xtag n tag } }

/-- Reads a guard slot: it waits while the slot is pending and traps when it has no value (07 R132). -/
def rQ (n : Nat) : M Bool := fun s =>
  match s.cx.qOf n with
  | .val b => .ok (b, s)
  | .pending _ => .error .wait
  | .empty => .error (.trap .prot 0x16 (BitVec.ofNat 64 n) true)

/-- ORs flags into the running context's FSTAT. -/
def raiseFlags (f : Flags) : M Unit := modCx (fun c => c.orFlags f)

/-! ### Completion of an entry (07 R128, R129, 14 R295) -/

/-- Window depth that loop levels are pushed at; a handler has a window of its own (14 R293, 18 R344). -/
def Ctx.depth (c : Ctx) : Nat := if c.level = 0 then c.rf.cwp else 0

/-- The end evaluation over the levels, innermost first: the next address, the levels that remain and whether a pop ended it
(14 R295). -/
def endEval (a : W64) (depth : Nat) : List Loop → W64 → W64 × List Loop × Bool
  | [], n => (n, [], false)
  | k :: rest, n =>
    if k.win = depth ∧ k.fin = a then
      if 1 < k.count.toNat then (k.start, { k with count := k.count - 1 } :: rest, false)
      else if (match rest with
          | j :: _ => decide (j.win = depth ∧ j.fin = a)
          | [] => false) then
        let (n', rest', popped) := endEval a depth rest n
        (n', if popped then rest' else { k with count := k.init } :: rest', popped)
      else (a + 4, rest, true)
    else (n, k :: rest, false)

/-- The context after the end evaluation of the instruction at `own` (14 R295). -/
def Ctx.evalEnd (c : Ctx) (own : W64) : Ctx :=
  if c.flow.loops = [] then c
  else
    let (n, ls, _) := endEval own c.depth c.flow.loops.reverse c.flow.pc
    { c with flow := { c.flow with pc := n, loops := ls.reverse } }

/-- Fills the reserved place of a result. -/
def Flow.fillResult (f : Flow) (seq val tag : Nat) : Flow :=
  { f with bypass := f.bypass.map (fun b => if b.seq = some seq then { b with seq := none, val := val, tag := tag } else b) }

/-- The context after a long-latency result in a w register. -/
def Ctx.finW (c : Ctx) (e : Entry) (n : Nat) (v : W64) : Ctx :=
  { c.fileW n v with flow := (c.fileW n v).flow.fillResult e.seq v.toNat 0 }

/-- The context once an entry is complete: it is in flight no more, its window may still be open, and its end evaluation is made
where it is due (07 R129, 18 R341). -/
def Ctx.retire (c : Ctx) (e : Entry) : Ctx :=
  let c := { c with flow := { c.flow with inflight := c.flow.inflight.filter (fun x => x.seq != e.seq)
                                          gone := if e.left = 0 then c.flow.gone else c.flow.gone ++ [e] } }
  if e.atEnd then c.evalEnd e.own else c

/-- The storage places of a register result, written; the first of them names the result's place in the bypass (07 R128). -/
def Ctx.writeRegs (c : Ctx) (seq : Nat) (l : List (RegId × W64)) : Ctx :=
  let c := l.foldl (fun c p => { c.setWraw p.1 p.2 with flow := c.flow.freshen p.1 }) c
  { c with flow := c.flow.fillResult seq (((l.head?).map (fun p => p.2.toNat)).getD 0) 0 }

/-- The effect of an entry has taken place while its window is open: its register results wait with it, and it stays unfinished (07
R129, R130; DEDUCED, log entry 6). -/
def Ctx.perform (c : Ctx) (e : Entry) (l : List (RegId × W64)) : Ctx :=
  { c with
    results := c.results.filter (fun r => r.1 != e.seq) ++ [(e.seq, .regs l)]
    flow := { c.flow with inflight := c.flow.inflight.map (fun x => if x.seq = e.seq then { x with await := true } else x) } }

/-- The effect of the entry has taken place, and only its register results are still to be written. -/
def Ctx.effected (c : Ctx) (e : Entry) : Bool :=
  match Tbl.find c.results e.seq with
  | some (.regs _) => true
  | _ => false

/-- The entry whose effect has taken place is complete: its results are written (07 R129). -/
def Ctx.settleOne (c : Ctx) (e : Entry) : Ctx :=
  match Tbl.find c.results e.seq with
  | some (.regs l) => ({ c.writeRegs e.seq l with results := c.results.filter (fun r => r.1 != e.seq) }).retire e
  | _ => c

/-- Every entry whose effect has taken place is complete, but for one that is to stay (18 R341). -/
def Ctx.settle (c : Ctx) (stays : Option Nat) : Ctx :=
  c.flow.inflight.foldl (fun c e => if stays = some e.seq then c else c.settleOne e) c

/-- A load of `v` into wD completes; while its window is open, its register is still to be written. -/
def Ctx.loaded (c : Ctx) (e : Entry) (d : Nat) (v : W64) : Ctx :=
  if e.left = 0 then (c.finW e d v).retire e else c.perform e ((c.wloc d).toList.map (fun r => (r, v)))

/-- Serves the requests parked at a word that is full, in the order in which they were parked, until one empties it (05 R88). -/
def State.serveWord (s : State) (key : Nat) : Nat → State
  | 0 => s
  | fuel + 1 =>
    if s.isEmpty key then s
    else
      match s.net.parked.find? (fun p => p.2.2.2 == key) with
      | none => s
      | some (core, k, seq, key') =>
        let s := { s with net := { s.net with parked := s.net.parked.erase (core, k, seq, key') } }
        let c := s.ctx core k
        match c.flow.inflight.find? (fun e => e.seq == seq) with
        | none => s.serveWord key fuel
        | some e =>
          match s.access ⟨(s.core core).domain, e.priv, core⟩ e.opa 8 .rmw .fe with
          | .error _ => s.serveWord key fuel
          | .ok l =>
            let v := BitVec.ofNat 64 (s.peek l 8)
            match e.instr with
            | .lds d .. => (s.setCtx core k (c.loaded e d v)).serveWord key fuel
            | .ldsE d .. => ((s.setCtx core k (c.loaded e d v)).setFe key true).serveWord key fuel
            | _ => s.serveWord key fuel

/-- Sets every word of a range full, as an engine write does, and serves the requests parked there (05 R87, R88). -/
def State.fill (s : State) (l : Loc) (n : Nat) : State :=
  match l.key? with
  | none => s
  | some k =>
    (s.net.parked.filter (fun p => decide (k / 8 ≤ p.2.2.2 / 8 ∧ p.2.2.2 / 8 ≤ (k + n - 1) / 8))).foldl
      (fun s p => s.serveWord p.2.2.2 s.net.parked.length) (s.setFull l n)

/-! ### Images and frames (18 R337-R340) -/

/-- Bytes `off` to `off + n - 1` of a content. -/
def slice (v off n : Nat) : Nat := v / 2 ^ (8 * off) % 2 ^ (8 * n)

/-- The content with the given numbers at the given byte offsets. -/
def layout : List (Nat × Nat) → Nat
  | [] => 0
  | (off, v) :: r => v * 2 ^ (8 * off) + layout r

/-- The pieces of a range of virtual addresses that lie within one 64 KiB page: offset from the start and length. -/
def pieces (va : Nat) : Nat → Nat → Nat → List (Nat × Nat)
  | 0, _, _ => []
  | fuel + 1, off, n =>
    if n = 0 then []
    else
      let k := min n (0x10000 - (va + off) % 0x10000)
      (off, k) :: pieces va fuel (off + k) (n - k)

/-- Writes a range under a translation, piece by piece; used for images and the launch unit (18 R337). -/
def State.vwrite (s : State) (w : Who) (va n v : Nat) : Except (Flt × W64) State :=
  (pieces va (n / 65536 + 2) 0 n).foldl (fun r (off, k) =>
    match r with
    | .error e => .error e
    | .ok s =>
      let a := BitVec.ofNat 64 (va + off)
      match s.access w a k .write .eng with
      | .error f => .error (f, s.failAddr w a k .write f)
      | .ok l => if l.key?.isNone then .error ((.memfault, 0x21), a) else .ok (s.poke l k (slice v off k))) (.ok s)

/-- Reads a range under a translation. -/
def State.vread (s : State) (w : Who) (va n : Nat) : Except (Flt × W64) Nat :=
  (pieces va (n / 65536 + 2) 0 n).foldl (fun r (off, k) =>
    match r with
    | .error e => .error e
    | .ok acc =>
      let a := BitVec.ofNat 64 (va + off)
      match s.access w a k .read .eng with
      | .error f => .error (f, s.failAddr w a k .read f)
      | .ok l => if l.key?.isNone then .error ((.memfault, 0x21), a) else .ok (acc + s.peek l k * 2 ^ (8 * off))) (.ok 0)

/-- Address of the context image (18 R337). -/
def State.cimg (s : State) (core k : Nat) : Nat :=
  bits (s.dregN (0x260000 + 16 * (s.core core).domain)) 51 12 * 2 ^ 12 + 0x14000 * (11 * core + k)

/-- The hardware's own accesses for a core (03 R52). -/
def State.hwWho (s : State) (core : Nat) : Who := ⟨(s.core core).domain, true, core⟩

/-- Offset of trap frame L (18 R338). -/
def frameOff (l : Nat) : Nat := 0xB800 + 10752 * l

/-- A trap frame's header as fields (18 R339). -/
structure FrameHdr where
  pc : Nat
  npc : Nat
  cause : Nat
  code : Nat
  nrepl : Nat
  n : Nat
  aux : Nat
  cwp : Nat
  low : Nat
  qstate : Nat
  ldepth : Nat
  /-- LSTART, LEND, LCOUNT, LINIT, LWIN of levels 0-3. -/
  loops : List (Nat × Nat × Nat × Nat × Nat)
  vtags : List Nat
  xtags : List (Nat × Nat)
  vq : Nat
  /-- ID, tag code and value of bypass results 0-2. -/
  byp : List (Nat × Nat × Nat)
  deriving DecidableEq, Repr

/-- Numbers a list from `k`. -/
def indexed {α : Type} (k : Nat) : List α → List (Nat × α)
  | [] => []
  | x :: r => (k, x) :: indexed (k + 1) r

/-- The 1,536 bytes of a header (18 R339). -/
def FrameHdr.num (h : FrameHdr) : Nat :=
  layout ([(0x000, h.pc), (0x008, h.npc),
      (0x010, h.cause + h.code * 2 ^ 8 + h.nrepl * 2 ^ 16 + h.n * 2 ^ 32), (0x018, h.aux),
      (0x020, h.cwp + h.low * 2 ^ 32), (0x028, h.qstate), (0x030, h.ldepth), (0x180, h.vq)]
    ++ (indexed 0 h.loops).flatMap (fun (l, (s, e, c, i, w)) =>
        [(0x40 + 40 * l, s), (0x48 + 40 * l, e), (0x50 + 40 * l, c), (0x58 + 40 * l, i), (0x60 + 40 * l, w)])
    ++ (indexed 0 h.vtags).map (fun (n, t) => (0xE0 + 4 * n, t))
    ++ (indexed 0 h.xtags).map (fun (n, (t, d)) => (0x160 + 4 * n, t + d * 2 ^ 8))
    ++ (indexed 0 h.byp).flatMap (fun (b, (id, t, v)) =>
        [(0x1C0 + 264 * b, id), (0x1C4 + 264 * b, t), (0x1C8 + 264 * b, v)]))

/-- The fields of a header's bytes; reserved parts are dropped. -/
def FrameHdr.parse (v : Nat) : FrameHdr where
  pc := slice v 0 8
  npc := slice v 8 8
  cause := slice v 0x10 1
  code := slice v 0x11 1
  nrepl := bits (slice v 0x10 8) 20 16
  n := bits (slice v 0x10 8) 43 32
  aux := slice v 0x18 8
  cwp := slice v 0x20 4
  low := slice v 0x24 4
  qstate := slice v 0x28 8
  ldepth := slice v 0x30 8
  loops := (List.range 4).map (fun l => (slice v (0x40 + 40 * l) 8, slice v (0x48 + 40 * l) 8, slice v (0x50 + 40 * l) 8,
    slice v (0x58 + 40 * l) 8, slice v (0x60 + 40 * l) 4))
  vtags := (List.range 32).map (fun n => slice v (0xE0 + 4 * n) 1)
  xtags := (List.range 8).map (fun n => (slice v (0x160 + 4 * n) 1, slice v (0x161 + 4 * n) 3))
  vq := slice v 0x180 1
  byp := (List.range 3).map (fun b => (slice v (0x1C0 + 264 * b) 4, slice v (0x1C4 + 264 * b) 1, slice v (0x1C8 + 264 * b) 256))

/-- The window number of a storage place, 0xFF when the window does not show it (07 R128; DESIGN CHOICE, log entry 8). -/
def Ctx.wnum (c : Ctx) : RegId → Nat
  | .common n => n
  | .base n => if c.rf.cwp = 0 then n else 0xFF
  | .frame d j => if d = c.rf.cwp then 16 + j else if d + 1 = c.rf.cwp ∧ 8 ≤ j then j else 0xFF
  | .hand n => n
  | .v n => 32 + n
  | .m n => 64 + n
  | .vq | .x _ | .s _ | .f _ => 0xFF

/-- The storage place of a window number of the auxiliary word's form (07 R128). -/
def Ctx.ofWnum (c : Ctx) (n : Nat) : Option RegId :=
  if n < 32 then c.wloc n else if n < 64 then some (.v (n - 32)) else if n < 72 then some (.m (n - 64)) else none

/-- QSTATE's code of a slot in a frame (18 R339). -/
def QSlot.code : QSlot → Nat
  | .empty => 0
  | .val false => 1
  | .val true => 2
  | .pending _ => 3

/-- A replay entry's 576 bytes (18 R340). -/
def Entry.num (e : Entry) (trapped : Bool) : Nat :=
  layout [(0, e.word.toNat), (4, b2n e.await + 2 * b2n trapped + 4 * b2n e.imm.isSome + 2 ^ 8 * e.left), (8, e.pc.toNat),
    (16, (e.imm.getD 0).toNat), (24, e.opd.toNat), (32, e.opa.toNat), (40, e.opb.toNat), (48, e.mask.toNat),
    (56, e.hints), (64, e.va), (320, e.vb)]

/-- The header that a context's state gives. -/
def Ctx.frameHdr (c : Ctx) (pc npc : W64) (cause : Cause) (code : Nat) (aux : W64) (n nrepl : Nat) : FrameHdr where
  pc := pc.toNat
  npc := npc.toNat
  cause := cause.num
  code := code
  nrepl := nrepl
  n := n
  aux := aux.toNat
  cwp := c.rf.cwp
  low := c.rf.low
  qstate := ((List.range 8).map (fun k => (c.qOf k).code * 2 ^ (2 * k))).foldl (· + ·) 0
  ldepth := c.flow.loops.length
  loops := c.flow.loops.map (fun l => (l.start.toNat, l.fin.toNat, l.count.toNat, l.init.toNat, l.win))
  vtags := (List.range 32).map (fun n => Tbl.get 0 c.vec.vtag n)
  xtags := (List.range 8).map (fun n => ((c.xtagOf n).code, (c.xtagOf n).desc))
  vq := (c.stream.map (·.tag)).getD 0
  byp := ((c.flow.bypass.map (fun (b : Bypassed) => ((c.wnum b.reg, b.tag, b.val) : Nat × Nat × Nat)))
    ++ [(0xFF, 0, 0), (0xFF, 0, 0), (0xFF, 0, 0)]).take 3

/-- The 10,752 bytes of a frame: header and entries. -/
def frameNum (h : FrameHdr) (es : List (Entry × Bool)) : Nat :=
  h.num + layout ((indexed 0 es).map (fun (i, (e, t)) => (0x600 + 576 * i, e.num t)))

/-- The image bytes 0x40 to 0xB47F of a context (18 R338), as bytes from offset 0x40. -/
def Ctx.imageNum (c : Ctx) : Nat :=
  layout (((List.range 7).map (fun i => (8 * i, (Tbl.get 0 c.rf.common (i + 1)).toNat)))
    ++ ((List.range 8).map (fun i => (0x38 + 8 * i, (Tbl.get 0 c.rf.base (i + 8)).toNat)))
    ++ [(0x80, c.spec.fstat.toNat), (0x88, c.spec.wid.toNat), (0x90, c.spec.widhdr.toNat), (0x98, c.spec.xlfmt.toNat)]
    ++ ((List.range 8).map (fun i => (0xA0 + 4 * i, (c.sOf i).toNat)))
    ++ [(0xC0, c.spec.pivthr.toNat), (0xC8, c.spec.pivreg.toNat), (0xD0, c.spec.pivmask.toNat),
        (0xD8, match c.stream with
          | none => 0
          | some t => t.ring + 2 ^ 8 + t.tag * 2 ^ 16)]
    ++ ((List.range 16).map (fun i => (0xE0 + 4 * i, (c.fOf i).toNat)))
    ++ [(0x120, 2 ^ 64 - 1)]
    ++ ((List.range 7).map (fun i => (0x128 + 8 * i, (Tbl.get 0 c.vec.m (i + 1)).toNat)))
    ++ ((List.range 32).map (fun i => (0x3C0 + 256 * i, Tbl.get 0 c.vec.v i)))
    ++ ((List.range 8).flatMap (fun i =>
        [(0x23C0 + 4608 * i, Tbl.get 0 c.vec.x i), (0x33C0 + 4608 * i, Tbl.get 0 c.vec.side i)]))
    ++ [(0xB3C0, ofLanes 8 (c.vpj.take 128))])

/-- The bits of a descriptor register that are not reserved (00 R3, 08 R150). -/
def descMask : W32 := 0xF0FF1FF8

/-- The context with the registers that an image's bytes 0x40 to 0xB47F hold. -/
def Ctx.loadImage (c : Ctx) (v : Nat) : Ctx :=
  let w (o : Nat) : W64 := BitVec.ofNat 64 (slice v o 8)
  let tab (f : Nat → W64) (l : List Nat) : Tbl W64 := l.foldl (fun t n => Tbl.set 0 t n (f n)) []
  let nt (f : Nat → Nat) (l : List Nat) : Tbl Nat := l.foldl (fun t n => Tbl.set 0 t n (f n)) []
  { c with
    rf := { c.rf with common := tab (fun n => w (8 * (n - 1))) [1, 2, 3, 4, 5, 6, 7],
                      base := tab (fun n => w (0x38 + 8 * (n - 8))) [8, 9, 10, 11, 12, 13, 14, 15] }
    vec := { c.vec with
      v := nt (fun n => slice v (0x3C0 + 256 * n) 256) (List.range 32)
      m := tab (fun n => w (0x120 + 8 * n)) [1, 2, 3, 4, 5, 6, 7]
      x := nt (fun n => slice v (0x23C0 + 4608 * n) 4096) (List.range 8)
      side := nt (fun n => slice v (0x33C0 + 4608 * n) 512) (List.range 8) }
    spec :=
      { fstat := BitVec.ofNat 5 (slice v 0x80 8), wid := w 0x88, widhdr := w 0x90
        xlfmt := BitVec.ofNat 32 (slice v 0x98 4)
        s := (List.range 8).foldl (fun t n => Tbl.set 0x3F800000 t n (BitVec.ofNat 32 (slice v (0xA0 + 4 * n) 4))) []
        pivthr := w 0xC0, pivreg := w 0xC8, pivmask := BitVec.ofNat 32 (slice v 0xD0 4)
        f := (List.range 16).foldl (fun t n => Tbl.set 0x70348 t n (BitVec.ofNat 32 (slice v (0xE0 + 4 * n) 4) &&& descMask)) [] }
    stream := if bit (slice v 0xD8 8) 8 then
        some ⟨slice v 0xD8 8 % 8, bits (slice v 0xD8 8) 23 16, (c.stream.map (·.used)).getD 0⟩
      else none
    vpj := if c.vpj = [] ∧ slice v 0xB3C0 128 = 0 then []
      else (List.range 128).map (fun i => slice v (0xB3C0 + i) 1) ++ c.vpj.drop 128 }

/-- The 512 bytes of handler state: w1-w31, then the slots (18 R338; DESIGN CHOICE, log entry 7). -/
def Ctx.handlerNum (c : Ctx) : Nat :=
  layout (((List.range 31).map (fun i => (8 * i, (Tbl.get 0 c.hw (i + 1)).toNat)))
    ++ [(0xF8, ((List.range 8).map (fun k => (c.qOf k).code * 2 ^ (2 * k))).foldl (· + ·) 0)])

/-- Writes the resident frames of a context to their slots (18 R337). -/
def State.flushFrames (s : State) (core k : Nat) (c : Ctx) (stk : Nat) : Except (Flt × W64) State :=
  (List.range (c.rf.cwp + 1 - c.rf.low)).foldl (fun r i =>
    match r with
    | .error e => .error e
    | .ok s =>
      let d := c.rf.low + i
      s.vwrite (s.hwWho core) (stk + 128 * d) 128
        (layout ((List.range 16).map (fun j => (8 * j, (Tbl.get 0 c.rf.stack (16 * d + j)).toNat))))) (.ok (s.setCtx core k c))

/-- Withdraws the parked requests of a context from their homes (18 R341). -/
def State.unpark (s : State) (core k : Nat) : State :=
  { s with net := { s.net with parked := s.net.parked.filter (fun p => !decide (p.1 = core ∧ p.2.1 = k)) } }

/-- A store of a context takes its place in memory (16 R316); a posted one waits there for its acknowledgement. -/
def State.land (s : State) (core k : Nat) (x : Store) : State :=
  let s := match x.key with
    | none => s
    | some key => s.poke (.ofKey key x.mat) x.n x.v
  let c := s.ctx core k
  s.setCtx core k { c with stores :=
    if x.posted then c.stores.replace x { x with landed := true } else c.stores.erase x }

/-- Two stores write a byte in common. -/
def Store.meets (x y : Store) : Bool :=
  match x.key, y.key with
  | some a, some b => decide (a < b + y.n ∧ b < a + x.n)
  | none, none => x.dev == y.dev && decide (x.pa < y.pa + y.n ∧ y.pa < x.pa + x.n)
  | _, _ => false

/-- The stores that have to land for every store that is not posted to land: each of those, and the earlier posted ones to the same
bytes, for the stores of a context to one byte take their places in program order (16 R317). -/
def dueStores : List Store → List Store
  | [] => []
  | x :: r =>
    let due := dueStores r
    if !x.landed && (!x.posted || due.any x.meets) then x :: due else due

/-- Every store of a context that is on its way in this package takes its place, oldest first: what a fence at core scope waits for
(18 R352). -/
def State.landStores (s : State) (core k : Nat) : State :=
  (dueStores (s.ctx core k).stores).foldl (fun s x => s.land core k x) s

/-- The word is a projection command that works tile by tile and stops at a tile boundary (13 R252, R261). -/
def tiled : Instr → Bool
  | .vpj .. | .vpjRegen .. => true
  | _ => false

/-- The entry's command of a context in a matrix queue stands at a tile boundary with tiles left. -/
def MqEntry.atTile (k : Nat) (q : MqEntry) : Bool :=
  (match q.src with
    | .ctx j _ => j == k
    | .remote _ | .ring .. => false) && !q.started && q.entry.any (fun e => tiled e.instr)

/-- A projection command of the context stops at its tile boundary: its entry waits again, with the tiles that are left (13 R261). -/
def State.stopTiles (s : State) (core k : Nat) : State :=
  let x := s.core core
  if x.mq.any (MqEntry.atTile k) then
    let s := s.setCore core { x with mq := x.mq.filter (fun q => !q.atTile k) }
    let c := s.ctx core k
    s.setCtx core k { c with flow := { c.flow with
      inflight := c.flow.inflight.map (fun e => if tiled e.instr && (Tbl.find c.results e.seq).isNone then { e with await := false } else e) } }
  else s

/-- A context dies (18 R346, R347): frame 2 is written if it can be, DEAD is set, held messages are struck and a fault
record of KIND 0x01 is posted. -/
def State.kill (s : State) (core k : Nat) (h : FrameHdr) (es : List (Entry × Bool)) : State :=
  let c := s.ctx core k
  let img := s.cimg core k
  let s := match s.vwrite (s.hwWho core) (img + frameOff 2) 10752 (frameNum h es) with
    | .ok s => s
    | .error _ => s
  let s := match s.vread (s.hwWho core) (img + 0x10) 8 with
    | .ok st => match s.vwrite (s.hwWho core) (img + 0x10) 8 (st / 16 * 16 + st % 8 + 8) with
      | .ok s => s
      | .error _ => s
    | .error _ => s
  let s := (s.unpark core k).setCtx core k { c with life := .dead, held := [], flow := { c.flow with inflight := [], gone := [], chain := [] }, follow := none }
  let x := s.core core
  let s := s.setCore core { x with part := x.part.map (fun p => { p with died := true }) }
  s.postFault (core / 384) ⟨0x01, h.cause, h.code, k, core, 0, BitVec.ofNat 64 h.aux, BitVec.ofNat 64 h.pc⟩

/-- A context dies where it stands: frame 2 has its next address and its unfinished instructions (18 R346). -/
def State.killNow (s : State) (core k cause code : Nat) (aux : W64) : State :=
  let s := s.stopTiles core k
  let c := (s.ctx core k).settle none
  let pc := if c.flow.chain = [] then c.flow.pc else c.flow.chainPc
  let es := c.flow.inflight.map (fun e => (e, false))
  s.kill core k { c.frameHdr pc pc .memfault 0 aux 0 es.length with cause := cause, code := code } es

/-- Everything a trap needs to know (18 R341-R344). -/
structure TrapReq where
  cause : Cause
  code : Nat
  aux : W64
  pc : W64
  npc : W64
  /-- N of TRAP, SYSC or BRK. -/
  n : Nat
  /-- The sequence number of the TRAPPED entry. -/
  trapped : Option Nat
  /-- The entry address of SYSC, in place of HVEC. -/
  sysv : Option W64
  deriving DecidableEq, Repr

/-- The word only reads memory into registers, so that performing it again while its window is open changes nothing else. -/
def rereads : Instr → Bool
  | .ld .. | .ldn .. | .ldv .. | .ldx .. | .ldxSc .. | .gather .. | .ldo .. => true
  | _ => false

/-- The word may be parked at the home of its word of memory (05 R88). -/
def parks : Instr → Bool
  | .lds .. | .ldsE .. => true
  | _ => false

/-- The word reads a word of memory into a register and writes it in the same access. -/
def exchanges : Instr → Bool
  | .amoSwap .. | .amoAdd .. | .amoAnd .. | .amoOr .. | .amoXor .. | .amoMin .. | .amoMax .. | .amoMinu ..
  | .amoMaxu .. | .amoFadd .. | .amoFaddX .. | .amoFmin .. | .amoFmax .. | .cas .. => true
  | _ => false

/-- The word writes memory as the context's own access (10 R198 for ACCST). -/
def writes : Instr → Bool
  | .st .. | .stv .. | .stx .. | .stxSc .. | .scatter .. | .sto .. | .stf .. | .sete .. | .accst .. => true
  | i => exchanges i

/-- The word reads memory as the context's own access (10 R198 for ACCLD). -/
def loads : Instr → Bool
  | .accld .. => true
  | i => rereads i || exchanges i || parks i

/-- The word only computes on what it captured, or only reads memory into registers: performing it again while its window is open
changes nothing else. -/
def repeats : Instr → Bool
  | .div .. | .divu .. | .rem .. | .remu .. | .vdiv .. | .vsqrt .. | .vrcp .. | .vexp2 .. | .vlog2 .. => true
  | i => rereads i

/-- The entry that LOOKAHEAD leaves unfinished although its effect has taken place (07 R130; DEDUCED, log entry 6). -/
def Ctx.lookedAt (c : Ctx) (t : TrapReq) : Option Nat :=
  if t.cause = .lookahead ∧ c.flow.inflight.countP (fun e => (Tbl.find c.results e.seq).isNone) < 16 then
    (c.flow.inflight.find? (fun e => e.pc == t.aux)).map (·.seq)
  else none

/-- LOOKAHEAD leaves its long-latency instruction unfinished (07 R130): one that was complete in its open window and may be performed
again is an entry again (DEDUCED, log entry 6). -/
def Flow.reopened (f : Flow) (t : TrapReq) : Flow :=
  if t.cause = .lookahead then
    match f.gone.find? (fun e => e.pc == t.aux && repeats e.instr) with
    | none => f
    | some e => { f with inflight := f.inflight.filter (fun x => decide (x.seq < e.seq)) ++ [e]
        ++ f.inflight.filter (fun x => decide (e.seq < x.seq)) }
  else f

/-- Writes what a level leaves to its handler: at level 0 the registers and resident frames, at level 1 the handler
state; then the frame of that level (18 R338, R339). -/
def State.saveLevel (s : State) (core k : Nat) (h : FrameHdr) (es : List (Entry × Bool)) : Except (Flt × W64) State :=
  let c := s.ctx core k
  let img := s.cimg core k
  let w := s.hwWho core
  match s.vread w (img + 8) 8 with
  | .error e => .error e
  | .ok stk =>
    match (if c.level = 0 then
        match s.vwrite w (img + 0x40) 0xB440 c.imageNum with
        | .error e => .error e
        | .ok s => s.flushFrames core k c (stk / 128 * 128)
      else s.vwrite w (img + 0x13600 + 512 * (c.level - 1)) 512 c.handlerNum) with
    | .error e => .error e
    | .ok s => s.vwrite w (img + frameOff c.level) 10752 (frameNum h es)

/-- What the context keeps of a level beside its frame. -/
def Ctx.savedNow (c : Ctx) : Saved :=
  ⟨c.level, c.hpriv, c.flow.stale, c.flow.inflight.filter (·.await),
    (List.range 8).filterMap (fun n => match c.qOf n with
      | .pending q => some (n, q)
      | .empty => none
      | .val _ => none), c.flow.bypass.map (fun b => (b.reg, b.seq)), c.flow.inflight.map (fun e => (e.seq, e.pc))⟩

/-- A copy of the flow of a handler at its entry (18 R344). -/
def Flow.handler (f : Flow) (pc : W64) : Flow :=
  { pc := pc, chain := [], chainPc := 0, q := [], loops := [], bypass := [], stale := [], inflight := [], seq := f.seq }

/-- Takes a trap of context `k` of a core: frame, STATUS.LEVEL, handler entry; fatal at level 2, with no valid entry
address, or when the image faults (18 R344, R346). -/
def State.takeTrap (s : State) (core k : Nat) (t : TrapReq) : State :=
  let s := (s.landStores core k).stopTiles core k
  let c0 := (s.ctx core k).settle ((s.ctx core k).lookedAt t)
  let c := { c0 with
    flow := { c0.flow.reopened t with chain := [] }, follow := none
    postFail := if t.cause = .memfault ∧ t.code = 0x24 then none else c0.postFail }
  let s := (s.setCtx core k c).unpark core k
  let es := c.flow.inflight.map (fun e => (e, decide (t.trapped = some e.seq)))
  let h := c.frameHdr t.pc t.npc t.cause t.code t.aux t.n es.length
  let fatal (s : State) (h : FrameHdr) : State := s.kill core k h es
  if 2 ≤ c.level then fatal s h
  else
    let img := s.cimg core k
    let w := s.hwWho core
    match s.saveLevel core k h es with
    | .error ((ca, co), a) => fatal s { h with cause := ca.num, code := co, aux := a.toNat }
    | .ok s =>
      match s.vread w img 8, s.vread w (img + 0x10) 8, s.vread w (img + 0x13600 + 512 * c.level) 512 with
      | .error ((ca, co), a), _, _ => fatal s { h with cause := ca.num, code := co, aux := a.toNat }
      | _, .error ((ca, co), a), _ => fatal s { h with cause := ca.num, code := co, aux := a.toNat }
      | _, _, .error ((ca, co), a) => fatal s { h with cause := ca.num, code := co, aux := a.toNat }
      | .ok hvec, .ok st, .ok area =>
        let entry : W64 := t.sysv.getD (BitVec.ofNat 64 hvec)
        if entry = 0 ∨ entry.toNat % 4 ≠ 0 then fatal s h
        else
          match s.vwrite w (img + 0x10) 8 (st / 4 * 4 + (c.level + 1)) with
          | .error ((ca, co), a) => fatal s { h with cause := ca.num, code := co, aux := a.toNat }
          | .ok s =>
            let hw := (List.range 31).foldl (fun r i => Tbl.set 0 r (i + 1) (BitVec.ofNat 64 (slice area (8 * i) 8))) ([] : Tbl W64)
            let hw := Tbl.set 0 hw 1 (BitVec.ofNat 64 img)
            let hw := Tbl.set 0 hw 8 (BitVec.ofNat 64 (img + frameOff c.level))
            let hw := Tbl.set 0 hw 9 (BitVec.ofNat 64 (slice h.num 0x10 8))
            let hw := Tbl.set 0 hw 10 t.aux
            let hw := Tbl.set 0 hw 11 t.pc
            s.setCtx core k { c with
              level := c.level + 1, hw := hw
              hpriv := if t.cause = .sysc then t.sysv.isSome || (c.level != 0 && c.hpriv) else bit st 2
              saved := c.savedNow :: c.saved, flow := c.flow.handler entry }

/-- Stops a context with a frame of cause PREEMPT or DEBUG at its own level (18 R351). -/
def State.stopCtx (s : State) (core k : Nat) (cause : Cause) (code : Nat) (aux : W64) : State :=
  let s := (s.landStores core k).stopTiles core k
  let c := (s.ctx core k).settle none
  let es := c.flow.inflight.map (fun e => (e, false))
  let pc := if c.flow.chain = [] then c.flow.pc else c.flow.chainPc
  let h := c.frameHdr pc pc cause code aux 0 es.length
  let s := (s.setCtx core k c).unpark core k
  match s.saveLevel core k h es with
  | .error ((ca, co), a) => s.kill core k { h with cause := ca.num, code := co, aux := a.toNat } es
  | .ok s => s.setCtx core k { c with life := .stopped, saved := c.savedNow :: c.saved, flow := { c.flow with inflight := [], gone := [], chain := [] } }

/-! ### Returning from a trap (18 R348, R351) -/

/-- A replay entry's fields as an entry; the word must be an instruction that may stand there unless AWAIT is set. -/
def Entry.parse (v seq : Nat) (priv : Bool) : Option Entry :=
  let st := slice v 4 4
  let word := slice v 0 4
  let await := bit st 0
  let ok (i : Instr) : Option Entry :=
    let e : Entry := ⟨seq, i, BitVec.ofNat 32 word, BitVec.ofNat 64 (slice v 8 8), BitVec.ofNat 64 (slice v 8 8),
      if bit st 2 then some (BitVec.ofNat 64 (slice v 16 8)) else none, BitVec.ofNat 64 (slice v 24 8),
      BitVec.ofNat 64 (slice v 32 8), BitVec.ofNat 64 (slice v 40 8), BitVec.ofNat 64 (slice v 48 8), slice v 56 8,
      slice v 64 256, slice v 320 256, bits st 11 8, await, false, [], priv, 0⟩
    if e.num (bit st 1) = v ∧ e.hints < 2 ^ 16 ∧ bits e.hints 7 2 = 0 then some e else none
  let maj := bits word 31 26
  match decodeOps word with
  | .ok i => if !await && (decide (0x0C ≤ maj ∧ maj ≤ 0x0F) || maj == 0x3B) then none else ok i
  | .error _ => none

/-- The entries of a frame, each AWAIT one matched to a recorded effect (18 R348); one whose effect has been withdrawn since, behind a
command that faulted, is issued again (10 R208). -/
def parseEntries (v seq : Nat) (priv : Bool) : Nat → Nat → List Entry → Option (List Entry)
  | 0, _, _ => some []
  | n + 1, i, aw =>
    match Entry.parse (slice v (0x600 + 576 * i) 576) (seq + i) priv with
    | none => none
    | some e =>
      if e.await then
        match aw.find? (fun a => a.word == e.word && a.pc == e.pc) with
        | none => none
        | some a =>
          match parseEntries v seq priv n (i + 1) (aw.filter (fun b => b.seq != a.seq)) with
          | none => none
          | some r => some ((if a.await then { a with left := e.left, opa := e.opa, opb := e.opb } else { e with await := false }) :: r)
      else
        match parseEntries v seq priv n (i + 1) aw with
        | none => none
        | some r => some (e :: r)

/-- The frame breaks a rule of 18 R348 that its header shows. -/
def FrameHdr.refused (h : FrameHdr) : Bool :=
  decide (16 < h.nrepl) || h.pc % 4 != 0 || h.npc % 4 != 0 || decide (h.cwp < h.low) || decide (5 < h.cwp - h.low)
    || decide (4 < h.ldepth)
    || (h.loops.take h.ldepth).any (fun (s, e, c, i, _) => decide (e < s) || c == 0 || i == 0)
    || (h.vq :: h.vtags).any (fun t => !([0, 1, 2, 5].contains t))
    || h.byp.any (fun (id, t, _) => if 32 ≤ id ∧ id < 64 then !([0, 1, 2, 5].contains t) else t != 0)
    || h.xtags.any (fun (t, d) => !([0, 1, 2, 3, 4, 6, 0x86].contains t) || (t % 128 != 6 && d != 0))

/-- Reads the resident frames of a window from their slots. -/
def State.fetchFrames (s : State) (core k stk low n : Nat) : Except (Flt × W64) (Tbl W64) :=
  (List.range n).foldl (fun r i =>
    match r with
    | .error e => .error e
    | .ok t =>
      match s.vread (s.hwWho core) (stk + 128 * (low + i)) 128 with
      | .error e => .error e
      | .ok v => .ok ((List.range 16).foldl (fun t j =>
          Tbl.set 0 t (16 * (low + i) + j) (BitVec.ofNat 64 (slice v (8 * j) 8))) t)) (.ok (s.ctx core k).rf.stack)

/-- The last entry stands at the end address of the innermost current loop level when NPC is the word after it: its end
evaluation is then still to be made (18 R341). -/
def markEnd (es : List Entry) (h : FrameHdr) (depth : Nat) : List Entry :=
  match es.getLast?, (h.loops.take h.ldepth).getLast? with
  | some e, some (_, fin, _, _, win) =>
    if fin + 4 = h.npc ∧ win = depth then es.dropLast ++ [{ e with own := BitVec.ofNat 64 fin, atEnd := true }] else es
  | _, _ => es

/-- The entries that a level had in flight, in the order of their addresses in its frame: the sequence number that each had, and the one
that it has now. -/
def relinked : List Entry → List (Nat × W64) → List (Nat × Nat)
  | [], _ => []
  | e :: r, q =>
    match q.find? (fun x => x.2 == e.pc && (!e.await || x.1 == e.seq)) with
    | none => relinked r q
    | some x => (x.1, e.seq) :: relinked r (q.erase x)

/-- The register that an ID of a frame names: 0 is the w0 of a result that wrote a second register too (07 R128). -/
def Ctx.bypReg (c : Ctx) (id : Nat) : Option RegId := if id = 0 then some (.common 0) else c.ofWnum id

/-- The bypass of a level from its frame. A place whose register the window does not show is the one that was saved with the level; a
place that an entry of the frame has still to write waits for it; a place with no register stays a place while a later one has one (07
R128; DESIGN CHOICE, log entry 8). -/
def Ctx.restoreBypass (c : Ctx) (saved : List (RegId × Option Nat)) (links : List (Nat × Nat)) (l : List (Nat × Nat × Nat)) :
    List Bypassed :=
  let places := (indexed 0 l).map (fun (i, (id, tag, v)) =>
    let old := saved[i]?
    let r := if id = 0xFF then (old.map (·.1)).filter (fun r => c.wnum r == 0xFF) else c.bypReg id
    r.map (fun r =>
      let seq := (old.filter (fun o => o.1 == r)).bind (fun o => o.2.bind (fun q => (links.find? (fun x => x.1 == q)).map (·.2)))
      (⟨r, seq, v, tag⟩ : Bypassed)))
  ((places.reverse.dropWhile Option.isNone).reverse.dropWhile Option.isNone).map (fun p => p.getD ⟨.vq, none, 0, 0⟩)

/-- Why a return does not take place. -/
inductive RetErr where
  | refused
  | fault (f : Flt) (aux : W64)
  deriving DecidableEq, Repr

/-- The registers of level 0 after a result of an engine. -/
def Ctx.putRes (c : Ctx) : Res → Ctx
  | .tile n b sd tag => c.writeX n b sd tag
  | .tfact n b sd tag mask => { c.writeX n b sd tag with spec := { c.spec with pivmask := BitVec.ofNat 32 mask } }
  | .cfg l => { c with vpj := l }
  | .none | .w _ | .w2 .. | .q _ | .fault .. | .regs _ => c

/-- An engine writes registers of level 0 itself; where they stand in an image, because the context is in a handler or has stopped, what it
wrote is kept for the return too (10 R206, 13 R253, 18 R348, R351). -/
def Ctx.engineWrites (c : Ctx) (r : Res) : Ctx :=
  if c.level = 0 ∧ c.life ≠ .stopped then c.putRes r else { c.putRes r with late := c.late ++ [r] }

/-- What remote commands and VPJ.CFG have written to registers of level 0 since they stand in a frame (10 R206, 18 R348). -/
def Ctx.applyLate (c : Ctx) : Ctx :=
  { c.late.foldl Ctx.putRes c with late := [] }

/-- Restores level `l` of a context from its image and frame (18 R348): the state that a return or a resumption takes
up. `status` is written as the level it returns to. Of the two copies of vq's tag, the one of the image (0x118 of 18 R338) is taken up
and not the one of the frame (0x180 of 18 R339; DESIGN CHOICE, log entry 7). -/
def State.restoreLevel (s : State) (core k l : Nat) : Except RetErr State :=
  let c := s.ctx core k
  let img := s.cimg core k
  let w := s.hwWho core
  let fl {α : Type} (r : Except (Flt × W64) α) : Except RetErr α :=
    match r with
    | .ok x => .ok x
    | .error (f, a) => .error (.fault f a)
  do
    let fr ← fl (s.vread w (img + frameOff l) 10752)
    let st ← fl (s.vread w (img + 0x10) 8)
    let stk ← fl (s.vread w (img + 8) 8)
    let h := FrameHdr.parse fr
    if h.num ≠ slice fr 0 0x600 ∨ h.refused then .error .refused
    else
      let sv := (c.saved.find? (fun x => x.level == l)).getD ⟨l, false, [], [], [], [], []⟩
      let priv := s.domPriv (s.core core).domain || (l != 0 && sv.hpriv)
      match parseEntries fr c.flow.seq priv h.nrepl 0 sv.awaiting with
      | none => .error .refused
      | some es =>
        let es := markEnd es h (if l = 0 then h.cwp else 0)
        let links := relinked es sv.queue
        let s ← fl (s.vwrite w (img + 0x10) 8 (st / 4 * 4 + l))
        let s ← (if l < c.level then fl (s.vwrite w (img + 0x13600 + 512 * (c.level - 1)) 512 c.handlerNum) else pure s)
        let q : Tbl QSlot := (List.range 8).foldl (fun t n =>
          let code := bits h.qstate (2 * n + 1) (2 * n)
          let v : QSlot :=
            if n = 0 ∨ code = 2 then .val true
            else if code = 1 then .val false
            else if code = 0 then .empty
            else
              match (sv.slots.find? (fun x => x.1 == n)).bind (fun x => links.find? (fun y => y.1 == x.2)) with
              | some x => .pending x.2
              | none => .empty
          Tbl.set (.val true) t n v) []
        let loops := (h.loops.take h.ldepth).map (fun (a, b, ct, i, wd) =>
          (⟨BitVec.ofNat 64 a, BitVec.ofNat 64 b, BitVec.ofNat 64 ct, BitVec.ofNat 64 i, wd⟩ : Loop))
        let left := c.saved.filter (fun x => decide (x.level < l))
        let keep := c.results.filter (fun r => (es ++ left.flatMap (·.awaiting)).any (fun e => e.seq == r.1))
        let base : Ctx := { c with
          level := l, hpriv := sv.hpriv, life := .live, results := keep
          saved := left }
        let c1 ← (if l = 0 then do
            let im ← fl (s.vread w (img + 0x40) 0xB440)
            let stack ← fl (s.fetchFrames core k (stk / 128 * 128) h.low (h.cwp + 1 - h.low))
            let b := base.loadImage im
            pure (Ctx.applyLate { b with
              rf := { b.rf with cwp := h.cwp, low := h.low, stack := stack },
              vec := { b.vec with
                vtag := (indexed 0 h.vtags).foldl (fun t (n, x) => Tbl.set 0 t n x) [],
                xtag := (indexed 0 h.xtags).foldl (fun t (n, (x, d)) => Tbl.set Tag.raw t n ⟨x, d⟩) [] },
              spec := { b.spec with fstat := b.spec.fstat ||| c.hflags },
              hflags := 0, hw := [] })
          else do
            let area ← fl (s.vread w (img + 0x13600 + 512 * (l - 1)) 512)
            pure { base with hw := (List.range 31).foldl (fun r i =>
              Tbl.set 0 r (i + 1) (BitVec.ofNat 64 (slice area (8 * i) 8))) [] })
        let byp := c1.restoreBypass sv.byp links h.byp
        pure (s.setCtx core k { c1 with flow :=
          { pc := BitVec.ofNat 64 h.npc, chain := [], chainPc := 0, q := q, loops := loops, bypass := byp, stale := sv.stale,
            inflight := es, seq := c.flow.seq + h.nrepl } })

end Sys2Proof.Machine
end

