-- ==== Sys2Proof/Machine/Rx.lean ====
section
/-! DEFINITION. Receive rings as the network interface holds them (04 R69-R73) and the stream operand vq. -/

namespace Sys2Proof.Machine

/-- Offset of the descriptor of ring `n` (04 R69, R70). -/
def Core.rxDesc (x : Core) (n : Nat) : Nat := bits (Tbl.get 0 x.creg 0x040).toNat 19 6 * 64 + 64 * n

/-- Overflow slots of a ring. -/
def RxRing.ovfcap (r : RxRing) : Nat := if r.ovfLog = 0 then 0 else 2 ^ r.ovfLog

/-- The current message: whether it stands in the overflow area, and the offset or address of its slot (04 R72). -/
def RxRing.current (r : RxRing) : Option (Bool × Nat) :=
  if r.head ≠ r.tail then some (false, r.base + r.head.toNat % 2 ^ r.cntLog * 2 ^ r.slotLog)
  else if r.ovfHead ≠ r.ovfTail then some (true, r.ovfBase.toNat + r.ovfHead.toNat % r.ovfcap * 2 ^ r.slotLog)
  else none

/-- The ring past its current message (04 R72). -/
def RxRing.advance (r : RxRing) : RxRing :=
  if r.head ≠ r.tail then { r with head := r.head + 1 }
  else if r.ovfHead ≠ r.ovfTail then { r with ovfHead := r.ovfHead + 1 }
  else r

/-- Stores a ring and writes the copy of its counts back to its descriptor (04 R70), which is where RBTAB points at that moment (DESIGN
CHOICE, log entry 60). -/
def State.setRx (s : State) (core n : Nat) (r : RxRing) : State :=
  let x := s.core core
  let s := s.setCore core { x with rx := Tbl.put x.rx n r }
  let d := x.rxDesc n
  if beyondLs (d + 63) then s
  else
    let s := s.poke (.ls core (d + 8)) 8 (r.head.toNat + r.tail.toNat * 2 ^ 32)
    s.poke (.ls core (d + 24)) 12 (r.ovfHead.toNat + r.ovfTail.toNat * 2 ^ 32 + r.drops.toNat * 2 ^ 64)

/-- Reads `n` bytes at offset `o` of a slot. -/
def State.rxRead (s : State) (core : Nat) (r : RxRing) (slot : Bool × Nat) (o n : Nat) : Except (Flt × W64) Nat :=
  if slot.1 then s.vread ⟨r.owner, true, core⟩ (slot.2 + o) n
  else if s.isLost (lsKey core (slot.2 + o)) n then .error ((.memfault, 0x22), windowAddr core (slot.2 + o))
  else .ok (s.peek (.ls core (slot.2 + o)) n)

/-- Takes the next `n` bytes of the stream of ring `ring`, `used` bytes of its current message being consumed already;
none while they have not arrived. The messages used up are freed. -/
def State.takeStream (s : State) (core ring : Nat) : Nat → Nat → Nat → Except (Flt × W64) (Option (Nat × Nat × State))
  | 0, _, _ => .ok none
  | fuel + 1, used, n =>
    match Tbl.find (s.core core).rx ring with
    | none => .ok none
    | some r =>
      match r.current with
      | none => .ok none
      | some slot =>
        match s.rxRead core r slot 0 8 with
        | .error e => .error e
        | .ok h =>
          let len := h % 2 ^ 16
          let k := min n (len - used)
          match s.rxRead core r slot (8 + used) k with
          | .error e => .error e
          | .ok v =>
            let s := if used + k = len then s.setRx core ring r.advance else s
            let used := if used + k = len then 0 else used + k
            if k = n then .ok (some (v, used, s))
            else
              match s.takeStream core ring fuel used (n - k) with
              | .error e => .error e
              | .ok none => .ok none
              | .ok (some (v', used, s)) => .ok (some (v + v' * 2 ^ (8 * k), used, s))

/-- Reads vq: the next 256 bytes of the stream, and their tag code; it waits until they have arrived (04 R73). -/
def readVq : M (Nat × Nat) := fun s =>
  match s.cx.stream with
  | none => .error .wait
  | some t =>
    match s.takeStream s.cur.1 t.ring 256 t.used 256 with
    | .error ((c, code), a) => .error (.trap c code a false)
    | .ok none => .error .wait
    | .ok (some (v, used, s')) =>
      .ok ((v, t.tag), s'.setCx { s'.cx with stream := some { t with used := used } })

/-- The queue of the launch that runs on a core. -/
def State.queueOf (s : State) (core : Nat) : Nat := ((s.core core).part.map (·.queue)).getD 0

/-! ### Arrival (04 R63, R71) -/

/-- A record of hardware for a core, of no context of it. -/
def hwRec (kind status count : Nat) (word1 : W64) : EvRec := ⟨kind, 0, status, 15, count, word1, false, 0⟩

/-- The header of a slot (04 R69). -/
def msgHeader (m : Msg) : Nat :=
  m.sctx * 2 ^ 56 + m.sdom * 2 ^ 48 + m.sdev * 2 ^ 32 + b2n m.fab * 2 ^ 28 + b2n m.eos * 2 ^ 27 + m.score * 2 ^ 16
    + m.payload.length

/-- A message dropped at ring `n`: the event, and for an enabled ring its counts. -/
def State.msgDrop (s : State) (m : Msg) (status : Nat) : State :=
  let x := s.core m.dest
  let word1 := BitVec.ofNat 64 (m.sdev * 2 ^ 32 + m.score)
  let s := s.post m.dest (hwRec 0x03 status m.ring word1)
  if status = 0 then
    s.setCore m.dest { x with creg := Tbl.set 0 x.creg 0x043 (Tbl.get 0 x.creg 0x043 + 1) }
  else
    let s := s.setCore m.dest { x with creg := Tbl.set 0 x.creg 0x042 (Tbl.get 0 x.creg 0x042 ||| BitVec.ofNat 64 (2 ^ (8 + m.ring))) }
    match Tbl.find x.rx m.ring with
    | some r => s.setRx m.dest m.ring { r with drops := r.drops + 1 }
    | none => s

/-- The end of a stream: the pennant at PNT, or STREAM_END (04 R71, R73). -/
def State.streamEnd (s : State) (core ring : Nat) : State :=
  let a := (s.core core).rxDesc ring + 40
  let pnt := if beyondLs (a + 7) then 0 else s.peek (.ls core a) 8
  if pnt = 0 then s.post core (hwRec 0x05 0 ring 0)
  else { s with net := { s.net with posts := s.net.posts ++ [(core, BitVec.ofNat 64 pnt, s.queueOf core, (s.core core).domain)] } }

/-- A message arrives at its ring (04 R71). Its writes leave the full-empty bits as they are (DESIGN CHOICE, log entry 53); those to the
overflow area are made as privileged accesses (DESIGN CHOICE, log entry 54). -/
def State.msgArrive (s : State) (m : Msg) : State :=
  let x := s.core m.dest
  let len := m.payload.length
  match Tbl.find x.rx m.ring with
  | none => s.msgDrop m 0
  | some r =>
    if r.dom ≠ 0 ∧ r.dom ≠ m.sdom then s.msgDrop m 0
    else if 2 ^ r.slotLog < len + 8 then s.msgDrop m 1
    else
      let body := msgHeader m + 2 ^ 64 * ofBytes m.payload
      let s := if (r.tail - r.head).toNat < 2 ^ r.cntLog ∧ r.ovfTail = r.ovfHead then
          let slot := r.base + r.tail.toNat % 2 ^ r.cntLog * 2 ^ r.slotLog
          (s.poke (.ls m.dest slot) (len + 8) body).setRx m.dest m.ring { r with tail := r.tail + 1 }
        else if (r.ovfTail - r.ovfHead).toNat < r.ovfcap then
          let slot := r.ovfBase.toNat + r.ovfTail.toNat % r.ovfcap * 2 ^ r.slotLog
          match s.vwrite ⟨r.owner, true, m.dest⟩ slot (len + 8) body with
          | .error _ => s.msgDrop m 3
          | .ok s =>
            let x := s.core m.dest
            (s.setCore m.dest { x with
              creg := Tbl.set 0 x.creg 0x042 (Tbl.get 0 x.creg 0x042 ||| BitVec.ofNat 64 (2 ^ m.ring)) }).setRx m.dest m.ring
                { r with ovfTail := r.ovfTail + 1 }
        else s.msgDrop m 2
      if m.eos && (Tbl.find x.bound m.ring).isSome then s.streamEnd m.dest m.ring else s

end Sys2Proof.Machine
end

