-- ==== Sys2Proof/Machine/Operands.lean ====
section
/-! DEFINITION. The operands of every word: which registers it reads at issue, reads later and writes, its guard, window and
HINTs, and the classes that the rules of issue name (07 R129-R131, 18 R340, R345). -/

namespace Sys2Proof.Machine

/-- A register that a word names. -/
inductive RegName where
  | w (n : Nat)
  | v (n : Nat)
  /-- An a field that names a vector source: 31 is vq while a stream is bound (02 R17). -/
  | src (n : Nat)
  | m (n : Nat)
  | x (n : Nat)
  | s (n : Nat)
  | f (n : Nat)
  deriving DecidableEq, Repr

/-- What an engine word captures at issue beside its replay entry (10 R192, 13 R253). -/
inductive Ex where
  /-- The tag of a tile, or of a latch from 8 on. -/
  | tag (n : Nat)
  | scale (n : Nat)
  | desc (n : Nat)
  /-- PIVTHR and PIVREG. -/
  | piv
  /-- The contents and the side area of a tile. -/
  | tile (n : Nat)
  /-- A mask register, from the bypass if its latest write was transient. -/
  | mask (n : Nat)
  deriving DecidableEq, Repr

/-- The operands and classes of a word. -/
structure Shape where
  /-- Guard slot. -/
  g : Nat := 0
  /-- Long-latency (07 R129), with its window. -/
  long : Bool := false
  la : Nat := 0
  /-- The w registers captured into OPD, OPA and OPB of a replay entry. -/
  opd : Option Nat := none
  opa : Option Nat := none
  opb : Option Nat := none
  mask : Option Nat := none
  /-- Vector operands captured into VA and VB. -/
  va : Option RegName := none
  vb : Option RegName := none
  /-- Further registers read at issue. -/
  rd : List RegName := []
  /-- Sources read later. -/
  late : List RegName := []
  /-- Registers written; the first is the one that a result is counted for. -/
  wr : List RegName := []
  /-- Width and value of an immediate field that accepts HINT.IMM. -/
  imm : Option (Nat × Nat) := none
  /-- The home field of an M word. -/
  home : Option Nat := none
  /-- Accepts HINT.MOD. -/
  nt : Bool := false
  /-- Waits for every long-latency instruction of its context, and, if it is a SYS word, for its vector commands (07 R131). -/
  drain : Bool := false
  sys : Bool := false
  /-- A B, J, CALL, JR, CALLR, RET, LPSET or LPPOP word (14 R296). -/
  transfer : Bool := false
  /-- CALL, CALLR or RET (18 R345). -/
  call : Bool := false
  /-- A word of majors 0x20 to 0x34 (18 R345). -/
  engine : Bool := false
  /-- Captured beside the replay entry. -/
  ex : List Ex := []
  /-- Its record is captured, and what it checks in memory is checked, at issue whatever the window (05 R80, 13 R261, 17 R336). -/
  now : Bool := false
  deriving DecidableEq, Repr

/-- A V word, which goes through the vector queue (09 R174). -/
def Shape.vword (h : Shape) : Bool := h.engine && !h.long

/-- Every register that the word names. -/
def Shape.reads (h : Shape) : List RegName :=
  (h.opd.toList ++ h.opa.toList ++ h.opb.toList).map RegName.w ++ h.mask.toList.map RegName.m ++ h.va.toList ++ h.vb.toList
    ++ h.rd

end Sys2Proof.Machine

open Sys2Proof.Machine

/-- The tile that a matrix operand reads later; a latch is no register. -/
def Sys2Proof.Machine.mxLate (b : Nat) : List RegName := if b < 8 then [.x b] else []

/-- The operands of an instruction; an event has none. -/
def Sys2Proof.Instr.shape : Instr → Shape
  | .add d a b _ g => { g := g, opa := some a, opb := some b, wr := [.w d] }
  | .sub d a b _ g => { g := g, opa := some a, opb := some b, wr := [.w d] }
  | .and d a b _ g => { g := g, opa := some a, opb := some b, wr := [.w d] }
  | .or d a b _ g => { g := g, opa := some a, opb := some b, wr := [.w d] }
  | .xor d a b _ g => { g := g, opa := some a, opb := some b, wr := [.w d] }
  | .andn d a b _ g => { g := g, opa := some a, opb := some b, wr := [.w d] }
  | .sll d a b _ g => { g := g, opa := some a, opb := some b, wr := [.w d] }
  | .srl d a b _ g => { g := g, opa := some a, opb := some b, wr := [.w d] }
  | .sra d a b _ g => { g := g, opa := some a, opb := some b, wr := [.w d] }
  | .ror d a b _ g => { g := g, opa := some a, opb := some b, wr := [.w d] }
  | .slt d a b _ g => { g := g, opa := some a, opb := some b, wr := [.w d] }
  | .sltu d a b _ g => { g := g, opa := some a, opb := some b, wr := [.w d] }
  | .min d a b _ g => { g := g, opa := some a, opb := some b, wr := [.w d] }
  | .max d a b _ g => { g := g, opa := some a, opb := some b, wr := [.w d] }
  | .minu d a b _ g => { g := g, opa := some a, opb := some b, wr := [.w d] }
  | .maxu d a b _ g => { g := g, opa := some a, opb := some b, wr := [.w d] }
  | .mul d a b _ g => { g := g, opa := some a, opb := some b, wr := [.w d] }
  | .mulh d a b _ g => { g := g, opa := some a, opb := some b, wr := [.w d] }
  | .mulhu d a b _ g => { g := g, opa := some a, opb := some b, wr := [.w d] }
  | .clz d a _ g => { g := g, opa := some a, wr := [.w d] }
  | .ctz d a _ g => { g := g, opa := some a, wr := [.w d] }
  | .popc d a _ g => { g := g, opa := some a, wr := [.w d] }
  | .sextb d a _ g => { g := g, opa := some a, wr := [.w d] }
  | .sexth d a _ g => { g := g, opa := some a, wr := [.w d] }
  | .sextw d a _ g => { g := g, opa := some a, wr := [.w d] }
  | .zextw d a _ g => { g := g, opa := some a, wr := [.w d] }
  | .shadd1 d a b _ g => { g := g, opa := some a, opb := some b, wr := [.w d] }
  | .shadd2 d a b _ g => { g := g, opa := some a, opb := some b, wr := [.w d] }
  | .shadd3 d a b _ g => { g := g, opa := some a, opb := some b, wr := [.w d] }
  | .div d a b la => { long := true, la := la, opa := some a, opb := some b, wr := [.w d] }
  | .divu d a b la => { long := true, la := la, opa := some a, opb := some b, wr := [.w d] }
  | .rem d a b la => { long := true, la := la, opa := some a, opb := some b, wr := [.w d] }
  | .remu d a b la => { long := true, la := la, opa := some a, opb := some b, wr := [.w d] }
  | .addi d a imm g => { g := g, opa := some a, imm := some (13, imm), wr := [.w d] }
  | .andi d a imm g => { g := g, opa := some a, imm := some (13, imm), wr := [.w d] }
  | .ori d a imm g => { g := g, opa := some a, imm := some (13, imm), wr := [.w d] }
  | .xori d a imm g => { g := g, opa := some a, imm := some (13, imm), wr := [.w d] }
  | .slti d a imm g => { g := g, opa := some a, imm := some (13, imm), wr := [.w d] }
  | .sltiu d a imm g => { g := g, opa := some a, imm := some (13, imm), wr := [.w d] }
  | .slli d a _ g => { g := g, opa := some a, wr := [.w d] }
  | .srli d a _ g => { g := g, opa := some a, wr := [.w d] }
  | .srai d a _ g => { g := g, opa := some a, wr := [.w d] }
  | .rori d a _ g => { g := g, opa := some a, wr := [.w d] }
  | .movi d imm g => { g := g, imm := some (13, imm), wr := [.w d] }
  | .qsetEq _ a b g => { g := g, opa := some a, opb := some b }
  | .qsetNe _ a b g => { g := g, opa := some a, opb := some b }
  | .qsetLt _ a b g => { g := g, opa := some a, opb := some b }
  | .qsetGe _ a b g => { g := g, opa := some a, opb := some b }
  | .qsetLtu _ a b g => { g := g, opa := some a, opb := some b }
  | .qsetGeu _ a b g => { g := g, opa := some a, opb := some b }
  | .qand _ _ _ g => { g := g }
  | .qor _ _ _ g => { g := g }
  | .qxor _ _ _ g => { g := g }
  | .qandn _ _ _ g => { g := g }
  | .qnot _ _ g => { g := g }
  | .qtrue _ g => { g := g }
  | .qfalse _ g => { g := g }
  | .qunres _ g => { g := g }
  | .beq a b _ => { opa := some a, opb := some b, transfer := true }
  | .bne a b _ => { opa := some a, opb := some b, transfer := true }
  | .blt a b _ => { opa := some a, opb := some b, transfer := true }
  | .bge a b _ => { opa := some a, opb := some b, transfer := true }
  | .bltu a b _ => { opa := some a, opb := some b, transfer := true }
  | .bgeu a b _ => { opa := some a, opb := some b, transfer := true }
  | .bqt _ _ => { transfer := true }
  | .bqf _ _ => { transfer := true }
  | .j _ => { transfer := true }
  | .call _ => { transfer := true, drain := true, call := true, wr := [.w 31] }
  | .jr a g => { g := g, opa := some a, transfer := true }
  | .callr a g => { g := g, opa := some a, transfer := true, drain := true, call := true, wr := [.w 31] }
  | .ret g => { g := g, opa := some 15, transfer := true, drain := true, call := true }
  | .ld d a off _ home la => { long := true, la := la, opa := some a, imm := some (8, off), home := some home, nt := true, wr := [.w d] }
  | .ldn d a off _ home la => { long := true, la := la, opa := some a, imm := some (8, off), home := some home, nt := true, wr := [.w d] }
  | .st d a off _ home la => { long := true, la := la, opd := some d, opa := some a, imm := some (8, off), home := some home, nt := true }
  | .ldv d a m _ la => { long := true, la := la, opa := some a, mask := some m, nt := true, wr := [.v d] }
  | .stv d a m la => { long := true, la := la, opa := some a, mask := some m, va := some (.v d), nt := true }
  | .ldx d a la => { long := true, la := la, opa := some a, nt := true, wr := [.x d] }
  | .ldxSc d a la => { long := true, la := la, opa := some a, nt := true, wr := [.x d] }
  | .stx d a la => { long := true, la := la, opa := some a, nt := true, rd := [.x d], ex := [.tile d] }
  | .stxSc d a la => { long := true, la := la, opa := some a, nt := true, rd := [.x d], ex := [.tile d] }
  | .gather d a vi m _ la => { long := true, la := la, opa := some a, mask := some m, va := some (.v vi), nt := true, wr := [.v d] }
  | .scatter d a vi m la => { long := true, la := la, opa := some a, mask := some m, va := some (.v d), vb := some (.v vi), nt := true }
  | .lds d a _ _ la => { long := true, la := la, opa := some a, wr := [.w d] }
  | .ldsE d a _ _ la => { long := true, la := la, opa := some a, wr := [.w d] }
  | .stf d a _ _ la => { long := true, la := la, opd := some d, opa := some a }
  | .sete a _ _ la => { long := true, la := la, opa := some a }
  | .amoSwap d a _ _ _ la => { long := true, la := la, opd := some d, opa := some a, wr := [.w d] }
  | .amoAdd d a _ _ _ la => { long := true, la := la, opd := some d, opa := some a, wr := [.w d] }
  | .amoAnd d a _ _ _ la => { long := true, la := la, opd := some d, opa := some a, wr := [.w d] }
  | .amoOr d a _ _ _ la => { long := true, la := la, opd := some d, opa := some a, wr := [.w d] }
  | .amoXor d a _ _ _ la => { long := true, la := la, opd := some d, opa := some a, wr := [.w d] }
  | .amoMin d a _ _ _ la => { long := true, la := la, opd := some d, opa := some a, wr := [.w d] }
  | .amoMax d a _ _ _ la => { long := true, la := la, opd := some d, opa := some a, wr := [.w d] }
  | .amoMinu d a _ _ _ la => { long := true, la := la, opd := some d, opa := some a, wr := [.w d] }
  | .amoMaxu d a _ _ _ la => { long := true, la := la, opd := some d, opa := some a, wr := [.w d] }
  | .amoFadd d a _ _ _ la => { long := true, la := la, opd := some d, opa := some a, wr := [.w d] }
  | .amoFaddX d a _ _ la => { long := true, la := la, opd := some d, opa := some a }
  | .amoFmin d a _ _ _ la => { long := true, la := la, opd := some d, opa := some a, wr := [.w d] }
  | .amoFmax d a _ _ _ la => { long := true, la := la, opd := some d, opa := some a, wr := [.w d] }
  | .ldo d a _ _ _ la => { long := true, la := la, opa := some a, wr := [.w d] }
  | .sto d a _ _ _ la => { long := true, la := la, opd := some d, opa := some a }
  | .cas d a _ _ _ la => { long := true, la := la, opd := some d, opa := some a, opb := some (d + 1), wr := [.w d] }
  | .fence _ _ => { long := true, drain := true }
  | .prefTlb a _ home => { long := true, opa := some a, home := some home }
  | .prefMsc a _ home => { long := true, opa := some a, home := some home }
  | .send d a b g la => { g := g, long := true, la := la, opd := some d, opa := some a, opb := some b }
  | .sends d a b g la => { g := g, long := true, la := la, opd := some d, opa := some a, opb := some b }
  | .hoist g => { g := g, long := true }
  | .strike g => { g := g, long := true }
  | .mcmd d a b g la => { g := g, long := true, la := la, opd := some d, opa := some a, opb := some b }
  | .rbwait d a b g la => { g := g, long := true, la := la, opa := some a, opb := some b, wr := [.w d] }
  | .rbadv a g => { g := g, long := true, opa := some a }
  | .stbind d a b g => { g := g, long := true, opd := some d, opa := some a, opb := some b }
  | .stunbind g => { g := g, long := true }
  | .cp d a b g la => { g := g, long := true, la := la, opd := some d, opa := some a, opb := some b, nt := true }
  | .cp2d d a b g la => { g := g, long := true, la := la, opd := some d, opa := some a, opb := some b, nt := true, now := true }
  | .cpidx d a b g la => { g := g, long := true, la := la, opd := some d, opa := some a, opb := some b, nt := true, now := true }
  | .cpwait a g la => { g := g, long := true, la := la, opa := some a }
  | .cpredO d a b g la => { g := g, long := true, la := la, opd := some d, opa := some a, opb := some b, nt := true }
  | .cpredU d a b g la => { g := g, long := true, la := la, opd := some d, opa := some a, opb := some b, nt := true }
  | .evpop d a g => { g := g, long := true, wr := [.w d, .w a] }
  | .evwait d a b g la => { g := g, long := true, la := la, opb := some b, wr := [.w d, .w a] }
  | .evpost d a b g => { g := g, long := true, opd := some d, opa := some a, opb := some b }
  | .qpost d a b g la => { g := g, long := true, la := la, opa := some a, opb := some b, wr := [.w d], now := true }
  | .qarm a b g => { g := g, long := true, opa := some a, opb := some b }
  | .ctradd d a b g la => { g := g, long := true, la := la, opa := some a, opb := some b, wr := [.w d] }
  | .ctrwait d a b g la => { g := g, long := true, la := la, opa := some a, opb := some b, wr := [.w d] }
  | .ctrset a b g => { g := g, long := true, opa := some a, opb := some b }
  | .vadd d a b m _ => { engine := true, va := some (.src a), vb := some (.v b), mask := some m, wr := [.v d] }
  | .vsub d a b m _ => { engine := true, va := some (.src a), vb := some (.v b), mask := some m, wr := [.v d] }
  | .vmul d a b m _ => { engine := true, va := some (.src a), vb := some (.v b), mask := some m, wr := [.v d] }
  | .vmin d a b m _ => { engine := true, va := some (.src a), vb := some (.v b), mask := some m, wr := [.v d] }
  | .vmax d a b m _ => { engine := true, va := some (.src a), vb := some (.v b), mask := some m, wr := [.v d] }
  | .vabs d a m _ => { engine := true, va := some (.src a), mask := some m, wr := [.v d] }
  | .vneg d a m _ => { engine := true, va := some (.src a), mask := some m, wr := [.v d] }
  | .viadd d a b m _ => { engine := true, va := some (.src a), vb := some (.v b), mask := some m, wr := [.v d] }
  | .visub d a b m _ => { engine := true, va := some (.src a), vb := some (.v b), mask := some m, wr := [.v d] }
  | .vimul d a b m _ => { engine := true, va := some (.src a), vb := some (.v b), mask := some m, wr := [.v d] }
  | .vimin d a b m _ => { engine := true, va := some (.src a), vb := some (.v b), mask := some m, wr := [.v d] }
  | .vimax d a b m _ => { engine := true, va := some (.src a), vb := some (.v b), mask := some m, wr := [.v d] }
  | .viminu d a b m _ => { engine := true, va := some (.src a), vb := some (.v b), mask := some m, wr := [.v d] }
  | .vimaxu d a b m _ => { engine := true, va := some (.src a), vb := some (.v b), mask := some m, wr := [.v d] }
  | .viadds d a b m _ => { engine := true, va := some (.src a), vb := some (.v b), mask := some m, wr := [.v d] }
  | .visubs d a b m _ => { engine := true, va := some (.src a), vb := some (.v b), mask := some m, wr := [.v d] }
  | .vand d a b m _ => { engine := true, va := some (.src a), vb := some (.v b), mask := some m, wr := [.v d] }
  | .vor d a b m _ => { engine := true, va := some (.src a), vb := some (.v b), mask := some m, wr := [.v d] }
  | .vxor d a b m _ => { engine := true, va := some (.src a), vb := some (.v b), mask := some m, wr := [.v d] }
  | .vsll d a b m _ => { engine := true, va := some (.src a), vb := some (.v b), mask := some m, wr := [.v d] }
  | .vsrl d a b m _ => { engine := true, va := some (.src a), vb := some (.v b), mask := some m, wr := [.v d] }
  | .vsra d a b m _ => { engine := true, va := some (.src a), vb := some (.v b), mask := some m, wr := [.v d] }
  | .vfcmpEq d a b m _ => { engine := true, va := some (.src a), vb := some (.v b), mask := some m, wr := [.m d], ex := [.mask d] }
  | .vfcmpLt d a b m _ => { engine := true, va := some (.src a), vb := some (.v b), mask := some m, wr := [.m d], ex := [.mask d] }
  | .vfcmpLe d a b m _ => { engine := true, va := some (.src a), vb := some (.v b), mask := some m, wr := [.m d], ex := [.mask d] }
  | .vfcmpUn d a b m _ => { engine := true, va := some (.src a), vb := some (.v b), mask := some m, wr := [.m d], ex := [.mask d] }
  | .vicmpEq d a b m _ => { engine := true, va := some (.src a), vb := some (.v b), mask := some m, wr := [.m d], ex := [.mask d] }
  | .vicmpLt d a b m _ => { engine := true, va := some (.src a), vb := some (.v b), mask := some m, wr := [.m d], ex := [.mask d] }
  | .vicmpLtu d a b m _ => { engine := true, va := some (.src a), vb := some (.v b), mask := some m, wr := [.m d], ex := [.mask d] }
  | .vmov d a m _ => { engine := true, va := some (.src a), mask := some m, wr := [.v d] }
  | .vsplat d a m _ => { engine := true, opa := some a, mask := some m, wr := [.v d] }
  | .vext d a b _ _ => { engine := true, va := some (.src a), opb := some b, wr := [.w d] }
  | .vins d a b m _ => { engine := true, opa := some a, opb := some b, mask := some m, rd := [.v d], wr := [.v d] }
  | .vsel d a b m _ => { engine := true, va := some (.src a), vb := some (.v b), rd := [.m m], wr := [.v d], ex := [.mask m] }
  | .vperm d a b m _ => { engine := true, va := some (.src a), vb := some (.v b), mask := some m, wr := [.v d] }
  | .vdiv d a b m _ la => { engine := true, long := true, la := la, va := some (.src a), vb := some (.v b), mask := some m, wr := [.v d] }
  | .vsqrt d a m _ la => { engine := true, long := true, la := la, va := some (.src a), mask := some m, wr := [.v d] }
  | .vrcp d a m _ la => { engine := true, long := true, la := la, va := some (.src a), mask := some m, wr := [.v d] }
  | .vexp2 d a m la => { engine := true, long := true, la := la, va := some (.src a), mask := some m, wr := [.v d] }
  | .vlog2 d a m la => { engine := true, long := true, la := la, va := some (.src a), mask := some m, wr := [.v d] }
  | .vraddO d a m _ => { engine := true, va := some (.src a), mask := some m, wr := [.w d] }
  | .vraddU d a m _ => { engine := true, va := some (.src a), mask := some m, wr := [.w d] }
  | .vrmin d a m _ => { engine := true, va := some (.src a), mask := some m, wr := [.w d] }
  | .vrmax d a m _ => { engine := true, va := some (.src a), mask := some m, wr := [.w d] }
  | .vscanO d a _ m _ => { engine := true, va := some (.src a), mask := some m, wr := [.v d] }
  | .vscanU d a _ m _ => { engine := true, va := some (.src a), mask := some m, wr := [.v d] }
  | .viradd d a m _ => { engine := true, va := some (.src a), mask := some m, wr := [.w d] }
  | .vcvtRne d a _ m _ => { engine := true, va := some (.src a), mask := some m, wr := [.v d] }
  | .vcvtRtz d a _ m _ => { engine := true, va := some (.src a), mask := some m, wr := [.v d] }
  | .vcvtRdn d a _ m _ => { engine := true, va := some (.src a), mask := some m, wr := [.v d] }
  | .vcvtRup d a _ m _ => { engine := true, va := some (.src a), mask := some m, wr := [.v d] }
  | .vcvtSr d a b _ _ => { engine := true, va := some (.src a), vb := some (.v b), wr := [.v d] }
  | .vpackb d a _ m _ => { engine := true, va := some (.src a), rd := [.m m], wr := [.v d], ex := [.mask m] }
  | .vunpackb d a _ m _ => { engine := true, va := some (.src a), mask := some m, wr := [.v d] }
  | .vftoi d a m _ => { engine := true, va := some (.src a), mask := some m, wr := [.v d] }
  | .vitof d a m _ => { engine := true, va := some (.src a), mask := some m, wr := [.v d] }
  | .vfma d a b m _ => { engine := true, va := some (.src a), vb := some (.v b), mask := some m, rd := [.v d], wr := [.v d] }
  | .vfms d a b m _ => { engine := true, va := some (.src a), vb := some (.v b), mask := some m, rd := [.v d], wr := [.v d] }
  | .vfnma d a b m _ => { engine := true, va := some (.src a), vb := some (.v b), mask := some m, rd := [.v d], wr := [.v d] }
  | .vfnms d a b m _ => { engine := true, va := some (.src a), vb := some (.v b), mask := some m, rd := [.v d], wr := [.v d] }
  | .mand d a b _ => { engine := true, rd := [.m a, .m b], wr := [.m d], ex := [.mask a, .mask b] }
  | .mor d a b _ => { engine := true, rd := [.m a, .m b], wr := [.m d], ex := [.mask a, .mask b] }
  | .mxor d a b _ => { engine := true, rd := [.m a, .m b], wr := [.m d], ex := [.mask a, .mask b] }
  | .mandn d a b _ => { engine := true, rd := [.m a, .m b], wr := [.m d], ex := [.mask a, .mask b] }
  | .mnot d a _ => { engine := true, rd := [.m a], wr := [.m d], ex := [.mask a] }
  | .mpopc d a _ => { engine := true, rd := [.m a], wr := [.w d], ex := [.mask a] }
  | .mma a b _ _ s g la => { g := g, long := true, la := la, engine := true, late := .x a :: mxLate b, ex := [.tag a, .tag b, .scale s], now := true }
  | .mmac a b _ _ s g la => { g := g, long := true, la := la, engine := true, opa := some a, late := mxLate b, ex := [.tag b, .scale s], now := true }
  | .accz d g la => { g := g, long := true, la := la, engine := true, opd := some d, now := true }
  | .accld d a b g la => { g := g, long := true, la := la, engine := true, opd := some d, opa := some a, opb := some b, now := true }
  | .accst d a b g la => { g := g, long := true, la := la, engine := true, opd := some d, opa := some a, opb := some b, now := true }
  | .acccvt d a b g la => { g := g, long := true, la := la, engine := true, opa := some a, wr := [.x d], ex := [.desc b], now := true }
  | .accmov d a g la => { g := g, long := true, la := la, engine := true, opd := some d, opa := some a, now := true }
  | .xmov d a g la => { g := g, long := true, la := la, engine := true, late := [.x a], wr := [.x d], ex := [.tag a], now := true }
  | .xtr d a g la => { g := g, long := true, la := la, engine := true, late := [.x a], wr := [.x d], ex := [.tag a], now := true }
  | .xzero d g la => { g := g, long := true, la := la, engine := true, wr := [.x d], ex := [.tag d], now := true }
  | .xcvt d a b g la => { g := g, long := true, la := la, engine := true, late := [.x a], wr := [.x d], ex := [.tag a, .desc b], now := true }
  | .tfact d a b g la => { g := g, long := true, la := la, engine := true, opb := some b, late := [.x a], wr := [.x d], ex := [.tag a, .piv], now := true }
  | .tsolve d a b g la => { g := g, long := true, la := la, engine := true, late := [.x a, .x b], wr := [.x d], ex := [.tag a, .tag b], now := true }
  | .burst d g => { g := g, long := true, engine := true, opd := some d }
  | .mwait g => { g := g, long := true, engine := true }
  | .rgcfg d g => { g := g, long := true, opd := some d }
  | .rgmt d a b g la => { g := g, long := true, la := la, opd := some d, opa := some a, opb := some b, now := true }
  | .rgmtu d a g la => { g := g, long := true, la := la, opd := some d, opa := some a }
  | .rginj d a b g la => { g := g, long := true, la := la, opd := some d, opa := some a, opb := some b }
  | .rgstart d g => { g := g, long := true, opd := some d }
  | .rgwait d a g la => { g := g, long := true, la := la, opa := some a, wr := [.w d] }
  | .rgstat d g => { g := g, long := true, wr := [.w d] }
  | .rgreinj d g la => { g := g, long := true, la := la, opd := some d }
  | .rgret g => { g := g, long := true }
  | .aucfg d a g la => { g := g, long := true, la := la, opd := some d, opa := some a }
  | .prld d a b g la => { g := g, long := true, la := la, opd := some d, opa := some a, opb := some b }
  | .prst d a b g la => { g := g, long := true, la := la, opd := some d, opa := some a, opb := some b }
  | .aubid d g la => { g := g, long := true, la := la, wr := [.w d] }
  | .austep d g la => { g := g, long := true, la := la, wr := [.w d] }
  | .aures d a g la => { g := g, long := true, la := la, opd := some d, opa := some a }
  | .austat d a g => { g := g, long := true, opa := some a, wr := [.w d] }
  | .vpjCfg d g => { g := g, long := true, opd := some d, now := true }
  | .vpj d a b g la => { g := g, long := true, la := la, opd := some d, opa := some a, opb := some b, now := true }
  | .vpjMrg d a b g la => { g := g, long := true, la := la, opd := some d, opa := some a, opb := some b, now := true }
  | .vpjRd d a b g la => { g := g, long := true, la := la, opd := some d, opa := some a, opb := some b, now := true }
  | .vpjRegen d a b g la => { g := g, long := true, la := la, opd := some d, opa := some a, opb := some b, now := true }
  | .vpjInit d g la => { g := g, long := true, la := la, opd := some d, now := true }
  | .start d a b g => { g := g, long := true, opa := some a, opb := some b, wr := [.w d] }
  | .exit g => { g := g, long := true }
  | .yield a g => { g := g, long := true, opa := some a }
  | .follow d a g => { g := g, long := true, opa := some a, wr := [.w d] }
  | .unfollow g => { g := g, long := true }
  | .wid d a g => { g := g, long := true, opa := some a, wr := [.w d] }
  | .pnpush a g => { g := g, long := true, opa := some a }
  | .join d a g => { g := g, long := true, opa := some a, wr := [.w d] }
  | .vote _ a b g => { g := g, long := true, drain := true, opa := some a, opb := some b }
  | .haly d a b g => { g := g, long := true, drain := true, opa := some a, opb := some b, wr := [.w d] }
  | .hsum d a b g => { g := g, long := true, drain := true, opa := some a, opb := some b, wr := [.w d] }
  | .lpset a _ => { long := true, drain := true, transfer := true, opa := some a }
  | .lppop => { long := true, drain := true, transfer := true }
  | .mfc d _ => { long := true, drain := true, sys := true, wr := [.w d] }
  | .mtc d _ => { long := true, drain := true, sys := true, opd := some d }
  | .msc d _ => { long := true, drain := true, sys := true, opd := some d }
  | .mcc d _ => { long := true, drain := true, sys := true, opd := some d }
  | .trap d _ => { long := true, drain := true, sys := true, opd := some d }
  | .tret => { long := true, drain := true, sys := true }
  | .sysc d _ => { long := true, drain := true, sys := true, opd := some d }
  | .brk _ => { long := true, drain := true, sys := true }
  | .halt d => { long := true, drain := true, sys := true, opd := some d }
  | .spillw d => { long := true, drain := true, sys := true, opd := some d, wr := [.w d] }
  | .fillw => { long := true, drain := true, sys := true }
  | .hintImm _ => {}
  | .hintHome _ => {}
  | .hintMod _ => {}
  | .nop => {}
  | .illegalWord _ => {}
  | .instructionComplete _ _ _ => {}
  | .followEngage _ => {}
  | .pageWalkComplete _ _ _ => {}
  | .postedStoreAck _ _ => {}
  | .postedStoreFail _ _ _ => {}
  | .uncorrectableError _ => {}
  | .correctedError _ => {}
  | .unitRetire _ => {}
  | .parkedRequestServe _ => {}
  | .ldsParkRetry _ _ => {}
  | .messageArrival _ => {}
  | .messageFail _ => {}
  | .remoteCommandArrival _ => {}
  | .eventRecordArrival _ _ => {}
  | .hardwarePost _ _ => {}
  | .bulkQueueAdmit _ => {}
  | .copyCommandStart _ _ => {}
  | .copyCommandComplete _ _ => {}
  | .copyCommandFault _ _ => {}
  | .matrixQueueAdmit _ => {}
  | .matrixCommandStart _ => {}
  | .matrixCommandComplete _ => {}
  | .arrayLevelRise _ => {}
  | .arrayLevelFall _ => {}
  | .burstHoldExpire _ => {}
  | .ringBeatEnd _ => {}
  | .ringTaskComplete _ => {}
  | .ringIdle _ => {}
  | .auctionCommandAdmit _ => {}
  | .auctionRound _ => {}
  | .vpjTileBoundary _ _ _ => {}
  | .collectiveChunkAdmit _ => {}
  | .chunkArrival _ => {}
  | .stepResultWrite _ => {}
  | .stepAbandon _ => {}
  | .entryComplete _ _ => {}
  | .quantumBoundary => {}
  | .preemptResume _ => {}
  | .qtailWrite _ _ _ => {}
  | .launchPacketRead _ => {}
  | .dealIdentifier _ _ => {}
  | .launchComplete _ => {}
  | .controlContextRestart _ => {}
  | .startHelperAssign _ => {}
  | .pennantPop _ => {}
  | .pennantAgePromote _ _ _ => {}
  | .halyardEpisodeComplete _ _ _ => {}
  | .halyLimitExpire _ => {}
  | .rbwaitTimeout _ _ => {}
  | .evwaitTimeout _ => {}
  | .rgwaitTimeout _ _ => {}
  | .yieldExpire _ _ => {}
  | .partnerSwitch _ => {}
  | .faultRecordAppend _ _ => {}
  | .fqheadWrite _ => {}
  | .xlinvPage _ => {}
  | .xlinvDomain _ => {}
  | .xlinvAllDomains => {}
  | .xlinvReserved => {}
  | .xlinvComplete => {}
  | .keyInstall => {}
  | .keyErase => {}
  | .keyCommandComplete => {}
  | .rngFill _ => {}
  | .rngFillComplete _ => {}
  | .devnumWrite _ _ => {}
  | .linkTraining _ _ => {}
  | .pnqbaseWrite _ _ _ => {}
  | .rbenWrite _ _ _ => {}
  | .domctlWrite _ _ _ => {}
  | .domainDisable _ => {}
  | .cctlWrite _ _ _ => {}
  | .dbgHalt _ => {}
  | .dbgResume _ => {}
  | .dbgStep _ _ _ => {}
  | .dbgSuperstep _ _ _ => {}
  | .debugHaltComplete => {}
  | .coldReset => {}
  | .warmReset => {}
  | .functionLevelReset _ => {}
  | .linkWidthRequest _ => {}
  | .linkRetrainComplete => {}
  | .dieClockRequest _ _ => {}
  | .dieClockChange _ => {}
  | .powerCapWindow => {}
  | .attestationReport _ => {}
  | .hostWrite _ _ _ => {}
  | .hostRead _ _ _ => {}
  | .registerWrite _ _ _ _ => {}
  | .powerDown => {}
  | .fabricLinkLoss _ => {}
  | .qctlWrite _ _ _ => {}
  | .fqctlWrite _ => {}
  | .ideKmKeyProgram _ => {}
  | .spdmSession _ => {}
end

