-- ==== Sys2Proof/Machine/Issue.lean ====
section
/-! DEFINITION. Issuing a word: HINT chains (02 R23-R25), guards (02 R26), lookahead windows (07 R129-R131), the end of a
loop body (14 R295, R296), following (14 R290, R291), and the completion of a long-latency instruction (18 R341). A
meaning is a function of the captured entry; it runs at once when the window is 0. -/

namespace Sys2Proof.Machine

/-- What a meaning leaves of its entry. -/
inductive Fin where
  /-- Complete. -/
  | done
  /-- Still waiting, its effect not in progress. -/
  | stay
  /-- Its effect is in progress (18 R340 AWAIT). -/
  | await
  /-- Still waiting, with what it captured. -/
  | hold (ext : List Nat)
  /-- It traps, and what it has done stands (13 R264). -/
  | trap (cause : Cause) (code : Nat) (aux : W64)
  deriving DecidableEq, Repr

/-- The meaning of a word on its captured operands. -/
abbrev Eff := Entry → M Fin

/-- A meaning that completes. -/
def plain (f : Entry → M Unit) : Eff := fun e => do
  f e
  pure .done

/-- The storage that a register name stands for; none for w0. -/
def Ctx.regId (c : Ctx) : RegName → Option RegId
  | .w n => c.wloc n
  | .v n => some (.v n)
  | .src n => if n = 31 ∧ c.stream.isSome then some .vq else some (.v n)
  | .m n => some (.m n)
  | .x n => some (.x n)
  | .s n => some (.s n)
  | .f n => some (.f n)

/-- The innermost current loop level (14 R293). -/
def Ctx.inner (c : Ctx) : Option Loop :=
  match c.flow.loops.getLast? with
  | some l => if l.win = c.depth then some l else none
  | none => none

/-- The address is the end address of a current level. -/
def Ctx.atEnd (c : Ctx) (a : W64) : Bool := c.flow.loops.any (fun l => l.win == c.depth && l.fin == a)

/-- A taken transfer to `t`: the outermost current level that it leaves goes, with every level inside it (14 R296). -/
def Ctx.leaveLoops (c : Ctx) (t : W64) : Ctx :=
  let outer := c.flow.loops.filter (fun l => l.win != c.depth)
  let cur := c.flow.loops.filter (fun l => l.win == c.depth)
  let kept := cur.takeWhile (fun l => decide (l.start.toNat ≤ t.toNat ∧ t.toNat ≤ l.fin.toNat))
  { c with flow := { c.flow with loops := outer ++ kept } }

/-- The word's own address, or that of the first HINT of its chain. -/
def Flow.start (f : Flow) : W64 := if f.chain = [] then f.pc else f.chainPc

/-- The pending chain suits the consumer (02 R23, R25). -/
def Shape.accepts (h : Shape) (chain : List Hint) : Bool :=
  let homes := chain.countP (fun x => match x with
    | .home _ => true
    | _ => false)
  let mods := chain.countP (fun x => match x with
    | .mod _ => true
    | _ => false)
  let imms := chain.countP (fun x => match x with
    | .imm _ => true
    | _ => false)
  homes == b2n (h.home == some 3) && (mods == 0 || (h.nt && mods == 1)) && (imms == 0 || h.imm.isSome)

/-- The gathered immediate (02 R24), when IMM HINTs stand before the consumer. -/
def Shape.gathered (h : Shape) (chain : List Hint) : Option Int :=
  let ps := chain.filterMap (fun x => match x with
    | .imm p => some p
    | .home _ | .mod _ => none)
  match h.imm with
  | none => none
  | some (n, f) =>
    if ps = [] then none else some (signed (n + 22 * ps.length) (f + 2 ^ n * ofLanes 22 ps))

/-- The immediate of an entry: the gathered value, or the field sign-extended (02 R24). -/
def Entry.immOf (e : Entry) (n f : Nat) : W64 := e.imm.getD (w64OfInt (signed n f))

/-- HINTS of a replay entry (18 R340). -/
def hintsNum (chain : List Hint) : Nat :=
  (chain.map (fun x => match x with
    | .home d => d
    | .mod m => m * 2 ^ 8
    | .imm _ => 0)).foldl (· + ·) 0

/-- `j` depends on `l` inside its window (07 R130). -/
def Ctx.dependsOn (c : Ctx) (j l : Shape) : Bool :=
  let ids (r : List RegName) : List RegId := r.filterMap c.regId
  let lw := ids l.wr
  (ids (j.reads ++ j.late ++ j.wr)).any lw.contains || (ids j.wr).any (ids l.late).contains

/-- The first instruction with an open window that a predicate holds of, finished or not. -/
def Flow.inWindow (f : Flow) (p : Entry → Bool) : Option Entry :=
  match f.inflight.find? p, f.gone.find? p with
  | some x, some y => if y.seq < x.seq then some y else some x
  | some x, none => some x
  | none, y => y

/-- The word names a register that a handler may not (18 R345). -/
def Shape.barred (h : Shape) : Bool :=
  h.engine || h.call || (h.reads ++ h.late ++ h.wr).any (fun r => match r with
    | .w _ => false
    | _ => true)

/-- Reads a guard; q0 is always true (07 R120, R132). -/
def guard (g : Nat) : M Bool := if g = 0 then pure true else rQ g

/-- The immediate that HINTs gather does not fit (02 R24). -/
def Shape.unfit (h : Shape) (chain : List Hint) : Bool :=
  match h.gathered chain with
  | none => false
  | some v => decide (v < -(2 ^ 63 : Int) ∨ (2 ^ 63 : Int) ≤ v)

/-- A V word of a context that stands in the vector queue (09 R174). -/
def Entry.queued (e : Entry) : Bool := e.instr.shape.vword

/-- A matrix command that has not been admitted: its context stalls (10 R191). -/
def Entry.stalls (e : Entry) : Bool :=
  !e.await && (decide (0x30 ≤ bits e.word.toNat 31 26 ∧ bits e.word.toNat 31 26 ≤ 0x33) || bits e.word.toNat 31 26 == 0x37)

/-- An unfinished instruction whose window is closed, or a matrix command that has found no place in the queue: the next instruction has
not been reached (07 R129, 10 R191). So it is behind a queued V word at the end of a loop body, whose end evaluation comes first (14
R295). -/
def Flow.closed (f : Flow) : Bool := f.inflight.any (fun e => (e.left == 0 && (!e.queued || e.atEnd)) || e.stalls)

/-- Instructions that the word waits for before issue (07 R131). -/
def Flow.drains (f : Flow) (h : Shape) : Bool := h.drain && f.inflight.any (fun e => h.sys || !e.queued)

/-- A queued V word writes a register that the word names, or a w register while the word changes the window (09 R174). -/
def Ctx.notProduced (c : Ctx) (h : Shape) : Bool :=
  let ids (r : List RegName) : List RegId := r.filterMap c.regId
  c.flow.inflight.any (fun e => e.queued && (e.instr.shape.wr.any (fun r => match r with
      | .w _ => h.call
      | _ => false) || (ids (h.reads ++ h.late ++ h.wr)).any (ids e.instr.shape.wr).contains))

/-- The checks before issue in their order; the answer is whether the guard is true. -/
def gate (word : Nat) (h : Shape) : M Bool := do
  let c ← getCx
  let own := c.flow.pc
  if c.flow.closed then waitM
  else if !h.accepts c.flow.chain || h.unfit c.flow.chain then
    trapPre .illegal 0 (BitVec.ofNat 64 word)
  else if c.flow.drains h then waitM
  else
    let g ← guard h.g
    if !g then pure false
    else if c.level ≠ 0 && h.barred then trapPre .prot 0x3E 0
    else if h.transfer && c.atEnd own then trapPre .prot 0x2E own
    else
      match (if h.drain then none else c.flow.inWindow (fun l => !l.queued && c.dependsOn h l.instr.shape)) with
      | some l => trapPre .lookahead 0 l.pc
      | none =>
        if c.notProduced h || ((h.long || h.vword) && decide (16 ≤ c.flow.inflight.length)) then waitM else pure true

/-- Reads a w operand if the word has it. -/
def rWo : Option Nat → M W64
  | none => pure 0
  | some n => rW n

/-- Reads a mask operand if the word has it. -/
def rMo : Option Nat → M W64
  | none => pure 0
  | some n => rM n

/-- Reads the stream operand with its tag code; a dry read takes nothing, so that the tag can be checked first (08 R159, 09 R175). -/
def rVq (dry : Bool) : M (Nat × Nat) := do
  let c ← getCx
  if dry then pure (0, (c.stream.map (·.tag)).getD 0) else readVq

/-- Reads a vector operand with its tag code. -/
def rVec (dry : Bool) : Option RegName → M (Nat × Nat)
  | some (.v n) => do
    let v ← rV n
    let c ← getCx
    pure (v, c.vtagOf n)
  | some (.src n) => do
    let c ← getCx
    if n = 31 && c.stream.isSome then rVq dry
    else
      let v ← rV n
      pure (v, c.vtagOf n)
  | _ => pure (0, 0)

/-- Reads a register for its staleness only. -/
def touch : RegName → M Unit
  | .v n => do
    let _ ← rV n
  | .w n => do
    let _ ← rW n
  | .m n => do
    let _ ← rM n
  | .src _ | .x _ | .s _ | .f _ => pure ()

/-- The vector destination of a word, if it has one. -/
def Shape.vdest (h : Shape) : Option Nat :=
  match h.wr with
  | .v n :: _ => some n
  | _ => none

/-- The tag of a tile, or of a latch from 8 on: that of its family, or RAW in no ring (11 R212). -/
def State.mxTag (s : State) (core k n : Nat) : Tag :=
  if n < 8 then (s.ctx core k).xtagOf n
  else
    match (s.core core).ring with
    | none => Tag.raw
    | some r =>
      match Tbl.find s.rings r with
      | none => Tag.raw
      | some g => if n < 10 then g.cwTag else g.ccwTag

/-- A mask register as it stands: its latest value, if the bypass holds that. -/
def Ctx.maskNow (c : Ctx) (n : Nat) : W64 :=
  if n = 0 then BitVec.allOnes 64
  else if (c.flow.staleTag (.m n)).isSome then BitVec.ofNat 64 ((c.flow.bypassed (.m n)).getD 0)
  else Tbl.get 0 c.vec.m n

/-- What an engine word captures beside its replay entry. -/
def State.captureEx (s : State) (core k : Nat) (l : List Ex) : List Nat :=
  let c := s.ctx core k
  l.flatMap (fun x => match x with
    | .tag n => [(s.mxTag core k n).code, (s.mxTag core k n).desc]
    | .scale n => [(c.sOf n).toNat]
    | .desc n => [(c.fOf n).toNat]
    | .piv => [c.spec.pivthr.toNat, c.spec.pivreg.toNat]
    | .tile n => [Tbl.get 0 c.vec.x n, Tbl.get 0 c.vec.side n]
    | .mask n => [(c.maskNow n).toNat])

/-- Tag code and contents of a vector destination as they stand at issue. -/
def Ctx.vdestNow (c : Ctx) : Option Nat → List Nat
  | none => []
  | some n => [c.vtagOf n, if (c.flow.staleTag (.v n)).isSome then (c.flow.bypassed (.v n)).getD 0 else Tbl.get 0 c.vec.v n]

/-- What an entry captures beside its fields: tags of its vector operands, its vector destination as it stands, and the rest. -/
def State.captured (s : State) (core k : Nat) (h : Shape) (ta tb : Nat) : List Nat :=
  [ta, tb] ++ (s.ctx core k).vdestNow h.vdest ++ s.captureEx core k h.ex

/-- Captures the operands of a word (07 R130, 18 R340). A masked write reads its destination (07 R128). -/
def capture (i : Instr) (word : Nat) (h : Shape) (dry : Bool) : M Entry := do
  let opd ← rWo h.opd
  let opa ← rWo h.opa
  let opb ← rWo h.opb
  let mask ← rMo h.mask
  (h.rd ++ (if h.mask.getD 0 = 0 then [] else h.wr.filter (fun r => match r with
    | .w _ => false
    | _ => true))).forM touch
  let (va, ta) ← rVec dry h.va
  let (vb, tb) ← rVec dry h.vb
  let c ← getCx
  let k ← getCur
  let s ← get
  pure { seq := c.flow.seq, instr := i, word := BitVec.ofNat 32 word, pc := c.flow.start, own := c.flow.pc,
         imm := (h.gathered c.flow.chain).map w64OfInt, opd := opd, opa := opa, opb := opb, mask := mask,
         hints := hintsNum c.flow.chain, va := va, vb := vb, left := 0, await := false, atEnd := c.atEnd c.flow.pc,
         ext := s.captured k.1 k.2 h ta tb, priv := s.privOf k.1 k.2, cyc := s.cc.cycle }

/-- The tag code of a vector operand as it stands. -/
def Ctx.tagNow (c : Ctx) : Option RegName → Nat
  | some (.v n) => c.vtagOf n
  | some (.src n) => if n = 31 ∧ c.stream.isSome then (c.stream.map (·.tag)).getD 0 else c.vtagOf n
  | _ => 0

/-- Entries that a frame brought back carry no tags, descriptors or elements: they take those that stand at the return (18 R348; DESIGN
CHOICE, log entry 69). -/
def State.recapture (s : State) (core k : Nat) : State :=
  let c := s.ctx core k
  s.setCtx core k { c with flow := { c.flow with inflight := c.flow.inflight.map (fun e =>
    if e.ext = [] ∧ !e.await then
      let h := e.instr.shape
      { e with ext := s.captured core k h (c.tagNow h.va) (c.tagNow h.vb) }
    else e) } }

/-- Counts an issued instruction against the windows and moves to the next word (07 R129). -/
def Flow.issued (f : Flow) : Flow :=
  { f with
    pc := f.pc + 4, chain := [], inflight := f.inflight.map (fun e => { e with left := e.left - 1 })
    gone := (f.gone.filter (fun e => decide (1 < e.left))).map (fun e => { e with left := e.left - 1 }) }

/-- A word that waits for every long-latency instruction stands in no window (07 R131). -/
def Flow.drained (f : Flow) (h : Shape) : Flow := if h.drain then { f with gone := [] } else f

/-- The place of a result that has still to be written; a word that writes w0 and a second register produces a result too (07 R128). -/
def Ctx.reserve (c : Ctx) (h : Shape) : Ctx :=
  match h.wr with
  | .w n :: rest =>
    match c.wloc n with
    | none =>
      if (rest.filterMap c.regId).isEmpty then c else { c with flow := c.flow.push ⟨.common 0, some c.flow.seq, 0, 0⟩ }
    | some r => { c with flow := c.flow.push ⟨r, some c.flow.seq, 0, 0⟩ }
  | .v n :: _ => { c with flow := c.flow.push ⟨.v n, some c.flow.seq, 0, 0⟩ }
  | .m n :: _ => { c with flow := c.flow.push ⟨.m n, some c.flow.seq, 0, 0⟩ }
  | _ => c

/-- The V words of a core that stand in its vector queue (09 R174). -/
def Core.vqueue (x : Core) : Nat := (x.ctxs.map (fun p => p.2.flow.inflight.countP (·.queued))).foldl (· + ·) 0

/-- The context at the issue of a V word into the queue: the place of its result is taken, and a transient destination is stale. -/
def Ctx.issueQueued (c : Ctx) (h : Shape) (word : Nat) : Ctx :=
  let c' := c.reserve h
  let c' := if bit word 1 then
      match h.wr.head?.bind c.regId with
      | some r => { c' with flow := c'.flow.markStale r 0 }
      | none => c'
    else c'
  { c' with flow := { (c'.flow.drained h).issued with seq := c.flow.seq + 1 } }

/-- The context at the issue of a word whose guard is true. -/
def Ctx.issue (c : Ctx) (h : Shape) : Ctx :=
  let c := if h.long then c.reserve h else c
  { c with flow := { (c.flow.drained h).issued with seq := c.flow.seq + 1 } }

/-- Adds an entry behind the others. -/
def Ctx.enter (c : Ctx) (e : Entry) : Ctx := { c with flow := { c.flow with inflight := c.flow.inflight ++ [e] } }

/-- Writes a long-latency result to a w register. -/
def wFin (e : Entry) (n : Nat) (v : W64) : M Unit := modCx (fun c => c.finW e n v)

/-- Writes a long-latency result to a vector register with its tag. -/
def vFin (e : Entry) (n val tag : Nat) : M Unit :=
  modCx (fun c => { c.fileV n val tag with flow := (c.fileV n val tag).flow.fillResult e.seq val tag })

/-! ### Following -/

/-- The word ends following at its leader (14 R291, R292): EXIT, FOLLOW, TRAP, SYSC, BRK and HALT, and an UNFOLLOW whose guard is true,
which ends it at a follower whatever that one's guard is. -/
def endsFollowing (word : Nat) (g : Bool) : Bool :=
  let maj := bits word 31 26
  let op := bits word 25 22
  (maj == 0x38 && (op == 1 || op == 3 || (op == 4 && g))) || (maj == 0x3C && (op == 4 || op == 6 || op == 7 || op == 8))

/-- The queue of the launch whose part runs on a core. -/
def Core.launchOf (x : Core) : Option Nat := x.running.map (·.queue)

/-- The core follows, or waits to follow, core `leader` in the launch of queue `q` (14 R290). -/
def Core.follows (x : Core) (leader : Nat) (q : Option Nat) : Bool :=
  match (x.ctx 0).follow with
  | some f => f.leader == leader && x.launchOf == q
  | none => false

/-- The core follows, or waits to follow, the control context that runs on core `leader`. -/
def State.followsIt (s : State) (x : Core) (leader : Nat) : Bool := x.follows leader (s.core leader).launchOf

/-- The control context of the running core issues the word at `own`: its followers receive it, and one that waits for that
address begins following (14 R290). -/
def State.stream (s : State) (own : W64) (word : Nat) (ends : Bool) : State :=
  if s.cur.2 ≠ 0 then s
  else
    (s.cores.filter (fun p => s.followsIt p.2 s.cur.1)).foldl (fun s p =>
        let c := s.ctx p.1 0
        match c.follow with
        | none => s
        | some f =>
          if f.on then s.setCtx p.1 0 { c with follow := some { f with queue := f.queue ++ [(own, word, ends)] } }
          else if f.at_ = own then s.setCtx p.1 0 { c with follow := some { f with on := true, queue := [(own, word, ends)] } }
          else s) s

/-- A follower holds the leader's issue: it is 64 instructions behind (14 R290). -/
def State.heldByFollower (s : State) : Bool :=
  s.cur.2 == 0 && s.cores.any (fun p => match (Core.ctx p.2 0).follow with
    | some f => decide (64 ≤ f.queue.length) && s.followsIt p.2 s.cur.1
    | none => false)

/-- The leader's control context as a follower that has issued all its words sees it. -/
inductive Lead where
  /-- It runs work of the launch no more. -/
  | gone
  /-- It is in a handler, stopped or pre-empted, or its next address is not yet known: the stream is suspended (14 R291). -/
  | suspended
  /-- Its next address. -/
  | next (a : W64)
  deriving DecidableEq, Repr

/-- What the follower on core `core` sees of its leader. -/
def State.leadOf (s : State) (core lead : Nat) : Lead :=
  let q := (s.core core).launchOf
  if (s.core lead).launchOf == q then
    let l := s.ctx lead 0
    match l.life with
    | .live => if l.level = 0 ∧ !l.flow.inflight.any (·.atEnd) then .next l.flow.pc else .suspended
    | .stopped => .suspended
    | .idle | .dead => .gone
  else if s.launch.stopped.any (fun p => p.core == lead && some p.part.queue == q) then .suspended
  else .gone

/-- Following ends with no word of the leader at hand: the follower's next address differs from the leader's (14 R291), or the leader runs
work of the launch no more (DESIGN CHOICE, log entry 72). -/
def State.parted (s : State) (f : Follow) : Bool :=
  match s.leadOf s.cur.1 f.leader with
  | .gone => true
  | .suspended => false
  | .next a => a != s.cx.flow.pc && !s.cx.flow.inflight.any (·.atEnd)

/-- What following does before an issue: none while the follower waits for its leader; following ends where the next
address differs from the leader's, and at a word that ends it (14 R291). -/
def State.following (s : State) : Option State :=
  match s.cx.follow with
  | none => some s
  | some f =>
    if !f.on || s.cx.level != 0 then some s
    else
      match f.queue with
      | [] => if s.parted f then some (s.setCx { s.cx with follow := none }) else none
      | (a, _, ends) :: r =>
        some (s.setCx { s.cx with follow := if a ≠ s.cx.flow.pc || ends then none else some { f with queue := r } })

/-! ### Issue -/

/-- What issuing a word gives. -/
inductive Issued where
  | wait
  | next (s : State)
  deriving DecidableEq, Repr

/-- Notes that the running context issued in the present cycle (15 R312). -/
def State.stamp (s : State) : State := s.setCx { s.cx with last := s.cc.cycle, passed := 0 }

/-- A trap of the running context found before issue (18 R341). -/
def State.trapHere (s : State) (c : Cause) (code : Nat) (aux : W64) : State :=
  let f := s.cx.flow
  (s.takeTrap s.cur.1 s.cur.2 ⟨c, code, aux, f.start, f.start, 0, none, none⟩).stamp

/-- A trap of an issued instruction: it becomes the TRAPPED entry (18 R341). -/
def State.trapEntry (s : State) (e : Entry) (c : Cause) (code : Nat) (aux : W64) : State :=
  let f := s.cx.flow
  let npc := if f.chain = [] then f.pc else f.chainPc
  s.takeTrap s.cur.1 s.cur.2 ⟨c, code, aux, e.pc, npc, 0, some e.seq, none⟩

/-- The entry with that many instructions of its window still to issue. -/
def Entry.withLeft (e : Entry) (n : Nat) : Entry := { e with left := n }

/-- A V word enters the vector queue, whose state `s1` has it issued; a trap before issue is taken at once (09 R174). -/
def queueV (s s1 : State) (eff : Eff) (e : Entry) : Issued :=
  if 2 ≤ s.cc.vqueue then .wait
  else
    match eff e s1 with
    | .error (.trap c code aux true) => .next (s.trapHere c code aux)
    | .ok _ | .error .wait | .error (.trap _ _ _ false) => .next (s1.setCx (s1.cx.enter e))

/-- The word's first vector operand is the stream (09 R175). -/
def Ctx.readsVq (c : Ctx) (h : Shape) : Bool :=
  c.stream.isSome && (match h.va with
    | some (.src n) => n == 31
    | _ => false)

/-- The trap before issue that a word which reads the stream raises before it takes anything from it (09 R175). -/
def vqTrap (s : State) (h : Shape) (i : Instr) (word : Nat) (eff : Eff) : Option State :=
  if !s.cx.readsVq h then none
  else
    match capture i word h true s with
    | .error (.trap c code aux _) => some (s.trapHere c code aux)
    | .error .wait => none
    | .ok (e, s0) =>
      match eff e (s0.setCx (s0.cx.issue h)) with
      | .error (.trap c code aux true) => some (s.trapHere c code aux)
      | _ => none

/-- The storage of the w registers that a word writes, with what it holds; first that of its d field (07 R128). -/
def Ctx.regResults (c : Ctx) (h : Shape) : List (RegId × W64) :=
  h.wr.filterMap (fun r => match r with
    | .w n => some (match c.wloc n with
      | some l => (l, c.wraw l)
      | none => (.common 0, 0))
    | .v _ | .src _ | .m _ | .x _ | .s _ | .f _ => none)

/-- Registers tie the word to the instructions of its window, so that its effect is not made again and its completion waits (07 R130). -/
def Entry.binds (e : Entry) : Bool := (!e.instr.shape.wr.isEmpty || !e.instr.shape.late.isEmpty) && !repeats e.instr

/-- The context once the effect of an entry has been made, `c0` being that before: the entry is complete, but where its window is open and
registers tie it to the instructions there, it stays unfinished with its results (07 R129, R130; DEDUCED, log entry 6). -/
def Ctx.done (c0 c : Ctx) (e : Entry) : Ctx :=
  if e.left ≠ 0 ∧ e.binds ∧ (Tbl.find c0.results e.seq).isNone then
    Ctx.perform { c with rf := c0.rf, hw := c0.hw, flow := { c.flow with bypass := c0.flow.bypass, stale := c0.flow.stale } } e
      (c.regResults e.instr.shape)
  else c.retire e

/-- The word's effect from the state before its issue (07 R129, 18 R341). -/
def runEff (s : State) (h : Shape) (i : Instr) (word : Nat) (eff : Eff) : Issued :=
  match vqTrap s h i word eff with
  | some s' => .next s'
  | none =>
  match capture i word h false s with
  | .error .wait => .wait
  | .error (.trap c code aux true) => .next (s.trapHere c code aux)
  | .error (.trap c code aux false) => .next (s.trapHere c code aux)
  | .ok (e, s0) =>
    let own := s.cx.flow.pc
    let la := if e.atEnd then 0 else h.la
    let e := e.withLeft la
    if h.vword && (s.cc.vbusy || s.cc.vqueue != 0) then queueV s (s0.setCx (s0.cx.issueQueued h word)) eff e
    else
    let s1 := s0.setCx (s0.cx.issue h)
    let kept (e : Entry) : State := s1.setCx (s1.cx.enter e)
    match eff e s1 with
    | .error (.trap c code aux true) => .next (s.trapHere c code aux)
    | .error .wait => if h.long then .next (kept e) else .wait
    | .error (.trap c code aux false) => .next (if la = 0 || h.now then (kept e).trapEntry e c code aux else kept e)
    | .ok (f, s2) =>
      if la ≠ 0 && !h.now then .next (kept e)
      else
        match f with
        | .done => .next (s2.setCx (if la = 0 then s2.cx.evalEnd own else s1.cx.done (s2.cx.enter e) e))
        | .stay => .next (s2.setCx (s2.cx.enter e))
        | .await => .next (s2.setCx (s2.cx.enter { e with await := true }))
        | .hold ext => .next (s2.setCx (s2.cx.enter { e with ext := ext }))
        | .trap c code aux => .next ((s2.setCx (s2.cx.enter e)).trapEntry e c code aux)

/-- Issues a word of the running context: following, the checks before issue, then its effect. A false guard consumes the
word and its chain and has no effect (02 R26). -/
def issueWord (s : State) (h : Shape) (word : Nat) (run : State → Issued) : Issued :=
  match s.following with
  | none => .wait
  | some s0 =>
    if s.heldByFollower then .wait
    else
      let c := s0.cx
      let own := c.flow.pc
      match gate word h s0 with
      | .error .wait => .wait
      | .error (.trap ca code aux _) => .next (s0.trapHere ca code aux)
      | .ok (g, _) =>
        match (if g then run s0
            else .next (s0.setCx ({ c with flow := { (c.flow.drained h).issued with seq := c.flow.seq + 1 } }.evalEnd own))) with
        | .wait => .wait
        | .next s' =>
          .next (if c.level = 0 ∧ s'.cx.flow.seq ≠ c.flow.seq then s'.stream own word (endsFollowing word g) else s').stamp

/-- Issues an instruction word with its meaning. -/
def tryIssue (i : Instr) (eff : Eff) (s : State) : Issued :=
  let word := (encodeNat i).getD 0
  issueWord s i.shape word (fun s => runEff s i.shape i word eff)

/-- The step that an issue makes: a waiting word leaves the state as it is. -/
def Issued.outcome (s : State) : Issued → Host.Outcome State Fault Refusal
  | .wait => .next s
  | .next s' => .next s'

/-- Issues an instruction word of the running context. -/
def issue (i : Instr) (eff : Eff) (s : State) : Host.Outcome State Fault Refusal := (tryIssue i eff s).outcome s

/-- A transfer: `pre` is checked before any operand is read; the effect gives the next address and makes every other change (07
R141-R143, 14 R294-R298). -/
def runJump (s : State) (h : Shape) (pre : M Unit) (eff : Entry → M W64) : Issued :=
  match pre s with
  | .error .wait => .wait
  | .error (.trap c code aux _) => .next (s.trapHere c code aux)
  | .ok _ =>
  match capture .nop 0 h false s with
  | .error .wait => .wait
  | .error (.trap c code aux _) => .next (s.trapHere c code aux)
  | .ok (e, s0) =>
    let s1 := s0.setCx (s0.cx.issue h)
    match eff e s1 with
    | .error .wait => .wait
    | .error (.trap c code aux _) => .next (s.trapHere c code aux)
    | .ok (n, s2) => .next (s2.setCx { s2.cx with flow := { s2.cx.flow with pc := n } })

/-- Issues a transfer. -/
def jump (i : Instr) (eff : Entry → M W64) (s : State) : Host.Outcome State Fault Refusal :=
  (issueWord s i.shape ((encodeNat i).getD 0) (fun s => runJump s i.shape (pure ()) eff)).outcome s

/-- Issues a transfer with a check before its operands are read. -/
def jumpAfter (pre : M Unit) (i : Instr) (eff : Entry → M W64) (s : State) : Host.Outcome State Fault Refusal :=
  (issueWord s i.shape ((encodeNat i).getD 0) (fun s => runJump s i.shape pre eff)).outcome s

/-- A word that is not an instruction, once it is reached (02 R20, R21). Behind HINTs the trap pc is the address of the first of them, as
for a consumer that does not accept its chain (DEDUCED, log entry 23). -/
def illegal (word : Nat) (s : State) : Issued :=
  if s.cx.flow.closed then .wait
  else .next (s.trapHere .illegal 0 (BitVec.ofNat 64 word))

/-! ### Completion -/

/-- An effect; that of an entry whose effect has taken place is to write its results (07 R130); for a queued V word the place of its
result is filled instead of a new one taken (07 R128, 09 R174). -/
def Entry.run (e : Entry) (eff : Instr → Eff) (s : State) : Except Stop (Fin × State) :=
  let e := e.withLeft 0
  match Tbl.find s.cx.results e.seq with
  | some (.regs l) =>
    .ok (.done, s.setCx { s.cx.writeRegs e.seq l with results := s.cx.results.filter (fun r => r.1 != e.seq) })
  | _ =>
  if !e.queued then eff e.instr e s
  else
    let byp := s.cx.flow.bypass
    match eff e.instr e (s.setCx { s.cx with flow := { s.cx.flow with bypass := [] } }) with
    | .error x => .error x
    | .ok (f, s) =>
      let c := s.cx
      let c' := { c with flow := { c.flow with bypass := byp } }
      .ok (f, s.setCx (match c.flow.bypass.getLast? with
        | some b => { c' with flow := c'.flow.fillResult e.seq b.val b.tag }
        | none => c'))

/-- The trap that the unfinished instruction earliest in program order before `seq` raises as it stands (18 R343). -/
def State.earlierTrap (s : State) (eff : Instr → Eff) (seq : Nat) : Option (Entry × Cause × Nat × W64) :=
  s.cx.flow.inflight.findSome? (fun e =>
    if seq ≤ e.seq then none
    else
      match e.run eff s with
      | .error (.trap c code aux _) => some (e, c, code, aux)
      | .error .wait | .ok _ => none)

/-- The trapping entry of the running context is performed again after the trap: no effect of it is in progress, and no result of it waits
(18 R340, R348). -/
def State.rerun (s : State) (e : Entry) : State :=
  let c := s.cx
  s.setCx { c with
    results := c.results.filter (fun r => r.1 != e.seq)
    flow := { c.flow with inflight := c.flow.inflight.map (fun x => if x.seq = e.seq then { x with await := false } else x) } }

/-- Completes the entry of a context with sequence number `seq`, if its effect lets it (07 R129, 18 R341, R348); its window may
still be open. Of several that raise conditions, the earliest in program order traps (18 R343). -/
def State.finish (s : State) (eff : Instr → Eff) (core k seq : Nat) : Issued :=
  let s0 := { s with cur := (core, k) }
  match (s.ctx core k).flow.inflight.find? (fun e => e.seq == seq) with
  | none => .wait
  | some e =>
    match e.run eff s0 with
    | .error .wait => .wait
    | .error (.trap c code aux _) =>
      let (e, c, code, aux) := (s0.earlierTrap eff seq).getD (e, c, code, aux)
      .next { (s0.rerun e).trapEntry e c code aux with cur := s.cur }
    | .ok (f, s2) =>
      let c := s2.cx
      let upd (g : Entry → List Entry) : Ctx :=
        { c with flow := { c.flow with inflight := c.flow.inflight.flatMap (fun x => if x.seq = seq then g x else [x]) } }
      match f with
      | .done => .next { s2.setCx (s0.cx.done c e) with cur := s.cur }
      | .stay => .next { s2.setCx (upd (fun x => [{ x with await := false }])) with cur := s.cur }
      | .await => .next { s2.setCx (upd (fun x => [{ x with await := true }])) with cur := s.cur }
      | .hold ext => .next { s2.setCx (upd (fun x => [{ x with ext := ext }])) with cur := s.cur }
      | .trap ca code aux => .next { (s2.rerun e).trapEntry e ca code aux with cur := s.cur }

end Sys2Proof.Machine
end

