-- ==== Sys2Proof/Machine/Scalar.lean ====
section
/-! DEFINITION. Scalar instructions: arithmetic, immediates, division and guard slots (07 R136-R140, R144). Each `fin` is the
meaning on captured operands; each `exec` issues its word with it. -/

namespace Sys2Proof.Machine

/-- 64 bits with copies of bit 63 shifted in (07 R136). -/
def sraW (a b : W64) : W64 := BitVec.sshiftRight a (b.toNat % 64)

/-- Rotation right (07 R136). -/
def rorW (a b : W64) : W64 := BitVec.rotateRight a (b.toNat % 64)

/-- Leading zero bits, 64 for 0. -/
def clzW (a : W64) : Nat := if a = 0 then 64 else 63 - Nat.log2 a.toNat

/-- Trailing zero bits among the `n` low bits counted from bit `i`. -/
def ctzFrom (a : W64) (i : Nat) : Nat → Nat
  | 0 => 0
  | n + 1 => if a.getLsbD i then 0 else 1 + ctzFrom a (i + 1) n

/-- Trailing zero bits, 64 for 0. -/
def ctzW (a : W64) : Nat := ctzFrom a 0 64

/-- One bits. -/
def popcW (a : W64) : Nat := (List.range 64).countP (fun i => a.getLsbD i)

/-- The low `n` bits sign-extended. -/
def sextW (n : Nat) (a : W64) : W64 := w64OfInt (signed n a.toNat)

/-- 1 or 0. -/
def boolW (b : Bool) : W64 := if b then 1 else 0

/-- Signed division truncated towards zero, with the results for a zero divisor and for overflow (07 R139). -/
def divW (a b : W64) : W64 := if b = 0 then BitVec.allOnes 64 else w64OfInt (a.toInt.tdiv b.toInt)

/-- Unsigned division (07 R139). -/
def divuW (a b : W64) : W64 := if b = 0 then BitVec.allOnes 64 else BitVec.ofNat 64 (a.toNat / b.toNat)

/-- Signed remainder with the sign of the dividend (07 R139). -/
def remW (a b : W64) : W64 := if b = 0 then a else w64OfInt (a.toInt.tmod b.toInt)

/-- Unsigned remainder (07 R139). -/
def remuW (a b : W64) : W64 := if b = 0 then a else BitVec.ofNat 64 (a.toNat % b.toNat)

/-- ADD (07 R136). -/
def finAdd (d : Nat) (t : Bool) : Eff := plain (fun e => wW d (e.opa + e.opb) t)

/-- ADD (07 R136). -/
def execAdd (d : Nat) (a : Nat) (b : Nat) (t : Bool) (g : Nat) (s : State) : Host.Outcome State Fault Refusal :=
  issue (.add d a b t g) (finAdd d t) s

/-- SUB (07 R136). -/
def finSub (d : Nat) (t : Bool) : Eff := plain (fun e => wW d (e.opa - e.opb) t)

/-- SUB (07 R136). -/
def execSub (d : Nat) (a : Nat) (b : Nat) (t : Bool) (g : Nat) (s : State) : Host.Outcome State Fault Refusal :=
  issue (.sub d a b t g) (finSub d t) s

/-- AND (07 R136). -/
def finAnd (d : Nat) (t : Bool) : Eff := plain (fun e => wW d (e.opa &&& e.opb) t)

/-- AND (07 R136). -/
def execAnd (d : Nat) (a : Nat) (b : Nat) (t : Bool) (g : Nat) (s : State) : Host.Outcome State Fault Refusal :=
  issue (.and d a b t g) (finAnd d t) s

/-- OR (07 R136). -/
def finOr (d : Nat) (t : Bool) : Eff := plain (fun e => wW d (e.opa ||| e.opb) t)

/-- OR (07 R136). -/
def execOr (d : Nat) (a : Nat) (b : Nat) (t : Bool) (g : Nat) (s : State) : Host.Outcome State Fault Refusal :=
  issue (.or d a b t g) (finOr d t) s

/-- XOR (07 R136). -/
def finXor (d : Nat) (t : Bool) : Eff := plain (fun e => wW d (e.opa ^^^ e.opb) t)

/-- XOR (07 R136). -/
def execXor (d : Nat) (a : Nat) (b : Nat) (t : Bool) (g : Nat) (s : State) : Host.Outcome State Fault Refusal :=
  issue (.xor d a b t g) (finXor d t) s

/-- ANDN (07 R136). -/
def finAndn (d : Nat) (t : Bool) : Eff := plain (fun e => wW d (e.opa &&& ~~~e.opb) t)

/-- ANDN (07 R136). -/
def execAndn (d : Nat) (a : Nat) (b : Nat) (t : Bool) (g : Nat) (s : State) : Host.Outcome State Fault Refusal :=
  issue (.andn d a b t g) (finAndn d t) s

/-- SLL (07 R136). -/
def finSll (d : Nat) (t : Bool) : Eff := plain (fun e => wW d (e.opa <<< (e.opb.toNat % 64)) t)

/-- SLL (07 R136). -/
def execSll (d : Nat) (a : Nat) (b : Nat) (t : Bool) (g : Nat) (s : State) : Host.Outcome State Fault Refusal :=
  issue (.sll d a b t g) (finSll d t) s

/-- SRL (07 R136). -/
def finSrl (d : Nat) (t : Bool) : Eff := plain (fun e => wW d (e.opa >>> (e.opb.toNat % 64)) t)

/-- SRL (07 R136). -/
def execSrl (d : Nat) (a : Nat) (b : Nat) (t : Bool) (g : Nat) (s : State) : Host.Outcome State Fault Refusal :=
  issue (.srl d a b t g) (finSrl d t) s

/-- SRA (07 R136). -/
def finSra (d : Nat) (t : Bool) : Eff := plain (fun e => wW d (sraW e.opa e.opb) t)

/-- SRA (07 R136). -/
def execSra (d : Nat) (a : Nat) (b : Nat) (t : Bool) (g : Nat) (s : State) : Host.Outcome State Fault Refusal :=
  issue (.sra d a b t g) (finSra d t) s

/-- ROR (07 R136). -/
def finRor (d : Nat) (t : Bool) : Eff := plain (fun e => wW d (rorW e.opa e.opb) t)

/-- ROR (07 R136). -/
def execRor (d : Nat) (a : Nat) (b : Nat) (t : Bool) (g : Nat) (s : State) : Host.Outcome State Fault Refusal :=
  issue (.ror d a b t g) (finRor d t) s

/-- SLT (07 R136). -/
def finSlt (d : Nat) (t : Bool) : Eff := plain (fun e => wW d (boolW (e.opa.slt e.opb)) t)

/-- SLT (07 R136). -/
def execSlt (d : Nat) (a : Nat) (b : Nat) (t : Bool) (g : Nat) (s : State) : Host.Outcome State Fault Refusal :=
  issue (.slt d a b t g) (finSlt d t) s

/-- SLTU (07 R136). -/
def finSltu (d : Nat) (t : Bool) : Eff := plain (fun e => wW d (boolW (e.opa.ult e.opb)) t)

/-- SLTU (07 R136). -/
def execSltu (d : Nat) (a : Nat) (b : Nat) (t : Bool) (g : Nat) (s : State) : Host.Outcome State Fault Refusal :=
  issue (.sltu d a b t g) (finSltu d t) s

/-- MIN (07 R136). -/
def finMin (d : Nat) (t : Bool) : Eff := plain (fun e => wW d (if e.opb.slt e.opa then e.opb else e.opa) t)

/-- MIN (07 R136). -/
def execMin (d : Nat) (a : Nat) (b : Nat) (t : Bool) (g : Nat) (s : State) : Host.Outcome State Fault Refusal :=
  issue (.min d a b t g) (finMin d t) s

/-- MAX (07 R136). -/
def finMax (d : Nat) (t : Bool) : Eff := plain (fun e => wW d (if e.opa.slt e.opb then e.opb else e.opa) t)

/-- MAX (07 R136). -/
def execMax (d : Nat) (a : Nat) (b : Nat) (t : Bool) (g : Nat) (s : State) : Host.Outcome State Fault Refusal :=
  issue (.max d a b t g) (finMax d t) s

/-- MINU (07 R136). -/
def finMinu (d : Nat) (t : Bool) : Eff := plain (fun e => wW d (if e.opb.ult e.opa then e.opb else e.opa) t)

/-- MINU (07 R136). -/
def execMinu (d : Nat) (a : Nat) (b : Nat) (t : Bool) (g : Nat) (s : State) : Host.Outcome State Fault Refusal :=
  issue (.minu d a b t g) (finMinu d t) s

/-- MAXU (07 R136). -/
def finMaxu (d : Nat) (t : Bool) : Eff := plain (fun e => wW d (if e.opa.ult e.opb then e.opb else e.opa) t)

/-- MAXU (07 R136). -/
def execMaxu (d : Nat) (a : Nat) (b : Nat) (t : Bool) (g : Nat) (s : State) : Host.Outcome State Fault Refusal :=
  issue (.maxu d a b t g) (finMaxu d t) s

/-- MUL (07 R136). -/
def finMul (d : Nat) (t : Bool) : Eff := plain (fun e => wW d (e.opa * e.opb) t)

/-- MUL (07 R136). -/
def execMul (d : Nat) (a : Nat) (b : Nat) (t : Bool) (g : Nat) (s : State) : Host.Outcome State Fault Refusal :=
  issue (.mul d a b t g) (finMul d t) s

/-- MULH (07 R136). -/
def finMulh (d : Nat) (t : Bool) : Eff := plain (fun e => wW d (w64OfInt (e.opa.toInt * e.opb.toInt / 2 ^ 64)) t)

/-- MULH (07 R136). -/
def execMulh (d : Nat) (a : Nat) (b : Nat) (t : Bool) (g : Nat) (s : State) : Host.Outcome State Fault Refusal :=
  issue (.mulh d a b t g) (finMulh d t) s

/-- MULHU (07 R136). -/
def finMulhu (d : Nat) (t : Bool) : Eff := plain (fun e => wW d (BitVec.ofNat 64 (e.opa.toNat * e.opb.toNat / 2 ^ 64)) t)

/-- MULHU (07 R136). -/
def execMulhu (d : Nat) (a : Nat) (b : Nat) (t : Bool) (g : Nat) (s : State) : Host.Outcome State Fault Refusal :=
  issue (.mulhu d a b t g) (finMulhu d t) s

/-- CLZ (07 R136). -/
def finClz (d : Nat) (t : Bool) : Eff := plain (fun e => wW d (BitVec.ofNat 64 (clzW e.opa)) t)

/-- CLZ (07 R136). -/
def execClz (d : Nat) (a : Nat) (t : Bool) (g : Nat) (s : State) : Host.Outcome State Fault Refusal :=
  issue (.clz d a t g) (finClz d t) s

/-- CTZ (07 R136). -/
def finCtz (d : Nat) (t : Bool) : Eff := plain (fun e => wW d (BitVec.ofNat 64 (ctzW e.opa)) t)

/-- CTZ (07 R136). -/
def execCtz (d : Nat) (a : Nat) (t : Bool) (g : Nat) (s : State) : Host.Outcome State Fault Refusal :=
  issue (.ctz d a t g) (finCtz d t) s

/-- POPC (07 R136). -/
def finPopc (d : Nat) (t : Bool) : Eff := plain (fun e => wW d (BitVec.ofNat 64 (popcW e.opa)) t)

/-- POPC (07 R136). -/
def execPopc (d : Nat) (a : Nat) (t : Bool) (g : Nat) (s : State) : Host.Outcome State Fault Refusal :=
  issue (.popc d a t g) (finPopc d t) s

/-- SEXTB (07 R136). -/
def finSextb (d : Nat) (t : Bool) : Eff := plain (fun e => wW d (sextW 8 e.opa) t)

/-- SEXTB (07 R136). -/
def execSextb (d : Nat) (a : Nat) (t : Bool) (g : Nat) (s : State) : Host.Outcome State Fault Refusal :=
  issue (.sextb d a t g) (finSextb d t) s

/-- SEXTH (07 R136). -/
def finSexth (d : Nat) (t : Bool) : Eff := plain (fun e => wW d (sextW 16 e.opa) t)

/-- SEXTH (07 R136). -/
def execSexth (d : Nat) (a : Nat) (t : Bool) (g : Nat) (s : State) : Host.Outcome State Fault Refusal :=
  issue (.sexth d a t g) (finSexth d t) s

/-- SEXTW (07 R136). -/
def finSextw (d : Nat) (t : Bool) : Eff := plain (fun e => wW d (sextW 32 e.opa) t)

/-- SEXTW (07 R136). -/
def execSextw (d : Nat) (a : Nat) (t : Bool) (g : Nat) (s : State) : Host.Outcome State Fault Refusal :=
  issue (.sextw d a t g) (finSextw d t) s

/-- ZEXTW (07 R136). -/
def finZextw (d : Nat) (t : Bool) : Eff := plain (fun e => wW d (BitVec.ofNat 64 (e.opa.toNat % 2 ^ 32)) t)

/-- ZEXTW (07 R136). -/
def execZextw (d : Nat) (a : Nat) (t : Bool) (g : Nat) (s : State) : Host.Outcome State Fault Refusal :=
  issue (.zextw d a t g) (finZextw d t) s

/-- SHADD1 (07 R136). -/
def finShadd1 (d : Nat) (t : Bool) : Eff := plain (fun e => wW d (e.opa * 2 + e.opb) t)

/-- SHADD1 (07 R136). -/
def execShadd1 (d : Nat) (a : Nat) (b : Nat) (t : Bool) (g : Nat) (s : State) : Host.Outcome State Fault Refusal :=
  issue (.shadd1 d a b t g) (finShadd1 d t) s

/-- SHADD2 (07 R136). -/
def finShadd2 (d : Nat) (t : Bool) : Eff := plain (fun e => wW d (e.opa * 4 + e.opb) t)

/-- SHADD2 (07 R136). -/
def execShadd2 (d : Nat) (a : Nat) (b : Nat) (t : Bool) (g : Nat) (s : State) : Host.Outcome State Fault Refusal :=
  issue (.shadd2 d a b t g) (finShadd2 d t) s

/-- SHADD3 (07 R136). -/
def finShadd3 (d : Nat) (t : Bool) : Eff := plain (fun e => wW d (e.opa * 8 + e.opb) t)

/-- SHADD3 (07 R136). -/
def execShadd3 (d : Nat) (a : Nat) (b : Nat) (t : Bool) (g : Nat) (s : State) : Host.Outcome State Fault Refusal :=
  issue (.shadd3 d a b t g) (finShadd3 d t) s

/-- DIV (07 R139). -/
def finDiv (d : Nat) : Eff := plain (fun e => wFin e d (divW e.opa e.opb))

/-- DIV (07 R139). -/
def execDiv (d : Nat) (a : Nat) (b : Nat) (la : Nat) (s : State) : Host.Outcome State Fault Refusal :=
  issue (.div d a b la) (finDiv d) s

/-- DIVU (07 R139). -/
def finDivu (d : Nat) : Eff := plain (fun e => wFin e d (divuW e.opa e.opb))

/-- DIVU (07 R139). -/
def execDivu (d : Nat) (a : Nat) (b : Nat) (la : Nat) (s : State) : Host.Outcome State Fault Refusal :=
  issue (.divu d a b la) (finDivu d) s

/-- REM (07 R139). -/
def finRem (d : Nat) : Eff := plain (fun e => wFin e d (remW e.opa e.opb))

/-- REM (07 R139). -/
def execRem (d : Nat) (a : Nat) (b : Nat) (la : Nat) (s : State) : Host.Outcome State Fault Refusal :=
  issue (.rem d a b la) (finRem d) s

/-- REMU (07 R139). -/
def finRemu (d : Nat) : Eff := plain (fun e => wFin e d (remuW e.opa e.opb))

/-- REMU (07 R139). -/
def execRemu (d : Nat) (a : Nat) (b : Nat) (la : Nat) (s : State) : Host.Outcome State Fault Refusal :=
  issue (.remu d a b la) (finRemu d) s

/-- ADDI (07 R137). -/
def finAddi (d : Nat) (imm : Nat) : Eff := plain (fun e => wW d (e.opa + (e.immOf 13 imm)))

/-- ADDI (07 R137). -/
def execAddi (d : Nat) (a : Nat) (imm : Nat) (g : Nat) (s : State) : Host.Outcome State Fault Refusal :=
  issue (.addi d a imm g) (finAddi d imm) s

/-- ANDI (07 R137). -/
def finAndi (d : Nat) (imm : Nat) : Eff := plain (fun e => wW d (e.opa &&& (e.immOf 13 imm)))

/-- ANDI (07 R137). -/
def execAndi (d : Nat) (a : Nat) (imm : Nat) (g : Nat) (s : State) : Host.Outcome State Fault Refusal :=
  issue (.andi d a imm g) (finAndi d imm) s

/-- ORI (07 R137). -/
def finOri (d : Nat) (imm : Nat) : Eff := plain (fun e => wW d (e.opa ||| (e.immOf 13 imm)))

/-- ORI (07 R137). -/
def execOri (d : Nat) (a : Nat) (imm : Nat) (g : Nat) (s : State) : Host.Outcome State Fault Refusal :=
  issue (.ori d a imm g) (finOri d imm) s

/-- XORI (07 R137). -/
def finXori (d : Nat) (imm : Nat) : Eff := plain (fun e => wW d (e.opa ^^^ (e.immOf 13 imm)))

/-- XORI (07 R137). -/
def execXori (d : Nat) (a : Nat) (imm : Nat) (g : Nat) (s : State) : Host.Outcome State Fault Refusal :=
  issue (.xori d a imm g) (finXori d imm) s

/-- SLTI (07 R137). -/
def finSlti (d : Nat) (imm : Nat) : Eff := plain (fun e => wW d (boolW (e.opa.slt (e.immOf 13 imm))))

/-- SLTI (07 R137). -/
def execSlti (d : Nat) (a : Nat) (imm : Nat) (g : Nat) (s : State) : Host.Outcome State Fault Refusal :=
  issue (.slti d a imm g) (finSlti d imm) s

/-- SLTIU (07 R137). -/
def finSltiu (d : Nat) (imm : Nat) : Eff := plain (fun e => wW d (boolW (e.opa.ult (e.immOf 13 imm))))

/-- SLTIU (07 R137). -/
def execSltiu (d : Nat) (a : Nat) (imm : Nat) (g : Nat) (s : State) : Host.Outcome State Fault Refusal :=
  issue (.sltiu d a imm g) (finSltiu d imm) s

/-- SLLI (07 R138). -/
def finSlli (d : Nat) (sh : Nat) : Eff := plain (fun e => wW d (e.opa <<< (sh % 64)))

/-- SLLI (07 R138). -/
def execSlli (d : Nat) (a : Nat) (sh : Nat) (g : Nat) (s : State) : Host.Outcome State Fault Refusal :=
  issue (.slli d a sh g) (finSlli d sh) s

/-- SRLI (07 R138). -/
def finSrli (d : Nat) (sh : Nat) : Eff := plain (fun e => wW d (e.opa >>> (sh % 64)))

/-- SRLI (07 R138). -/
def execSrli (d : Nat) (a : Nat) (sh : Nat) (g : Nat) (s : State) : Host.Outcome State Fault Refusal :=
  issue (.srli d a sh g) (finSrli d sh) s

/-- SRAI (07 R138). -/
def finSrai (d : Nat) (sh : Nat) : Eff := plain (fun e => wW d (sraW e.opa (BitVec.ofNat 64 sh)))

/-- SRAI (07 R138). -/
def execSrai (d : Nat) (a : Nat) (sh : Nat) (g : Nat) (s : State) : Host.Outcome State Fault Refusal :=
  issue (.srai d a sh g) (finSrai d sh) s

/-- RORI (07 R138). -/
def finRori (d : Nat) (sh : Nat) : Eff := plain (fun e => wW d (rorW e.opa (BitVec.ofNat 64 sh)))

/-- RORI (07 R138). -/
def execRori (d : Nat) (a : Nat) (sh : Nat) (g : Nat) (s : State) : Host.Outcome State Fault Refusal :=
  issue (.rori d a sh g) (finRori d sh) s

/-- MOVI (07 R137). -/
def finMovi (d : Nat) (imm : Nat) : Eff := plain (fun e => wW d (e.immOf 13 imm))

/-- MOVI (07 R137). -/
def execMovi (d : Nat) (imm : Nat) (g : Nat) (s : State) : Host.Outcome State Fault Refusal :=
  issue (.movi d imm g) (finMovi d imm) s

/-- Writes a value to a guard slot. -/
def wQ (n : Nat) (b : Bool) : M Unit := modCx (fun c => c.setQ n (.val b))

/-- QSET.EQ (07 R140). -/
def finQsetEq (d : Nat) : Eff := plain (fun e => wQ d (e.opa == e.opb))

/-- QSET.EQ (07 R140). -/
def execQsetEq (d : Nat) (a : Nat) (b : Nat) (g : Nat) (s : State) : Host.Outcome State Fault Refusal :=
  issue (.qsetEq d a b g) (finQsetEq d) s

/-- QSET.NE (07 R140). -/
def finQsetNe (d : Nat) : Eff := plain (fun e => wQ d (e.opa != e.opb))

/-- QSET.NE (07 R140). -/
def execQsetNe (d : Nat) (a : Nat) (b : Nat) (g : Nat) (s : State) : Host.Outcome State Fault Refusal :=
  issue (.qsetNe d a b g) (finQsetNe d) s

/-- QSET.LT (07 R140). -/
def finQsetLt (d : Nat) : Eff := plain (fun e => wQ d (e.opa.slt e.opb))

/-- QSET.LT (07 R140). -/
def execQsetLt (d : Nat) (a : Nat) (b : Nat) (g : Nat) (s : State) : Host.Outcome State Fault Refusal :=
  issue (.qsetLt d a b g) (finQsetLt d) s

/-- QSET.GE (07 R140). -/
def finQsetGe (d : Nat) : Eff := plain (fun e => wQ d (!e.opa.slt e.opb))

/-- QSET.GE (07 R140). -/
def execQsetGe (d : Nat) (a : Nat) (b : Nat) (g : Nat) (s : State) : Host.Outcome State Fault Refusal :=
  issue (.qsetGe d a b g) (finQsetGe d) s

/-- QSET.LTU (07 R140). -/
def finQsetLtu (d : Nat) : Eff := plain (fun e => wQ d (e.opa.ult e.opb))

/-- QSET.LTU (07 R140). -/
def execQsetLtu (d : Nat) (a : Nat) (b : Nat) (g : Nat) (s : State) : Host.Outcome State Fault Refusal :=
  issue (.qsetLtu d a b g) (finQsetLtu d) s

/-- QSET.GEU (07 R140). -/
def finQsetGeu (d : Nat) : Eff := plain (fun e => wQ d (!e.opa.ult e.opb))

/-- QSET.GEU (07 R140). -/
def execQsetGeu (d : Nat) (a : Nat) (b : Nat) (g : Nat) (s : State) : Host.Outcome State Fault Refusal :=
  issue (.qsetGeu d a b g) (finQsetGeu d) s

/-- QAND (07 R140). -/
def finQand (d : Nat) (a : Nat) (b : Nat) : Eff := plain (fun _ => do
  let x ← rQ a
  let y ← rQ b
  wQ d (x && y))

/-- QAND (07 R140). -/
def execQand (d : Nat) (a : Nat) (b : Nat) (g : Nat) (s : State) : Host.Outcome State Fault Refusal :=
  issue (.qand d a b g) (finQand d a b) s

/-- QOR (07 R140). -/
def finQor (d : Nat) (a : Nat) (b : Nat) : Eff := plain (fun _ => do
  let x ← rQ a
  let y ← rQ b
  wQ d (x || y))

/-- QOR (07 R140). -/
def execQor (d : Nat) (a : Nat) (b : Nat) (g : Nat) (s : State) : Host.Outcome State Fault Refusal :=
  issue (.qor d a b g) (finQor d a b) s

/-- QXOR (07 R140). -/
def finQxor (d : Nat) (a : Nat) (b : Nat) : Eff := plain (fun _ => do
  let x ← rQ a
  let y ← rQ b
  wQ d (x != y))

/-- QXOR (07 R140). -/
def execQxor (d : Nat) (a : Nat) (b : Nat) (g : Nat) (s : State) : Host.Outcome State Fault Refusal :=
  issue (.qxor d a b g) (finQxor d a b) s

/-- QANDN (07 R140). -/
def finQandn (d : Nat) (a : Nat) (b : Nat) : Eff := plain (fun _ => do
  let x ← rQ a
  let y ← rQ b
  wQ d (x && !y))

/-- QANDN (07 R140). -/
def execQandn (d : Nat) (a : Nat) (b : Nat) (g : Nat) (s : State) : Host.Outcome State Fault Refusal :=
  issue (.qandn d a b g) (finQandn d a b) s

/-- QNOT (07 R140). -/
def finQnot (d : Nat) (a : Nat) : Eff := plain (fun _ => do
  let x ← rQ a
  wQ d (!x))

/-- QNOT (07 R140). -/
def execQnot (d : Nat) (a : Nat) (g : Nat) (s : State) : Host.Outcome State Fault Refusal :=
  issue (.qnot d a g) (finQnot d a) s

/-- QTRUE (07 R140). -/
def finQtrue (d : Nat) : Eff := plain (fun _ => wQ d true)

/-- QTRUE (07 R140). -/
def execQtrue (d : Nat) (g : Nat) (s : State) : Host.Outcome State Fault Refusal :=
  issue (.qtrue d g) (finQtrue d) s

/-- QFALSE (07 R140). -/
def finQfalse (d : Nat) : Eff := plain (fun _ => wQ d false)

/-- QFALSE (07 R140). -/
def execQfalse (d : Nat) (g : Nat) (s : State) : Host.Outcome State Fault Refusal :=
  issue (.qfalse d g) (finQfalse d) s

/-- QUNRES (07 R140, R132). -/
def finQunres (d : Nat) : Eff := plain (fun _ => modCx (fun c => c.setQ d .empty))

/-- QUNRES (07 R140, R132). -/
def execQunres (d : Nat) (g : Nat) (s : State) : Host.Outcome State Fault Refusal :=
  issue (.qunres d g) (finQunres d) s

/-- NOP (07 R144). -/
def finNop : Eff := plain (fun _ => pure ())

/-- NOP (07 R144). -/
def execNop (s : State) : Host.Outcome State Fault Refusal :=
  issue (.nop) finNop s

end Sys2Proof.Machine
end

