-- ==== Sys2Proof/Machine/Control.lean ====
section
/-! DEFINITION. Branches, jumps, calls, returns and the loop stack (07 R123, R141-R143, 14 R293-R298). -/

namespace Sys2Proof.Machine

/-- The address `disp` words of `n` bits on from `own` (02 R16). -/
def target (own : W64) (n disp : Nat) : W64 := own + w64OfInt (4 * signed n disp)

/-- A taken transfer to `t`, which leaves loops under 14 R296. -/
def goTo (t : W64) : M W64 := do
  modCx (fun c => c.leaveLoops t)
  pure t

/-- A branch (07 R141). -/
def branch (taken : Bool) (disp : Nat) (e : Entry) : M W64 :=
  if taken then goTo (target e.own 13 disp) else pure (e.own + 4)

/-- The checks of a call: depth limit, then overflow (07 R123). -/
def callChecks : M Unit := do
  let c ← getCx
  if c.rf.cwp = 2 ^ 32 - 1 then trapPre .prot 0x1F (BitVec.ofNat 64 c.rf.cwp)
  else if c.rf.cwp - c.rf.low = 5 then trapPre .winovf 0 (BitVec.ofNat 64 c.rf.cwp)
  else pure ()

/-- The window of a completed call (07 R123, R142): w31 receives the return address, then CWP rises. -/
def enterCall (own : W64) : M Unit := modCx (fun c =>
  let c := c.writeW 31 (own + 4) false
  { c with rf := { c.rf with cwp := c.rf.cwp + 1 } })

/-- The target is word-aligned (07 R143). -/
def alignedTarget (t : W64) : M Unit := if t.toNat % 4 ≠ 0 then trapPre .align 0x36 t else pure ()

/-- BEQ (07 R141). -/
def jumpBeq (disp : Nat) (e : Entry) : M W64 := branch (e.opa == e.opb) disp e

/-- BEQ (07 R141). -/
def execBeq (a : Nat) (b : Nat) (disp : Nat) (s : State) : Host.Outcome State Fault Refusal :=
  jump (.beq a b disp) (jumpBeq disp) s

/-- BNE (07 R141). -/
def jumpBne (disp : Nat) (e : Entry) : M W64 := branch (e.opa != e.opb) disp e

/-- BNE (07 R141). -/
def execBne (a : Nat) (b : Nat) (disp : Nat) (s : State) : Host.Outcome State Fault Refusal :=
  jump (.bne a b disp) (jumpBne disp) s

/-- BLT (07 R141). -/
def jumpBlt (disp : Nat) (e : Entry) : M W64 := branch (e.opa.slt e.opb) disp e

/-- BLT (07 R141). -/
def execBlt (a : Nat) (b : Nat) (disp : Nat) (s : State) : Host.Outcome State Fault Refusal :=
  jump (.blt a b disp) (jumpBlt disp) s

/-- BGE (07 R141). -/
def jumpBge (disp : Nat) (e : Entry) : M W64 := branch (!e.opa.slt e.opb) disp e

/-- BGE (07 R141). -/
def execBge (a : Nat) (b : Nat) (disp : Nat) (s : State) : Host.Outcome State Fault Refusal :=
  jump (.bge a b disp) (jumpBge disp) s

/-- BLTU (07 R141). -/
def jumpBltu (disp : Nat) (e : Entry) : M W64 := branch (e.opa.ult e.opb) disp e

/-- BLTU (07 R141). -/
def execBltu (a : Nat) (b : Nat) (disp : Nat) (s : State) : Host.Outcome State Fault Refusal :=
  jump (.bltu a b disp) (jumpBltu disp) s

/-- BGEU (07 R141). -/
def jumpBgeu (disp : Nat) (e : Entry) : M W64 := branch (!e.opa.ult e.opb) disp e

/-- BGEU (07 R141). -/
def execBgeu (a : Nat) (b : Nat) (disp : Nat) (s : State) : Host.Outcome State Fault Refusal :=
  jump (.bgeu a b disp) (jumpBgeu disp) s

/-- BQT (07 R141). -/
def jumpBqt (a : Nat) (disp : Nat) (e : Entry) : M W64 := do
  let q ← rQ a
  branch q disp e

/-- BQT (07 R141). -/
def execBqt (a : Nat) (disp : Nat) (s : State) : Host.Outcome State Fault Refusal :=
  jump (.bqt a disp) (jumpBqt a disp) s

/-- BQF (07 R141). -/
def jumpBqf (a : Nat) (disp : Nat) (e : Entry) : M W64 := do
  let q ← rQ a
  branch (!q) disp e

/-- BQF (07 R141). -/
def execBqf (a : Nat) (disp : Nat) (s : State) : Host.Outcome State Fault Refusal :=
  jump (.bqf a disp) (jumpBqf a disp) s

/-- J (07 R142). -/
def jumpJ (disp : Nat) (e : Entry) : M W64 := goTo (target e.own 26 disp)

/-- J (07 R142). -/
def execJ (disp : Nat) (s : State) : Host.Outcome State Fault Refusal :=
  jump (.j disp) (jumpJ disp) s

/-- CALL (07 R142, 14 R297). -/
def jumpCall (disp : Nat) (e : Entry) : M W64 := do
  callChecks
  enterCall e.own
  pure (target e.own 26 disp)

/-- CALL (07 R142, 14 R297). -/
def execCall (disp : Nat) (s : State) : Host.Outcome State Fault Refusal :=
  jump (.call disp) (jumpCall disp) s

/-- JR (07 R143). -/
def jumpJr (e : Entry) : M W64 := do
  alignedTarget e.opa
  goTo e.opa

/-- JR (07 R143). -/
def execJr (a : Nat) (g : Nat) (s : State) : Host.Outcome State Fault Refusal :=
  jump (.jr a g) jumpJr s

/-- CALLR (07 R143): wA is read before w31 is written. -/
def jumpCallr (e : Entry) : M W64 := do
  alignedTarget e.opa
  callChecks
  enterCall e.own
  pure e.opa

/-- CALLR (07 R143): wA is read before w31 is written. -/
def execCallr (a : Nat) (g : Nat) (s : State) : Host.Outcome State Fault Refusal :=
  jump (.callr a g) jumpCallr s

/-- RET at depth 0 is refused before w15 is read (07 R143). -/
def retCheck : M Unit := do
  let c ← getCx
  if c.rf.cwp = 0 then trapPre .prot 0x1F 0 else pure ()

/-- RET (07 R143, 14 R297): it pops the levels of the depth that it leaves. -/
def jumpRet (e : Entry) : M W64 := do
  let c ← getCx
  alignedTarget e.opa
  if 2 ≤ c.rf.cwp ∧ c.rf.low + 1 = c.rf.cwp then trapPre .winunf 0 (BitVec.ofNat 64 c.rf.cwp)
  else
    modCx (fun c => { c with
      rf := { c.rf with cwp := c.rf.cwp - 1 }
      flow := { c.flow with loops := c.flow.loops.filter (fun l => l.win != c.depth) } })
    pure e.opa

/-- RET (07 R143, 14 R297): it pops the levels of the depth that it leaves. -/
def execRet (g : Nat) (s : State) : Host.Outcome State Fault Refusal :=
  jumpAfter retCheck (.ret g) jumpRet s

/-- LPSET (14 R294): it re-enters, skips or pushes a level. -/
def jumpLpset (endOff : Nat) (e : Entry) : M W64 := do
  let c ← getCx
  let st := e.own + 4
  let fin := e.own + BitVec.ofNat 64 (4 * endOff)
  let n := e.opa
  match c.inner with
  | some k =>
    if k.start = st ∧ k.fin = fin then
      if n = 0 then
        modCx (fun c => { c with flow := { c.flow with loops := c.flow.loops.dropLast } })
        goTo (fin + 4)
      else
        modCx (fun c => { c with flow := { c.flow with
          loops := c.flow.loops.dropLast ++ [{ k with count := n, init := n }] } })
        pure st
    else if k.fin.toNat < fin.toNat then trapPre .prot 0x2E fin
    else if n = 0 then goTo (fin + 4)
    else if c.flow.loops.length = 4 then trapPre .prot 0x2E fin
    else
      modCx (fun c => { c with flow := { c.flow with loops := c.flow.loops ++ [⟨st, fin, n, n, c.depth⟩] } })
      pure st
  | none =>
    if n = 0 then goTo (fin + 4)
    else if c.flow.loops.length = 4 then trapPre .prot 0x2E fin
    else
      modCx (fun c => { c with flow := { c.flow with loops := c.flow.loops ++ [⟨st, fin, n, n, c.depth⟩] } })
      pure st

/-- LPSET (14 R294): it re-enters, skips or pushes a level. -/
def execLpset (a : Nat) (endOff : Nat) (s : State) : Host.Outcome State Fault Refusal :=
  jump (.lpset a endOff) (jumpLpset endOff) s

/-- LPPOP (14 R298). -/
def jumpLppop (e : Entry) : M W64 := do
  modCx (fun c => if c.inner.isSome then { c with flow := { c.flow with loops := c.flow.loops.dropLast } } else c)
  pure (e.own + 4)

/-- LPPOP (14 R298). -/
def execLppop (s : State) : Host.Outcome State Fault Refusal :=
  jump (.lppop) jumpLppop s

end Sys2Proof.Machine
end

