-- ==== Sys2Proof/Machine/Shake.lean ====
section
/-! DEFINITION. SHAKE256, which the random engine and the result digest use (19 R367, R368). The manual names the
function and does not restate it; it is taken from FIPS 202 (PRESUMED, log entry 14). -/

namespace Sys2Proof.Machine

/-- Keccak-f[1600] rotation offsets, lane x + 5y. -/
def keccakRot : List Nat :=
  [0, 1, 62, 28, 27, 36, 44, 6, 55, 20, 3, 10, 43, 25, 39, 41, 45, 15, 21, 8, 18, 2, 61, 56, 14]

/-- Keccak-f[1600] round constants. -/
def keccakRC : List W64 :=
  [0x0000000000000001#64, 0x0000000000008082#64, 0x800000000000808A#64, 0x8000000080008000#64,
   0x000000000000808B#64, 0x0000000080000001#64, 0x8000000080008081#64, 0x8000000000008009#64,
   0x000000000000008A#64, 0x0000000000000088#64, 0x0000000080008009#64, 0x000000008000000A#64] ++
  [0x000000008000808B#64, 0x800000000000008B#64, 0x8000000000008089#64, 0x8000000000008003#64,
   0x8000000000008002#64, 0x8000000000000080#64, 0x000000000000800A#64, 0x800000008000000A#64,
   0x8000000080008081#64, 0x8000000000008080#64, 0x0000000080000001#64, 0x8000000080008008#64]

/-- One round. -/
def keccakRound (rc : W64) (a : List W64) : List W64 :=
  let g (l : List W64) (i : Nat) : W64 := l.getD i 0#64
  let c := (List.range 5).map fun x => g a x ^^^ g a (x + 5) ^^^ g a (x + 10) ^^^ g a (x + 15) ^^^ g a (x + 20)
  let d := (List.range 5).map fun x => g c ((x + 4) % 5) ^^^ (g c ((x + 1) % 5)).rotateLeft 1
  let a := (List.range 25).map fun i => g a i ^^^ g d (i % 5)
  -- lane (x, y) moves to (y, 2x + 3y): the lane that lands at (X, Y) comes from x = (X + 3Y) mod 5, y = X
  let b := (List.range 25).map fun i =>
    let x := (i % 5 + 3 * (i / 5)) % 5
    let src := x + 5 * (i % 5)
    (g a src).rotateLeft (keccakRot.getD src 0)
  (List.range 25).map fun i =>
    let y := i / 5
    let v := g b i ^^^ (~~~ (g b ((i % 5 + 1) % 5 + 5 * y)) &&& g b ((i % 5 + 2) % 5 + 5 * y))
    if i = 0 then v ^^^ rc else v

/-- The permutation. -/
def keccakF (a : List W64) : List W64 := keccakRC.foldl (fun a rc => keccakRound rc a) a

/-- The 17 lanes of a 136-byte block. -/
def shakeLanes : Nat → List Byte → List W64
  | 0, _ => []
  | n + 1, l => BitVec.ofNat 64 (ofBytes (l.take 8)) :: shakeLanes n (l.drop 8)

/-- Absorbs whole blocks of 136 bytes; `n` counts them. -/
def shakeAbsorb : Nat → List Byte → List W64 → List W64
  | 0, _, a => a
  | n + 1, m, a =>
    let blk := shakeLanes 17 (m.take 136) ++ List.replicate 8 0#64
    shakeAbsorb n (m.drop 136) (keccakF (List.zipWith (· ^^^ ·) a blk))

/-- The padded message: 0x1F, zeros, and 0x80 in the last byte of the block. -/
def shakePad (m : List Byte) : List Byte :=
  let r := 136 - m.length % 136
  if r = 1 then m ++ [0x9F#8] else m ++ [0x1F#8] ++ List.replicate (r - 2) 0#8 ++ [0x80#8]

/-- The first 136 bytes of SHAKE256 of a message. -/
def shakeBlock (m : List Byte) : List Byte :=
  let p := shakePad m
  (shakeAbsorb (p.length / 136) p (List.replicate 25 0#64)).take 17 |>.flatMap fun w => toBytes 8 w.toNat

/-- The first 64 bytes of SHAKE256 of a message. -/
def shake256 (m : List Byte) : List Byte :=
  let p := shakePad m
  let a := shakeAbsorb (p.length / 136) p (List.replicate 25 0#64)
  (a.take 8).flatMap fun w => toBytes 8 w.toNat

end Sys2Proof.Machine
end

