-- ==== Sys2Proof/Machine/Engine.lean ====
section
/-! DEFINITION. Accesses that engines make under a translation (03 R41, R52, 05 R84-R87), and their results for places outside
the package, which are free values (DESIGN CHOICE, log entry 16). -/

namespace Sys2Proof.Machine

/-- Where an access ends: memory of this package, a device register, or outside. -/
inductive Tgt where
  | mem (l : Loc)
  | reg (off : Nat)
  | out
  deriving DecidableEq, Repr

/-- A place of the fabric aperture that names this device is served by the loopback (04 R64). -/
def State.tgt (s : State) (l : Loc) : Tgt :=
  match s.home l with
  | .hbm pa m => .mem (.hbm pa m)
  | .cxl pa m => .mem (.cxl pa m)
  | .ls c o => .mem (.ls c o)
  | .fab _ _ => .out
  | .host _ => .out
  | .reg off => .reg off

/-- An engine's read of a place. -/
def State.engLoad (s : State) (l : Loc) (n : Nat) : Nat × State :=
  match s.tgt l with
  | .mem l => (s.peek l n, s)
  | .reg _ => (0, s)
  | .out =>
    let (v, s) := s.freeBytes ((n + 7) / 8)
    (v % 2 ^ (8 * n), s)

/-- An engine's write of a place: each word is set full (05 R87). Writes that leave the package have no effect in it. -/
def State.engStore (s : State) (l : Loc) (n v : Nat) : State :=
  match s.tgt l with
  | .mem l => (s.poke l n v).fill l n
  | .reg _ | .out => s

/-- An engine's read of a range of virtual addresses, with the first failing address. -/
def State.engRead (s : State) (w : Who) (va : W64) (n : Nat) (c : ACls) : Except (Flt × W64) (Nat × State) :=
  (pieces va.toNat (n / 65536 + 2) 0 n).foldl (fun r (off, k) =>
    match r with
    | .error e => .error e
    | .ok (acc, s) =>
      let a := va + BitVec.ofNat 64 off
      match s.access w a k .read c with
      | .error f => .error (f, s.failAddr w a k .read f)
      | .ok l =>
        let (v, s) := s.engLoad l k
        .ok (acc + v * 2 ^ (8 * off), s)) (.ok (0, s))

/-- An engine's write of a range of virtual addresses, with the first failing address (12 R248); what was written before a failure stays written. -/
def State.engWrite (s : State) (w : Who) (va : W64) (n v : Nat) (c : ACls) : State × Option (Flt × W64) :=
  (pieces va.toNat (n / 65536 + 2) 0 n).foldl (fun r (off, k) =>
    match r with
    | (s, some e) => (s, some e)
    | (s, none) =>
      let a := va + BitVec.ofNat 64 off
      match s.access w a k .write c with
      | .error f => (s, some (f, s.failAddr w a k .write f))
      | .ok l => (s.engStore l k (slice v off k), none)) (s, none)

/-- Checks a whole range before any byte moves. -/
def State.rangeFault (s : State) (w : Who) (va : W64) (n : Nat) (a : Acc) (c : ACls) : Option (Flt × W64) :=
  (pieces va.toNat (n / 65536 + 2) 0 n).foldl (fun r (off, k) =>
    match r with
    | some e => some e
    | none =>
      match s.access w (va + BitVec.ofNat 64 off) k a c with
      | .error f => some (f, s.failAddr w (va + BitVec.ofNat 64 off) k a f)
      | .ok _ => none) none

/-- The entry is in flight in the context, or stands in a frame of it with its effect in progress. -/
def Ctx.owns (c : Ctx) (seq : Nat) : Bool :=
  c.flow.inflight.any (fun e => e.seq == seq) || c.saved.any (fun v => v.awaiting.any (fun e => e.seq == seq))

/-- A result for an entry of the context. -/
def Ctx.receive (c : Ctx) (seq : Nat) (r : Res) : Ctx := { c with results := c.results ++ [(seq, r)] }

/-- Gives a result to the entry that waits for it, in a context of the core or in one of a pre-empted part (18 R348); one whose context
has gone is dropped. -/
def State.deliver (s : State) (core k seq : Nat) (r : Res) : State :=
  if (s.ctx core k).owns seq then s.setCtx core k ((s.ctx core k).receive seq r)
  else { s with launch := { s.launch with stopped := s.launch.stopped.map (fun p =>
    if p.core = core ∧ (Tbl.get Ctx.reset p.ctxs k).owns seq then
      { p with ctxs := Tbl.put p.ctxs k ((Tbl.get Ctx.reset p.ctxs k).receive seq r) }
    else p) } }

/-! ### Rings: positions and release (11 R209, R210, R230) -/

/-- Length of a ring. -/
def ringLen (cfg : Nat) : Nat := if bits cfg 9 8 = 0 then 8 else if bits cfg 9 8 = 1 then 16 else 32

/-- Core index of position `p` on cluster `cl`. -/
def ringCore (cfg cl p : Nat) : Nat :=
  192 * cl + 16 * bits cfg 3 0
    + (if bits cfg 9 8 = 0 then 8 * bits cfg 4 4 + p else if bits cfg 9 8 = 1 then p else if p < 16 then p else 47 - p)

/-- Member cores by position, on the cluster of `core`. -/
def ringMembers (cfg core : Nat) : List Nat := (List.range (ringLen cfg)).map (ringCore cfg (core / 192))

/-- Position of a member. -/
def ringPos (cfg core : Nat) : Nat :=
  let q := core % 192 - 16 * bits cfg 3 0
  if bits cfg 9 8 = 0 then q - 8 * bits cfg 4 4 else if bits cfg 9 8 = 1 then q else if q < 16 then q else 47 - q

/-- Replaces a ring. -/
def State.setRing (s : State) (r : Nat) (g : Ring) : State := { s with rings := Tbl.put s.rings r g }

/-- Writes match table entries. -/
def State.setMatch (s : State) (items : List (Nat × Nat × W64)) : State :=
  items.foldl (fun s (c, i, w) =>
    let x := s.core c
    s.setCore c { x with matchTab := Tbl.set 0 x.matchTab i w }) s

/-- The updates that wait for a boundary are applied, for instructions that are still in flight. -/
def State.ringApply (s : State) (r : Nat) : State :=
  match Tbl.find s.rings r with
  | none => s
  | some g =>
    g.pend.foldl (fun s u =>
      if (s.ctx u.core u.ctx).flow.inflight.any (fun e => e.seq == u.seq) then (s.setMatch u.items).deliver u.core u.ctx u.seq .none
      else s) (s.setRing r { g with pend := [] })

/-- A matrix queue entry after ring `r` has gone. -/
def MqEntry.unring (r : Nat) (q : MqEntry) : MqEntry :=
  match q.src with
  | .ring n w i t c a b => if n = some r then { q with src := .ring none w i t c a b } else q
  | .ctx _ _ | .remote _ => q

/-- Releases a ring: its tiles and counter go and its members leave; tasks in matrix queues stay (11 R210, R230). -/
def State.ringRelease (s : State) (r : Nat) : State :=
  match Tbl.find s.rings r with
  | none => s
  | some g =>
    let s := (ringMembers g.cfg.toNat r).foldl (fun s c =>
      let x := s.core c
      s.setCore c { x with ring := none, mq := x.mq.map (MqEntry.unring r) }) (s.ringApply r)
    { s with rings := Tbl.erase s.rings r }

end Sys2Proof.Machine
end

