-- ==== Sys2Proof/Machine/Units.lean ====
section
/-! DEFINITION. Units behind the device registers: launch queues and slots (15 R302, R305), the fault queue (18 R354), the
random engine (19 R367), key commands (20 R373), invalidations (03 R56, R58), domains (20 R372) and debug halts (18
R355). -/

namespace Sys2Proof.Machine

/-! ### Launch queues and slots -/

/-- Register `r` of queue `q`. -/
def qReg (q r : Nat) : Nat := 0x200000 + 32 * q + r

/-- QCTL of a queue. -/
def State.qctl (s : State) (q : Nat) : Nat := s.dregN (qReg q 8)

/-- DOMAIN, PRIO and the number of slots of a queue. -/
def State.qDom (s : State) (q : Nat) : Nat := bits (s.qctl q) 15 8
/-- PRIO of a queue. -/
def State.qPrio (s : State) (q : Nat) : Nat := bits (s.qctl q) 6 4

/-- QTAIL - QHEAD. -/
def State.qCount (s : State) (q : Nat) : Nat := (s.dregN (qReg q 0x10) + 2 ^ 32 - s.dregN (qReg q 0x18)) % 2 ^ 32

/-- The queue has work (15 R302). -/
def State.qWork (s : State) (q : Nat) : Bool :=
  let z := s.qctl q % 16
  bit (s.qctl q) 63 && decide (1 ≤ z ∧ z ≤ 12) && s.qCount q != 0 && decide (s.qCount q ≤ 2 ^ z)

/-- The queue holds a slot. -/
def LaunchUnit.mapped (l : LaunchUnit) (q : Nat) : Bool := l.slots.any (fun x => x.2.1 == q)

/-- Gives the lowest free slot to a queue. -/
def LaunchUnit.grant (l : LaunchUnit) (q : Nat) : LaunchUnit :=
  match (List.range 128).find? (fun n => l.slots.all (fun x => x.1 != n)) with
  | none => l
  | some n => { l with slots := l.slots ++ [(n, q, l.grants)], grants := l.grants + 1, waiting := l.waiting.filter (· != q) }

/-- Brings the waiting list up to date with a queue whose registers changed: a queue that begins waiting takes a free slot
at once (15 R305). -/
def State.qUpdate (s : State) (q : Nat) : State :=
  let l := s.launch
  if !s.qWork q then { s with launch := { l with waiting := l.waiting.filter (· != q) } }
  else if l.mapped q || l.waiting.contains q then s
  else if l.slots.length < 128 then { s with launch := l.grant q }
  else { s with launch := { l with waiting := l.waiting ++ [q] } }

/-- A launch part of the domain runs. -/
def State.domainRuns (s : State) (d : Nat) : Bool :=
  s.cores.any (fun p => match p.2.running with
    | some x => x.domain == d
    | none => false) || s.launch.stopped.any (fun x => x.part.domain == d)

/-- A launch part runs on a core of cluster `n` = 2 die + cluster. -/
def State.clusterRuns (s : State) (n : Nat) : Bool := s.cores.any (fun p => p.1 / 192 == n && p.2.running.isSome)

/-! ### Fault queue -/

/-- The fault queue can take no record (18 R354). -/
def State.fqFull (s : State) : Bool :=
  !bit (s.dregN 0x270008) 63 ||
    decide ((s.dregN 0x270018 + 2 ^ 32 - s.dregN 0x270010) % 2 ^ 32 = 2 ^ (s.dregN 0x270008 % 16))

/-- The 32 bytes of a fault record. -/
def faultNum (r : FaultRec) (die time : Nat) : Nat :=
  (r.kind * 2 ^ 56 + r.cause * 2 ^ 48 + r.code * 2 ^ 40 + die * 2 ^ 36 + r.ctx * 2 ^ 32 + r.core % 2 ^ 11 * 2 ^ 16
      + r.unit % 2 ^ 16)
    + 2 ^ 64 * (time % 2 ^ 64) + 2 ^ 128 * r.addr.toNat + 2 ^ 192 * r.pc.toNat

/-- The place of a physical address that the hardware writes in plaintext. -/
def physLoc (pa : Nat) : Loc := if pa < hbmEnd then .hbm pa 0 else .cxl pa 0

/-- Writes a record to the queue. -/
def State.fqPut (s : State) (die : Nat) (r : FaultRec) : State :=
  let tail := s.dregN 0x270018
  let pa := bits (s.dregN 0x270000) 51 5 * 32 + 32 * (tail % 2 ^ (s.dregN 0x270008 % 16))
  let s := s.engStore (physLoc pa) 32 (faultNum r die s.time)
  s.setDreg 0x270018 (BitVec.ofNat 64 ((tail + 1) % 2 ^ 32))

/-- The latch of a die. -/
def State.latch (s : State) (die : Nat) : List FaultRec := Tbl.get [] s.admin.latches die

/-- A record reaches the concentrator: it is appended, latched or counted lost (18 R354). -/
def State.fqAppend (s : State) (die : Nat) (r : FaultRec) : State :=
  let l := s.latch die
  if l = [] ∧ !s.fqFull then s.fqPut die r
  else if l.length < 16 then { s with admin := { s.admin with latches := Tbl.put s.admin.latches die (l ++ [r]) } }
  else s.setDreg (0x270040 + 8 * die) (BitVec.ofNat 64 ((s.dregN (0x270040 + 8 * die) + 1) % 2 ^ 32))

/-- Drains the latch of a die while the queue has room. -/
def State.drainLatch (s : State) (die : Nat) : Nat → State
  | 0 => s
  | n + 1 =>
    match s.latch die with
    | [] => s
    | r :: rest =>
      if s.fqFull then s
      else
        let s := s.fqPut die r
        State.drainLatch { s with admin := { s.admin with latches := Tbl.put s.admin.latches die rest } } die n

/-- Drains every latch into the room that appeared. -/
def State.drainLatches (s : State) : State := [0, 1, 2, 3].foldl (fun s d => s.drainLatch d 16) s

/-! ### Random engine (19 R367) -/

/-- Register `r` of stream `n`. -/
def rngReg (n r : Nat) : Nat := 0x290000 + 64 * n + r

/-- The 64 bytes of block `c` of a stream. -/
def State.rngBlock (s : State) (n c : Nat) : Nat :=
  let key := [0, 8, 16, 24].flatMap (fun o => toBytes 8 (s.dregN (rngReg n o)))
  ofBytes ((shake256 (key ++ toBytes 2 n ++ toBytes 8 c)).take 64)

/-- The blocks of a fill from block `j` on. -/
def State.rngBlocks (s : State) (n : Nat) (w : Who) (base : W64) (ctr : Nat) : Nat → Nat → State × Bool
  | _, 0 => (s, false)
  | j, k + 1 =>
    match s.engWrite w (base + BitVec.ofNat 64 (64 * j)) 64 (s.rngBlock n ((ctr + j) % 2 ^ 64)) .bulk with
    | (s, some _) => (s, true)
    | (s, none) => s.rngBlocks n w base ctr (j + 1) k

/-- A fill starts. -/
def State.rngStart (s : State) (n : Nat) : State := { s with admin := { s.admin with fills := s.admin.fills ++ [n] } }

/-- A fill ends: RNGCTR advances and GO clears, or a fault sets ERR. -/
def State.rngEnd (s : State) (n : Nat) : State :=
  if !s.admin.fills.contains n then s
  else
    let s := { s with admin := { s.admin with fills := s.admin.fills.erase n } }
    let ctl := s.dregN (rngReg n 0x38)
    let blocks := bits (s.dregN (rngReg n 0x28)) 63 6
    let ctr := s.dregN (rngReg n 0x30)
    let w : Who := ⟨bits ctl 15 8, true, 0⟩
    let (s, bad) := s.rngBlocks n w (BitVec.ofNat 64 (bits (s.dregN (rngReg n 0x20)) 51 6 * 64)) ctr 0 blocks
    let s := if bad then s else s.setDreg (rngReg n 0x30) (BitVec.ofNat 64 (ctr + blocks))
    s.setDreg (rngReg n 0x38) (BitVec.ofNat 64 (bits ctl 15 8 * 2 ^ 8 + b2n bad * 2 ^ 62))

/-! ### Counters (17 R327, R328) -/

/-- A counter identifier as a key. -/
def ctrKey (id : Nat) : Nat := id % 2 ^ 14

/-- A counter. -/
def State.ctr (s : State) (k : Nat) : W64 := Tbl.get 0 s.coll.ctr k

/-- Entries armed on a counter become READY (17 R328, R330). -/
def State.fire (s : State) (k : Nat) : State :=
  let v := s.ctr k
  let hit (w : Work) : Bool := w.state == 1 && ctrKey (slice (ofBytes w.record) 36 4) == k && decide (w.threshold ≤ v)
  if s.coll.work.any (fun p => hit p.2) then
    { s with coll := { s.coll with
      work := s.coll.work.map (fun p => if hit p.2 then (p.1, { p.2 with state := 2, ready := s.coll.tick }) else p)
      tick := s.coll.tick + 1 } }
  else s

/-- Changes a counter. -/
def State.setCtr (s : State) (k : Nat) (v : W64) : State :=
  { s with coll := { s.coll with ctr := Tbl.set 0 s.coll.ctr k v } }.fire k

/-- Increments a counter named by a record field, unless it names none. -/
def State.incCtr (s : State) (id : Nat) : State :=
  if id = 0xFFFFFFFF then s else s.setCtr (ctrKey id) (s.ctr (ctrKey id) + 1)

/-! ### Keys (20 R373) -/

/-- The slot that KEYIDX names has the owner and material of KEYDOM and KEYMAT after INSTALL (1), and none after ERASE (2). -/
def State.keySlot (s : State) (cmd : Nat) : State :=
  let slot := s.dregN 0x2A1000 % 2 ^ 14
  let mat := ofBytes ((List.range 8).flatMap (fun i => toBytes 8 (s.dregN (0x2A1010 + 8 * i))))
  let v := if cmd = 1 then (s.dregN 0x2A1008 % 2 ^ 8, mat) else (0, 0)
  { s with admin := { s.admin with keys := Tbl.put s.admin.keys slot v } }

/-- A key command begins. Accesses that reach memory while it runs use the new state, so the slot has it from here on; one that
names slot 0 sets ERR, and one that finds another running is not taken (DEDUCED, log entry 21). -/
def State.keyStart (s : State) (cmd : Nat) : State :=
  if cmd ≠ 1 ∧ cmd ≠ 2 then s
  else if s.dregN 0x2A1000 % 2 ^ 14 = 0 then s.setDreg 0x2A1058 (s.dreg! 0x2A1058 ||| 2#64)
  else if s.admin.keyBusy ≠ 0 then s
  else
    let s := s.keySlot cmd
    { s with admin := { s.admin with keyBusy := cmd } }

/-- A key command finishes: BUSY clears. -/
def State.keyEnd (s : State) : State := { s with admin := { s.admin with keyBusy := 0 } }

/-! ### Invalidation (03 R56, R58) -/

/-- A GO write: KIND 3 sets ERR and starts nothing; the others queue in the order of their writes, each with the address that XLINV_ADDR
holds at its GO write (DESIGN CHOICE, log entry 59). -/
def State.invStart (s : State) (kind dom : Nat) (addr : W64) : State :=
  if kind = 3 then s.setDreg 0x101010 (s.dreg! 0x101010 ||| 2#64)
  else { s with admin := { s.admin with xlinv := s.admin.xlinv ++ [(kind, dom, addr)] } }

/-- The entry lies within the reach of an invalidation. -/
def TlbEntry.reached (e : TlbEntry) (kind dom : Nat) (addr : W64) : Bool :=
  kind == 2 || (e.domain == dom && (kind == 1 || e.vpn == addr.toNat / 2 ^ 16 * 2 ^ 16 / 2 ^ e.log))

/-- What was translated for a domain that a test holds of is complete at system scope: no store of its contexts is on its way, no
full-empty load is parked at its home, and no copy command has words to write or writes in a holding buffer (03 R56; the wait is for every access of the domain, DESIGN CHOICE, log
entry 48). -/
def State.settledFor (s : State) (hit : Nat → Bool) : Bool :=
  s.cores.all (fun p => (!hit p.2.domain || p.2.ctxs.all (fun c => c.2.stores == []))
    && p.2.copyRun.all (fun c => !hit c.domain || (c.reads == [] && c.todo == [])))
  && s.net.parked.all (fun p => !hit (s.core p.1).domain)
  && (match s.admin.halting with
    | some d => !hit d || s.admin.held == []
    | none => true)

/-- The oldest invalidation completes: every TLB entry within its reach is removed, once the accesses translated through them are
complete (03 R56). -/
def State.invEnd (s : State) : State :=
  match s.admin.xlinv with
  | [] => s
  | (kind, dom, addr) :: r =>
    if !s.settledFor (fun d => kind == 2 || d == dom) then s
    else
    let drop (l : List TlbEntry) : List TlbEntry := l.filter (fun e => !e.reached kind dom addr)
    { s with cores := s.cores.map (fun p => (p.1, { p.2 with micro := drop p.2.micro })),
             ctlb := s.ctlb.map (fun p => (p.1, drop p.2)), admin := { s.admin with xlinv := r } }

/-! ### Domains (20 R372) -/

/-- Clearing EN takes effect once no launch part of the domain runs. -/
def State.disableNow (s : State) (d : Nat) : State :=
  if s.admin.disabling.contains d && !s.domainRuns d then
    let s := { s with admin := { s.admin with disabling := s.admin.disabling.erase d } }
    s.setDreg (0x2A0000 + 8 * d) (s.dreg! (0x2A0000 + 8 * d) &&& ~~~(1#64 <<< 63))
  else s

/-- A write of DOMCTL: domain 0 cannot be enabled; clearing EN waits while parts of the domain run. A write that does not reach EN,
`en` being false, leaves it and a clearing that waits alone (00 R394). -/
def State.domWrite (s : State) (d : Nat) (v : W64) (en : Bool := true) : State :=
  let off := 0x2A0000 + 8 * d
  let v := v &&& 0x800000000000017F#64
  if d = 0 then s.setDreg off (v &&& 0x17F#64)
  else if !en then s.setDreg off v
  else if bit v.toNat 63 || !bit (s.dregN off) 63 then
    { s.setDreg off v with admin := { s.admin with disabling := s.admin.disabling.erase d } }
  else
    let s := s.setDreg off (v ||| (1#64 <<< 63))
    let s := { s with admin := { s.admin with disabling := s.admin.disabling.erase d ++ [d] } }
    s.disableNow d

/-! ### Debug halts (18 R355) -/

/-- A debug halt of a domain begins: its contexts stop at an instruction boundary, one that is none of the given. -/
def State.haltDomain (s : State) (d : Nat) (code : Nat) (skip : Nat × Nat) : State :=
  if s.admin.halting.isSome then s
  else
    let s := { s with admin := { s.admin with halting := some d, halted := false, stepping := false, super := false } }
    (s.cores.filter (fun p => match p.2.part with
      | some x => x.domain == d
      | none => false)).foldl (fun s p =>
        p.2.ctxs.foldl (fun s q =>
          if (s.ctx p.1 q.1).life = .live ∧ (p.1, q.1) ≠ skip then s.stopCtx p.1 q.1 .debug code 0 else s) s) s

/-- Resumes a stopped context as a return from its frame would; a frame that is refused, or an image that faults, is fatal
(18 R346, R351). -/
def State.resumeCtx (s : State) (core k : Nat) : State :=
  let c := s.ctx core k
  if c.life ≠ .stopped then s
  else
    match s.restoreLevel core k c.level with
    | .ok s => s.recapture core k
    | .error .refused => s.killNow core k Cause.prot.num 0x3F 0
    | .error (.fault (ca, co) a) => s.killNow core k ca.num co a

/-- Resumes every stopped context of a domain, but for those of a part that is being pre-empted. -/
def State.resumeDomain (s : State) (d : Nat) : State :=
  (s.cores.filter (fun p => s.launch.taking.all (fun t => t.1 != p.1) && (match p.2.part with
    | some x => x.domain == d
    | none => false))).foldl (fun s p =>
      p.2.ctxs.foldl (fun s q => s.resumeCtx p.1 q.1) s) s

/-- Bytes that an item takes of a holding buffer. -/
def Held.size : Held → Nat
  | .write _ _ _ n _ => n
  | .msg m => m.payload.length + 8
  | .ctr _ => 0

/-- The die whose holding buffer has an item. -/
def Held.die : Held → Nat
  | .write d .. => d
  | .msg m => m.dest / 384
  | .ctr _ => 0

/-- Bytes that the holding buffer of a die holds. -/
def Admin.heldBytes (a : Admin) (die : Nat) : Nat := (((a.held.filter (fun h => h.die == die)).map Held.size).foldl (· + ·) 0)

/-- The holding buffer of the item's die, of 1 MiB, has room for it (18 R355). -/
def Admin.fits (a : Admin) (h : Held) : Bool := decide (a.heldBytes h.die + h.size ≤ 2 ^ 20)

/-- An item enters the holding buffer of its die. -/
def State.hold (s : State) (h : Held) : State := { s with admin := { s.admin with held := s.admin.held ++ [h] } }

/-- A held item lands: a write under its page's key as it then stands, setting its words full (19 R369). -/
def State.landItem (s : State) : Held → State
  | .write _ k m n v => (s.poke (.ofKey k m) n v).fill (.ofKey k m) n
  | .msg m => s.msgArrive m
  | .ctr id => s.incCtr id

/-- What was held during a halt lands in arrival order. -/
def State.landHeld (s : State) : State :=
  s.admin.held.foldl State.landItem { s with admin := { s.admin with held := [] } }

/-- Memory as the held writes will leave it. -/
def State.underHeld (s : State) : State :=
  s.admin.held.foldl (fun s h => match h with
    | .write _ k m n v => s.poke (.ofKey k m) n v
    | .msg _ | .ctr _ => s) s

/-- RESUME: what was held during the halt lands in arrival order, then contexts resume, none of them stepping. -/
def State.dbgResume (s : State) (d : Nat) : State :=
  if s.admin.halted && s.admin.halting == some d then
    let s := { s with
      admin := { s.admin with halting := none, halted := false, stepping := false, super := false }
      cores := s.cores.map (fun (p : Nat × Core) => (p.1, { p.2 with
        ctxs := p.2.ctxs.map (fun (q : Nat × Ctx) => (q.1, { q.2 with stepping := false })) })) }
    s.landHeld.resumeDomain d
  else s

end Sys2Proof.Machine
end

