-- ==== Sys2Proof/Machine/Launch.lean ====
section
/-! DEFINITION. The launch unit: packets and kernel notes (15 R303, R304, 19 R361-R363), placing and dealing identifiers
(14 R268, R269, 15 R306, R310, R311), starting and ending the part of a launch on a core (07 R127, 14 R270, R272, 15
R313, 19 R368), parked frames (06 R108) and pre-emption (15 R305, R308, R309). -/

namespace Sys2Proof.Machine

/-! ### Physical cores (01 R7, 19 R360) -/

/-- The physical core that a logical core of the full mapping stands for: its own row and column of the 17 columns of its row (01 R7). -/
def homeCore (core : Nat) : Nat := 204 * (core / 192) + 17 * (core % 192 / 16) + core % 16

/-- The physical core of a logical core (01 R7). -/
def State.physOf (s : State) (core : Nat) : Nat := (Tbl.find s.admin.phys core).getD (homeCore core)

/-- The logical cores that a physical core of a cluster serves (01 R7, 19 R360). -/
def State.servedBy (s : State) (cl p : Nat) : List Nat := ((List.range 192).map (192 * cl + ·)).filter (fun i => s.physOf i == p)

/-- The spare physical cores of a cluster: of its 12 rows by 17 columns, those that serve no logical core and are not retired (01 R7). -/
def State.sparesOf (s : State) (cl : Nat) : List Nat :=
  ((List.range 204).map (204 * cl + ·)).filter (fun p => !s.admin.deadPhys.contains p && (s.servedBy cl p).isEmpty)

/-- The physical cores of a cluster that may take a partner: they serve one logical core and are not retired (19 R360). -/
def State.workingOf (s : State) (cl : Nat) : List Nat :=
  ((List.range 204).map (204 * cl + ·)).filter (fun p => !s.admin.deadPhys.contains p && (s.servedBy cl p).length == 1)

/-- A logical core whose physical core is retired is mapped to a spare, with its match table cleared, or, where its cluster has none left,
to the physical core of a partner (01 R7, 11 R210, 18 R353, 19 R360); which one it is, is free (DESIGN CHOICE, log entry 63). -/
def State.remap (s : State) (i : Nat) : State :=
  let spares := s.sparesOf (i / 192)
  let l := if spares = [] then s.workingOf (i / 192) else spares
  let (n, s) := s.choose l.length
  let x := s.core i
  let s := s.setCore i { x with lasting := false, errs := [], matchTab := if spares = [] then x.matchTab else [] }
  match l[n]? with
  | none => s
  | some p => { s with admin := { s.admin with phys := Tbl.put s.admin.phys i p } }

/-- The other logical core on the physical core of a logical core. -/
def State.partnerOf (s : State) (i : Nat) : Option Nat :=
  if s.admin.phys = [] then none else (s.servedBy (i / 192) (s.physOf i)).find? (fun j => j != i)

/-- The physical core of a logical core runs it now, and not its partner (19 R360). -/
def State.onTurn (s : State) (i : Nat) : Bool :=
  match s.partnerOf i with
  | none => true
  | some j => Tbl.get (min i j) s.admin.shared (s.physOf i) == i

/-- The physical core of a running logical core may switch to the partner: the control context has arrived at a halyard episode, the ring
holds a beat, or the core is idle (19 R360). -/
def State.yieldsTurn (s : State) (i : Nat) : Bool :=
  s.episodes.any (fun e => e.arrived.any (fun a => a.1 == i))
    || (match (s.core i).ring with
        | none => false
        | some r => (Tbl.find s.rings r).any (·.running))
    || (List.range 11).all (fun k => (s.ctx i k).life != .live)

/-- Of logical cores that share a physical core, the other one has gone as far as it goes alone too: what waits for both may take place
(19 R360). -/
def State.partnersReady (s : State) (l : List Nat) : Bool :=
  s.admin.phys == [] || l.all (fun i => match s.partnerOf i with
    | none => true
    | some j => s.yieldsTurn j)

/-- A physical core that runs a logical core switches to its partner (19 R360). -/
def State.switchTurn (s : State) (i : Nat) : State :=
  match s.partnerOf i with
  | none => s
  | some j =>
    if s.onTurn i && s.yieldsTurn i then { s with admin := { s.admin with shared := Tbl.put s.admin.shared (s.physOf i) j } } else s

/-! ### Parked frames (06 R105-R108) -/

/-- Element (row, col) of an accumulator. -/
def Core.accAt (x : Core) (row col : Nat) : W32 := Tbl.get 0 x.acc (64 * row + col)

/-- Writes an element, setting the mark of its half-row. -/
def Core.setAcc (x : Core) (row col : Nat) (v : W32) : Core :=
  { x with acc := Tbl.set 0 x.acc (64 * row + col) v, marks := Tbl.set false x.marks (2 * row + col / 32) true }

/-- The 16 registers of a frame parked in a half-row, as 128 bytes. -/
def Core.parkedFrame (x : Core) (row half : Nat) : Nat :=
  layout ((List.range 32).map (fun j => (4 * j, (x.accAt row (32 * half + j)).toNat)))

/-- Writes a frame into a half-row; this sets no mark. -/
def Core.parkFrame (x : Core) (row half v : Nat) : Core :=
  { x with acc := (List.range 32).foldl (fun t j =>
      Tbl.set 0 t (64 * row + 32 * half + j) (BitVec.ofNat 32 (slice v (4 * j) 4))) x.acc }

/-- The slot of frame `d` of a context (18 R337). -/
def State.frameSlot (s : State) (core k d : Nat) : Except (Flt × W64) Nat :=
  match s.vread (s.hwWho core) (s.cimg core k + 8) 8 with
  | .error e => .error e
  | .ok b => .ok (b / 128 * 128 + 128 * d)

/-- Moves the frame of a valid spill map entry to its image slot and zeroes its half-row; a fault on that write kills the
owner (06 R108, 18 R346). -/
def State.evict (s : State) (core n : Nat) : State :=
  let x := s.core core
  let e := (Tbl.get 0 x.spmap n).toNat
  if !bit e 63 then s
  else
    let k := bits e 62 59
    let d := bits e 55 24
    let row := bits e 10 2
    let half := bits e 1 1
    let v := x.parkedFrame row half
    let clear (s : State) : State :=
      let x := s.core core
      let x := x.parkFrame row half 0
      s.setCore core { x with spmap := Tbl.set 0 x.spmap n 0 }
    match s.frameSlot core k d with
    | .error ((c, code), a) => (clear s).killNow core k c.num code a
    | .ok slot =>
      match s.vwrite (s.hwWho core) slot 128 v with
      | .ok s => clear s
      | .error ((c, code), a) => (clear s).killNow core k c.num code a

/-- Before an access to elements: parked frames in their half-rows move out (06 R108). -/
def State.evictAt (s : State) (core row half : Nat) : State :=
  (List.range 32).foldl (fun s n =>
    let e := (Tbl.get 0 (s.core core).spmap n).toNat
    if bit e 63 && bits e 10 2 == row && bits e 1 1 == half then s.evict core n else s) s

/-- Before an access to a region of rows and columns. -/
def State.evictRegion (s : State) (core row0 nrow col0 ncol : Nat) : State :=
  (List.range 32).foldl (fun s n =>
    let e := (Tbl.get 0 (s.core core).spmap n).toNat
    let r := bits e 10 2
    let h := bits e 1 1
    if bit e 63 && decide (row0 ≤ r ∧ r < row0 + nrow) && decide (col0 < 32 * h + 32 ∧ 32 * h < col0 + ncol) then
      s.evict core n
    else s) s

/-! ### Domain change and context start -/

/-- The context that a domain change leaves: nothing of the old one but the count of its entries. -/
def Ctx.cleared (c : Ctx) : Ctx := { Ctx.reset with flow := { Ctx.reset.flow with seq := c.flow.seq } }

/-- A pre-empted context of the core has the ring bound. -/
def State.boundStopped (s : State) (core ring k : Nat) : Bool :=
  s.launch.stopped.any (fun p => p.core == core && ((Tbl.get Ctx.reset p.ctxs k).stream.map (·.ring)) == some ring)

/-- The core passes to a launch of domain `dom`: from another domain, its stores and registers are cleared, after parked
frames have been written to their images (06 R99, R108, 07 R126, 11 R210). A ring that an idle context had bound is bound no more
(DESIGN CHOICE, log entry 51). -/
def State.passDomain (s : State) (core dom : Nat) : State :=
  if (s.core core).lastDom = dom then s
  else
    let s := match (s.core core).ring with
      | none => s
      | some r => s.ringRelease r
    let s := (List.range 32).foldl (fun s n => s.evict core n) s
    let x := s.core core
    let s := s.setCore core { x with
      ctxs := x.ctxs.map (fun p => (p.1, p.2.cleared)), bound := x.bound.filter (fun b => s.boundStopped core b.1 b.2), acc := []
      marks := [], spmap := [], matchTab := [], lastDom := dom, part := none }
    { s with mem := Mem.clear s.mem (lsKey core 0) 0x100000,
             fe := s.fe.filter (fun p => !decide (lsKey core 0 / 8 ≤ p.1 ∧ p.1 < lsKey core 0x100000 / 8)),
             lost := s.lost.filter (fun p => !decide (lsKey core 0 / 64 ≤ p.1 ∧ p.1 < lsKey core 0x100000 / 64)) }

/-- The start state of a context (07 R127): everything the manual does not name stays as it was, and so does the binding of a ring to the
context (DESIGN CHOICE, log entry 51). -/
def Ctx.begin (c : Ctx) (pc w1 wid widhdr : W64) (fmts : List (Nat × W32)) : Ctx :=
  { c with
    life := .live
    rf := { c.rf with common := Tbl.set 0 c.rf.common 1 w1, cwp := 0, low := 0 }
    spec := { c.spec with fstat := 0, s := [], wid := wid, widhdr := widhdr,
                          f := fmts.foldl (fun t p => Tbl.set 0x70348 t p.1 (p.2 &&& descMask)) [] }
    flow := { pc := pc, chain := [], chainPc := 0, q := [], loops := [], bypass := [], stale := [], inflight := [],
              seq := c.flow.seq }
    level := 0, hpriv := false, hflags := 0, saved := [], results := [], late := [], pennant := none, started := false, vpj := []
    follow := none, held := [], passed := 0, yielded := 0, stepping := false }

/-- Writes a register w8 and upwards of the base group at a start. -/
def Ctx.setArgs (c : Ctx) (args : List W64) : Ctx :=
  { c with rf := { c.rf with base := (indexed 8 args).foldl (fun t (n, v) => Tbl.set 0 t n v) c.rf.base } }

/-- The image's STATUS at a start: LEVEL and DEAD clear, PRIV kept (18 R337). -/
def State.clearStatus (s : State) (core k : Nat) : State :=
  let w := s.hwWho core
  let a := s.cimg core k + 0x10
  match s.vread w a 8 with
  | .error _ => s
  | .ok st =>
    match s.vwrite w a 8 (bits st 2 2 * 4) with
    | .ok s => s
    | .error _ => s

/-- Starts context `k` of a core; one that a stepped instruction starts stops with the step (18 R357). -/
def State.beginCtx (s : State) (core k : Nat) (pc wid widhdr : W64) (args : List W64) (started : Bool)
    (pennant : Option (W64 × Bool)) : State :=
  let s := s.clearStatus core k
  let x := s.core core
  let (kimg, fmts) := match x.part with
    | some p => (p.kimg, p.fmts)
    | none => (0, [])
  let c := ((x.ctx k).begin pc kimg wid widhdr fmts).setArgs args
  s.setCtx core k { c with
    started := started, pennant := pennant, last := x.cycle
    stepping := s.admin.stepping && x.part.any (fun p => s.admin.halting == some p.domain) }

/-! ### Packets and notes -/

/-- A field of the packet's bytes. -/
def Launch.field (l : Launch) (off n : Nat) : Nat := slice (ofBytes l.pkt) off n

/-- The fields of a header: role, width and the position of the lowest bit in the identifier (14 R268). -/
def widFields (hdr : Nat) : List (Nat × Nat × Nat) :=
  let ds := (List.range 6).map (fun i => (bits hdr (10 * i + 9) (10 * i + 7), bits hdr (10 * i + 6) (10 * i)))
  let ds := ds.takeWhile (fun d => d.2 != 0)
  (ds.foldl (fun (acc : List (Nat × Nat × Nat) × Nat) d => (acc.1 ++ [(d.1, d.2, acc.2 - d.2)], acc.2 - d.2)) ([], 64)).1

/-- A malformed header (14 R268). -/
def widBad (hdr : Nat) : Bool :=
  let ds := (List.range 6).map (fun i => (bits hdr (10 * i + 9) (10 * i + 7), bits hdr (10 * i + 6) (10 * i)))
  let on := ds.filter (fun d => d.2 != 0)
  bits hdr 63 60 != 0 || decide (64 < ((on.map (·.2)).foldl (· + ·) 0 : Nat)) || on.any (fun d => decide (5 < d.1))
    || [1, 2, 3, 4].any (fun r => decide (1 < on.countP (fun d => d.1 == r)))
    || decide (ds.takeWhile (fun d => d.2 != 0) ≠ on)

/-- Why a packet is rejected. -/
inductive Reject15 where
  | status (n : Nat)
  /-- No completion record can be written. -/
  | silent
  deriving DecidableEq, Repr

/-- The class of a word for the promise: 0 none, 1 placement, 2 unordered or timing (19 R361). -/
def promiseClass (w : Nat) : Nat :=
  let maj := bits w 31 26
  let x := bits w 25 22
  let n := bits w 15 4
  if (maj == 0x1C && x == 5) || (maj == 0x16 && bits w 15 12 == 9) || (maj == 0x26 && (bits w 10 5 == 1 || bits w 10 5 == 5)) then 2
  else if maj == 0x3C && decide (x < 4) then
    if n = 1 then 1
    else if n = 0 ∨ n = 0x38 ∨ n = 0x42 ∨ n = 0x43 ∨ (0x60 ≤ n ∧ n ≤ 0x63) ∨ n = 0x72 ∨ n = 0xDB then 2
    else 0
  else if (maj == 0x1D && x == 0) || (maj == 0x35 && x == 6) || (maj == 0x36 && x == 6) then 2
  else 0

/-- The computed promise of a text: 0 none, 1 run, 2 bitwise. -/
def computedPromise (text : Nat) : Nat → Nat
  | 0 => 2
  | n + 1 => min (2 - promiseClass (slice text (4 * n) 4)) (computedPromise text n)

/-- The kernel note breaks a rule (19 R363). -/
def noteBad (t : Nat) : Bool :=
  let nreg := slice t 10 1
  let narg := slice t 8 1
  slice t 0 4 != 0x4E4B5256 || slice t 11 53 != 0 || decide (16 < nreg) || decide (2 < slice t 9 1) || decide (8 < narg)
    || (List.range nreg).any (fun k =>
        let r := slice t (64 + 96 * k) 96
        decide (narg ≤ slice r 0 1) || decide (8 < slice r 1 1) || slice r 2 6 != 0)

/-- The regions of a note. -/
def noteRegions (t : Nat) : List (Nat × Nat × List (Nat × Nat)) :=
  (List.range (slice t 10 1)).map (fun k =>
    let r := slice t (64 + 96 * k) 96
    (slice r 0 1, slice r 8 8, (List.range (slice r 1 1)).map (fun p => (slice r (16 + 8 * p) 4, slice r (20 + 8 * p) 4))))

/-- On whose behalf the launch unit accesses memory of a queue (03 R52). -/
def State.launchWho (s : State) (q : Nat) : Who := ⟨s.qDom q, true, 0⟩

/-- Reads a range for the launch unit. -/
def State.luRead (s : State) (q : Nat) (va n : Nat) : Option Nat :=
  match s.engRead (s.launchWho q) (BitVec.ofNat 64 va) n .bulk with
  | .ok (v, _) => some v
  | .error _ => none

/-- The cores that a launch may use: in its dies, inside the communication reserve for a COMM launch, outside it otherwise
(15 R309). -/
def State.usableFor (s : State) (mask : Nat) (comm : Bool) : List Nat :=
  (List.range 1536).filter (fun c =>
    let d := c / 384
    bit mask d && (comm == decide (384 ≤ c % 384 + s.dregN (0x220018 + 32 * d))))

/-- Checks the packet at the head of a queue (15 R303, R304, R311, 19 R363): the launch, or why it is rejected. -/
def State.readPacket (s : State) (q : Nat) : Except Reject15 Launch :=
  let z := s.qctl q % 16
  let addr := bits (s.dregN (qReg q 0)) 51 12 * 2 ^ 12 + 128 * (s.dregN (qReg q 0x18) % 2 ^ z)
  match s.luRead q (addr + 56) 8 with
  | none => .error .silent
  | some compl =>
    if compl % 16 ≠ 0 then .error .silent
    else
      match s.luRead q addr 128 with
      | none => .error (.status 5)
      | some p =>
        let kimg := slice p 0 8
        let nwid := slice p 24 8
        let flags := slice p 34 1
        let trace := slice p 40 8
        if kimg % 65536 ≠ 0 ∨ widBad (slice p 8 8) ∨ nwid = 0 ∨ 2 ^ 64 < slice p 16 8 + nwid ∨ slice p 32 1 % 16 = 0
            ∨ 16 ≤ slice p 32 1 ∨ 8 < slice p 33 1 ∨ 8 ≤ flags ∨ slice p 35 5 ≠ 0 ∨ trace % 64 ≠ 0
            ∨ (flags % 4 = 0 ∧ trace ≠ 0) ∨ flags % 4 = 3 ∨ slice p 48 8 % 4096 ≠ 0 then .error (.status 1)
        else
          match s.luRead q (kimg + 2 ^ 64 - 2048) 2048 with
          | none => .error (.status 5)
          | some t =>
            match s.luRead q kimg (slice t 4 4) with
            | none => .error (.status 5)
            | some text =>
              let promise := slice t 9 1
              if noteBad t ∨ computedPromise text (slice t 4 4 / 4) < promise ∨ (promise = 1 ∧ flags % 4 = 0) then
                .error (.status 3)
              else if slice t 8 1 ≠ slice p 33 1 then .error (.status 2)
              else
                let l : Launch := {
                  pkt := toBytes 128 p, addr := BitVec.ofNat 64 addr, dealt := [], trace := [], groups := [], usable := [],
                  replay := [], regions := noteRegions t,
                  fmts := ((s.launch.fmtTab.find? (fun x => x.1.toNat == kimg)).map (·.2)).getD (Config.fmtNotes kimg text),
                  promise := promise, completedRuns := 0, died := false, bad := false, begun := false, deadCores := [] }
                if !bit flags 1 then .ok l
                else
                  match s.luRead q trace 64 with
                  | none => .error (.status 5)
                  | some h =>
                    let n := slice h 0 8
                    if slice h 8 24 ≠ slice p 8 24 ∨ slice h 32 32 ≠ slice p 32 1 ∨ n ≠ nwid then .error (.status 4)
                    else
                      match s.luRead q (trace + 64) (16 * n) with
                      | none => .error (.status 5)
                      | some es =>
                        let rs := (List.range n).map (fun i => (slice es (16 * i + 8) 8, BitVec.ofNat 64 (slice es (16 * i) 8)))
                        let us := s.usableFor (slice p 32 1) (bit flags 2)
                        if rs.all (fun r => us.contains r.1) then .ok { l with replay := rs } else .error (.status 4)

/-- Writes the completion record of the head launch and moves the queue on (15 R302, R304). -/
def State.endHead (s : State) (q compl status runs : Nat) (addr : W64) (silent : Bool) : State :=
  let head := s.dregN (qReg q 0x18)
  let lost (s : State) : State := s.postFault 0 ⟨0x08, 0, 0, 15, 0, q, addr, 0⟩
  let s :=
    if silent then lost s
    else
      match s.engWrite (s.launchWho q) (BitVec.ofNat 64 compl) 16 (status * 2 ^ 56 + head % 2 ^ 32 + runs % 2 ^ 64 * 2 ^ 64) .bulk with
      | (s, none) => s
      | (s, some _) => lost s
  let s := s.setDreg (qReg q 0x18) (BitVec.ofNat 64 ((head + 1) % 2 ^ 32))
  let s := { s with launch := { s.launch with active := Tbl.erase s.launch.active q } }
  s.qUpdate q

/-- The launch unit reads the head packet of a mapped queue with no launch in progress, and rejects it or makes it the head
launch (15 R304). -/
def State.packetRead (s : State) (q : Nat) : State :=
  if !s.qWork q || !s.launch.mapped q || (Tbl.find s.launch.active q).isSome then s
  else
    let z := s.qctl q % 16
    let addr := bits (s.dregN (qReg q 0)) 51 12 * 2 ^ 12 + 128 * (s.dregN (qReg q 0x18) % 2 ^ z)
    match s.readPacket q with
    | .ok l => { s with launch := { s.launch with active := Tbl.put s.launch.active q l } }
    | .error .silent => s.endHead q 0 0 0 (BitVec.ofNat 64 addr) true
    | .error (.status n) => s.endHead q ((s.luRead q (addr + 56) 8).getD 0) n 0 (BitVec.ofNat 64 addr) false

/-! ### Placing and dealing -/

/-- The value of the field with a role, if the header has it. -/
def widRole (hdr id role : Nat) : Option Nat :=
  ((widFields hdr).find? (fun f => f.1 == role)).map (fun f => id / 2 ^ f.2.2 % 2 ^ f.2.1)

/-- The identifier without its serial and free fields and the bits of no field: the mark of its group (14 R269). -/
def widGroup (hdr id : Nat) : Nat :=
  ((widFields hdr).filter (fun f => f.1 != 0 && f.1 != 5)).foldl
    (fun acc f => acc + id / 2 ^ f.2.2 % 2 ^ f.2.1 * 2 ^ f.2.2) 0

/-- The launch may place the identifier on the core (14 R269). -/
def Launch.places (l : Launch) (id core : Nat) : Bool :=
  let hdr := l.field 8 8
  let dies := (List.range 4).filter (fun d => bit (l.field 32 1) d)
  let dieOk := match widRole hdr id 1 with
    | none => true
    | some v => dies[v % dies.length]? == some (core / 384)
  let clOk := match widRole hdr id 2 with
    | none => true
    | some v => v % 2 == core % 384 / 192
  let coreOk := match widRole hdr id 3 with
    | none => l.usable.contains core
    | some v =>
      let us := l.usable.filter (fun c => c / 192 == core / 192)
      us[v % us.length]? == some core
  dieOk && clOk && coreOk

/-- The identifier of an offset. -/
def Launch.idOf (l : Launch) (off : Nat) : Nat := l.field 16 8 + off

/-- The core may receive the undealt identifier at an offset. -/
def Launch.open_ (l : Launch) (core off : Nat) : Bool :=
  let id := l.idOf off
  let hdr := l.field 8 8
  !l.dealt.contains (BitVec.ofNat 64 off) && l.places id core
    && ((widFields hdr).all (fun f => f.1 != 5)
        || (match l.groups.find? (fun g => g.1.toNat == widGroup hdr id) with
            | none => true
            | some g => g.2 == core))

/-- The lowest offset from `i` on, among `n`, that satisfies a test. -/
def firstFrom (p : Nat → Bool) : Nat → Nat → Option Nat
  | 0, _ => none
  | n + 1, i => if p i then some i else firstFrom p n (i + 1)

/-- The offset among `n` from `i` on that comes first in its serial group: least serial value, then lowest offset. -/
def leastSerial (p : Nat → Bool) (ser : Nat → Nat) : Nat → Nat → Option Nat → Option Nat
  | 0, _, best => best
  | n + 1, i, best =>
    leastSerial p ser n (i + 1) (if p i && (match best with
      | none => true
      | some b => decide (ser i < ser b)) then some i else best)

/-- The offset that a core receives next (14 R269, 15 R306). -/
def Launch.nextFor (l : Launch) (core : Nat) : Option Nat :=
  let n := l.field 24 8
  let hdr := l.field 8 8
  match firstFrom (l.open_ core) n 0 with
  | none => none
  | some o =>
    if (widFields hdr).all (fun f => f.1 != 5) then some o
    else
      let g := widGroup hdr (l.idOf o)
      leastSerial (fun i => l.open_ core i && widGroup hdr (l.idOf i) == g) (fun i => (widRole hdr (l.idOf i) 5).getD 0) n 0 none

/-- The launch with the identifier at an offset dealt to a core; recorded in the trace. -/
def Launch.deal (l : Launch) (core off : Nat) : Launch :=
  let hdr := l.field 8 8
  let id := l.idOf off
  let g := widGroup hdr id
  { l with
    dealt := BitVec.ofNat 64 off :: l.dealt
    trace := l.trace ++ [(core, BitVec.ofNat 64 id)]
    groups := if (widFields hdr).all (fun f => f.1 != 5) || l.groups.any (fun x => x.1.toNat == g) then l.groups
      else l.groups ++ [(BitVec.ofNat 64 g, core)] }

/-- Fixes the usable cores at the first dealing (15 R309). -/
def State.fixUsable (s : State) (l : Launch) : Launch :=
  if l.begun then l
  else { l with begun := true, usable := s.usableFor (l.field 32 1) (bit (l.field 34 1) 2) }

/-- The core lies in the reserve as it stands, for a COMM launch, or outside it, for another (15 R309). -/
def State.inPlace (s : State) (l : Launch) (core : Nat) : Bool :=
  bit (l.field 34 1) 2 == decide (384 ≤ core % 384 + s.dregN (0x220018 + 32 * (core / 384)))

/-- The launch has an undealt identifier for the core, if placement lets it have one at all: not where its control context died (14
R269, 15 R311, 18 R347). -/
def Launch.hasFor (l : Launch) (core : Nat) : Bool :=
  !l.deadCores.contains core && (if bit (l.field 34 1) 1 then l.replay.any (fun r => r.1 == core) else (l.nextFor core).isSome)

/-- Deals the next identifier of a launch to a core, or all of its recorded run under REPLAY (15 R306, R311): the
identifiers in order. -/
def State.dealTo (s : State) (q core : Nat) : List W64 × State :=
  match Tbl.find s.launch.active q with
  | none => ([], s)
  | some l =>
    let l := s.fixUsable l
    if bit (l.field 34 1) 1 then
      let run := (l.replay.filter (fun r => r.1 == core)).map (·.2)
      let l := run.foldl (fun l id => l.deal core (id.toNat - l.field 16 8)) { l with replay := l.replay.filter (fun r => r.1 != core) }
      (run, { s with launch := { s.launch with active := Tbl.put s.launch.active q l } })
    else
      match l.nextFor core with
      | none => ([], s)
      | some o =>
        ([BitVec.ofNat 64 (l.idOf o)], { s with launch := { s.launch with active := Tbl.put s.launch.active q (l.deal core o) } })

/-- The core can take a launch part: none runs on it, and what the last one left has run dry, its matrix commands and the stores on
their way (15 R306, R313). -/
def State.coreFree (s : State) (core : Nat) : Bool :=
  (s.core core).running.isNone && (s.core core).mq.isEmpty && (s.core core).ctxs.all (fun c => c.2.stores == [])

/-- The launch has an undealt identifier that the core may receive: the queue holds a slot, and the reserve as it stands lets the launch
have the core (15 R305, R306, R309). -/
def State.canDeal (s : State) (q core : Nat) : Bool :=
  match Tbl.find s.launch.active q with
  | none => false
  | some l =>
    let l := s.fixUsable l
    s.launch.mapped q && l.usable.contains core && s.inPlace l core && l.hasFor core

/-- A part of the launch of queue `q` may start on the core: no pre-empted one of it waits there, and its domain is not halted (15 R308,
18 R355). -/
def State.mayStart (s : State) (q core : Nat) : Bool :=
  s.launch.stopped.all (fun x => x.core != core || x.part.queue != q) && s.admin.halting != some (s.qDom q)

/-- A replayed launch that has not begun names a core that it may not use (15 R311). -/
def State.replayLost (s : State) (q : Nat) : Bool :=
  match Tbl.find s.launch.active q with
  | none => false
  | some l =>
    !l.begun && bit (l.field 34 1) 1 && (let us := s.usableFor (l.field 32 1) (bit (l.field 34 1) 2)
      l.replay.any (fun r => !us.contains r.1))

/-- A replayed launch that names a core it may not use ends with STATUS 4 (15 R311). -/
def State.endReplay (s : State) (q : Nat) : State :=
  match Tbl.find s.launch.active q with
  | none => s
  | some l => s.endHead q (l.field 56 8) 4 0 l.addr false

/-- What ranks a launch for dealing: PRIO, then the age of its slot's grant (15 R306). -/
def State.dealKey (s : State) (q : Nat) : Nat × Nat :=
  (s.qPrio q, ((s.launch.slots.find? (fun x => x.2.1 == q)).map (·.2.2)).getD 0)

/-- The launch of queue `q` goes before that of queue `r`. -/
def State.before (s : State) (q r : Nat) : Bool :=
  decide ((s.dealKey q).1 < (s.dealKey r).1) || ((s.dealKey q).1 == (s.dealKey r).1 && decide ((s.dealKey q).2 < (s.dealKey r).2))

/-- No mapped launch that may use the free core goes before that of queue `q` (15 R306). -/
def State.firstFor (s : State) (q core : Nat) : Bool :=
  s.launch.active.all (fun a => !(s.before a.1 q && s.canDeal a.1 core && s.mayStart a.1 core))

/-- A context that died under an earlier launch starts afresh under the next (18 R347). -/
def Core.revive (x : Core) (q : Nat) : Core :=
  if x.part.any (fun p => p.queue == q) then x
  else { x with ctxs := x.ctxs.map (fun c => (c.1, if c.2.life = .dead then { c.2 with life := .idle } else c.2)) }

/-- The control context of a free core takes its first identifier (14 R270, 15 R306). -/
def State.startPart (s : State) (q core : Nat) : State :=
  if !s.coreFree core || !s.canDeal q core || !s.mayStart q core then s
  else
    let (ids, s) := s.dealTo q core
    match ids, Tbl.find s.launch.active q with
    | id :: rest, some l =>
      let s := s.passDomain core (s.qDom q)
      let x := s.core core
      let narg := l.field 33 1
      let part : Part := {
        queue := q, domain := s.qDom q, prio := s.qPrio q, comm := bit (l.field 34 1) 2, kimg := BitVec.ofNat 64 (l.field 0 8),
        widhdr := BitVec.ofNat 64 (l.field 8 8), args := (List.range narg).map (fun i => BitVec.ofNat 64 (l.field (64 + 8 * i) 8)),
        fmts := l.fmts, run := rest, done := 0, exhausted := false, promise := l.promise, died := false, ended := false }
      let s := s.setCore core { x.revive q with part := some part }
      s.beginCtx core 0 part.kimg id part.widhdr part.args false none
    | _, _ => s

/-- The next identifier of the run of a core: from what was dealt, or dealt now (14 R269, R274). -/
def State.nextId (s : State) (core : Nat) : Option (W64 × State) :=
  match (s.core core).part with
  | none => none
  | some p =>
    if p.exhausted then none
    else
      match p.run with
      | id :: rest =>
        let x := s.core core
        some (id, s.setCore core { x with part := some { p with run := rest } })
      | [] =>
        if !s.canDeal p.queue core then none
        else
          match s.dealTo p.queue core with
          | ([], _) => none
          | (id :: rest, s) =>
            let x := s.core core
            some (id, s.setCore core { x with part := x.part.map (fun p => { p with run := rest, prio := s.qPrio p.queue }) })

/-- Counts an identifier whose run completed. -/
def State.countRun (s : State) (core : Nat) : State :=
  match (s.core core).part with
  | none => s
  | some p =>
    match Tbl.find s.launch.active p.queue with
    | none => s
    | some l =>
      { s with launch := { s.launch with active := Tbl.put s.launch.active p.queue { l with completedRuns := l.completedRuns + 1 } } }

/-- The context is in use. -/
def Ctx.busy (c : Ctx) : Bool := c.life == .live || c.life == .stopped

/-- What a quantum boundary would give the reserve of a die (15 R309). -/
def State.rsvWant (s : State) (d : Nat) : Nat :=
  let mn := s.dregN (0x220000 + 32 * d) % 2 ^ 9
  let mx := max mn (s.dregN (0x220008 + 32 * d) % 2 ^ 9)
  let step := max 1 (s.dregN (0x220010 + 32 * d) % 2 ^ 16)
  let pending := s.coll.work.countP (fun p => p.1 / 4096 == d && decide (1 ≤ p.2.state ∧ p.2.state ≤ 3))
  min 384 (min mx (mn + pending / step))

/-- Cores leave the reserve of a die, down to the target of the last boundary, while no COMM part runs on them (15 R309). -/
def State.leaveReserve (s : State) (d : Nat) : Nat → State
  | 0 => s
  | n + 1 =>
    let now := s.dregN (0x220018 + 32 * d)
    if now ≤ Tbl.get 0 s.launch.rsvTarget d then s
    else if (s.core (384 * d + 384 - now)).running.any (·.comm) then s
    else State.leaveReserve (s.setDreg (0x220018 + 32 * d) (BitVec.ofNat 64 (now - 1))) d n

/-- Cores enter the reserve of a die, up to the target of the last boundary: each while no other part runs on it and no running launch
that is no COMM launch began with it among its usable cores (15 R309). -/
def State.enterReserve (s : State) (d : Nat) : Nat → State
  | 0 => s
  | n + 1 =>
    let now := s.dregN (0x220018 + 32 * d)
    let c := 384 * d + 383 - now
    if Tbl.get 0 s.launch.rsvTarget d ≤ now ∨ now = 384 then s
    else if (s.core c).running.any (fun p => !p.comm)
        || s.launch.active.any (fun a => a.2.begun && !bit (a.2.field 34 1) 2 && a.2.usable.contains c) then s
    else State.enterReserve (s.setDreg (0x220018 + 32 * d) (BitVec.ofNat 64 (now + 1))) d n

/-- Ends the part of a launch on a core once no context of it runs (14 R272). -/
def State.endPart (s : State) (core : Nat) : State :=
  let x := s.core core
  match x.running with
  | none => s
  | some p =>
    if (List.range 11).any (fun k => (x.ctx k).busy) then s
    else
      let s := s.setCore core { x with part := some { p with ended := true } }
      let s := match Tbl.find s.launch.active p.queue with
        | none => s
        | some l => { s with launch := { s.launch with active := Tbl.put s.launch.active p.queue { l with
            died := l.died || p.died
            deadCores := if (x.ctx 0).life == Life.dead then core :: l.deadCores else l.deadCores } } }
      (s.disableNow p.domain).leaveReserve (core / 384) 384

/-! ### The end of a launch -/

/-- The bytes of a region that no padding range covers (19 R368). -/
def includedBytes (v len : Nat) (pads : List (Nat × Nat)) : List Byte :=
  ((List.range len).filter (fun i => pads.all (fun p => !decide (p.1 ≤ i ∧ i < p.1 + p.2)))).map (fun i => byteAt v i)

/-- The message of the digest, if every region can be read (19 R368). -/
def State.digestMsg (s : State) (q : Nat) (l : Launch) : Option (List Byte) :=
  l.regions.foldl (fun r (arg, len, pads) =>
    match r with
    | none => none
    | some m =>
      match s.luRead q (l.field (64 + 8 * arg) 8) len with
      | none => none
      | some v =>
        let inc := includedBytes v len pads
        some (m ++ toBytes 8 inc.length ++ inc)) (some [])

/-- The 64-byte digest of the regions. -/
def State.digest (s : State) (q : Nat) (l : Launch) : Option Nat := (s.digestMsg q l).map (fun m => ofBytes ((shake256 m).take 64))

/-- The queue number of the slot at count `n` of ready queue `k` = 4 cluster + priority, and its pennant address (14 R277). -/
def State.pnSlot (s : State) (k n : Nat) : Nat × Nat :=
  let base := bits (s.dregN (0x2C0000 + 8 * (k / 4))) 51 22 * 2 ^ 22
  let v := s.readPa (base + k % 4 * 2 ^ 20 + n % 65536 * 16) 16 0
  (bits v 75 64, bits v 51 0)

/-- A pennant of the launch of queue `q` is queued. -/
def State.pennantQueued (s : State) (q : Nat) : Bool :=
  s.launch.pennants.any (fun e => e.2.any (fun n => (s.pnSlot e.1 n).1 == q))

/-- No core that the launch may use can still receive one of its identifiers: each is dealt, or its cores are those whose control
contexts died (18 R347). -/
def Launch.allDealt (l : Launch) : Bool :=
  l.dealt.length == l.field 24 8 || (!l.deadCores.isEmpty && l.usable.all (fun c => !l.hasFor c))

/-- Nothing of the launch of queue `q` is left to deal or to run, and every posted write of it is acknowledged (14 R272, 15 R313). -/
def State.launchDone (s : State) (q : Nat) : Bool :=
  match Tbl.find s.launch.active q with
  | none => false
  | some l =>
    l.begun && l.allDealt && !s.pennantQueued q
      && s.cores.all (fun p => match p.2.running with
          | none => true
          | some x => x.queue != q)
      && s.launch.stopped.all (fun x => x.part.queue != q)
      && s.cores.all (fun p => (match p.2.part with
          | none => true
          | some x => x.queue != q) || p.2.ctxs.all (fun c => c.2.stores == []))
      && s.net.posts.all (fun x => x.2.2.1 != q)

/-- The dispatch trace is written with the launch's record (15 R310). -/
def State.writeTrace (s : State) (q : Nat) (l : Launch) : State × Bool :=
  if !bit (l.field 34 1) 0 then (s, false)
  else
    let hdr := l.trace.length + l.field 8 24 * 2 ^ 64 + l.field 32 1 * 2 ^ 256
    let body := layout ((indexed 0 l.trace).map (fun (i, (c, id)) => (64 + 16 * i, id.toNat + c * 2 ^ 64)))
    match s.engWrite (s.launchWho q) (BitVec.ofNat 64 (l.field 40 8)) (64 + 16 * l.trace.length) (hdr + body) .bulk with
    | (s, none) => (s, false)
    | (s, some _) => (s, true)

/-- The launch of a queue ends: trace, digest, then the completion record (15 R304, R310, R313, 19 R368). -/
def State.finishLaunch (s : State) (q : Nat) : State :=
  if !s.launchDone q then s
  else
    match Tbl.find s.launch.active q with
    | none => s
    | some l =>
      let (s, bad1) := s.writeTrace q l
      let compl := l.field 56 8
      let (s, bad2) :=
        if l.regions = [] then (s, false)
        else
          match s.digest q l with
          | none => (s, true)
          | some d =>
            match s.engWrite (s.launchWho q) (BitVec.ofNat 64 (compl + 16)) 64 d .bulk with
            | (s, none) => (s, false)
            | (s, some _) => (s, true)
      let status := if bad1 || bad2 || l.bad then 5 else if l.died then 6 else 0
      let drop (x : Core) : Core := match x.part with
        | some y => if y.queue = q then { x with part := none } else x
        | none => x
      let s := { s with cores := s.cores.map (fun (p : Nat × Core) => (p.1, drop p.2))
                        episodes := s.episodes.filter (fun e => e.launch != q) }
      s.endHead q compl status l.completedRuns l.addr false

/-! ### Quantum boundary (15 R305, R308, R309) -/

/-- The reserve of a die at a boundary: a new target, then the cores that the rules let enter or leave (15 R309). -/
def State.setReserve (s : State) (d : Nat) : State :=
  let s := { s with launch := { s.launch with rsvTarget := Tbl.set 0 s.launch.rsvTarget d (s.rsvWant d) } }
  (s.leaveReserve d 384).enterReserve d 384

/-- Queues in ascending order of their numbers. -/
def byNumber (l : List Nat) : List Nat := sortBy (fun q => q) l

/-- The slots at a boundary: queues with no work give theirs up, waiting queues take the free ones in order of waiting, then up to 32
more take those with the oldest grants, and the queues displaced wait from this boundary on (15 R305). -/
def State.slotStep (s : State) : State :=
  let l := s.launch
  let t := l.grants
  let old := l.slots.filter (fun x => s.qWork x.2.1)
  let free := (List.range 128).filter (fun n => old.all (fun x => x.1 != n))
  let given := (free.zip l.waiting).map (fun p => (p.1, p.2, t))
  let left := l.waiting.drop free.length
  let lose := (sortBy (fun x => x.2.2 * 2 ^ 7 + x.1) old).take (min 32 left.length)
  let swapped := (lose.zip left).map (fun p => (p.1.1, p.2, t))
  let kept := old.filter (fun x => lose.all (fun y => y.1 != x.1))
  { s with launch := { l with
      slots := kept ++ given ++ swapped, grants := t + 1
      waiting := left.drop lose.length ++ byNumber (lose.map (fun x => x.2.1)) } }

/-- The image of a core's stores that pre-emption saves: local store, accumulator, spill map and match table (15 R308). -/
def State.saveImage (s : State) (core : Nat) : Nat :=
  let x := s.core core
  Mem.read s.mem (lsKey core 0) 0x100000
    + 2 ^ (8 * 0x100000) * (layout (x.acc.map (fun p => (4 * p.1, p.2.toNat)))
    + 2 ^ (8 * 0x20000) * (layout (x.spmap.map (fun p => (8 * p.1, p.2.toNat)))
    + 2 ^ (8 * 256) * layout (x.matchTab.map (fun p => (8 * p.1, p.2.toNat)))))

/-- The save area of the launch of a queue. -/
def State.saveArea (s : State) (q : Nat) : Nat := ((Tbl.find s.launch.active q).map (fun l => l.field 48 8)).getD 0

/-- A save-area access of the launch of a queue faulted (15 R304). -/
def State.markBad (s : State) (q : Nat) (bad : Bool) : State :=
  match Tbl.find s.launch.active q with
  | some l => { s with launch := { s.launch with active := Tbl.put s.launch.active q { l with bad := l.bad || bad } } }
  | none => s

/-- A core whose part may be taken for launch queue `q` at its priority (15 R308). -/
def State.victim (s : State) (q core : Nat) : Bool :=
  match (s.core core).running with
  | none => false
  | some p =>
    (!s.launch.mapped p.queue || decide (s.qPrio q < p.prio)) && s.saveArea p.queue != 0
      && s.launch.taking.all (fun t => t.1 != core) && s.admin.halting != some p.domain
      && (match (s.core core).ring with
          | none => true
          | some r => match Tbl.find s.rings r with
            | none => true
            | some g => !g.running)

/-- Pre-emption of the part on a core for the launch of queue `q` begins: its live contexts stop with their frames (15 R308, 18 R351). -/
def State.preempt (s : State) (q core : Nat) : State :=
  let s := ((s.core core).ctxs.filter (fun c => c.2.life == .live)).foldl (fun s c => s.stopCtx core c.1 .preempt 0 0) s
  { s with launch := { s.launch with taking := s.launch.taking ++ [(core, q)] } }

/-- The commands that a core has admitted to engines are complete, and its stores have been acknowledged (15 R308, R313). -/
def State.settled (s : State) (core : Nat) : Bool :=
  let x := s.core core
  x.mq.isEmpty && x.copyq.isEmpty && x.copyRun.isEmpty && x.ctxs.all (fun c => c.2.stores == [])
    && s.auction.all (fun a => a.2.queue.all (fun c => c.core != core || !c.running))

/-- What a pre-empted context leaves on its core: its registers, and nothing in progress. -/
def Ctx.vacant (c : Ctx) : Ctx :=
  { c with life := .idle, held := [], results := [], late := [], saved := [], stream := none, pennant := none, started := false, follow := none
           stepping := false }

/-- The event queue of a core and the records on their way to it (05 R91, R92). -/
def State.evState (s : State) (core : Nat) : EvState :=
  let x := s.core core
  ⟨x.evq, x.evovfb, x.evdom, x.evhead, x.evtail, Tbl.get 0 x.creg 0x062, Tbl.get 0 x.creg 0x063,
    (s.net.recs.filter (fun r => r.1 == core)).map (·.2)⟩

/-- Gives a core an event queue, with the records on their way to it. -/
def State.setEvState (s : State) (core : Nat) (e : EvState) : State :=
  let x := s.core core
  let s := s.setCore core { x with
    evq := e.evq, evovfb := e.evovfb, evdom := e.evdom, evhead := e.evhead, evtail := e.evtail
    creg := Tbl.set 0 (Tbl.set 0 x.creg 0x062 e.stat) 0x063 e.lost }
  { s with net := { s.net with recs := s.net.recs.filter (fun r => r.1 != core) ++ e.coming.map (fun r => (core, r)) } }

/-- A word of the core's local store, by the key of its full-empty bit. -/
def lsWord (core n : Nat) : Bool := decide (lsKey core 0 / 8 ≤ n ∧ n < lsKey core 0x100000 / 8)

/-- The empty words of a core's local store (05 R87). -/
def State.emptyWords (s : State) (core : Nat) : Tbl Bool := s.fe.filter (fun p => lsWord core p.1)

/-- Gives the words of a core's local store the full-empty bits that the list of the empty ones says. -/
def State.setEmpty (s : State) (core : Nat) (empty : Tbl Bool) : State :=
  { s with fe := empty.foldl (fun t p => Tbl.set false t p.1 p.2) (s.fe.filter (fun p => !lsWord core p.1)) }

/-- The frames that a pre-empted part has parked go with it once the save area holds them: each moves out to its image as in a collision
(06 R108; DEDUCED, log entry 52). -/
def State.evictAll (s : State) (core : Nat) : State := (List.range 32).foldl (fun s n => s.evict core n) s

/-- Pre-emption of a core is complete: once what was admitted is done, its stores are written to the save area, the part waits with its
contexts and with what the save area does not hold, following no leader any more (DESIGN CHOICE, log entry 72), and the launch that takes
the core is dealt to it (15 R308); with a core that shares its physical core, it waits for that partner (19 R360). -/
def State.takeEnd (s : State) (core : Nat) : State :=
  match s.launch.taking.find? (fun t => t.1 == core) with
  | none => s
  | some (_, q) =>
    let off (s : State) : State := { s with launch := { s.launch with taking := s.launch.taking.filter (fun t => t.1 != core) } }
    match (s.core core).running with
    | none => off s
    | some p =>
      if !s.settled core || !s.partnersReady [core] then s
      else
        let (s, bad) := match s.engWrite (s.launchWho p.queue) (BitVec.ofNat 64 (s.saveArea p.queue + 1183744 * core)) 1183744
            (s.saveImage core) .bulk with
          | (s, none) => (s, false)
          | (s, some _) => (s, true)
        let s := (off (s.markBad p.queue bad)).evictAll core
        let x := s.core core
        let ctxs := x.ctxs.map (fun (c : Nat × Ctx) => (c.1, { c.2 with follow := none }))
        let s := { s with launch := { s.launch with
          stopped := s.launch.stopped ++ [Stopped.mk core p ctxs x.marks (s.emptyWords core) (s.evState core)] } }
        let s := s.setCore core { x with part := none, ctxs := x.ctxs.map (fun (c : Nat × Ctx) => (c.1, c.2.vacant)) }
        let s := (s.setEvState core ⟨[], 0, 0, 0, 0, 0, 0, []⟩).leaveReserve (core / 384) 384
        if s.replayLost q then s.endReplay q else s.startPart q core

/-- The core's stores as a save area holds them; the marks are those saved and those set since (06 R108). -/
def Core.restoreStores (x : Core) (v : Nat) (marks : Tbl Bool) : Core :=
  { x with
    acc := (List.range 32768).foldl (fun t i => Tbl.set 0 t i (BitVec.ofNat 32 (slice v (0x100000 + 4 * i) 4))) []
    spmap := (List.range 32).foldl (fun t i => Tbl.set 0 t i (BitVec.ofNat 64 (slice v (0x120000 + 8 * i) 8))) []
    matchTab := (List.range 256).foldl (fun t i => Tbl.set 0 t i (BitVec.ofNat 64 (slice v (0x120100 + 8 * i) 8))) []
    marks := marks.foldl (fun t p => Tbl.set false t p.1 p.2) x.marks }

/-- A pre-empted context as it returns to its core; its entries are counted on from those made there since. -/
def Ctx.returning (c now : Ctx) : Ctx := { c with flow := { c.flow with seq := max c.flow.seq now.flow.seq } }

/-- A pre-empted part resumes on its core once its queue is mapped and the core is free (15 R308). -/
def State.preemptResume (s : State) (core : Nat) : State :=
  match s.launch.stopped.find? (fun x => x.core == core && s.launch.mapped x.part.queue) with
  | none => s
  | some st =>
    let p := st.part
    if !s.coreFree core || s.admin.halting == some p.domain then s
    else
      let s := { s with launch := { s.launch with
        stopped := s.launch.stopped.filter (fun x => !(x.core == core && x.part.queue == p.queue)) } }
      let s := s.passDomain core p.domain
      let x := s.core core
      let s := s.setCore core { x with part := some p, ctxs := st.ctxs.map (fun c => (c.1, c.2.returning (x.ctx c.1))) }
      let s := match s.engRead (s.launchWho p.queue) (BitVec.ofNat 64 (s.saveArea p.queue + 1183744 * core)) 1183744 .bulk with
        | .error _ => s.markBad p.queue true
        | .ok (v, s) =>
          let s := { s with mem := Mem.write s.mem (lsKey core 0) 0x100000 (slice v 0 0x100000) }
          s.setCore core ((s.core core).restoreStores v st.marks)
      let s := s.setEmpty core st.empty
      let s := s.setEvState core st.ev
      (List.range 11).foldl (fun s k => s.resumeCtx core k) s

/-- Of cores in order, those that the launch can fill with identifiers (15 R308). -/
def Launch.fills (l : Launch) : List Nat → List Nat
  | [] => []
  | c :: r =>
    if bit (l.field 34 1) 1 then if l.hasFor c then c :: l.fills r else l.fills r
    else
      match (if l.deadCores.contains c then none else l.nextFor c) with
      | none => l.fills r
      | some o => c :: (l.deal c o).fills r

/-- Takes cores for a mapped launch that no free core serves (15 R308): at most as many as it can fill with identifiers. -/
def State.takeCores (s : State) (q : Nat) : State :=
  match Tbl.find s.launch.active q with
  | none => s
  | some l =>
    let l := s.fixUsable l
    let due := (s.launch.taking.filter (fun t => t.2 == q)).map (·.1)
    if !s.launch.mapped q || l.usable.any (fun c => (s.core c).running.isNone && s.canDeal q c && s.mayStart q c) then s
    else
      let vs := l.usable.filter (fun c => s.victim q c && s.canDeal q c && s.mayStart q c)
      let rank (c : Nat) : Nat × Nat := match (s.core c).running with
        | none => (0, 0)
        | some p => (if s.launch.mapped p.queue then 1 else 0, 7 - p.prio)
      let vs := sortBy (fun c => (rank c).1 * 2 ^ 20 + (rank c).2 * 2 ^ 12 + (2047 - c)) vs
      ((l.fills (due ++ vs)).filter (fun c => !due.contains c)).foldl (fun s c => s.preempt q c) s

/-- The work of a quantum boundary. -/
def State.quantum (s : State) : State :=
  let s := s.slotStep
  let s := (s.launch.slots.map (fun x => x.2.1)).foldl (fun s q => s.takeCores q) s
  [0, 1, 2, 3].foldl (fun s d => s.setReserve d) s

end Sys2Proof.Machine
end

