-- ==== Sys2Proof/Machine/SlhDsa.lean ====
section
/-! DEFINITION. SLH-DSA-SHAKE-256s, with which firmware images are verified and the identity key signs (20 R374, R375). The manual names
the scheme and FIPS 205, and does not restate it; it is taken from there (PRESUMED, log entry 73). -/

namespace Sys2Proof.Machine

/-- Parameters of a set: bytes of a hash value, layers, height of one tree, height and number of the FORS trees. -/
structure SlhParams where
  n : Nat
  d : Nat
  hp : Nat
  a : Nat
  k : Nat
  deriving DecidableEq, Repr

/-- SLH-DSA-SHAKE-256s. -/
def slh256s : SlhParams := ⟨32, 8, 8, 14, 22⟩

/-- An address: layer, tree, type, key pair, and the two last words. -/
structure SlhAdrs where
  layer : Nat
  tree : Nat
  type : Nat
  pair : Nat
  x : Nat
  y : Nat
  deriving DecidableEq, Repr

/-- `n` bytes of a number, most significant first. -/
def beBytes (n v : Nat) : List Byte := (toBytes n v).reverse

/-- A number from bytes, most significant first. -/
def ofBe (l : List Byte) : Nat := ofBytes l.reverse

/-- The 32 bytes of an address. -/
def SlhAdrs.bytes (a : SlhAdrs) : List Byte :=
  beBytes 4 a.layer ++ beBytes 12 a.tree ++ beBytes 4 a.type ++ beBytes 4 a.pair ++ beBytes 4 a.x ++ beBytes 4 a.y

/-- A public key: its seed and root. -/
structure SlhPub where
  seed : List Byte
  root : List Byte
  deriving DecidableEq, Repr

/-- A private key. -/
structure SlhKey where
  sk : List Byte
  prf : List Byte
  pub : SlhPub
  deriving DecidableEq, Repr

/-- The tweakable hash of a message of `n` byte blocks. -/
def SlhParams.hash (p : SlhParams) (seed : List Byte) (a : SlhAdrs) (m : List Byte) : List Byte :=
  (shake256 (seed ++ a.bytes ++ m)).take p.n

/-- Block `i` of `n` bytes. -/
def SlhParams.block (p : SlhParams) (l : List Byte) (i : Nat) : List Byte := (l.drop (p.n * i)).take p.n

/-- The first `count` digits of `b` bits of a string. -/
def baseDigits (l : List Byte) (b count : Nat) : List Nat :=
  let v := ofBe l
  (List.range count).map (fun i => v / 2 ^ (8 * l.length - b * (i + 1)) % 2 ^ b)

/-- The 2 n + 3 digits of a WOTS+ message with their checksum. -/
def SlhParams.digits (p : SlhParams) (m : List Byte) : List Nat :=
  let ds := baseDigits m 4 (2 * p.n)
  let sum := (ds.map (15 - ·)).foldl (· + ·) 0
  ds ++ baseDigits (beBytes 2 (sum * 16)) 4 3

/-- The chain function from step `i` on, `s` steps. -/
def SlhParams.chain (p : SlhParams) (seed : List Byte) (a : SlhAdrs) : List Byte → Nat → Nat → List Byte
  | x, _, 0 => x
  | x, i, s + 1 => p.chain seed a (p.hash seed { a with y := i } x) (i + 1) s

/-- A WOTS+ public key from a signature. -/
def SlhParams.wotsPk (p : SlhParams) (seed : List Byte) (a : SlhAdrs) (sig m : List Byte) : List Byte :=
  let ends := ((List.range (2 * p.n + 3)).zip (p.digits m)).flatMap (fun (i, v) =>
    p.chain seed { a with type := 0, x := i } (p.block sig i) v (15 - v))
  p.hash seed { a with type := 1, x := 0, y := 0 } ends

/-- The root over a path: node `i` at height `j` with the siblings that are left; `t` is the type of the addresses. -/
def SlhParams.climb (p : SlhParams) (seed : List Byte) (a : SlhAdrs) : List (List Byte) → Nat → Nat → List Byte → List Byte
  | [], _, _, node => node
  | s :: r, j, i, node =>
    let up := p.hash seed { a with x := j + 1, y := i / 2 } (if i % 2 = 0 then node ++ s else s ++ node)
    p.climb seed a r (j + 1) (i / 2) up

/-- Bytes of an XMSS signature. -/
def SlhParams.xmssLen (p : SlhParams) : Nat := (2 * p.n + 3 + p.hp) * p.n

/-- The root of an XMSS tree from a signature. -/
def SlhParams.xmssPk (p : SlhParams) (seed : List Byte) (a : SlhAdrs) (idx : Nat) (sig m : List Byte) : List Byte :=
  let node := p.wotsPk seed { a with pair := idx } sig m
  p.climb seed { a with type := 2, pair := 0 } ((List.range p.hp).map (fun j => p.block sig (2 * p.n + 3 + j))) 0 idx node

/-- The root of the hypertree from a signature: the layers from `j` on. -/
def SlhParams.htPk (p : SlhParams) (seed sig : List Byte) : Nat → Nat → Nat → Nat → List Byte → List Byte
  | 0, _, _, _, node => node
  | l + 1, j, tree, leaf, node =>
    let up := p.xmssPk seed ⟨j, tree, 0, 0, 0, 0⟩ leaf ((sig.drop (j * p.xmssLen)).take p.xmssLen) node
    p.htPk seed sig l (j + 1) (tree / 2 ^ p.hp) (tree % 2 ^ p.hp) up

/-- A FORS public key from a signature. -/
def SlhParams.forsPk (p : SlhParams) (seed : List Byte) (a : SlhAdrs) (sig md : List Byte) : List Byte :=
  let roots := ((List.range p.k).zip (baseDigits md p.a p.k)).flatMap (fun (i, v) =>
    let at_ (j : Nat) : List Byte := p.block sig (i * (p.a + 1) + j)
    let leaf := i * 2 ^ p.a + v
    let node := p.hash seed { a with type := 3, x := 0, y := leaf } (at_ 0)
    p.climb seed { a with type := 3 } ((List.range p.a).map (fun j => at_ (j + 1))) 0 leaf node)
  p.hash seed { a with type := 4, x := 0, y := 0 } roots

/-- Bytes of the message digest for the FORS trees, for the tree and for the leaf. -/
def SlhParams.mdLen (p : SlhParams) : Nat := (p.k * p.a + 7) / 8
def SlhParams.treeLen (p : SlhParams) : Nat := (p.hp * (p.d - 1) + 7) / 8
def SlhParams.leafLen (p : SlhParams) : Nat := (p.hp + 7) / 8

/-- The part of a digest for the FORS trees, and the tree and leaf that it names. -/
def SlhParams.split (p : SlhParams) (digest : List Byte) : List Byte × Nat × Nat :=
  (digest.take p.mdLen, ofBe ((digest.drop p.mdLen).take p.treeLen) % 2 ^ (p.hp * (p.d - 1)),
    ofBe ((digest.drop (p.mdLen + p.treeLen)).take p.leafLen) % 2 ^ p.hp)

/-- Bytes of a signature. -/
def SlhParams.sigLen (p : SlhParams) : Nat := (1 + p.k * (1 + p.a)) * p.n + p.d * p.xmssLen

/-- The message as signed, with an empty context string. -/
def slhMessage (m : List Byte) : List Byte := [0#8, 0#8] ++ m

/-- A signature verifies (FIPS 205, slh_verify). -/
def SlhParams.verify (p : SlhParams) (pk : SlhPub) (m sig : List Byte) : Bool :=
  let r := sig.take p.n
  let (md, tree, leaf) := p.split (shake256 (r ++ pk.seed ++ pk.root ++ slhMessage m))
  let fors := (sig.drop p.n).take (p.k * (1 + p.a) * p.n)
  let node := p.forsPk pk.seed ⟨0, tree, 3, leaf, 0, 0⟩ fors md
  decide (sig.length = p.sigLen) && p.htPk pk.seed (sig.drop ((1 + p.k * (1 + p.a)) * p.n)) p.d 0 tree leaf node == pk.root

/-! ### Signing -/

/-- A secret value at an address. -/
def SlhParams.prf (p : SlhParams) (k : SlhKey) (a : SlhAdrs) : List Byte := p.hash k.pub.seed a k.sk

/-- The secret value that begins chain `i` of a WOTS+ key. -/
def SlhParams.wotsSk (p : SlhParams) (k : SlhKey) (a : SlhAdrs) (i : Nat) : List Byte := p.prf k { a with type := 5, x := i, y := 0 }

/-- A WOTS+ signature. -/
def SlhParams.wotsSign (p : SlhParams) (k : SlhKey) (a : SlhAdrs) (m : List Byte) : List Byte :=
  ((List.range (2 * p.n + 3)).zip (p.digits m)).flatMap (fun (i, v) =>
    p.chain k.pub.seed { a with type := 0, x := i } (p.wotsSk k a i) 0 v)

/-- A WOTS+ public key. -/
def SlhParams.wotsGen (p : SlhParams) (k : SlhKey) (a : SlhAdrs) : List Byte :=
  p.hash k.pub.seed { a with type := 1, x := 0, y := 0 } ((List.range (2 * p.n + 3)).flatMap (fun i =>
    p.chain k.pub.seed { a with type := 0, x := i } (p.wotsSk k a i) 0 15))

/-- Node `i` at a height of an XMSS tree. -/
def SlhParams.xmssNode (p : SlhParams) (k : SlhKey) (a : SlhAdrs) : Nat → Nat → List Byte
  | 0, i => p.wotsGen k { a with pair := i }
  | z + 1, i => p.hash k.pub.seed { a with type := 2, pair := 0, x := z + 1, y := i } (p.xmssNode k a z (2 * i) ++ p.xmssNode k a z (2 * i + 1))

/-- The sibling of the node above leaf `i` at height `j`. -/
def sibling (i j : Nat) : Nat := if i / 2 ^ j % 2 = 0 then i / 2 ^ j + 1 else i / 2 ^ j - 1

/-- An XMSS signature. -/
def SlhParams.xmssSign (p : SlhParams) (k : SlhKey) (a : SlhAdrs) (idx : Nat) (m : List Byte) : List Byte :=
  p.wotsSign k { a with pair := idx } m ++ (List.range p.hp).flatMap (fun j => p.xmssNode k a j (sibling idx j))

/-- A hypertree signature: the layers from `j` on. -/
def SlhParams.htSign (p : SlhParams) (k : SlhKey) : Nat → Nat → Nat → Nat → List Byte → List Byte
  | 0, _, _, _, _ => []
  | l + 1, j, tree, leaf, m =>
    let a : SlhAdrs := ⟨j, tree, 0, 0, 0, 0⟩
    p.xmssSign k a leaf m ++ p.htSign k l (j + 1) (tree / 2 ^ p.hp) (tree % 2 ^ p.hp) (p.xmssNode k a p.hp 0)

/-- The secret value of a FORS leaf. -/
def SlhParams.forsSk (p : SlhParams) (k : SlhKey) (a : SlhAdrs) (i : Nat) : List Byte := p.prf k { a with type := 6, x := 0, y := i }

/-- Node `i` at a height of the FORS trees. -/
def SlhParams.forsNode (p : SlhParams) (k : SlhKey) (a : SlhAdrs) : Nat → Nat → List Byte
  | 0, i => p.hash k.pub.seed { a with type := 3, x := 0, y := i } (p.forsSk k a i)
  | z + 1, i => p.hash k.pub.seed { a with type := 3, x := z + 1, y := i } (p.forsNode k a z (2 * i) ++ p.forsNode k a z (2 * i + 1))

/-- A FORS signature. -/
def SlhParams.forsSign (p : SlhParams) (k : SlhKey) (a : SlhAdrs) (md : List Byte) : List Byte :=
  ((List.range p.k).zip (baseDigits md p.a p.k)).flatMap (fun (i, v) =>
    p.forsSk k a (i * 2 ^ p.a + v) ++ (List.range p.a).flatMap (fun j => p.forsNode k a j (i * 2 ^ (p.a - j) + sibling v j)))

/-- The signature of a message with the random bytes `rnd` (FIPS 205, slh_sign). -/
def SlhParams.sign (p : SlhParams) (k : SlhKey) (m rnd : List Byte) : List Byte :=
  let r := (shake256 (k.prf ++ rnd ++ slhMessage m)).take p.n
  let (md, tree, leaf) := p.split (shake256 (r ++ k.pub.seed ++ k.pub.root ++ slhMessage m))
  let a : SlhAdrs := ⟨0, tree, 3, leaf, 0, 0⟩
  let fors := p.forsSign k a md
  r ++ fors ++ p.htSign k p.d 0 tree leaf (p.forsPk k.pub.seed a fors md)

/-- The key pair that a seed of 3 n bytes gives (FIPS 205, slh_keygen). -/
def SlhParams.keyOf (p : SlhParams) (seed : List Byte) : SlhKey :=
  let k : SlhKey := ⟨p.block seed 0, p.block seed 1, p.block seed 2, []⟩
  { k with pub := { k.pub with root := p.xmssNode k ⟨p.d - 1, 0, 0, 0, 0, 0⟩ p.hp 0 } }

/-! ### Firmware and identity (20 R374, R375) -/

/-- The 32-byte digest of a message, as the scheme's hash values are. -/
def digest32 (m : List Byte) : List Byte := (shake256 m).take 32

/-- The firmware public key that comes with the images. -/
def firmwareKey : SlhPub := ⟨Config.firmwareKey.take 32, (Config.firmwareKey.drop 32).take 32⟩

/-- An image verifies: its signature is of its version and bytes, and its security version is not below the fused counter (20 R374). -/
def imageOk (i : Nat × List Byte × List Byte) : Bool :=
  slh256s.verify firmwareKey (beBytes 4 i.1 ++ i.2.1) i.2.2 && decide (Config.rollback ≤ i.1)

/-- Every firmware image verifies under the key whose digest the ROM holds (20 R374). -/
def firmwareOk : Bool := digest32 Config.firmwareKey == Config.romDigest && Config.firmware.all imageOk

/-- The identity key pair, from the fused seed (20 R375). -/
def identityKey : SlhKey := slh256s.keyOf (shakeBlock Config.fusedSeed)

/-- What the attestation block keeps: the digests of each verified image and of the fuse configuration (20 R375). -/
def measurements : List Byte := (Config.firmware.flatMap (fun i => digest32 i.2.1)) ++ digest32 Config.fuses

end Sys2Proof.Machine
end

