-- ==== Sys2Proof/Machine/Device.lean ====
section
/-! DEFINITION. Device registers: reads, writes and what writing them does (03 R57, R58, 04 R64, 14 R277, 15 R302, R309,
17 R326, R327, 18 R350, R354, R356, R357, 19 R367, 20 R372, R373, R376-R378). -/

namespace Sys2Proof.Machine

/-- Who accesses a device register. -/
inductive Agent where
  | ctx (priv : Bool)
  /-- Function of the host port; 0 is the physical function. -/
  | fn (n : Nat)
  deriving DecidableEq, Repr

/-- Privileged contexts and the host. -/
def Agent.trusted : Agent → Bool
  | .ctx p => p
  | .fn _ => true

/-- The physical function. -/
def Agent.pf : Agent → Bool
  | .ctx _ => false
  | .fn n => n == 0

/-- A virtual function. -/
def Agent.virtual : Agent → Bool
  | .ctx _ => false
  | .fn n => n != 0

/-- A function reaches the registers of a domain that it owns and that is enabled (20 R372); contexts are not limited so. -/
def State.reaches (s : State) (a : Agent) (d : Nat) : Bool :=
  match a with
  | .ctx _ => true
  | .fn n => d != 0 && bit (s.dregN (0x2A0000 + 8 * d)) 63 && s.dregN (0x2A0000 + 8 * d) % 2 ^ 7 == n

/-- The domain that a per-domain register belongs to. -/
def State.regDomain (s : State) (off : Nat) : Option Nat :=
  if 0x100000 ≤ off ∧ off < 0x100800 then some ((off - 0x100000) / 8)
  else if 0x200000 ≤ off ∧ off < 0x220000 then some (bits (s.dregN ((off - 0x200000) / 32 * 32 + 0x200008)) 15 8)
  else if 0x240000 ≤ off ∧ off < 0x241000 then some (bits (s.dregN ((off - 0x240000) / 64 * 64 + 0x240000)) 15 8)
  else if 0x260000 ≤ off ∧ off < 0x261000 then some ((off - 0x260000) / 16)
  else none

/-- The access reaches the register; a control register that sets its own domain is judged by the domain written and by the
one it leaves. -/
def State.admits (s : State) (a : Agent) (off : Nat) (new : Nat) (write : Bool) : Bool :=
  match s.regDomain off with
  | none => true
  | some d =>
    let ctl := (0x200000 ≤ off && off < 0x220000 && off % 32 == 8) || (0x240000 ≤ off && off < 0x241000 && off % 64 == 0)
    if write && ctl then s.reaches a (bits new 15 8) && (d == 0 || s.reaches a d) else s.reaches a d

/-- The bits of a plain register that hold what is written; 0 for every other register. -/
def rwMask (off : Nat) : Nat :=
  if 0x100000 ≤ off ∧ off < 0x100800 then 0xFFFFFFFFE0001
  else if off = 0x101000 then 2 ^ 64 - 1
  else if 0x200000 ≤ off ∧ off < 0x220000 then
    match off % 32 with
    | 0 => 0xFFFFFFFFFF000
    | 8 => 0x800000000000FF7F
    | 0x10 => 0xFFFFFFFF
    | _ => 0
  else if 0x220000 ≤ off ∧ off < 0x220080 then
    match off % 32 with
    | 0 => 0x1FF
    | 8 => 0x1FF
    | 0x10 => 0xFFFF
    | _ => 0
  else if 0x240000 ≤ off ∧ off < 0x241000 then
    match off % 64 with
    | 0 => 0x800000007F00FF00
    | 8 => 0xFFFFFFFFFFFC0
    | 0x10 => 0x1FFFF
    | 0x18 => 0xFFF0FFF
    | 0x20 => 0x3FF
    | 0x28 => 0xFFFF
    | _ => 0
  else if 0x260000 ≤ off ∧ off < 0x261000 then if off % 16 = 0 then 0xFFFFFFFFFF000 else 0xFFFFFFFFFFFFC
  else if off = 0x270000 then 0xFFFFFFFFFFFE0
  else if off = 0x270008 then 0x800000000000000F
  else if off = 0x270010 then 0xFFFFFFFF
  else if 0x270040 ≤ off ∧ off < 0x270060 then 0xFFFFFFFF
  else if off = 0x280010 then 0xFF03
  else if 0x290000 ≤ off ∧ off < 0x294000 then
    match off % 64 with
    | 0 => 2 ^ 64 - 1
    | 8 => 2 ^ 64 - 1
    | 0x10 => 2 ^ 64 - 1
    | 0x18 => 2 ^ 64 - 1
    | 0x20 => 0xFFFFFFFFFFFC0
    | 0x28 => 0xFFFFFFC0
    | 0x30 => 2 ^ 64 - 1
    | _ => 0
  else if off = 0x2A1000 then 0x3FFF
  else if off = 0x2A1008 then 0xFF
  else if 0x2A1010 ≤ off ∧ off < 0x2A1050 then 2 ^ 64 - 1
  else if off = 0x2B0008 then 0xFFFF
  else if off = 0x2B0010 then 0x3
  else if 0x2B0018 ≤ off ∧ off < 0x2B0038 then 0xFFFF
  else if 0x2C0000 ≤ off ∧ off < 0x2C0040 then 0x800FFFFFFFC00000
  else if off = 0x2D0000 then 0x800000000000FFFF
  else 0

/-- Bytes held on all dies during a halt, in KiB. -/
def Admin.heldKiB (a : Admin) : Nat := ((a.held.map Held.size).foldl (· + ·) 0 + 1023) / 1024

/-- A virtual function whose accesses an IDE_KM-secured session protects: the stream has a key, and its device interface runs (20 R370,
R373; PRESUMED, log entry 71). -/
def State.secured (s : State) (a : Agent) : Bool :=
  match a with
  | .ctx _ => false
  | .fn n => s.admin.ideKey != [] && (Tbl.get (0, []) s.admin.tdi n).1 == 2

/-- What a register reads as (00 R2): write-only registers read 0. -/
def State.devRead (s : State) (a : Agent) (off : Nat) : Nat :=
  let off := off / 8 * 8
  if !s.admits a off 0 false then 0
  else if off = 0x101008 ∨ off = 0x280000 ∨ off = 0x2A1050 then 0
  else if 0x2A1010 ≤ off ∧ off < 0x2A1050 then 0
  else if 0x290000 ≤ off ∧ off < 0x294000 ∧ off % 64 < 0x20 then 0
  else if 0x2A0000 ≤ off ∧ off < 0x2A1060 ∧ a.virtual ∧ !(0x2A1000 ≤ off && s.secured a) then 0
  else if off = 0x101010 then s.dregN off / 2 % 2 * 2 + b2n (s.admin.xlinv != [])
  else if off = 0x2A1058 then s.dregN off / 2 % 2 * 2 + b2n (s.admin.keyBusy != 0)
  else if off = 0x280008 then
    match s.admin.halting with
    | none => 0
    | some d => b2n s.admin.halted + 2 * b2n (!s.admin.halted) + 4 * b2n s.admin.stepping + d * 2 ^ 8
        + s.admin.heldKiB % 2 ^ 20 * 2 ^ 32
  else if 0x270020 ≤ off ∧ off < 0x270040 then (s.latch ((off - 0x270020) / 8)).length
  else s.dregN off

/-! ### Resets (20 R374, R376) -/

/-- DEVSTAT during a step of bring-up: its number, and READY and FWFAIL as given (20 R377). -/
def State.devstat (s : State) (step flags : Nat) : State := s.setDreg 0x2B0000 (BitVec.ofNat 64 (step + flags))

/-- BAR 0 exposes DEVSTAT only, and nothing else answers (20 R374). -/
def State.fwFailed (s : State) : Bool := bit (s.dregN 0x2B0000) 4

/-- Three retired pseudo-channels of one stack (03 R43). -/
def State.stackFailed (s : State) : Bool :=
  (List.range 12).any (fun st => decide (3 ≤ s.admin.retiredUnits.countP (fun u => match u with
    | .channel c => c / 32 == st
    | .core _ | .router _ | .port _ => false)))

/-- Step `n` of bring-up is entered (20 R376). -/
def State.enterStep (s : State) (n : Nat) : State := { s with admin := { s.admin with boot := n } }.devstat n 0

/-- Bring-up ends, with flags of DEVSTAT. -/
def State.endBoot (s : State) (step flags : Nat) : State := { s with admin := { s.admin with boot := 0 } }.devstat step flags

/-- The core self-test and the map of the logical cores: those behind a failed or retired physical core go to spares of their cluster, or
to partners (01 R7, 19 R360, 20 R376). Which cores fail is the part's own (DESIGN CHOICE, log entry 15). -/
def State.mapCores (s : State) : State :=
  let bad := (List.range 1632).filter (fun p => s.admin.deadPhys.contains p || Config.coreFails s.fresh p)
  let s := { s with fresh := s.fresh + 1, admin := { s.admin with deadPhys := bad, phys := [], shared := [] } }
  ((List.range 1536).filter (fun i => bad.contains (s.physOf i))).foldl State.remap s

/-- CXLSIZE is as the expanders present (03 R57, 20 R376). -/
def State.readCxl (s : State) : State :=
  [0, 1, 2, 3].foldl (fun s p => s.setDreg (0x101030 + 8 * p) (BitVec.ofNat 64 (Config.cxlBytes p % (2 ^ 41 + 1)))) s

/-- The work of the step that bring-up is in is done, and the next one is entered (20 R376): firmware that does not verify leaves FWFAIL,
a stack with three retired pseudo-channels ends a cold bring-up at step 2, and READY is set at the end; after a warm reset with such a
stack it stays clear (03 R43; DEDUCED, log entry 50). Stores and full-empty bits are clear from the reset on. -/
def State.bootStep (s : State) : State :=
  match s.admin.boot with
  | 1 => if firmwareOk then s.enterStep 2 else s.endBoot 1 16
  | 2 => if s.stackFailed then s.endBoot 2 0 else s.enterStep 3
  | 3 => s.mapCores.enterStep 4
  | 4 => s.readCxl.enterStep 5
  | 5 => s.endBoot 5 (if s.stackFailed then 0 else 8)
  | _ => s

/-- What no reset changes: the retired and failed units with the map of the cores, the link, and what the outside holds. -/
def Admin.kept (a : Admin) : Admin :=
  { Admin.reset with retiredUnits := a.retiredUnits, failedPorts := a.failedPorts, lastingUnits := a.lastingUnits, ideKey := a.ideKey,
                     cxlErr := a.cxlErr, phys := a.phys, deadPhys := a.deadPhys, sessions := a.sessions, tdi := a.tdi,
                     linkWidth := a.linkWidth }

/-- A cold reset begins: step 1 is entered (20 R376). The time base, the outside world and the retired units stay. -/
def State.coldReset (s : State) : State :=
  { State.reset with
    time := s.time, fresh := s.fresh, cur := s.cur, agenda := s.agenda
    launch := { LaunchUnit.reset with fmtTab := s.launch.fmtTab }, admin := s.admin.kept }.enterStep 1

/-- Bring-up has verified the firmware: it is past step 1, and neither failed there nor is still in its first two steps (20 R374,
R376). -/
def State.firmwareRan (s : State) : Bool :=
  decide (2 ≤ s.dregN 0x2B0000 % 8) && !s.fwFailed && s.admin.boot != 1 && s.admin.boot != 2

/-- A warm reset (20 R376): every launch stops, registers return to their reset values, memory and keys stay, and step 3 is entered. A
device whose firmware has not been verified takes none (20 R374; DESIGN CHOICE, log entry 15). -/
def State.warmReset (s : State) : State :=
  if !s.firmwareRan then s
  else
  { State.reset with
    time := s.time, fresh := s.fresh, cur := s.cur, agenda := s.agenda
    mem := s.mem.filter (fun c => decide (c.1 < lsKey 0 0)), lineKey := s.lineKey
    lost := s.lost.filter (fun p => decide (64 * p.1 < lsKey 0 0))
    launch := { LaunchUnit.reset with fmtTab := s.launch.fmtTab }, admin := { s.admin.kept with keys := s.admin.keys } }.enterStep 3

/-! ### Debug stepping (18 R357) -/

/-- STEP on a halted domain: the writes held so far land, and the contexts of its cores run on until they stop again. With `one` they
are those of core `core`, and the control contexts of the cores that follow it (19 R369, j). -/
def State.dbgStep (s : State) (d : Nat) (one : Bool) (core : Nat) (super : Bool) : State :=
  if s.admin.halted && s.admin.halting == some d then
    let s := s.landHeld
    let s := { s with admin := { s.admin with stepping := true, super := super } }
    (s.cores.filter (fun p => (!one || p.1 == core || s.followsIt p.2 core) && (match p.2.running with
      | some x => x.domain == d
      | none => false))).foldl (fun s p =>
        p.2.ctxs.foldl (fun s q =>
          if (s.ctx p.1 q.1).life ≠ .stopped ∨ (one ∧ p.1 ≠ core ∧ q.1 ≠ 0) then s
          else
            let s := s.resumeCtx p.1 q.1
            s.setCtx p.1 q.1 { s.ctx p.1 q.1 with stepping := true }) s) s
  else s

/-- Every stepping context of a core stops again with DEBUG code 1. -/
def State.stopSteps (s : State) (core : Nat) : State :=
  let s := (s.core core).ctxs.foldl (fun s q =>
    let c := s.ctx core q.1
    if !c.stepping then s
    else
      let s := s.setCtx core q.1 { c with stepping := false }
      if c.life = .live then s.stopCtx core q.1 .debug 1 0 else s) s
  if s.cores.any (fun p => p.2.ctxs.any (fun q => q.2.stepping)) then s
  else { s with admin := { s.admin with stepping := false, super := false } }

/-! ### Writes -/

/-- The counters of a communicator on every die become 0 (17 R327). -/
def State.clearCounters (s : State) (c : Nat) : State :=
  let r := s.dregN (0x240018 + 64 * c)
  let lo := r % 2 ^ 12
  let n := bits r 27 16
  { s with coll := { s.coll with ctr := s.coll.ctr.filter (fun p => !decide (lo ≤ p.1 % 4096 ∧ p.1 % 4096 < lo + n)) } }

/-- A write of the 64-bit register at `off`: `v` is its new value for a plain register, `acts` the written bits for one that
acts on the ones written, and `mask` the bits that the write reaches: no other has a write effect (00 R394). In a register whose
command bit takes fields with it, a field in the half that is not written counts as 0 (DESIGN CHOICE, log entry 49). A write of RNGCTL
without GO leaves ERR as it is, and a DIEFREQ outside 800 to 1,700 requests no clock (DESIGN CHOICE, log entry 74). The error is a PROT
code for a context. -/
def State.devPut (s : State) (a : Agent) (off : Nat) (v acts mask : Nat) : Except Nat State :=
  let plain (s : State) : State := s.setDreg off (BitVec.ofNat 64 (v &&& rwMask off))
  if 0x2A0000 ≤ off ∧ off < 0x2A0800 then
    .ok (if a.pf then s.domWrite ((off - 0x2A0000) / 8) (BitVec.ofNat 64 v) (bit mask 63) else s)
  else if 0x2A1000 ≤ off ∧ off < 0x2A1060 then
    .ok (if !(a.pf || s.secured a) then s else if off = 0x2A1050 then s.keyStart (acts % 4) else if off = 0x2A1058 then s else plain s)
  else if 0x2C0000 ≤ off ∧ off < 0x2C0040 then
    .ok (if a.pf && !s.clusterRuns ((off - 0x2C0000) / 8) then plain s else s)
  else if off = 0x2D0000 then .ok (if a.pf && !bit (s.dregN off) 63 then plain s else s)
  else if !a.trusted then .error 0x11
  else if !s.admits a off v true then .ok s
  else if off = 0x101008 then
    .ok (if bit acts 63 then s.invStart (bits acts 9 8) (acts % 2 ^ 8) (s.dreg! 0x101000) else s)
  else if off = 0x101010 then .ok (if bit acts 1 then s.setDreg off 0 else s)
  else if 0x200000 ≤ off ∧ off < 0x220000 then
    if off % 32 = 0x18 then .ok s else .ok ((plain s).qUpdate ((off - 0x200000) / 32))
  else if 0x240000 ≤ off ∧ off < 0x241000 then
    let c := (off - 0x240000) / 64
    if off % 64 = 0 then
      let s' := if bits v 15 8 ≠ bits (s.dregN off) 15 8 then s.clearCounters c else s
      .ok (s'.setDreg off (BitVec.ofNat 64 (v &&& rwMask off)))
    else if off % 64 = 0x30 then .ok (s.setDreg off (s.dreg! off &&& ~~~(BitVec.ofNat 64 acts)))
    else if off % 64 = 0x38 then .ok s
    else .ok (plain s)
  else if 0x270000 ≤ off ∧ off < 0x270060 then
    if off = 0x270008 ∨ off = 0x270010 then .ok (plain s).drainLatches
    else if rwMask off = 0 then .ok s
    else .ok (plain s)
  else if 0x280000 ≤ off ∧ off < 0x280018 then
    match a with
    | .ctx _ => .ok s
    | .fn _ =>
      if off = 0x280000 then
        let d := acts % 2 ^ 8
        match bit acts 63, bit acts 62, bit acts 61 with
        | true, false, false => .ok (s.haltDomain d 0 (1536, 0))
        | false, true, false => .ok (s.dbgResume d)
        | false, false, true => .ok (s.dbgStep d (bit acts 59) (bits acts 26 16) (bit acts 60))
        | _, _, _ => .ok s
      else if off = 0x280010 then .ok (plain s)
      else .ok s
  else if 0x290000 ≤ off ∧ off < 0x294000 then
    let n := (off - 0x290000) / 64
    if bit (s.dregN (rngReg n 0x38)) 63 then .ok s
    else if off % 64 = 0x38 then
      if bit v 63 then .ok ((s.setDreg off (BitVec.ofNat 64 (v &&& 0x800000000000FF00))).rngStart n)
      else .ok (s.setDreg off (BitVec.ofNat 64 ((v &&& 0xFF00) + (s.dregN off &&& 2 ^ 62))))
    else .ok (plain s)
  else if off = 0x2B0000 then .ok (if bit acts 63 then s.warmReset else s)
  else if off = 0x2B0008 then .ok (s.setDreg off (BitVec.ofNat 64 (max 1500 (min 4600 (v % 2 ^ 16)))))
  else if off = 0x2B0010 then
    .ok (let s := plain s
         if bit mask 0 then { s with admin := { s.admin with linkPending := v % 4 == 1 || v % 4 == 2 } } else s)
  else if 0x2B0018 ≤ off ∧ off < 0x2B0038 then
    let d := (off - 0x2B0018) / 8
    .ok (let s := plain s
         let rest := s.admin.diePending.erase d
         let hz := v % 2 ^ 16
         if bit mask 0 then
           { s with admin := { s.admin with diePending := if 800 ≤ hz ∧ hz ≤ 1700 then rest ++ [d] else rest } }
         else s)
  else if rwMask off = 0 then .ok s
  else .ok (plain s)

/-- A write of 4 or 8 bytes at an offset (03 R41). -/
def State.devWrite (s : State) (a : Agent) (off size v : Nat) : Except Nat State :=
  let base := off / 8 * 8
  if size = 8 then s.devPut a base (v % 2 ^ 64) (v % 2 ^ 64) (2 ^ 64 - 1)
  else
    let sh := 8 * (off % 8)
    let old := s.dregN base
    let half := v % 2 ^ 32 * 2 ^ sh
    s.devPut a base (old - old / 2 ^ sh % 2 ^ 32 * 2 ^ sh + half) half ((2 ^ 32 - 1) * 2 ^ sh)

/-- A read of 4 or 8 bytes at an offset. -/
def State.devLoad (s : State) (a : Agent) (off size : Nat) : Nat := s.devRead a off / 2 ^ (8 * (off % 8)) % 2 ^ (8 * size)

/-- A write by a function of the host port: what it may not write is ignored; in the state FWFAIL only DEVSTAT is exposed
(20 R374), and with the link down nothing arrives (20 R370). -/
def State.hostPut (s : State) (fn off size v : Nat) : State :=
  if (s.fwFailed && off / 8 != 0x2B0000 / 8) || s.admin.linkWidth == 0 then s
  else
  match s.devWrite (.fn fn) off size v with
  | .ok s => s
  | .error _ => s

end Sys2Proof.Machine
end

