-- ==== Sys2Proof/Machine/Access.lean ====
section
/-! DEFINITION. Accesses of the load, store and atomic instructions to every region (03 R41, 04 R65, 06 R103, R104). -/

namespace Sys2Proof.Machine

/-- On whose behalf an entry accesses memory: its privilege is that at issue (03 R52). -/
def Entry.who (e : Entry) : M Who := fun s => .ok (⟨s.cc.domain, e.priv, s.cur.1⟩, s)

/-- Translates and checks; a fault traps with the address (03 R59). -/
def accessM (w : Who) (va : W64) (n : Nat) (a : Acc) (c : ACls) : M Loc := fun s =>
  match s.access w va n a c with
  | .ok l => .ok (l, s)
  | .error (ca, code) => .error (.trap ca code va false)

/-- The store has bytes among the `n` at a key. -/
def Store.overlaps (x : Store) (k n : Nat) : Bool :=
  match x.key with
  | none => false
  | some q => decide (q < k + n) && decide (k < q + x.n)

/-- The `n` bytes at a key, of which the store has written its own. -/
def Store.over (x : Store) (k n v : Nat) : Nat :=
  let q := x.key.getD 0
  ofBytes ((List.range n).map (fun i => if q ≤ k + i ∧ k + i < q + x.n then byteAt x.v (k + i - q) else byteAt v i))

/-- The stores of a context that have not landed and have bytes among the `n` at a place, oldest first. -/
def Ctx.inWay (c : Ctx) (l : Loc) (n : Nat) : List Store :=
  match l.key? with
  | none => []
  | some k => c.stores.filter (fun x => !x.landed && x.overlaps k n)

/-- What the running context reads at a place of memory: its own stores that are still on their way count as made (16 R317, R320). -/
def State.view (s : State) (l : Loc) (n : Nat) : Nat :=
  (s.cx.inWay l n).foldl (fun v x => x.over ((l.key?).getD 0) n v) (s.peek l n)

/-- Reads a place for a load. -/
def State.loadLoc (s : State) (w : Who) (l : Loc) (n : Nat) : Nat × State :=
  match s.tgt l with
  | .mem l => (s.view l n, s)
  | .reg off => (s.devLoad (.ctx w.priv) off n, s)
  | .out =>
    let (v, s) := s.freeBytes ((n + 7) / 8)
    (v % 2 ^ (8 * n), s)

/-- Reads a place. -/
def loadAt (w : Who) (l : Loc) (n : Nat) : M Nat := fun s => .ok (s.loadLoc w l n)

/-- The physical address that the leaf gave for a place. -/
def Loc.pa : Loc → Nat
  | .hbm pa _ => pa
  | .cxl pa _ => pa
  | .ls c o => lsKey c o
  | .fab _ off => 0x8000000000000 + off
  | .host off => 0xC000000000000 + off
  | .reg off => 0xE000000000000 + off

/-- The store of `n` bytes to a place whose home is given, on its way. -/
def Loc.store (l h : Loc) (n v : Nat) : Store :=
  { key := h.key?, dev := (match l with
      | .fab dev _ => dev
      | .hbm _ _ | .cxl _ _ | .ls _ _ | .host _ | .reg _ => 0),
    pa := l.pa, mat := h.mat, n := n, v := v, posted := (match l with
      | .fab _ _ => true
      | .hbm _ _ | .cxl _ _ | .ls _ _ | .host _ | .reg _ => false), landed := false, birth := 0 }

/-- Adds a store behind those on their way. -/
def Ctx.send (c : Ctx) (x : Store) : Ctx := { c with stores := c.stores ++ [x] }

/-- The running context has a store on its way from now on. -/
def State.sent (s : State) (x : Store) : State := s.setCx (s.cx.send { x with birth := s.fresh })

/-- Posted stores of a context that are not acknowledged (04 R65). -/
def Ctx.unacked (c : Ctx) : Nat := c.stores.countP (·.posted)

/-- Writes a place for a store of the running context. A store to the fabric aperture is posted (04 R65); one to memory stands there at
once, unless the memory path is busy or an earlier store to its bytes is on its way, when it follows that (16 R317, R320); one to a
device register has the effect of its row, or PROT code 0x11. -/
def storeAt (w : Who) (va : W64) (l : Loc) (n v : Nat) : M Unit := fun s =>
  match l with
  | .fab _ _ =>
    if 256 ≤ s.cx.unacked then .error .wait else .ok ((), s.sent (l.store (s.home l) n v))
  | .reg off =>
    match s.devWrite (.ctx w.priv) off n v with
    | .ok s => .ok ((), s)
    | .error code => .error (.trap .prot code va false)
  | .hbm _ _ | .cxl _ _ | .ls _ _ =>
    if s.cc.mbusy || s.cx.inWay l n != [] then .ok ((), s.sent (l.store l n v)) else .ok ((), s.poke l n v)
  | .host _ => .ok ((), s)

/-- Active lanes of a mask, in ascending order. -/
def activeLanes (m : W64) : List Nat := (List.range 64).filter (fun i => m.getLsbD i)

/-- Lane addresses of a contiguous vector. -/
def rowLanes (base m : W64) : List (Nat × W64) := (activeLanes m).map (fun i => (i, base + BitVec.ofNat 64 (4 * i)))

/-- Lane addresses of a gather or scatter: sign-extended indices times 4. -/
def indexLanes (base m : W64) (idx : Nat) : List (Nat × W64) :=
  (activeLanes m).map (fun i => (i, base + w64OfInt (4 * signed 32 (lane idx i))))

/-- An accumulator region. -/
structure Region where
  row : Nat
  nrow : Nat
  col : Nat
  ncol : Nat
  deriving DecidableEq, Repr

/-- A region word, unless it is malformed (06 R106). -/
def region? (w : Nat) : Option Region :=
  let r := bits w 8 0
  let c := bits w 15 10
  if bits w 63 32 ≠ 0 ∨ bit w 25 ∨ bit w 9 ∨ 511 < r + bits w 24 16 ∨ 63 < c + bits w 31 26 then none
  else some ⟨r, bits w 24 16 + 1, c, bits w 31 26 + 1⟩

/-- The byte ranges of memory that an entry accesses by loads or stores, none across a page. -/
def Entry.spans (e : Entry) : List (W64 × Nat) :=
  let range (n : Nat) : List (W64 × Nat) := (pieces e.opa.toNat 2 0 n).map (fun p => (e.opa + BitVec.ofNat 64 p.1, p.2))
  let lanes (l : List (Nat × W64)) : List (W64 × Nat) := l.map (fun p => (p.2, 4))
  match e.instr with
  | .ld _ _ off sz .. | .ldn _ _ off sz .. | .st _ _ off sz .. => [(e.opa + e.immOf 8 off * BitVec.ofNat 64 (2 ^ (sz % 4)), 2 ^ (sz % 4))]
  | .ldv .. | .stv .. => lanes (rowLanes e.opa e.mask)
  | .gather .. => lanes (indexLanes e.opa e.mask e.va)
  | .scatter .. => lanes (indexLanes e.opa e.mask e.vb)
  | .ldx .. | .stx .. => range 4096
  | .ldxSc .. | .stxSc .. => range 4608
  | .ldo .. | .sto .. => [(e.opa, 8)]
  | .accld .. | .accst .. =>
    match region? e.opd.toNat with
    | none => []
    | some r => (List.range r.nrow).flatMap (fun i => (List.range r.ncol).map (fun j =>
        (e.opa + BitVec.ofNat 64 i * e.opb + BitVec.ofNat 64 (4 * j), 4)))
  | _ => []

/-- The entry accesses device registers. -/
def State.regAccess (s : State) (e : Entry) : Bool :=
  let w : Who := ⟨s.cc.domain, e.priv, s.cur.1⟩
  e.spans.any (fun p => match s.xlate w p.1 .read, s.xlate w p.1 .write with
    | .ok (.reg _), _ => true
    | _, .ok (.reg _) => true
    | _, _ => false)

/-- The entry stores to bytes among the `n` at an offset of another device's memory. -/
def State.fabStore (s : State) (e : Entry) (dev off n : Nat) : Bool :=
  writes e.instr && e.spans.any (fun p => match s.xlate ⟨s.cc.domain, e.priv, s.cur.1⟩ p.1 .write with
    | .ok (.fab d o) => d == dev && decide (o < off + n ∧ off < o + p.2)
    | _ => false)

/-- An access waits for the earlier ones of its context that its place keeps in program order: those to device registers (16 R322), and
for a store to the fabric aperture the stores to the same bytes there (04 R65). -/
def inOrder (e : Entry) (l : Loc) (n : Nat) (a : Acc) : M Unit := fun s =>
  let earlier (p : Entry → Bool) : Bool := s.cx.flow.inflight.any (fun x => decide (x.seq < e.seq) && !s.cx.effected x && p x)
  match l with
  | .reg _ => if earlier s.regAccess then .error .wait else .ok ((), s)
  | .fab dev off => if a = .write ∧ earlier (fun x => s.fabStore x dev off n) then .error .wait else .ok ((), s)
  | .hbm _ _ | .cxl _ _ | .ls _ _ | .host _ => .ok ((), s)

/-- The places of a range are in order. -/
def allInOrder (e : Entry) (a : Acc) (l : List (Nat × Nat × Loc)) : M Unit := l.forM (fun p => inOrder e p.2.2 p.2.1 a)

/-- The pieces of a range with their places, all checked before any byte moves. A piece of the device registers counts as
8-byte words. -/
def locsOf (e : Entry) (w : Who) (va : W64) (n : Nat) (a : Acc) : M (List (Nat × Nat × Loc)) := fun s =>
  match (pieces va.toNat (n / 65536 + 2) 0 n).foldl (fun (r : Except (Flt × W64) (List (Nat × Nat × Loc))) (off, k) =>
    match r with
    | .error e => .error e
    | .ok acc =>
      let p := va + BitVec.ofNat 64 off
      match s.xlate w p a with
      | .error f => .error (f, p)
      | .ok l =>
        match (if !l.accepts .ls 8 then some (.memfault, 0x21) else s.homeFault (s.home l) k a) with
        | some f => .error (f, p + BitVec.ofNat 64 (s.failOff l k f))
        | none => .ok (acc ++ [(off, k, l)])) (.ok []) with
  | .ok r => (allInOrder e a r s).map (fun p => (r, p.2))
  | .error ((ca, code), p) => .error (.trap ca code p false)

/-- Reads the pieces of a range. -/
def loadPieces (w : Who) : List (Nat × Nat × Loc) → M Nat
  | [] => pure 0
  | (off, k, l) :: r => do
    let v ← (match l with
      | .reg _ => (List.range (k / 8)).foldlM (fun acc i => do
          let x ← loadAt w (l.plus (8 * i)) 8
          pure (acc + x * 2 ^ (64 * i))) 0
      | .hbm _ _ | .cxl _ _ | .ls _ _ | .fab _ _ | .host _ => loadAt w l k)
    let rest ← loadPieces w r
    pure (v * 2 ^ (8 * off) + rest)

/-- The unit in which a store of a range to a place moves: 8-byte words of device registers and, where the memory path is busy, of
memory (06 R104), flits of 64 bytes over the fabric (04 R63), else the piece. -/
def Loc.unit (l : Loc) (busy : Bool) (k : Nat) : Nat :=
  match l with
  | .reg _ => 8
  | .fab _ _ => 64
  | .hbm _ _ | .cxl _ _ | .ls _ _ => if busy then 8 else k
  | .host _ => k

/-- Writes the pieces of a range. -/
def storePieces (w : Who) (va : W64) (v : Nat) : List (Nat × Nat × Loc) → M Unit
  | [] => pure ()
  | (off, k, l) :: r => do
    let x ← getCc
    let u := l.unit x.mbusy k
    (List.range (k / u)).forM (fun i =>
      storeAt w (va + BitVec.ofNat 64 (off + u * i)) (l.plus (u * i)) u (slice v (off + u * i) u))
    storePieces w va v r

/-- One access of a scalar load. -/
def loadM (e : Entry) (va : W64) (n : Nat) : M Nat := do
  let w ← e.who
  let l ← accessM w va n .read .ls
  inOrder e l n .read
  loadAt w l n

/-- One access of a scalar store. -/
def storeM (e : Entry) (va : W64) (n v : Nat) : M Unit := do
  let w ← e.who
  let l ← accessM w va n .write .ls
  inOrder e l n .write
  storeAt w va l n (v % 2 ^ (8 * n))

/-- Signals ALIGN before issue unless the address is a multiple of `n`. -/
def alignTo (va : W64) (n code : Nat) : M Unit := if va.toNat % n ≠ 0 then trapPre .align code va else pure ()

/-- Waits while a store of the context to the bytes is on its way: an access at the home finds it made (16 R317). -/
def ownFirst (l : Loc) (n : Nat) : M Unit := fun s =>
  match s.tgt l with
  | .mem l' => if s.cx.inWay l' n != [] then .error .wait else .ok ((), s)
  | .reg _ | .out => .ok ((), s)

/-- A read-modify-write at the home of the word: `f` gives the new value, or none to write nothing (06 R114), and `release` is what an
access that writes waits for (06 R117). -/
def rmwM (e : Entry) (va : W64) (n : Nat) (c : ACls) (release : M Unit) (f : Nat → Option Nat) : M Nat := do
  let w ← e.who
  let l ← accessM w va n .rmw c
  ownFirst l n
  let old ← loadAt w l n
  match f old with
  | none => pure old
  | some v =>
    release
    let s ← get
    match s.tgt l with
    | .mem l' => set (s.poke l' n (v % 2 ^ (8 * n)))
    | .reg _ | .out => pure ()
    pure old

end Sys2Proof.Machine
end

