-- ==== Sys2Proof/Machine/Memory.lean ====
section
/-! DEFINITION. Loads, stores, vector and tile transfers, gathers and scatters, full-empty accesses, atomics, ordered accesses,
fences and prefetches (05 R88, 06 R109-R118). -/

namespace Sys2Proof.Machine

/-! ### Scalar loads and stores (06 R109) -/

/-- Effective address and its checks: bits [63:52], then alignment. -/
def effAddr (e : Entry) (off n code : Nat) : M W64 := do
  let ea := e.opa + e.immOf 8 off * BitVec.ofNat 64 n
  if 2 ^ 52 ≤ ea.toNat then trapPost .xlate 0x01 ea
  else
    alignTo ea n code
    pure ea

/-- Bytes of a size field. -/
def szBytes (sz : Nat) : Nat := 2 ^ (sz % 4)

/-- A message that the running context has sent, with `fab` one to another device too, still waits in the send queue of its core: it is
ordered as a relaxed store (04 R75, 06 R118). -/
def State.sending (s : State) (fab : Bool) : Bool := s.cc.sendq.any (fun m => m.score == s.cur.1 && m.sctx == s.cur.2 && (fab || !m.fab))

/-- A system-scope release waits for every earlier store and its acknowledgement and for the context's messages, and reports the first
store that failed (03 R59, 04 R65, R75). -/
def sysRelease : M Unit := do
  let c ← getCx
  let s ← get
  if c.stores ≠ [] ∨ s.sending true then waitM
  else
    match c.postFail with
    | none => pure ()
    | some pa => trapPost .memfault 0x24 (BitVec.ofNat 64 pa)

/-- A release at a lesser scope than system has to wait (04 R75, 16 R318, R322). -/
def State.nearWaits (s : State) : Bool := s.cx.stores.any (fun x => !x.posted) || s.sending false

/-- A release at a lesser scope waits for the stores that are on their way in this package and not posted, and for the context's messages
(04 R75, 16 R318, R322). -/
def nearRelease : M Unit := do
  let s ← get
  if s.nearWaits then waitM else pure ()

/-- The release part of an access's order at its scope. -/
def releaseAt (ord scope : Nat) : M Unit :=
  if 2 ≤ ord then (if scope = 4 then sysRelease else nearRelease) else pure ()

/-- Sign extension of `n` bytes. -/
def sextB (n v : Nat) : W64 := w64OfInt (signed (8 * n) v)

/-! ### Vector and tile transfers (06 R111-R113) -/

/-- Tag code of an LDV class field, and of a GATHER class field. -/
def ldvTag (cls : Nat) : Nat :=
  match cls with
  | 0 => 1
  | 1 => 5
  | 2 => 2
  | _ => 0
/-- Tag code of a GATHER class field. -/
def gatherTag (cls : Nat) : Nat :=
  match cls with
  | 0 => 1
  | 1 => 5
  | _ => 0

/-- The trap of a refused tag (08 R161). -/
def format {α : Type} (want have_ reg : Nat) : M α := trapPre .format 0 (BitVec.ofNat 64 (want * 2 ^ 16 + have_ * 2 ^ 8 + reg))

/-- A masked write needs the destination to carry the tag that it writes (08 R160). -/
def maskedTag (m d want : Nat) (e : Entry) : M Unit := do
  let c ← getCx
  let t := e.ext.getD 2 (c.vtagOf d)
  if m ≠ 0 ∧ t ≠ want then format want t (32 + d) else pure ()

/-- The contents of the destination as they stand at issue. -/
def Entry.dst (e : Entry) (c : Ctx) (d : Nat) : Nat := e.ext.getD 3 (Tbl.get 0 c.vec.v d)

/-- Replaces lane `i`. -/
def setLane (v i x : Nat) : Nat := v - lane v i * 2 ^ (32 * i) + x % 2 ^ 32 * 2 ^ (32 * i)

/-- Checks the lanes in their order: each with its place. -/
def laneLocs (e : Entry) (w : Who) (a : Acc) (as : List (Nat × W64)) : M (List (Nat × W64 × Loc)) :=
  as.mapM (fun (i, va) => do
    let l ← accessM w va 4 a .ls
    inOrder e l 4 a
    pure (i, va, l))

/-- Reads lanes, each distinct address once. -/
def loadLanes (w : Who) : List (Nat × W64 × Loc) → List (W64 × Nat) → Nat → M Nat
  | [], _, v => pure v
  | (i, va, l) :: r, seen, v =>
    match seen.find? (fun p => p.1 == va) with
    | some p => loadLanes w r seen (setLane v i p.2)
    | none => do
      let x ← loadAt w l 4
      loadLanes w r ((va, x) :: seen) (setLane v i x)

/-- Writes lanes, each distinct address once with its highest lane. -/
def storeLanes (w : Who) (v : Nat) : List (Nat × W64 × Loc) → M Unit
  | [] => pure ()
  | (i, va, l) :: r => do
    (if r.any (fun p => p.2.1 == va) then pure () else storeAt w va l 4 (lane v i))
    storeLanes w v r

/-- The parts of a wide load, numbered below `n`, that are read now: those not read yet, or, while the memory path is busy, a free choice
among them (06 R104, 16 R316). -/
def partsNow (n taken : Nat) : M (List Nat) := fun s =>
  let left := (List.range n).filter (fun i => !bit taken i)
  if !s.cc.mbusy then .ok (left, s)
  else
    let (m, s) := s.freeBytes (n / 64 + 1)
    .ok (left.filter (fun i => bit m i), s)

/-- The parts taken with those of a list. -/
def taking (taken : Nat) (l : List Nat) : Nat := l.foldl (fun t i => t ||| 2 ^ i) taken

/-- A vector load over its lanes, part by part; `ext` keeps the contents of the destination at 3 and the lanes taken at 4. Lanes that name
one word are taken together (06 R111, R113). -/
def vectorLoad (e : Entry) (d tag : Nat) (lanes : List (Nat × W64)) : M Fin := do
  let w ← e.who
  let ls ← laneLocs e w .read lanes
  let c ← getCx
  let x ← getCc
  let taken := e.ext.getD 4 0
  if !x.mbusy && taken == 0 then
    let v ← loadLanes w ls [] (e.dst c d)
    vFin e d v tag
    return .done
  let now ← partsNow 64 taken
  let now := ls.filter (fun p => !bit taken p.1 && (now.contains p.1 || ls.any (fun q => q.2.1 == p.2.1 && now.contains q.1)))
  let v ← loadLanes w now [] (e.dst c d)
  let taken := taking taken (now.map (·.1))
  if ls.all (fun p => bit taken p.1) then
    vFin e d v tag
    pure .done
  else pure (.hold ([e.ext.getD 0 0, e.ext.getD 1 0, e.ext.getD 2 (c.vtagOf d), v, taken]))

/-- A tile load of `n` bytes over its 8-byte words, part by part; `ext` keeps the words taken at 2 and their contents at 3 (06 R112). -/
def tileLoad (e : Entry) (n : Nat) (fin : Nat → M Unit) : M Fin := do
  let w ← e.who
  let ls ← locsOf e w e.opa n .read
  let x ← getCc
  let taken := e.ext.getD 2 0
  let v ← loadPieces w ls
  if !x.mbusy && taken == 0 then
    fin v
    return .done
  let now ← partsNow (n / 8) taken
  let mask := ofLanes 64 ((List.range (n / 8)).map (fun i => if now.contains i then 2 ^ 64 - 1 else 0))
  let v := e.ext.getD 3 0 ||| (v &&& mask)
  let taken := taking taken now
  if taken = 2 ^ (n / 8) - 1 then
    fin v
    pure .done
  else pure (.hold [0, 0, taken, v])

/-- The neutral side area of a tag, 512 bytes (08 R157). -/
def neutral (t : Tag) : Nat := ofBytes ((List.range 512).map (fun i => neutralSide t i))

/-- The descriptor that XLFMT names for a tile (06 R112), with its number. -/
def Ctx.xlDesc (c : Ctx) (d : Nat) : Nat × Nat :=
  let n := bits c.spec.xlfmt.toNat (4 * d + 3) (4 * d)
  (n, (c.fOf n).toNat)

/-- Checks the descriptor of an LDX and gives the tag that it writes; `ext` keeps the descriptor of the issue (06 R112, 08
R159). -/
def ldxTag (e : Entry) (d : Nat) (scaled : Bool) : M Tag := do
  let c ← getCx
  let (n, f) := c.xlDesc d
  let _ := e
  if !descValid f || decide (5 < descKind f) then format 0xFF 0xFF (96 + n)
  else if scaled && descKind f != 0 then format 0x86 (descTag f false).code (96 + n)
  else pure (descTag f scaled)

/-! ### Atomics (06 R114, R115) -/

/-- AMO with its new value, its extension and its flags: `f` takes the old value and the operand of `n` bytes. -/
def amo (e : Entry) (d sz ord scope : Nat) (signedExt : Bool) (f : Nat → Nat → Nat → Nat × Flags) : M Unit := do
  let n := if sz = 0 then 4 else 8
  alignTo e.opa n 0x34
  let src := e.opd.toNat % 2 ^ (8 * n)
  let old ← rmwM e e.opa n .amo (releaseAt ord scope) (fun old => some (f n old src).1)
  raiseFlags (f n old src).2
  wFin e d (if signedExt then sextB n old else BitVec.ofNat 64 old)

/-- A plain integer update. -/
def noFlags (v : Nat) : Nat × Flags := (v, 0)

/-- The format of a floating atomic. -/
def amoFmt (n : Nat) : Fmt := if n = 4 then fF32 else fF64


/-- LD (06 R109). -/
def finLd (d : Nat) (off : Nat) (sz : Nat) : Eff := plain (fun e => do
  let ea ← effAddr e off (szBytes sz) 0x34
  let v ← loadM e ea (szBytes sz)
  wFin e d (sextB (szBytes sz) v))

/-- LD (06 R109). -/
def execLd (d : Nat) (a : Nat) (off : Nat) (sz : Nat) (home : Nat) (la : Nat) (s : State) : Host.Outcome State Fault Refusal :=
  issue (.ld d a off sz home la) (finLd d off sz) s

/-- LDN (06 R109). -/
def finLdn (d : Nat) (off : Nat) (sz : Nat) : Eff := plain (fun e => do
  let ea ← effAddr e off (szBytes sz) 0x34
  let v ← loadM e ea (szBytes sz)
  wFin e d (BitVec.ofNat 64 v))

/-- LDN (06 R109). -/
def execLdn (d : Nat) (a : Nat) (off : Nat) (sz : Nat) (home : Nat) (la : Nat) (s : State) : Host.Outcome State Fault Refusal :=
  issue (.ldn d a off sz home la) (finLdn d off sz) s

/-- ST (06 R109). -/
def finSt (off : Nat) (sz : Nat) : Eff := plain (fun e => do
  let ea ← effAddr e off (szBytes sz) 0x34
  storeM e ea (szBytes sz) e.opd.toNat)

/-- ST (06 R109). -/
def execSt (d : Nat) (a : Nat) (off : Nat) (sz : Nat) (home : Nat) (la : Nat) (s : State) : Host.Outcome State Fault Refusal :=
  issue (.st d a off sz home la) (finSt off sz) s

/-- LDV (06 R111): every lane is checked before any is written. -/
def finLdv (d : Nat) (m : Nat) (cls : Nat) : Eff := fun e => do
  alignTo e.opa 4 0x35
  maskedTag m d (ldvTag cls) e
  vectorLoad e d (ldvTag cls) (rowLanes e.opa e.mask)

/-- LDV (06 R111): every lane is checked before any is written. -/
def execLdv (d : Nat) (a : Nat) (m : Nat) (cls : Nat) (la : Nat) (s : State) : Host.Outcome State Fault Refusal :=
  issue (.ldv d a m cls la) (finLdv d m cls) s

/-- STV (06 R111). -/
def finStv : Eff := plain (fun e => do
  alignTo e.opa 4 0x35
  let w ← e.who
  let ls ← laneLocs e w .write (rowLanes e.opa e.mask)
  storeLanes w e.va ls)

/-- STV (06 R111). -/
def execStv (d : Nat) (a : Nat) (m : Nat) (la : Nat) (s : State) : Host.Outcome State Fault Refusal :=
  issue (.stv d a m la) finStv s

/-- LDX (06 R112). -/
def finLdx (d : Nat) : Eff := fun e => do
  alignTo e.opa 64 0x35
  let t ← ldxTag e d false
  tileLoad e 4096 (fun v => modCx (fun c => c.writeX d (slice v 0 4096) (neutral t) t))

/-- LDX (06 R112). -/
def execLdx (d : Nat) (a : Nat) (la : Nat) (s : State) : Host.Outcome State Fault Refusal :=
  issue (.ldx d a la) (finLdx d) s

/-- LDXSC (06 R112). -/
def finLdxSc (d : Nat) : Eff := fun e => do
  alignTo e.opa 64 0x35
  let t ← ldxTag e d true
  tileLoad e 4608 (fun v => modCx (fun c => c.writeX d (slice v 0 4096) (slice v 4096 512) t))

/-- LDXSC (06 R112). -/
def execLdxSc (d : Nat) (a : Nat) (la : Nat) (s : State) : Host.Outcome State Fault Refusal :=
  issue (.ldxSc d a la) (finLdxSc d) s

/-- STX (06 R112). -/
def finStx (d : Nat) : Eff := plain (fun e => do
  alignTo e.opa 64 0x35
  let w ← e.who
  let ls ← locsOf e w e.opa 4096 .write
  let c ← getCx
  storePieces w e.opa (e.ext.getD 2 (Tbl.get 0 c.vec.x d)) ls)

/-- STX (06 R112). -/
def execStx (d : Nat) (a : Nat) (la : Nat) (s : State) : Host.Outcome State Fault Refusal :=
  issue (.stx d a la) (finStx d) s

/-- STXSC (06 R112). -/
def finStxSc (d : Nat) : Eff := plain (fun e => do
  alignTo e.opa 64 0x35
  let w ← e.who
  let ls ← locsOf e w e.opa 4608 .write
  let c ← getCx
  storePieces w e.opa (e.ext.getD 2 (Tbl.get 0 c.vec.x d) + 2 ^ 32768 * e.ext.getD 3 (Tbl.get 0 c.vec.side d)) ls)

/-- STXSC (06 R112). -/
def execStxSc (d : Nat) (a : Nat) (la : Nat) (s : State) : Host.Outcome State Fault Refusal :=
  issue (.stxSc d a la) (finStxSc d) s

/-- GATHER (06 R113). -/
def finGather (d : Nat) (vi : Nat) (m : Nat) (cls : Nat) : Eff := fun e => do
  let c ← getCx
  let t := e.ext.getD 0 (c.vtagOf vi)
  if t ≠ 5 then format 5 t (32 + vi)
  else
    maskedTag m d (gatherTag cls) e
    alignTo e.opa 4 0x35
    vectorLoad e d (gatherTag cls) (indexLanes e.opa e.mask e.va)

/-- GATHER (06 R113). -/
def execGather (d : Nat) (a : Nat) (vi : Nat) (m : Nat) (cls : Nat) (la : Nat) (s : State) : Host.Outcome State Fault Refusal :=
  issue (.gather d a vi m cls la) (finGather d vi m cls) s

/-- SCATTER (06 R113): the highest lane of an address wins. -/
def finScatter (vi : Nat) : Eff := plain (fun e => do
  let c ← getCx
  let t := e.ext.getD 1 (c.vtagOf vi)
  if t ≠ 5 then format 5 t (32 + vi)
  else
    alignTo e.opa 4 0x35
    let w ← e.who
    let ls ← laneLocs e w .write (indexLanes e.opa e.mask e.vb)
    storeLanes w e.va ls)

/-- SCATTER (06 R113): the highest lane of an address wins. -/
def execScatter (d : Nat) (a : Nat) (vi : Nat) (m : Nat) (la : Nat) (s : State) : Host.Outcome State Fault Refusal :=
  issue (.scatter d a vi m la) (finScatter vi) s

/-! ### Full-empty accesses (05 R88) -/

/-- The word of a full-empty access. -/
def feLoc (e : Entry) (ord scope : Nat) : M Nat := do
  alignTo e.opa 8 0x33
  releaseAt ord scope
  let w ← e.who
  let l ← accessM w e.opa 8 .rmw .fe
  ownFirst l 8
  match l.key? with
  | some k => pure k
  | none => trapPost .memfault 0x21 e.opa

/-- LDS and LDS.E: the request is parked at its home until the word is full and every request parked before it has been
served (05 R88). -/
def ldsEff (d ord scope : Nat) (take : Bool) : Eff := fun e => do
  let k ← feLoc e ord scope
  let s ← get
  let me := (s.cur.1, s.cur.2, e.seq, k)
  let before := (s.net.parked.takeWhile (fun p => p != me)).any (fun p => p.2.2.2 == k)
  if s.isEmpty k || before then
    if s.net.parked.contains me then waitM
    else
      set { s with net := { s.net with parked := s.net.parked ++ [me] } }
      pure .stay
  else
    let w ← e.who
    let l ← accessM w e.opa 8 .rmw .fe
    let v ← loadAt w l 8
    modify (fun s => { s with net := { s.net with parked := s.net.parked.erase me } })
    (if take then modify (fun s => s.setFe k true) else pure ())
    wFin e d (BitVec.ofNat 64 v)
    pure .done

/-- LDS (05 R88). -/
def finLds (d : Nat) (ord : Nat) (scope : Nat) : Eff := fun e => ldsEff d ord scope false e

/-- LDS (05 R88). -/
def execLds (d : Nat) (a : Nat) (ord : Nat) (scope : Nat) (la : Nat) (s : State) : Host.Outcome State Fault Refusal :=
  issue (.lds d a ord scope la) (finLds d ord scope) s

/-- LDS.E (05 R88). -/
def finLdsE (d : Nat) (ord : Nat) (scope : Nat) : Eff := fun e => ldsEff d ord scope true e

/-- LDS.E (05 R88). -/
def execLdsE (d : Nat) (a : Nat) (ord : Nat) (scope : Nat) (la : Nat) (s : State) : Host.Outcome State Fault Refusal :=
  issue (.ldsE d a ord scope la) (finLdsE d ord scope) s

/-- STF: the word is full with its new value, and the requests parked there are served (05 R88). -/
def finStf (ord : Nat) (scope : Nat) : Eff := plain (fun e => do
  let k ← feLoc e ord scope
  let w ← e.who
  let l ← accessM w e.opa 8 .rmw .fe
  modify (fun s => ((s.poke l 8 e.opd.toNat).setFe k false).serveWord k s.net.parked.length))

/-- STF (05 R88). -/
def execStf (d : Nat) (a : Nat) (ord : Nat) (scope : Nat) (la : Nat) (s : State) : Host.Outcome State Fault Refusal :=
  issue (.stf d a ord scope la) (finStf ord scope) s

/-- SETE (05 R88). -/
def finSete (ord : Nat) (scope : Nat) : Eff := plain (fun e => do
  let k ← feLoc e ord scope
  modify (fun s => s.setFe k true))

/-- SETE (05 R88). -/
def execSete (a : Nat) (ord : Nat) (scope : Nat) (la : Nat) (s : State) : Host.Outcome State Fault Refusal :=
  issue (.sete a ord scope la) (finSete ord scope) s

/-- AMO.SWAP (06 R114, R115). -/
def finAmoSwap (d : Nat) (sz : Nat) (ord : Nat) (scope : Nat) : Eff := plain (fun e => amo e d sz ord scope true (fun _ _ x => noFlags x))

/-- AMO.SWAP (06 R114, R115). -/
def execAmoSwap (d : Nat) (a : Nat) (sz : Nat) (ord : Nat) (scope : Nat) (la : Nat) (s : State) : Host.Outcome State Fault Refusal :=
  issue (.amoSwap d a sz ord scope la) (finAmoSwap d sz ord scope) s

/-- AMO.ADD (06 R114, R115). -/
def finAmoAdd (d : Nat) (sz : Nat) (ord : Nat) (scope : Nat) : Eff := plain (fun e => amo e d sz ord scope true (fun n old x => noFlags ((old + x) % 2 ^ (8 * n))))

/-- AMO.ADD (06 R114, R115). -/
def execAmoAdd (d : Nat) (a : Nat) (sz : Nat) (ord : Nat) (scope : Nat) (la : Nat) (s : State) : Host.Outcome State Fault Refusal :=
  issue (.amoAdd d a sz ord scope la) (finAmoAdd d sz ord scope) s

/-- AMO.AND (06 R114, R115). -/
def finAmoAnd (d : Nat) (sz : Nat) (ord : Nat) (scope : Nat) : Eff := plain (fun e => amo e d sz ord scope true (fun _ old x => noFlags (old &&& x)))

/-- AMO.AND (06 R114, R115). -/
def execAmoAnd (d : Nat) (a : Nat) (sz : Nat) (ord : Nat) (scope : Nat) (la : Nat) (s : State) : Host.Outcome State Fault Refusal :=
  issue (.amoAnd d a sz ord scope la) (finAmoAnd d sz ord scope) s

/-- AMO.OR (06 R114, R115). -/
def finAmoOr (d : Nat) (sz : Nat) (ord : Nat) (scope : Nat) : Eff := plain (fun e => amo e d sz ord scope true (fun _ old x => noFlags (old ||| x)))

/-- AMO.OR (06 R114, R115). -/
def execAmoOr (d : Nat) (a : Nat) (sz : Nat) (ord : Nat) (scope : Nat) (la : Nat) (s : State) : Host.Outcome State Fault Refusal :=
  issue (.amoOr d a sz ord scope la) (finAmoOr d sz ord scope) s

/-- AMO.XOR (06 R114, R115). -/
def finAmoXor (d : Nat) (sz : Nat) (ord : Nat) (scope : Nat) : Eff := plain (fun e => amo e d sz ord scope true (fun _ old x => noFlags (old ^^^ x)))

/-- AMO.XOR (06 R114, R115). -/
def execAmoXor (d : Nat) (a : Nat) (sz : Nat) (ord : Nat) (scope : Nat) (la : Nat) (s : State) : Host.Outcome State Fault Refusal :=
  issue (.amoXor d a sz ord scope la) (finAmoXor d sz ord scope) s

/-- AMO.MIN (06 R114, R115). -/
def finAmoMin (d : Nat) (sz : Nat) (ord : Nat) (scope : Nat) : Eff := plain (fun e => amo e d sz ord scope true (fun n old x => noFlags (if signed (8 * n) x < signed (8 * n) old then x else old)))

/-- AMO.MIN (06 R114, R115). -/
def execAmoMin (d : Nat) (a : Nat) (sz : Nat) (ord : Nat) (scope : Nat) (la : Nat) (s : State) : Host.Outcome State Fault Refusal :=
  issue (.amoMin d a sz ord scope la) (finAmoMin d sz ord scope) s

/-- AMO.MAX (06 R114, R115). -/
def finAmoMax (d : Nat) (sz : Nat) (ord : Nat) (scope : Nat) : Eff := plain (fun e => amo e d sz ord scope true (fun n old x => noFlags (if signed (8 * n) old < signed (8 * n) x then x else old)))

/-- AMO.MAX (06 R114, R115). -/
def execAmoMax (d : Nat) (a : Nat) (sz : Nat) (ord : Nat) (scope : Nat) (la : Nat) (s : State) : Host.Outcome State Fault Refusal :=
  issue (.amoMax d a sz ord scope la) (finAmoMax d sz ord scope) s

/-- AMO.MINU (06 R114, R115). -/
def finAmoMinu (d : Nat) (sz : Nat) (ord : Nat) (scope : Nat) : Eff := plain (fun e => amo e d sz ord scope false (fun _ old x => noFlags (min old x)))

/-- AMO.MINU (06 R114, R115). -/
def execAmoMinu (d : Nat) (a : Nat) (sz : Nat) (ord : Nat) (scope : Nat) (la : Nat) (s : State) : Host.Outcome State Fault Refusal :=
  issue (.amoMinu d a sz ord scope la) (finAmoMinu d sz ord scope) s

/-- AMO.MAXU (06 R114, R115). -/
def finAmoMaxu (d : Nat) (sz : Nat) (ord : Nat) (scope : Nat) : Eff := plain (fun e => amo e d sz ord scope false (fun _ old x => noFlags (max old x)))

/-- AMO.MAXU (06 R114, R115). -/
def execAmoMaxu (d : Nat) (a : Nat) (sz : Nat) (ord : Nat) (scope : Nat) (la : Nat) (s : State) : Host.Outcome State Fault Refusal :=
  issue (.amoMaxu d a sz ord scope la) (finAmoMaxu d sz ord scope) s

/-- AMO.FADD (06 R114, R115). -/
def finAmoFadd (d : Nat) (sz : Nat) (ord : Nat) (scope : Nat) : Eff := plain (fun e => amo e d sz ord scope false (fun n old x => fadd (amoFmt n) old x))

/-- AMO.FADD (06 R114, R115). -/
def execAmoFadd (d : Nat) (a : Nat) (sz : Nat) (ord : Nat) (scope : Nat) (la : Nat) (s : State) : Host.Outcome State Fault Refusal :=
  issue (.amoFadd d a sz ord scope la) (finAmoFadd d sz ord scope) s

/-- AMO.FMIN (06 R114, R115). -/
def finAmoFmin (d : Nat) (sz : Nat) (ord : Nat) (scope : Nat) : Eff := plain (fun e => amo e d sz ord scope false (fun n old x => noFlags (fmin (amoFmt n) old x)))

/-- AMO.FMIN (06 R114, R115). -/
def execAmoFmin (d : Nat) (a : Nat) (sz : Nat) (ord : Nat) (scope : Nat) (la : Nat) (s : State) : Host.Outcome State Fault Refusal :=
  issue (.amoFmin d a sz ord scope la) (finAmoFmin d sz ord scope) s

/-- AMO.FMAX (06 R114, R115). -/
def finAmoFmax (d : Nat) (sz : Nat) (ord : Nat) (scope : Nat) : Eff := plain (fun e => amo e d sz ord scope false (fun n old x => noFlags (fmax2 (amoFmt n) old x)))

/-- AMO.FMAX (06 R114, R115). -/
def execAmoFmax (d : Nat) (a : Nat) (sz : Nat) (ord : Nat) (scope : Nat) (la : Nat) (s : State) : Host.Outcome State Fault Refusal :=
  issue (.amoFmax d a sz ord scope la) (finAmoFmax d sz ord scope) s

/-- AMO.FADD.X (06 R115, 08 R170): wD is unchanged. -/
def finAmoFaddX (ord : Nat) (scope : Nat) : Eff := plain (fun e => do
  alignTo e.opa 64 0x34
  let _ ← rmwM e e.opa 64 .cell (releaseAt ord scope) (fun old => some (ofBytes (cellAdd (toBytes 64 old) (fF32.decode (e.opd.toNat % 2 ^ 32))))))

/-- AMO.FADD.X (06 R115, 08 R170): wD is unchanged. -/
def execAmoFaddX (d : Nat) (a : Nat) (ord : Nat) (scope : Nat) (la : Nat) (s : State) : Host.Outcome State Fault Refusal :=
  issue (.amoFaddX d a ord scope la) (finAmoFaddX ord scope) s

/-- LDO (06 R116). -/
def finLdo (d : Nat) (sz : Nat) : Eff := plain (fun e => do
  let n := if sz = 0 then 4 else 8
  if 2 ^ 52 ≤ e.opa.toNat then trapPost .xlate 0x01 e.opa
  else
    alignTo e.opa n 0x34
    let v ← loadM e e.opa n
    wFin e d (sextB n v))

/-- LDO (06 R116). -/
def execLdo (d : Nat) (a : Nat) (sz : Nat) (acq : Nat) (scope : Nat) (la : Nat) (s : State) : Host.Outcome State Fault Refusal :=
  issue (.ldo d a sz acq scope la) (finLdo d sz) s

/-- STO (06 R116). -/
def finSto (sz : Nat) (rel : Nat) (scope : Nat) : Eff := plain (fun e => do
  let n := if sz = 0 then 4 else 8
  if 2 ^ 52 ≤ e.opa.toNat then trapPost .xlate 0x01 e.opa
  else
    alignTo e.opa n 0x34
    releaseAt (if rel = 0 then 0 else 2) scope
    storeM e e.opa n e.opd.toNat)

/-- STO (06 R116). -/
def execSto (d : Nat) (a : Nat) (sz : Nat) (rel : Nat) (scope : Nat) (la : Nat) (s : State) : Host.Outcome State Fault Refusal :=
  issue (.sto d a sz rel scope la) (finSto sz rel scope) s

/-- CAS: a failed one drops the release part of its order (06 R117). -/
def finCas (d : Nat) (sz : Nat) (ord : Nat) (scope : Nat) : Eff := plain (fun e => do
  let n := if sz = 0 then 4 else 8
  alignTo e.opa n 0x34
  let old ← rmwM e e.opa n .amo (releaseAt ord scope) (fun old =>
    if old = e.opd.toNat % 2 ^ (8 * n) then some (e.opb.toNat % 2 ^ (8 * n)) else none)
  wFin e d (sextB n old))

/-- CAS (06 R117). -/
def execCas (d : Nat) (a : Nat) (sz : Nat) (ord : Nat) (scope : Nat) (la : Nat) (s : State) : Host.Outcome State Fault Refusal :=
  issue (.cas d a sz ord scope la) (finCas d sz ord scope) s

/-- FENCE (06 R118): it waits for earlier long-latency instructions before issue, a release for the stores that are on their way, and
one of system scope for the acknowledgements of posted ones. -/
def finFence (ord : Nat) (scope : Nat) : Eff := plain (fun _ => if scope = 4 then sysRelease else releaseAt ord scope)

/-- FENCE (06 R118). -/
def execFence (ord : Nat) (scope : Nat) (s : State) : Host.Outcome State Fault Refusal :=
  issue (.fence ord scope) (finFence ord scope) s

/-- The address of a prefetch: a byte offset of 8 bits, which accepts no HINT.IMM (06 R110). -/
def prefAddr (e : Entry) (off : Nat) : W64 := e.opa + w64OfInt (signed 8 off)

/-- A walk that ends in a leaf loads it into the micro-TLB of its core and into the cluster TLB (03 R54). -/
def State.tlbFill (s : State) (core dom va : Nat) : State :=
  match s.leafOf core dom va with
  | .error _ => s
  | .ok (leaf, log) =>
    let t : TlbEntry := ⟨dom, va / 2 ^ log, log, leaf⟩
    let x := s.core core
    let drop (l : List TlbEntry) : List TlbEntry := l.filter (fun y => y != t)
    let s := s.setCore core { x with micro := (t :: drop x.micro).take 32 }
    { s with ctlb := Tbl.put s.ctlb (core / 192) ((t :: drop (Tbl.get [] s.ctlb (core / 192))).take 4096) }

/-- Loads a translation into the micro-TLB and the cluster TLB; one that faults, is unpopulated or names the cluster window
does nothing (03 R54, 06 R110). -/
def prefetch (e : Entry) (off : Nat) : M Unit := fun s =>
  let va := (prefAddr e off).toNat
  let core := s.cur.1
  let dom := s.cc.domain
  let w : Who := ⟨dom, e.priv, core⟩
  if 2 ^ 52 ≤ va ∨ bits va 51 44 = 0xFF then .ok ((), s)
  else
    match s.xlate w (BitVec.ofNat 64 va) .read with
    | .ok _ => .ok ((), s.tlbFill core dom va)
    | .error _ => .ok ((), s)

/-- PREF.TLB (06 R110). -/
def finPrefTlb (off : Nat) : Eff := plain (fun e => prefetch e off)

/-- PREF.TLB (06 R110). -/
def execPrefTlb (a : Nat) (off : Nat) (home : Nat) (s : State) : Host.Outcome State Fault Refusal :=
  issue (.prefTlb a off home) (finPrefTlb off) s

/-- PREF.MSC (06 R110): the line that it brings into the memory-side cache changes time only. -/
def finPrefMsc (off : Nat) : Eff := plain (fun e => prefetch e off)

/-- PREF.MSC (06 R110): the line that it brings into the memory-side cache changes time only. -/
def execPrefMsc (a : Nat) (off : Nat) (home : Nat) (s : State) : Host.Outcome State Fault Refusal :=
  issue (.prefMsc a off home) (finPrefMsc off) s

end Sys2Proof.Machine
end

