-- ==== Sys2Proof/Machine/Vector.lean ====
section
/-! DEFINITION. The vector unit: majors 0x20 to 0x29 (09 R172-R189). An element is a lane of 32 bits, or a pair of lanes when
the tag is F64. -/

namespace Sys2Proof.Machine

/-! ### Elements, activity and tags (09 R172, R173) -/

/-- Bits of an element under a tag code. -/
def elemW (t : Nat) : Nat := if t = 2 then 64 else 32

/-- Number of elements under a tag code. -/
def elemN (t : Nat) : Nat := if t = 2 then 32 else 64

/-- Element `i` of a content. -/
def elemOf (t v i : Nat) : Nat := v / 2 ^ (elemW t * i) % 2 ^ elemW t

/-- Element `i` is active under a mask. -/
def elemOn (t : Nat) (m : W64) (i : Nat) : Bool := m.getLsbD (if t = 2 then 2 * i else i)

/-- The active elements of a content, in order. -/
def onElems (t : Nat) (m : W64) (v : Nat) : List Nat :=
  ((List.range (elemN t)).filter (elemOn t m)).map (elemOf t v)

/-- Format of a floating tag code. -/
def elemFmt (t : Nat) : Fmt := if t = 2 then fF64 else fF32

/-- Tags that a register may hold: RAW, F32, F64 and I32. -/
def anyTag : List Nat := [0, 1, 2, 5]

/-- F32 or F64. -/
def floatTag : List Nat := [1, 2]

/-- Tag of the captured first vector operand. -/
def Entry.ta (e : Entry) (dflt : Nat) : Nat := e.ext.getD 0 dflt

/-- Tag of the captured second vector operand. -/
def Entry.tb (e : Entry) (dflt : Nat) : Nat := e.ext.getD 1 dflt

/-- REG of a first operand (08 R161). -/
def Ctx.srcReg (c : Ctx) (a : Nat) : Nat := if a = 31 ∧ c.stream.isSome then 72 else 32 + a

/-- The first vector operand carries an accepted tag (09 R173). -/
def accept (e : Entry) (a : Nat) (ok : List Nat) : M Unit := do
  let t := e.ta (ok.headD 0)
  if ok.contains t then pure ()
  else
    let c ← getCx
    format (match ok with
      | [x] => x
      | _ => 0xFF) t (c.srcReg a)

/-- The second vector operand carries `want` (09 R173). -/
def matchB (e : Entry) (b want : Nat) : M Unit :=
  if e.tb want = want then pure () else format want (e.tb want) (32 + b)

/-- The elements of a result: `f` on the active ones, the old ones elsewhere, with the flags of the active ones. -/
def mapElems (t : Nat) (m : W64) (old : Nat) (f : Nat → Nat × Flags) : Nat × Flags :=
  let rs := (List.range (elemN t)).map (fun i => if elemOn t m i then f i else (elemOf t old i, 0#5))
  (ofLanes (elemW t) (rs.map (·.1)), rs.foldl (fun fl r => fl ||| r.2) 0#5)

/-- Writes a vector result element by element, with tag `tag`, under the rule of masked writes (08 R160). -/
def vecOut (e : Entry) (d m tag : Nat) (t : Bool) (f : Nat → Nat × Flags) : M Unit := do
  maskedTag m d tag e
  let c ← getCx
  let (v, fl) := mapElems tag e.mask (e.dst c d) f
  raiseFlags fl
  wV d v tag t

/-- As `vecOut`, over 64 lanes of 32 bits whatever the tag (09 R179, R181). -/
def laneOut (e : Entry) (d m tag : Nat) (t : Bool) (f : Nat → Nat) : M Unit := do
  maskedTag m d tag e
  let c ← getCx
  wV d (mapElems 0 e.mask (e.dst c d) (fun i => (f i, 0#5))).1 tag t

/-! ### Floating arithmetic (09 R176, R177) -/

/-- An operation of two floating operands. -/
def fop2 (e : Entry) (d a b m : Nat) (t : Bool) (f : Fmt → Nat → Nat → Nat × Flags) : M Unit := do
  accept e a floatTag
  let x := e.ta 1
  matchB e b x
  vecOut e d m x t (fun i => f (elemFmt x) (elemOf x e.va i) (elemOf x e.vb i))

/-- An operation of one floating operand without flags. -/
def fop1 (e : Entry) (d a m : Nat) (t : Bool) (f : Fmt → Nat → Nat) : M Unit := do
  accept e a floatTag
  let x := e.ta 1
  vecOut e d m x t (fun i => (f (elemFmt x) (elemOf x e.va i), 0#5))

/-- A fused operation: its destination is a third source and must carry the operands' tag, masked or not (09 R177). -/
def fma (e : Entry) (d a b m : Nat) (t negProd negAdd : Bool) : M Unit := do
  accept e a floatTag
  let x := e.ta 1
  matchB e b x
  let c ← getCx
  let td := e.ext.getD 2 (c.vtagOf d)
  if td ≠ x then format x td (32 + d)
  else
    vecOut e d m x t (fun i => ffma (elemFmt x) negProd negAdd (elemOf x e.va i) (elemOf x e.vb i) (elemOf x (e.dst c d) i))

/-! ### Integer arithmetic, bitwise operations and shifts (09 R178, R179) -/

/-- An operation of two I32 operands. -/
def iop2 (e : Entry) (d a b m : Nat) (t : Bool) (f : W32 → W32 → W32) : M Unit := do
  accept e a [5]
  matchB e b 5
  vecOut e d m 5 t (fun i => ((f (BitVec.ofNat 32 (lane e.va i)) (BitVec.ofNat 32 (lane e.vb i))).toNat, 0#5))

/-- A sum clamped to I32. -/
def sat32 (x : Int) : W32 := BitVec.ofInt 32 (max (-(2 ^ 31)) (min (2 ^ 31 - 1) x))

/-- A bitwise operation on lanes: any tags, written with the first operand's. -/
def bop2 (e : Entry) (d a m : Nat) (t : Bool) (f : W32 → W32 → W32) : M Unit := do
  accept e a anyTag
  laneOut e d m (e.ta 0) t (fun i => (f (BitVec.ofNat 32 (lane e.va i)) (BitVec.ofNat 32 (lane e.vb i))).toNat)

/-! ### Compares (09 R180) -/

/-- A mask register that the word captured, at place `i` of `ext`. -/
def Entry.mreg (e : Entry) (i : Nat) : W64 := BitVec.ofNat 64 (e.ext.getD i 0)

/-- Writes a mask: the bits of active elements from `f`, the others as they stand. An F64 element gives both its bits. -/
def maskOut (e : Entry) (d x : Nat) (t : Bool) (f : Nat → Bool × Flags) : M Unit := do
  let old := e.mreg 2
  let idx (i : Nat) : Nat := if x = 2 then i / 2 else i
  let rs := (List.range (elemN x)).map (fun i => if elemOn x e.mask i then f i else (false, 0#5))
  let v := ofLanes 1 ((List.range 64).map (fun i =>
    b2n (if elemOn x e.mask (idx i) then (rs.getD (idx i) (false, 0#5)).1 else old.getLsbD i)))
  raiseFlags (rs.foldl (fun fl r => fl ||| r.2) 0#5)
  modCx (fun c => c.writeM d (BitVec.ofNat 64 v) t)

/-- A floating compare; `nv` sets NV for a NaN. -/
def fcmp (e : Entry) (d a b : Nat) (t nv : Bool) (f : Val → Val → Bool) : M Unit := do
  accept e a floatTag
  let x := e.ta 1
  matchB e b x
  maskOut e d x t (fun i =>
    let p := (elemFmt x).decode (elemOf x e.va i)
    let q := (elemFmt x).decode (elemOf x e.vb i)
    (f p q, flIf (nv && (p.isNan || q.isNan)) flNV))

/-- An I32 compare. -/
def icmp (e : Entry) (d a b : Nat) (t : Bool) (f : W32 → W32 → Bool) : M Unit := do
  accept e a [5]
  matchB e b 5
  maskOut e d 5 t (fun i => (f (BitVec.ofNat 32 (lane e.va i)) (BitVec.ofNat 32 (lane e.vb i)), 0#5))

/-! ### Division, roots and functions (09 R183) -/

/-- The precision of a sub field as a tag code. -/
def subTag (p : Nat) : Nat := if p = 0 then 1 else 2

/-- A VL word: written at completion with its flags. -/
def vlOut (e : Entry) (d m x : Nat) (f : Nat → Nat × Flags) : M Unit := do
  maskedTag m d x e
  let c ← getCx
  let (v, fl) := mapElems x e.mask (e.dst c d) f
  raiseFlags fl
  vFin e d v x

/-- A VL word of one operand. -/
def vl1 (e : Entry) (d a m x : Nat) (f : Nat → Nat × Flags) : M Unit := do
  accept e a [x]
  vlOut e d m x (fun i => f (elemOf x e.va i))

/-! ### Reductions and scans (09 R184) -/

/-- F32, F64 or I32. -/
def numTag : List Nat := [1, 2, 5]

/-- A reduced element in a w register: F32 zero-extended, I32 sign-extended, F64 whole. -/
def redOut (x v : Nat) : W64 := if x = 5 then w64OfInt (signed 32 v) else BitVec.ofNat 64 v

/-- The least or the greatest active element. -/
def vrm (e : Entry) (d a : Nat) (t greatest : Bool) : M Unit := do
  accept e a numTag
  let x := e.ta 1
  let l := onElems x e.mask e.va
  let v := if x = 5 then
      l.foldl (fun r y => if (signed 32 y < signed 32 r) = !greatest ∧ y ≠ r then y else r)
        (if greatest then 0x80000000 else 0x7FFFFFFF)
    else l.foldl (fun r y => if greatest then fmax2 (elemFmt x) r y else fmin (elemFmt x) r y) ((elemFmt x).infCode greatest)
  wW d (redOut x v) t

/-- The sequential scan: each output is the rounded sum of the previous output and the element (08 R167). -/
def seqScan (comb : Nat → Nat → Nat × Flags) : Option Nat → List Nat → List (Nat × Flags)
  | _, [] => []
  | none, x :: r => (x, 0#5) :: seqScan comb (some x) r
  | some p, x :: r =>
    let y := comb p x
    y :: seqScan comb (some y.1) r

/-- The exact scan: each output is the exact sum of the elements so far, rounded once (08 R167). -/
def exactScan (f : Fmt) (l : List Nat) : List (Nat × Flags) :=
  (List.range l.length).map (fun k => exactSum f ((l.take (k + 1)).map f.decode))

/-- Combination of two elements under a numeric tag: a rounded sum, or a sum modulo 2^32 for I32. -/
def combine (x p q : Nat) : Nat × Flags := if x = 5 then ((p + q) % 2 ^ 32, 0#5) else fadd (elemFmt x) p q

/-- An element with the canonical NaN in place of any other, as one that a result is made of alone (08 R147). -/
def canonElem (x v : Nat) : Nat := if x = 5 then v else (elemFmt x).canon v

/-- A scan: only active elements are written, and an inactive one does not break the chain. -/
def vscan (e : Entry) (d a m : Nat) (t ordered : Bool) : M Unit := do
  accept e a numTag
  let x := e.ta 1
  let l := onElems x e.mask e.va
  let rs := if ordered && x != 5 then exactScan (elemFmt x) l else seqScan (combine x) none (l.map (canonElem x))
  vecOut e d m x t (fun i => rs.getD ((List.range i).filter (elemOn x e.mask)).length (0, 0#5))

/-! ### Conversions (09 R185-R188) -/

/-- A descriptor that is invalid or of another KIND than a word takes raises FORMAT (09 R185). -/
def descCheck (ok : Nat → Bool) (n : Nat) : M Nat := do
  let c ← getCx
  let f := (c.fOf n).toNat
  if descValid f && ok (descKind f) then pure f else format 0xFF 0xFF (96 + n)

/-- A value as I32 under RNE (08 R162, 09 R187): NaN gives 0 and a value beyond the range the nearest end, both with NV;
NX where a finite value is not delivered exactly (DEDUCED, log entry 25). -/
def toI32 (v : Val) : Nat × Flags :=
  match v with
  | .nan => (0, flNV)
  | .inf neg => (if neg then 0x80000000 else 0x7FFFFFFF, flNV)
  | .fin neg m e =>
    let (n, r, de) := inUnits (m * pow2Num e) (pow2Den e) 0
    let k := n + pick .rne neg r de (n % 2 == 1)
    let x : Int := if neg then -(k : Int) else k
    if x < -(2 ^ 31) then (0x80000000, flNV ||| flNX)
    else if 2 ^ 31 ≤ x then (0x7FFFFFFF, flNV ||| flNX)
    else ((BitVec.ofInt 32 x).toNat, flIf (r != 0) flNX)

/-- Element `i` of a conversion's source as a value: F32, F64, F16, H16 or I32. -/
def srcVal (t v i : Nat) : Val :=
  match t with
  | 1 => fF32.decode (lane v i)
  | 2 => fF64.decode (lane64 v i)
  | 3 => fF16.decode (v / 2 ^ (16 * i) % 2 ^ 16)
  | 4 => fH16.decode (v / 2 ^ (16 * i) % 2 ^ 16)
  | _ => .fin (decide (signed 32 (lane v i) < 0)) (signed 32 (lane v i)).natAbs 0

/-- Packed codes of `w` bits each in the first places of the destination: the rest is zero when unmasked and kept when
masked. -/
def packed (e : Entry) (d m w n : Nat) (t : Bool) (f : Nat → Nat × Flags) : M Unit := do
  maskedTag m d 0 e
  let c ← getCx
  let old := if m = 0 then 0 else e.dst c d
  let rs := (List.range n).map (fun i =>
    if e.mask.getLsbD i || m == 0 then f i else (old / 2 ^ (w * i) % 2 ^ w, 0#5))
  raiseFlags (rs.foldl (fun fl r => fl ||| r.2) 0#5)
  wV d (ofLanes w (rs.map (·.1)) + old / 2 ^ (w * n) * 2 ^ (w * n)) 0 t

/-- Bits that a narrow or half code of a descriptor takes (09 R185). -/
def codeBits (f : Nat) : Nat := if descKind f ≠ 0 then 16 else if (descFmt f).width ≤ 4 then 4 else 8

/-- A conversion of the first operand under descriptor `f`, lane `i` in mode `md i`. -/
def vcvtOut (e : Entry) (d m f : Nat) (t : Bool) (md : Nat → Rnd) : M Unit :=
  let x := e.ta 1
  let n := if x = 2 then 32 else 64
  let conv (i : Nat) : Nat × Flags := (descToFmt f).convert (md i) (srcVal x e.va i)
  match descKind f with
  | 3 => vecOut e d m 1 t (fun i => if i < n then conv i else (0, 0#5))
  | 4 => vecOut e d m 2 t conv
  | _ => packed e d m (codeBits f) n t conv

/-- VCVT in a mode. -/
def vcvt (e : Entry) (d a b m : Nat) (t : Bool) (md : Rnd) : M Unit := do
  accept e a [1, 2, 3, 4, 5]
  let f ← descCheck (fun k => decide (k ≤ 4)) b
  vcvtOut e d m f t (fun _ => md)

/-- The 18 bytes of a block in memory form (08 R156). -/
def Block.num (b : Block) : Nat := ofLanes 8 (b.codes ++ [b.e8, b.mu])

/-- Element `j` of the block whose 18 bytes are given. -/
def blockVal (f : Fmt) (v j : Nat) : Val :=
  blockElem f (slice v j 1) (slice v 16 1) (slice v 17 1 / 2 ^ (j / 2) % 2)

/-- VADD (09 R176). -/
def finVadd (d : Nat) (a : Nat) (b : Nat) (m : Nat) (t : Bool) : Eff := plain (fun e => fop2 e d a b m t fadd)

/-- VADD (09 R176). -/
def execVadd (d : Nat) (a : Nat) (b : Nat) (m : Nat) (t : Bool) (s : State) : Host.Outcome State Fault Refusal :=
  issue (.vadd d a b m t) (finVadd d a b m t) s

/-- VSUB (09 R176). -/
def finVsub (d : Nat) (a : Nat) (b : Nat) (m : Nat) (t : Bool) : Eff := plain (fun e => fop2 e d a b m t fsub)

/-- VSUB (09 R176). -/
def execVsub (d : Nat) (a : Nat) (b : Nat) (m : Nat) (t : Bool) (s : State) : Host.Outcome State Fault Refusal :=
  issue (.vsub d a b m t) (finVsub d a b m t) s

/-- VMUL (09 R176). -/
def finVmul (d : Nat) (a : Nat) (b : Nat) (m : Nat) (t : Bool) : Eff := plain (fun e => fop2 e d a b m t fmul)

/-- VMUL (09 R176). -/
def execVmul (d : Nat) (a : Nat) (b : Nat) (m : Nat) (t : Bool) (s : State) : Host.Outcome State Fault Refusal :=
  issue (.vmul d a b m t) (finVmul d a b m t) s

/-- VMIN (09 R176). -/
def finVmin (d : Nat) (a : Nat) (b : Nat) (m : Nat) (t : Bool) : Eff := plain (fun e => fop2 e d a b m t (fun f x y => (fmin f x y, 0#5)))

/-- VMIN (09 R176). -/
def execVmin (d : Nat) (a : Nat) (b : Nat) (m : Nat) (t : Bool) (s : State) : Host.Outcome State Fault Refusal :=
  issue (.vmin d a b m t) (finVmin d a b m t) s

/-- VMAX (09 R176). -/
def finVmax (d : Nat) (a : Nat) (b : Nat) (m : Nat) (t : Bool) : Eff := plain (fun e => fop2 e d a b m t (fun f x y => (fmax2 f x y, 0#5)))

/-- VMAX (09 R176). -/
def execVmax (d : Nat) (a : Nat) (b : Nat) (m : Nat) (t : Bool) (s : State) : Host.Outcome State Fault Refusal :=
  issue (.vmax d a b m t) (finVmax d a b m t) s

/-- VABS (09 R176). -/
def finVabs (d : Nat) (a : Nat) (m : Nat) (t : Bool) : Eff := plain (fun e => fop1 e d a m t fabs)

/-- VABS (09 R176). -/
def execVabs (d : Nat) (a : Nat) (m : Nat) (t : Bool) (s : State) : Host.Outcome State Fault Refusal :=
  issue (.vabs d a m t) (finVabs d a m t) s

/-- VNEG (09 R176). -/
def finVneg (d : Nat) (a : Nat) (m : Nat) (t : Bool) : Eff := plain (fun e => fop1 e d a m t fneg)

/-- VNEG (09 R176). -/
def execVneg (d : Nat) (a : Nat) (m : Nat) (t : Bool) (s : State) : Host.Outcome State Fault Refusal :=
  issue (.vneg d a m t) (finVneg d a m t) s

/-- VIADD: the sum modulo 2^32 (09 R178). -/
def finViadd (d : Nat) (a : Nat) (b : Nat) (m : Nat) (t : Bool) : Eff := plain (fun e => iop2 e d a b m t (fun x y => x + y))

/-- VIADD: the sum modulo 2^32 (09 R178). -/
def execViadd (d : Nat) (a : Nat) (b : Nat) (m : Nat) (t : Bool) (s : State) : Host.Outcome State Fault Refusal :=
  issue (.viadd d a b m t) (finViadd d a b m t) s

/-- VISUB: the difference modulo 2^32 (09 R178). -/
def finVisub (d : Nat) (a : Nat) (b : Nat) (m : Nat) (t : Bool) : Eff := plain (fun e => iop2 e d a b m t (fun x y => x - y))

/-- VISUB: the difference modulo 2^32 (09 R178). -/
def execVisub (d : Nat) (a : Nat) (b : Nat) (m : Nat) (t : Bool) (s : State) : Host.Outcome State Fault Refusal :=
  issue (.visub d a b m t) (finVisub d a b m t) s

/-- VIMUL: the low 32 bits of the product (09 R178). -/
def finVimul (d : Nat) (a : Nat) (b : Nat) (m : Nat) (t : Bool) : Eff := plain (fun e => iop2 e d a b m t (fun x y => x * y))

/-- VIMUL: the low 32 bits of the product (09 R178). -/
def execVimul (d : Nat) (a : Nat) (b : Nat) (m : Nat) (t : Bool) (s : State) : Host.Outcome State Fault Refusal :=
  issue (.vimul d a b m t) (finVimul d a b m t) s

/-- VIMIN: the smaller, signed (09 R178). -/
def finVimin (d : Nat) (a : Nat) (b : Nat) (m : Nat) (t : Bool) : Eff := plain (fun e => iop2 e d a b m t (fun x y => if x.slt y then x else y))

/-- VIMIN: the smaller, signed (09 R178). -/
def execVimin (d : Nat) (a : Nat) (b : Nat) (m : Nat) (t : Bool) (s : State) : Host.Outcome State Fault Refusal :=
  issue (.vimin d a b m t) (finVimin d a b m t) s

/-- VIMAX: the larger, signed (09 R178). -/
def finVimax (d : Nat) (a : Nat) (b : Nat) (m : Nat) (t : Bool) : Eff := plain (fun e => iop2 e d a b m t (fun x y => if x.slt y then y else x))

/-- VIMAX: the larger, signed (09 R178). -/
def execVimax (d : Nat) (a : Nat) (b : Nat) (m : Nat) (t : Bool) (s : State) : Host.Outcome State Fault Refusal :=
  issue (.vimax d a b m t) (finVimax d a b m t) s

/-- VIMINU: the smaller, unsigned (09 R178). -/
def finViminu (d : Nat) (a : Nat) (b : Nat) (m : Nat) (t : Bool) : Eff := plain (fun e => iop2 e d a b m t (fun x y => if x < y then x else y))

/-- VIMINU: the smaller, unsigned (09 R178). -/
def execViminu (d : Nat) (a : Nat) (b : Nat) (m : Nat) (t : Bool) (s : State) : Host.Outcome State Fault Refusal :=
  issue (.viminu d a b m t) (finViminu d a b m t) s

/-- VIMAXU: the larger, unsigned (09 R178). -/
def finVimaxu (d : Nat) (a : Nat) (b : Nat) (m : Nat) (t : Bool) : Eff := plain (fun e => iop2 e d a b m t (fun x y => if x < y then y else x))

/-- VIMAXU: the larger, unsigned (09 R178). -/
def execVimaxu (d : Nat) (a : Nat) (b : Nat) (m : Nat) (t : Bool) (s : State) : Host.Outcome State Fault Refusal :=
  issue (.vimaxu d a b m t) (finVimaxu d a b m t) s

/-- VIADDS: the sum clamped (09 R178). -/
def finViadds (d : Nat) (a : Nat) (b : Nat) (m : Nat) (t : Bool) : Eff := plain (fun e => iop2 e d a b m t (fun x y => sat32 (x.toInt + y.toInt)))

/-- VIADDS: the sum clamped (09 R178). -/
def execViadds (d : Nat) (a : Nat) (b : Nat) (m : Nat) (t : Bool) (s : State) : Host.Outcome State Fault Refusal :=
  issue (.viadds d a b m t) (finViadds d a b m t) s

/-- VISUBS: the difference clamped (09 R178). -/
def finVisubs (d : Nat) (a : Nat) (b : Nat) (m : Nat) (t : Bool) : Eff := plain (fun e => iop2 e d a b m t (fun x y => sat32 (x.toInt - y.toInt)))

/-- VISUBS: the difference clamped (09 R178). -/
def execVisubs (d : Nat) (a : Nat) (b : Nat) (m : Nat) (t : Bool) (s : State) : Host.Outcome State Fault Refusal :=
  issue (.visubs d a b m t) (finVisubs d a b m t) s

/-- VAND (09 R179). -/
def finVand (d : Nat) (a : Nat) (m : Nat) (t : Bool) : Eff := plain (fun e => bop2 e d a m t (fun x y => x &&& y))

/-- VAND (09 R179). -/
def execVand (d : Nat) (a : Nat) (b : Nat) (m : Nat) (t : Bool) (s : State) : Host.Outcome State Fault Refusal :=
  issue (.vand d a b m t) (finVand d a m t) s

/-- VOR (09 R179). -/
def finVor (d : Nat) (a : Nat) (m : Nat) (t : Bool) : Eff := plain (fun e => bop2 e d a m t (fun x y => x ||| y))

/-- VOR (09 R179). -/
def execVor (d : Nat) (a : Nat) (b : Nat) (m : Nat) (t : Bool) (s : State) : Host.Outcome State Fault Refusal :=
  issue (.vor d a b m t) (finVor d a m t) s

/-- VXOR (09 R179). -/
def finVxor (d : Nat) (a : Nat) (m : Nat) (t : Bool) : Eff := plain (fun e => bop2 e d a m t (fun x y => x ^^^ y))

/-- VXOR (09 R179). -/
def execVxor (d : Nat) (a : Nat) (b : Nat) (m : Nat) (t : Bool) (s : State) : Host.Outcome State Fault Refusal :=
  issue (.vxor d a b m t) (finVxor d a m t) s

/-- VSLL (09 R179). -/
def finVsll (d : Nat) (a : Nat) (m : Nat) (t : Bool) : Eff := plain (fun e => bop2 e d a m t (fun x y => x <<< (y.toNat % 32)))

/-- VSLL (09 R179). -/
def execVsll (d : Nat) (a : Nat) (b : Nat) (m : Nat) (t : Bool) (s : State) : Host.Outcome State Fault Refusal :=
  issue (.vsll d a b m t) (finVsll d a m t) s

/-- VSRL (09 R179). -/
def finVsrl (d : Nat) (a : Nat) (m : Nat) (t : Bool) : Eff := plain (fun e => bop2 e d a m t (fun x y => x >>> (y.toNat % 32)))

/-- VSRL (09 R179). -/
def execVsrl (d : Nat) (a : Nat) (b : Nat) (m : Nat) (t : Bool) (s : State) : Host.Outcome State Fault Refusal :=
  issue (.vsrl d a b m t) (finVsrl d a m t) s

/-- VSRA (09 R179). -/
def finVsra (d : Nat) (a : Nat) (m : Nat) (t : Bool) : Eff := plain (fun e => bop2 e d a m t (fun x y => x.sshiftRight (y.toNat % 32)))

/-- VSRA (09 R179). -/
def execVsra (d : Nat) (a : Nat) (b : Nat) (m : Nat) (t : Bool) (s : State) : Host.Outcome State Fault Refusal :=
  issue (.vsra d a b m t) (finVsra d a m t) s

/-- VFCMP.EQ (09 R180). -/
def finVfcmpEq (d : Nat) (a : Nat) (b : Nat) (t : Bool) : Eff := plain (fun e => fcmp e d a b t false (fun x y => x.eqB y))

/-- VFCMP.EQ (09 R180). -/
def execVfcmpEq (d : Nat) (a : Nat) (b : Nat) (m : Nat) (t : Bool) (s : State) : Host.Outcome State Fault Refusal :=
  issue (.vfcmpEq d a b m t) (finVfcmpEq d a b t) s

/-- VFCMP.LT (09 R180). -/
def finVfcmpLt (d : Nat) (a : Nat) (b : Nat) (t : Bool) : Eff := plain (fun e => fcmp e d a b t true (fun x y => x.ltB y))

/-- VFCMP.LT (09 R180). -/
def execVfcmpLt (d : Nat) (a : Nat) (b : Nat) (m : Nat) (t : Bool) (s : State) : Host.Outcome State Fault Refusal :=
  issue (.vfcmpLt d a b m t) (finVfcmpLt d a b t) s

/-- VFCMP.LE (09 R180). -/
def finVfcmpLe (d : Nat) (a : Nat) (b : Nat) (t : Bool) : Eff := plain (fun e => fcmp e d a b t true (fun x y => x.ltB y || x.eqB y))

/-- VFCMP.LE (09 R180). -/
def execVfcmpLe (d : Nat) (a : Nat) (b : Nat) (m : Nat) (t : Bool) (s : State) : Host.Outcome State Fault Refusal :=
  issue (.vfcmpLe d a b m t) (finVfcmpLe d a b t) s

/-- VFCMP.UN (09 R180). -/
def finVfcmpUn (d : Nat) (a : Nat) (b : Nat) (t : Bool) : Eff := plain (fun e => fcmp e d a b t false (fun x y => x.isNan || y.isNan))

/-- VFCMP.UN (09 R180). -/
def execVfcmpUn (d : Nat) (a : Nat) (b : Nat) (m : Nat) (t : Bool) (s : State) : Host.Outcome State Fault Refusal :=
  issue (.vfcmpUn d a b m t) (finVfcmpUn d a b t) s

/-- VICMP.EQ (09 R180). -/
def finVicmpEq (d : Nat) (a : Nat) (b : Nat) (t : Bool) : Eff := plain (fun e => icmp e d a b t (fun x y => x == y))

/-- VICMP.EQ (09 R180). -/
def execVicmpEq (d : Nat) (a : Nat) (b : Nat) (m : Nat) (t : Bool) (s : State) : Host.Outcome State Fault Refusal :=
  issue (.vicmpEq d a b m t) (finVicmpEq d a b t) s

/-- VICMP.LT (09 R180). -/
def finVicmpLt (d : Nat) (a : Nat) (b : Nat) (t : Bool) : Eff := plain (fun e => icmp e d a b t (fun x y => x.slt y))

/-- VICMP.LT (09 R180). -/
def execVicmpLt (d : Nat) (a : Nat) (b : Nat) (m : Nat) (t : Bool) (s : State) : Host.Outcome State Fault Refusal :=
  issue (.vicmpLt d a b m t) (finVicmpLt d a b t) s

/-- VICMP.LTU (09 R180). -/
def finVicmpLtu (d : Nat) (a : Nat) (b : Nat) (t : Bool) : Eff := plain (fun e => icmp e d a b t (fun x y => x < y))

/-- VICMP.LTU (09 R180). -/
def execVicmpLtu (d : Nat) (a : Nat) (b : Nat) (m : Nat) (t : Bool) (s : State) : Host.Outcome State Fault Refusal :=
  issue (.vicmpLtu d a b m t) (finVicmpLtu d a b t) s

/-- Element index of VEXT and VINS: wB[5:0], or wB[4:0] for F64 (09 R181). -/
def elemIdx (x : Nat) (w : W64) : Nat := w.toNat % (if x = 2 then 32 else 64)

/-- Tag of a destination that keeps it. -/
def Entry.keptTag (e : Entry) : Nat := e.ext.getD 2 0

/-- VMOV (09 R181). -/
def finVmov (d : Nat) (a : Nat) (m : Nat) (t : Bool) : Eff := plain (fun e => do
  accept e a anyTag
  laneOut e d m (e.ta 0) t (lane e.va))

/-- VMOV (09 R181). -/
def execVmov (d : Nat) (a : Nat) (m : Nat) (t : Bool) (s : State) : Host.Outcome State Fault Refusal :=
  issue (.vmov d a m t) (finVmov d a m t) s

/-- VSPLAT: it writes no tag (09 R181). -/
def finVsplat (d : Nat) (t : Bool) : Eff := plain (fun e => vecOut e d 0 e.keptTag t (fun _ => (e.opa.toNat % 2 ^ elemW e.keptTag, 0#5)))

/-- VSPLAT: it writes no tag (09 R181). -/
def execVsplat (d : Nat) (a : Nat) (m : Nat) (t : Bool) (s : State) : Host.Outcome State Fault Refusal :=
  issue (.vsplat d a m t) (finVsplat d t) s

/-- VEXT (09 R181). -/
def finVext (d : Nat) (a : Nat) (t : Bool) : Eff := plain (fun e => do
  accept e a anyTag
  let x := e.ta 0
  wW d (redOut x (elemOf x e.va (elemIdx x e.opb))) t)

/-- VEXT (09 R181). -/
def execVext (d : Nat) (a : Nat) (b : Nat) (m : Nat) (t : Bool) (s : State) : Host.Outcome State Fault Refusal :=
  issue (.vext d a b m t) (finVext d a t) s

/-- VINS: it writes no tag (09 R181). -/
def finVins (d : Nat) (t : Bool) : Eff := plain (fun e => vecOut e d 0 e.keptTag t (fun i =>
  (if i = elemIdx e.keptTag e.opb then e.opa.toNat % 2 ^ elemW e.keptTag else elemOf e.keptTag (e.ext.getD 3 0) i, 0#5)))

/-- VINS: it writes no tag (09 R181). -/
def execVins (d : Nat) (a : Nat) (b : Nat) (m : Nat) (t : Bool) (s : State) : Host.Outcome State Fault Refusal :=
  issue (.vins d a b m t) (finVins d t) s

/-- VSEL: its mask selects (09 R181). -/
def finVsel (d : Nat) (a : Nat) (b : Nat) (t : Bool) : Eff := plain (fun e => do
  accept e a anyTag
  let x := e.ta 0
  matchB e b x
  let k := e.mreg 4
  laneOut { e with mask := BitVec.allOnes 64 } d 0 x t (fun i => if k.getLsbD i then lane e.va i else lane e.vb i))

/-- VSEL: its mask selects (09 R181). -/
def execVsel (d : Nat) (a : Nat) (b : Nat) (m : Nat) (t : Bool) (s : State) : Host.Outcome State Fault Refusal :=
  issue (.vsel d a b m t) (finVsel d a b t) s

/-- VPERM (09 R181). -/
def finVperm (d : Nat) (a : Nat) (b : Nat) (m : Nat) (t : Bool) : Eff := plain (fun e => do
  accept e a anyTag
  matchB e b 5
  laneOut e d m (e.ta 0) t (fun i => lane e.va (lane e.vb i % 64)))

/-- VPERM (09 R181). -/
def execVperm (d : Nat) (a : Nat) (b : Nat) (m : Nat) (t : Bool) (s : State) : Host.Outcome State Fault Refusal :=
  issue (.vperm d a b m t) (finVperm d a b m t) s

/-- VDIV (09 R183, 08 R164). -/
def finVdiv (d : Nat) (a : Nat) (b : Nat) (m : Nat) (p : Nat) : Eff := plain (fun e => do
  accept e a [subTag p]
  matchB e b (subTag p)
  vlOut e d m (subTag p) (fun i => fdiv (elemFmt (subTag p)) (elemOf (subTag p) e.va i) (elemOf (subTag p) e.vb i)))

/-- VDIV (09 R183, 08 R164). -/
def execVdiv (d : Nat) (a : Nat) (b : Nat) (m : Nat) (p : Nat) (la : Nat) (s : State) : Host.Outcome State Fault Refusal :=
  issue (.vdiv d a b m p la) (finVdiv d a b m p) s

/-- VSQRT (09 R183, 08 R164). -/
def finVsqrt (d : Nat) (a : Nat) (m : Nat) (p : Nat) : Eff := plain (fun e => vl1 e d a m (subTag p) (fsqrt (elemFmt (subTag p))))

/-- VSQRT (09 R183, 08 R164). -/
def execVsqrt (d : Nat) (a : Nat) (m : Nat) (p : Nat) (la : Nat) (s : State) : Host.Outcome State Fault Refusal :=
  issue (.vsqrt d a m p la) (finVsqrt d a m p) s

/-- VRCP (09 R183, 08 R164). -/
def finVrcp (d : Nat) (a : Nat) (m : Nat) (p : Nat) : Eff := plain (fun e => vl1 e d a m (subTag p) (frcp (elemFmt (subTag p))))

/-- VRCP (09 R183, 08 R164). -/
def execVrcp (d : Nat) (a : Nat) (m : Nat) (p : Nat) (la : Nat) (s : State) : Host.Outcome State Fault Refusal :=
  issue (.vrcp d a m p la) (finVrcp d a m p) s

/-- VEXP2.F32 (09 R183, 08 R165). -/
def finVexp2 (d : Nat) (a : Nat) (m : Nat) : Eff := plain (fun e => vl1 e d a m 1 exp2)

/-- VEXP2.F32 (09 R183, 08 R165). -/
def execVexp2 (d : Nat) (a : Nat) (m : Nat) (la : Nat) (s : State) : Host.Outcome State Fault Refusal :=
  issue (.vexp2 d a m la) (finVexp2 d a m) s

/-- VLOG2.F32 (09 R183, 08 R166). -/
def finVlog2 (d : Nat) (a : Nat) (m : Nat) : Eff := plain (fun e => vl1 e d a m 1 log2f)

/-- VLOG2.F32 (09 R183, 08 R166). -/
def execVlog2 (d : Nat) (a : Nat) (m : Nat) (la : Nat) (s : State) : Host.Outcome State Fault Refusal :=
  issue (.vlog2 d a m la) (finVlog2 d a m) s

/-- VRADD.o: the exact sum rounded once (09 R184). -/
def finVraddO (d : Nat) (a : Nat) (t : Bool) : Eff := plain (fun e => do
  accept e a floatTag
  let x := e.ta 1
  let r := exactSum (elemFmt x) ((onElems x e.mask e.va).map (elemFmt x).decode)
  raiseFlags r.2
  wW d (redOut x r.1) t)

/-- VRADD.o: the exact sum rounded once (09 R184). -/
def execVraddO (d : Nat) (a : Nat) (m : Nat) (t : Bool) (s : State) : Host.Outcome State Fault Refusal :=
  issue (.vraddO d a m t) (finVraddO d a t) s

/-- VRADD.u: the fixed lane tree (09 R184, 08 R167). -/
def finVraddU (d : Nat) (a : Nat) (t : Bool) : Eff := plain (fun e => do
  accept e a floatTag
  let x := e.ta 1
  let r := treeSum (combine x) 6
    ((List.range (elemN x)).map (fun i => if elemOn x e.mask i then some (elemOf x e.va i) else none))
  raiseFlags r.2
  wW d (redOut x ((elemFmt x).canon (r.1.getD 0))) t)

/-- VRADD.u: the fixed lane tree (09 R184, 08 R167). -/
def execVraddU (d : Nat) (a : Nat) (m : Nat) (t : Bool) (s : State) : Host.Outcome State Fault Refusal :=
  issue (.vraddU d a m t) (finVraddU d a t) s

/-- VRMIN (09 R184). -/
def finVrmin (d : Nat) (a : Nat) (t : Bool) : Eff := plain (fun e => vrm e d a t false)

/-- VRMIN (09 R184). -/
def execVrmin (d : Nat) (a : Nat) (m : Nat) (t : Bool) (s : State) : Host.Outcome State Fault Refusal :=
  issue (.vrmin d a m t) (finVrmin d a t) s

/-- VRMAX (09 R184). -/
def finVrmax (d : Nat) (a : Nat) (t : Bool) : Eff := plain (fun e => vrm e d a t true)

/-- VRMAX (09 R184). -/
def execVrmax (d : Nat) (a : Nat) (m : Nat) (t : Bool) (s : State) : Host.Outcome State Fault Refusal :=
  issue (.vrmax d a m t) (finVrmax d a t) s

/-- VSCAN.o (09 R184, 08 R167). -/
def finVscanO (d : Nat) (a : Nat) (m : Nat) (t : Bool) : Eff := plain (fun e => vscan e d a m t true)

/-- VSCAN.o (09 R184, 08 R167). -/
def execVscanO (d : Nat) (a : Nat) (b : Nat) (m : Nat) (t : Bool) (s : State) : Host.Outcome State Fault Refusal :=
  issue (.vscanO d a b m t) (finVscanO d a m t) s

/-- VSCAN.u (09 R184, 08 R167). -/
def finVscanU (d : Nat) (a : Nat) (m : Nat) (t : Bool) : Eff := plain (fun e => vscan e d a m t false)

/-- VSCAN.u (09 R184, 08 R167). -/
def execVscanU (d : Nat) (a : Nat) (b : Nat) (m : Nat) (t : Bool) (s : State) : Host.Outcome State Fault Refusal :=
  issue (.vscanU d a b m t) (finVscanU d a m t) s

/-- VIRADD: the sum modulo 2^32 (09 R184). -/
def finViradd (d : Nat) (a : Nat) (t : Bool) : Eff := plain (fun e => do
  accept e a [5]
  wW d (redOut 5 ((onElems 5 e.mask e.va).foldl (· + ·) 0 % 2 ^ 32)) t)

/-- VIRADD: the sum modulo 2^32 (09 R184). -/
def execViradd (d : Nat) (a : Nat) (m : Nat) (t : Bool) (s : State) : Host.Outcome State Fault Refusal :=
  issue (.viradd d a m t) (finViradd d a t) s

/-- VCVT.rne (09 R185). -/
def finVcvtRne (d : Nat) (a : Nat) (b : Nat) (m : Nat) (t : Bool) : Eff := plain (fun e => vcvt e d a b m t .rne)

/-- VCVT.rne (09 R185). -/
def execVcvtRne (d : Nat) (a : Nat) (b : Nat) (m : Nat) (t : Bool) (s : State) : Host.Outcome State Fault Refusal :=
  issue (.vcvtRne d a b m t) (finVcvtRne d a b m t) s

/-- VCVT.rtz (09 R185). -/
def finVcvtRtz (d : Nat) (a : Nat) (b : Nat) (m : Nat) (t : Bool) : Eff := plain (fun e => vcvt e d a b m t .rtz)

/-- VCVT.rtz (09 R185). -/
def execVcvtRtz (d : Nat) (a : Nat) (b : Nat) (m : Nat) (t : Bool) (s : State) : Host.Outcome State Fault Refusal :=
  issue (.vcvtRtz d a b m t) (finVcvtRtz d a b m t) s

/-- VCVT.rdn (09 R185). -/
def finVcvtRdn (d : Nat) (a : Nat) (b : Nat) (m : Nat) (t : Bool) : Eff := plain (fun e => vcvt e d a b m t .rdn)

/-- VCVT.rdn (09 R185). -/
def execVcvtRdn (d : Nat) (a : Nat) (b : Nat) (m : Nat) (t : Bool) (s : State) : Host.Outcome State Fault Refusal :=
  issue (.vcvtRdn d a b m t) (finVcvtRdn d a b m t) s

/-- VCVT.rup (09 R185). -/
def finVcvtRup (d : Nat) (a : Nat) (b : Nat) (m : Nat) (t : Bool) : Eff := plain (fun e => vcvt e d a b m t .rup)

/-- VCVT.rup (09 R185). -/
def execVcvtRup (d : Nat) (a : Nat) (b : Nat) (m : Nat) (t : Bool) (s : State) : Host.Outcome State Fault Refusal :=
  issue (.vcvtRup d a b m t) (finVcvtRup d a b m t) s

/-- VCVT.SR: stochastic rounding with one random word a lane (09 R186, 08 R155). -/
def finVcvtSr (d : Nat) (a : Nat) (f : Nat) (t : Bool) : Eff := plain (fun e => do
  accept e a [1, 2, 3, 4, 5]
  let dd ← descCheck (fun k => k == 0) f
  vcvtOut e d 0 dd t (fun i => .sr (lane e.vb i)))

/-- VCVT.SR: stochastic rounding with one random word a lane (09 R186, 08 R155). -/
def execVcvtSr (d : Nat) (a : Nat) (b : Nat) (f : Nat) (t : Bool) (s : State) : Host.Outcome State Fault Refusal :=
  issue (.vcvtSr d a b f t) (finVcvtSr d a f t) s

/-- VPACKB: four blocks in memory form (09 R188, 08 R158). -/
def finVpackb (d : Nat) (a : Nat) (b : Nat) (t : Bool) : Eff := plain (fun e => do
  accept e a [1]
  let f ← descCheck (fun k => k == 0) b
  let k := e.mreg 4
  let bs := (List.range 4).map (fun q => encodeBlock (descFmt f) true .rne ((List.range 16).map (fun j =>
    if k.getLsbD (16 * q + j) then fF32.decode (lane e.va (16 * q + j)) else .fin false 0 0)))
  raiseFlags (bs.foldl (fun fl x => fl ||| x.flags) 0#5)
  wV d (ofLanes 144 (bs.map Block.num)) 0 t)

/-- VPACKB: four blocks in memory form (09 R188, 08 R158). -/
def execVpackb (d : Nat) (a : Nat) (b : Nat) (m : Nat) (t : Bool) (s : State) : Host.Outcome State Fault Refusal :=
  issue (.vpackb d a b m t) (finVpackb d a b t) s

/-- VUNPACKB: the elements of four blocks as F32 (09 R188, 08 R156). -/
def finVunpackb (d : Nat) (a : Nat) (b : Nat) (m : Nat) (t : Bool) : Eff := plain (fun e => do
  accept e a anyTag
  let f ← descCheck (fun k => k == 0) b
  vecOut e d m 1 t (fun i => fF32.convert .rne (blockVal (descFmt f) (slice e.va (18 * (i / 16)) 18) (i % 16))))

/-- VUNPACKB: the elements of four blocks as F32 (09 R188, 08 R156). -/
def execVunpackb (d : Nat) (a : Nat) (b : Nat) (m : Nat) (t : Bool) (s : State) : Host.Outcome State Fault Refusal :=
  issue (.vunpackb d a b m t) (finVunpackb d a b m t) s

/-- VFTOI: under RNE, saturating (09 R187). -/
def finVftoi (d : Nat) (a : Nat) (m : Nat) (t : Bool) : Eff := plain (fun e => do
  accept e a [1]
  vecOut e d m 5 t (fun i => toI32 (fF32.decode (lane e.va i))))

/-- VFTOI: under RNE, saturating (09 R187). -/
def execVftoi (d : Nat) (a : Nat) (m : Nat) (t : Bool) (s : State) : Host.Outcome State Fault Refusal :=
  issue (.vftoi d a m t) (finVftoi d a m t) s

/-- VITOF: under RNE (09 R187). -/
def finVitof (d : Nat) (a : Nat) (m : Nat) (t : Bool) : Eff := plain (fun e => do
  accept e a [5]
  vecOut e d m 1 t (fun i => fF32.convert .rne (srcVal 5 e.va i)))

/-- VITOF: under RNE (09 R187). -/
def execVitof (d : Nat) (a : Nat) (m : Nat) (t : Bool) (s : State) : Host.Outcome State Fault Refusal :=
  issue (.vitof d a m t) (finVitof d a m t) s

/-- VFMA: rounded once (09 R177). -/
def finVfma (d : Nat) (a : Nat) (b : Nat) (m : Nat) (t : Bool) : Eff := plain (fun e => fma e d a b m t false false)

/-- VFMA: rounded once (09 R177). -/
def execVfma (d : Nat) (a : Nat) (b : Nat) (m : Nat) (t : Bool) (s : State) : Host.Outcome State Fault Refusal :=
  issue (.vfma d a b m t) (finVfma d a b m t) s

/-- VFMS: rounded once (09 R177). -/
def finVfms (d : Nat) (a : Nat) (b : Nat) (m : Nat) (t : Bool) : Eff := plain (fun e => fma e d a b m t false true)

/-- VFMS: rounded once (09 R177). -/
def execVfms (d : Nat) (a : Nat) (b : Nat) (m : Nat) (t : Bool) (s : State) : Host.Outcome State Fault Refusal :=
  issue (.vfms d a b m t) (finVfms d a b m t) s

/-- VFNMA: rounded once (09 R177). -/
def finVfnma (d : Nat) (a : Nat) (b : Nat) (m : Nat) (t : Bool) : Eff := plain (fun e => fma e d a b m t true true)

/-- VFNMA: rounded once (09 R177). -/
def execVfnma (d : Nat) (a : Nat) (b : Nat) (m : Nat) (t : Bool) (s : State) : Host.Outcome State Fault Refusal :=
  issue (.vfnma d a b m t) (finVfnma d a b m t) s

/-- VFNMS: rounded once (09 R177). -/
def finVfnms (d : Nat) (a : Nat) (b : Nat) (m : Nat) (t : Bool) : Eff := plain (fun e => fma e d a b m t true false)

/-- VFNMS: rounded once (09 R177). -/
def execVfnms (d : Nat) (a : Nat) (b : Nat) (m : Nat) (t : Bool) (s : State) : Host.Outcome State Fault Refusal :=
  issue (.vfnms d a b m t) (finVfnms d a b m t) s

/-- MAND (09 R189). -/
def finMand (d : Nat) (t : Bool) : Eff := plain (fun e => do
  let x := e.mreg 2
  let y := e.mreg 3
  modCx (fun c => c.writeM d (x &&& y) t))

/-- MAND (09 R189). -/
def execMand (d : Nat) (a : Nat) (b : Nat) (t : Bool) (s : State) : Host.Outcome State Fault Refusal :=
  issue (.mand d a b t) (finMand d t) s

/-- MOR (09 R189). -/
def finMor (d : Nat) (t : Bool) : Eff := plain (fun e => do
  let x := e.mreg 2
  let y := e.mreg 3
  modCx (fun c => c.writeM d (x ||| y) t))

/-- MOR (09 R189). -/
def execMor (d : Nat) (a : Nat) (b : Nat) (t : Bool) (s : State) : Host.Outcome State Fault Refusal :=
  issue (.mor d a b t) (finMor d t) s

/-- MXOR (09 R189). -/
def finMxor (d : Nat) (t : Bool) : Eff := plain (fun e => do
  let x := e.mreg 2
  let y := e.mreg 3
  modCx (fun c => c.writeM d (x ^^^ y) t))

/-- MXOR (09 R189). -/
def execMxor (d : Nat) (a : Nat) (b : Nat) (t : Bool) (s : State) : Host.Outcome State Fault Refusal :=
  issue (.mxor d a b t) (finMxor d t) s

/-- MANDN (09 R189). -/
def finMandn (d : Nat) (t : Bool) : Eff := plain (fun e => do
  let x := e.mreg 2
  let y := e.mreg 3
  modCx (fun c => c.writeM d (x &&& ~~~y) t))

/-- MANDN (09 R189). -/
def execMandn (d : Nat) (a : Nat) (b : Nat) (t : Bool) (s : State) : Host.Outcome State Fault Refusal :=
  issue (.mandn d a b t) (finMandn d t) s

/-- MNOT (09 R189). -/
def finMnot (d : Nat) (t : Bool) : Eff := plain (fun e => do
  let x := e.mreg 2
  modCx (fun c => c.writeM d (~~~x) t))

/-- MNOT (09 R189). -/
def execMnot (d : Nat) (a : Nat) (t : Bool) (s : State) : Host.Outcome State Fault Refusal :=
  issue (.mnot d a t) (finMnot d t) s

/-- MPOPC (09 R189). -/
def finMpopc (d : Nat) (t : Bool) : Eff := plain (fun e => do
  let x := e.mreg 2
  wW d (BitVec.ofNat 64 (activeLanes x).length) t)

/-- MPOPC (09 R189). -/
def execMpopc (d : Nat) (a : Nat) (t : Bool) (s : State) : Host.Outcome State Fault Refusal :=
  issue (.mpopc d a t) (finMpopc d t) s

end Sys2Proof.Machine
end

