-- ==== Sys2Proof/Machine/Message.lean ====
section
/-! DEFINITION. Messages: sending, the hold buffer, receive rings, streams, and remote matrix commands on their way (04
R66-R76). -/

namespace Sys2Proof.Machine

/-! ### Events -/

/-- An event of a unit that the device has, or the fault of one that it does not have. -/
def eventOn (ok : Bool) (s : State) : Host.Outcome State Fault Refusal := if ok then .next s else .fault .noSuchUnit

/-- Puts the result of the waiting entry that `p` finds into the context's mailbox. -/
def Ctx.answer (c : Ctx) (p : Entry → Bool) (r : Res) : Ctx :=
  match c.flow.inflight.find? (fun e => p e && !c.results.any (fun x => x.1 == e.seq)) with
  | some e => { c with results := c.results ++ [(e.seq, r)] }
  | none => c

/-- Takes the result for an entry out of the mailbox. -/
def takeRes (e : Entry) : M (Option Res) := fun s =>
  let c := s.cx
  match Tbl.find c.results e.seq with
  | none => .ok (none, s)
  | some r => .ok (some r, s.setCx { c with results := c.results.filter (fun x => x.1 != e.seq) })

/-- A non-zero limit is refused under a declared promise (19 R362). -/
def promiseLimit (limit : W64) : M Unit := fun s =>
  if limit ≠ 0 ∧ 1 ≤ ((s.cc.part.map (·.promise)).getD 0) then .error (.trap .prot 0x33 0 true) else .ok ((), s)

/-! ### Destination words (04 R66) -/

/-- A must-be-zero bit is set, the core does not exist, or DEV is not zero for this device. -/
def destBad (w : Nat) : Bool :=
  bits w 62 48 != 0 || bits w 31 21 != 0 || bit w 19 || bits w 15 11 != 0 || decide (1535 < bits w 10 0)
    || (!bit w 63 && bits w 47 32 != 0)

/-- FAB, EOS or RING is set. -/
def destPlain (w : Nat) : Bool := !bit w 63 && !bit w 20 && bits w 18 16 == 0

/-- The message that the running context sends. -/
def State.mkMsg (s : State) (dest : W64) (payload : List Byte) : Msg :=
  let w := dest.toNat
  { dest := bits w 10 0, ring := bits w 18 16, eos := bit w 20, fab := bit w 63,
    sdev := if bit w 63 then s.devnum.getD 0 else 0, sdom := s.cc.domain, score := s.cur.1, sctx := s.cur.2,
    destWord := dest, payload := payload }

/-- The offset of an address in the core's own local store (06 R101); whether there is memory at it is the access's concern (06 R102). -/
def ownOffset (va : W64) : M Nat := do
  let k ← getCur
  if ownWindow k.1 va then pure (va.toNat % 2 ^ 20) else trapPre .prot 0x1B va

/-- The context has an earlier instruction of a kind whose effect has not been made. -/
def Ctx.hasEarlier (c : Ctx) (e : Entry) (p : Entry → Bool) : Bool :=
  c.flow.inflight.any (fun x => decide (x.seq < e.seq) && !c.effected x && p x)

/-- Waits for the context's earlier instructions of a kind that are not finished. -/
def afterEarlier (e : Entry) (p : Entry → Bool) : M Unit := do
  let c ← getCx
  if c.hasEarlier e p then waitM else pure ()

/-- SEND, SENDS, HOIST and STRIKE, which one context carries out in program order (04 R67, R68). -/
def Entry.sends (e : Entry) : Bool :=
  match e.instr with
  | .send .. | .sends .. | .hoist .. | .strike .. => true
  | _ => false

/-- Checks a payload and captures it, after the context's earlier stores (04 R67). -/
def payload (e : Entry) (limit : Nat) : M (List Byte) := do
  if destBad e.opd.toNat then trapPre .prot 0x1C e.opd
  else
    let _ ← ownOffset e.opa
    let n := e.opb.toNat
    alignTo e.opa 8 0x30
    if n = 0 ∨ n % 8 ≠ 0 ∨ limit < n then trapPre .align 0x31 e.opb
    else
      let _ ← ownOffset (e.opa + BitVec.ofNat 64 (n - 1))
      let w ← e.who
      let l ← accessM w e.opa n .read .ls
      afterEarlier e (fun x => writes x.instr)
      afterEarlier e Entry.sends
      let v ← loadAt w l n
      pure (toBytes n v)

/-! ### Send queue and hold buffer (04 R67, R68) -/

/-- Room in a core's send queue. -/
def Core.sendRoom (x : Core) : Nat := 16 - x.sendq.length

/-- Messages that the contexts of a table hold. -/
def heldIn (t : Tbl Ctx) : Nat := (t.map (fun p => p.2.held.length)).foldl (· + ·) 0

/-- Entries of a core's hold buffer in use, those of pre-empted contexts among them (04 R68). -/
def State.holds (s : State) (core : Nat) : Nat :=
  heldIn (s.core core).ctxs + ((s.launch.stopped.filter (fun p => p.core == core)).map (fun p => heldIn p.ctxs)).foldl (· + ·) 0

/-! ### Arrival (04 R63, R71) -/

/-- A message reaches its receiving core: while the domain of that core is halted it is held at the receiving die (19 R369), and waits at
its port while the buffer there is full (18 R355). -/
def State.msgReach (s : State) (m : Msg) : Option State :=
  if s.admin.halting == some (s.core m.dest).domain then (if s.admin.fits (.msg m) then some (s.hold (.msg m)) else none)
  else some (s.msgArrive m)

/-- The message was sent by a core of this package. -/
def State.sentHere (s : State) (m : Msg) : Bool := !m.fab || s.devnum == some m.sdev

/-- Takes a message that leaves from the head of its sender's queue. -/
def State.unsend (s : State) (m : Msg) : State :=
  let x := s.core m.score
  if s.sentHere m && x.sendq.head? == some m then s.setCore m.score { x with sendq := x.sendq.drop 1 } else s

/-- MSGFAIL to the sender, with bits [51:0] of the destination word (04 R63, 05 R89). -/
def State.msgFail (s : State) (m : Msg) : State :=
  s.post m.score ⟨0x04, 0, 0, m.sctx, 0, m.destWord &&& 0xFFFFFFFFFFFFF#64, false, 0⟩

/-- The head of a core's send queue leaves: it arrives in this package, goes out over the fabric, or fails (04 R63, R64). -/
def State.sendHead (s : State) (core : Nat) : Option State :=
  match (s.core core).sendq with
  | [] => none
  | m :: _ =>
    let dev := bits m.destWord.toNat 47 32
    let s1 := s.unsend m
    if !m.fab || s.devnum == some dev then s1.msgReach m else some (if s.reachable dev then s1 else s1.msgFail m)

/-- The network interface may receive the message: one of the fabric comes only while the device has its number (04 R64). -/
def State.receives (s : State) (m : Msg) : Bool := !m.fab || s.devnum.isSome

/-- A message reaches the network interface of its core (04 R64, R71). -/
def execMessageArrival (msg : Msg) (s : State) : Host.Outcome State Fault Refusal :=
  eventOn (decide (msg.dest < 1536 ∧ msg.ring < 8 ∧ msg.score < 1536))
    (if s.receives msg then ((s.unsend msg).msgReach msg).getD s else s)

/-- A message to an unreachable device fails (04 R63). -/
def execMessageFail (msg : Msg) (s : State) : Host.Outcome State Fault Refusal :=
  eventOn (decide (msg.score < 1536)) ((s.unsend msg).msgFail msg)

/-! ### Rings (04 R72, R73) -/

/-- An enabled ring, or PROT code 0x19. -/
def ringOn (n : Nat) : M RxRing := do
  let x ← getCc
  match Tbl.find x.rx n with
  | some r => pure r
  | none => trapPost .prot 0x19 (BitVec.ofNat 64 n)

/-- The ring of RBWAIT and RBADV: enabled and unbound. -/
def ringFree (n : W64) : M RxRing := do
  if 7 < n.toNat then trapPre .prot 0x1C n
  else
    let r ← ringOn n.toNat
    let x ← getCc
    if (Tbl.find x.bound n.toNat).isSome then trapPost .prot 0x18 n else pure r

/-- Writes a local-store doubleword of the running core. -/
def pokeOwn (off : Nat) (v : W64) : M Unit := fun s =>
  .ok ((), if beyondLs (off + 7) then s else s.poke (.ls s.cur.1 off) 8 v.toNat)

/-- SEND (04 R67). -/
def finSend : Eff := plain (fun e => do
  let p ← payload e 4088
  let x ← getCc
  if x.sendRoom = 0 then waitM
  else fun s => .ok ((), s.setCc { s.cc with sendq := s.cc.sendq ++ [s.mkMsg e.opd p] }))

/-- SEND (04 R67). -/
def execSend (d : Nat) (a : Nat) (b : Nat) (g : Nat) (la : Nat) (s : State) : Host.Outcome State Fault Refusal :=
  issue (.send d a b g la) finSend s

/-- SENDS: the message is held (04 R67, R68). -/
def finSends : Eff := plain (fun e => do
  let p ← payload e 248
  let s ← get
  if 64 ≤ s.cx.held.length then trapPost .prot 0x1D 0
  else if 64 ≤ s.holds s.cur.1 then waitM
  else fun s => .ok ((), s.setCx { s.cx with held := s.cx.held ++ [s.mkMsg e.opd p] }))

/-- SENDS: the message is held (04 R67, R68). -/
def execSends (d : Nat) (a : Nat) (b : Nat) (g : Nat) (la : Nat) (s : State) : Host.Outcome State Fault Refusal :=
  issue (.sends d a b g la) finSends s

/-- HOIST: held messages enter the send queue in order, as it has room (04 R68). -/
def finHoist : Eff := fun e => do
  afterEarlier e Entry.sends
  let x ← getCc
  let c ← getCx
  modCc (fun y => { y with sendq := y.sendq ++ c.held.take x.sendRoom })
  modCx (fun c => { c with held := c.held.drop x.sendRoom })
  pure (if c.held.length ≤ x.sendRoom then .done else .stay)

/-- HOIST: held messages enter the send queue in order, as it has room (04 R68). -/
def execHoist (g : Nat) (s : State) : Host.Outcome State Fault Refusal :=
  issue (.hoist g) finHoist s

/-- STRIKE: held messages are discarded (04 R68). -/
def finStrike : Eff := plain (fun e => do
  afterEarlier e Entry.sends
  modCx (fun c => { c with held := [] }))

/-- STRIKE: held messages are discarded (04 R68). -/
def execStrike (g : Nat) (s : State) : Host.Outcome State Fault Refusal :=
  issue (.strike g) finStrike s

/-- MCMD: one command for the matrix engine of a core (04 R74). A destination word with FAB set raises PROT also before DEVNUM is VALID, when
04 R64 names MSGFAIL for it; so does that of EVPOST (DESIGN CHOICE, log entry 75). -/
def finMcmd : Eff := plain (fun e => do
  let w := e.opd.toNat
  if !destPlain w then trapPre .prot 0x1E e.opd
  else if destBad w then trapPre .prot 0x1C e.opd
  else
    let _ ← ownOffset e.opa
    let _ ← ownOffset (e.opa + 31)
    let wh ← e.who
    let l ← accessM wh e.opa 32 .read .ls
    let v ← loadAt wh l 32
    fun s => .ok ((), { s with net := { s.net with rcmds := s.net.rcmds ++ [{
      target := bits w 10 0, score := s.cur.1, sctx := s.cur.2, sdom := s.cc.domain, ensign := e.opb.toNat % 2 ^ 32,
      word := BitVec.ofNat 32 (slice v 0 4), opd := BitVec.ofNat 64 (slice v 8 8), opa := BitVec.ofNat 64 (slice v 16 8),
      opb := BitVec.ofNat 64 (slice v 24 8), destWord := e.opd }] } }))

/-- MCMD: one command for the matrix engine of a core (04 R74). -/
def execMcmd (d : Nat) (a : Nat) (b : Nat) (g : Nat) (la : Nat) (s : State) : Host.Outcome State Fault Refusal :=
  issue (.mcmd d a b g la) finMcmd s

/-- RBWAIT: the address of the current message, or 0 once its limit has passed (04 R72). -/
def finRbwait (d : Nat) : Eff := plain (fun e => do
  match ← takeRes e with
  | some (.w v) => wFin e d v
  | _ =>
    if 7 < e.opa.toNat then trapPre .prot 0x1C e.opa else pure ()
    promiseLimit e.opb
    let r ← ringFree e.opa
    let k ← getCur
    match r.current with
    | none => waitM
    | some (ovf, slot) => wFin e d (if ovf then BitVec.ofNat 64 slot else windowAddr k.1 slot))

/-- RBWAIT: the address of the current message, or 0 once its limit has passed (04 R72). -/
def execRbwait (d : Nat) (a : Nat) (b : Nat) (g : Nat) (la : Nat) (s : State) : Host.Outcome State Fault Refusal :=
  issue (.rbwait d a b g la) (finRbwait d) s

/-- The address lies in the slot of the current message. -/
def RxRing.inSlot (r : RxRing) (core : Nat) (a : W64) : Bool :=
  match r.current with
  | none => false
  | some (false, slot) => ownWindow core a && decide (slot ≤ a.toNat % 2 ^ 20 ∧ a.toNat % 2 ^ 20 < slot + 2 ^ r.slotLog)
  | some (true, slot) => decide (slot ≤ a.toNat ∧ a.toNat < slot + 2 ^ r.slotLog)

/-- RBADV: the current message, if there is one, goes after the loads of the context before it (04 R72). -/
def finRbadv : Eff := plain (fun e => do
  let r ← ringFree e.opa
  let k ← getCur
  afterEarlier e (fun x => if parks x.instr then r.inSlot k.1 x.opa else loads x.instr)
  if r.current.isNone then pure () else fun s => .ok ((), s.setRx s.cur.1 e.opa.toNat r.advance))

/-- RBADV: the current message goes, after the loads of the context before it (04 R72). -/
def execRbadv (a : Nat) (g : Nat) (s : State) : Host.Outcome State Fault Refusal :=
  issue (.rbadv a g) finRbadv s

/-- STBIND (04 R73). -/
def finStbind : Eff := plain (fun e => do
  if 7 < e.opd.toNat then trapPre .prot 0x1C e.opd
  else
    let n := e.opd.toNat
    let _ ← ringOn n
    let x ← getCc
    let c ← getCx
    if (Tbl.find x.bound n).isSome then trapPost .prot 0x18 e.opd
    else if c.stream.isSome then trapPost .prot 0x1A e.opd
    else
      let k ← getCur
      pokeOwn (x.rxDesc n + 40) e.opa
      modCc (fun x => { x with bound := Tbl.put x.bound n k.2 })
      modCx (fun c => { c with stream := some ⟨n, e.opb.toNat % 2 ^ 8, 0⟩ }))

/-- STBIND (04 R73). -/
def execStbind (d : Nat) (a : Nat) (b : Nat) (g : Nat) (s : State) : Host.Outcome State Fault Refusal :=
  issue (.stbind d a b g) finStbind s

/-- STUNBIND: a partly consumed message is discarded (04 R73). -/
def finStunbind : Eff := plain (fun _ => fun s =>
  match s.cx.stream with
  | none => .ok ((), s)
  | some t =>
    let s := match Tbl.find s.cc.rx t.ring with
      | some r => if t.used = 0 then s else s.setRx s.cur.1 t.ring r.advance
      | none => s
    let s := s.setCc { s.cc with bound := Tbl.erase s.cc.bound t.ring }
    .ok ((), s.setCx { s.cx with stream := none }))

/-- STUNBIND: a partly consumed message is discarded (04 R73). -/
def execStunbind (g : Nat) (s : State) : Host.Outcome State Fault Refusal :=
  issue (.stunbind g) finStunbind s

/-- An RBWAIT limit passes (04 R72): the wait answers 0. -/
def execRbwaitTimeout (core ctx : Nat) (s : State) : Host.Outcome State Fault Refusal :=
  eventOn (decide (core < 1536 ∧ ctx < 11)) (s.setCtx core ctx ((s.ctx core ctx).answer (fun e =>
    (match e.instr with
      | .rbwait .. => true
      | _ => false) && e.opb != 0) (.w 0)))

end Sys2Proof.Machine
end

