-- ==== Sys2Proof/Machine/Copy.lean ====
section
/-! DEFINITION. Copy engines and the event queue (05 R77-R94). A copy command reads its words, and then writes them, a free part of
them at a time (R84, R85). -/

namespace Sys2Proof.Machine

/-! ### Control words and checks (05 R77, R79-R82) -/

/-- Fields of a control word. -/
def ctlEng (c : Nat) : Nat := bits c 63 62
def ctlTag (c : Nat) : Nat := bits c 55 48
def ctlRop (c : Nat) : Nat := bits c 47 44
def ctlFmt (c : Nat) : Nat := bits c 43 40
def ctlLen (c : Nat) : Nat := bits c 31 0

/-- An address in the cluster window (06 R101). -/
def inWindow (va : W64) : Bool := bits va.toNat 63 44 == 0xFF

/-- A reserved value or a must-be-zero bit. -/
def ctlBad (c : Nat) : Bool :=
  ctlEng c == 3 || decide (4 < bits c 61 59) || bits c 58 56 != 0 || decide (4 < ctlRop c) || decide (6 < ctlFmt c)
    || bits c 35 32 != 0

/-- The ENG rule: the copy unit needs a side in the cluster window, a bulk engine none (05 R77). -/
def engBad (c : Nat) (dst src : W64) : Bool := (inWindow dst || inWindow src) != (ctlEng c == 0)

/-- Bytes of an element of RFMT 0 to 5. -/
def rfmtBytes (r : Nat) : Nat :=
  match r with
  | 0 => 4
  | 1 => 2
  | 2 => 2
  | 4 => 4
  | _ => 8

/-- The combination stands in the table of 05 R82; `ordered` is the .o form. -/
def redOk (c : Nat) (ordered : Bool) : Bool :=
  let r := ctlFmt c
  match ctlRop c with
  | 1 => if r = 4 ∨ r = 5 then true else if ordered then r != 3 && (r != 6 || ctlLen c % 72 == 0) else r != 6
  | 2 => r != 6
  | 3 => r != 6
  | 4 => ordered && decide (r < 3) && ctlLen c % 64 == 0
  | _ => false

/-- PROT code 0x14, with the control word or the address of the record as its auxiliary word (DESIGN CHOICE, log entry 43). -/
def copyBad {α : Type} (aux : W64) (pre : Bool) : M α := fun _ => .error (.trap .prot 0x14 aux pre)

/-- The copy commands of a core in its queue and its engines. -/
def Core.copies (x : Core) : List Copy := x.copyq ++ x.copyRun

/-- A number above that of every copy command. -/
def State.copyId (s : State) : Nat :=
  (s.cores.map (fun p => (p.2.copies.map (fun c => c.id + 1)).foldl max 0)).foldl max 0

/-- The record of a finished command (05 R90). -/
def Copy.record (c : Copy) (total : Nat) : EvRec :=
  match c.err with
  | some (code, a) => ⟨0x02, ctlTag c.ctl.toNat, code, c.ctx, 0, BitVec.ofNat 64 (a.toNat % 2 ^ 52), false, c.seq⟩
  | none => ⟨0x01, ctlTag c.ctl.toNat, 0, c.ctx, total, BitVec.ofNat 64 (c.dst.toNat % 2 ^ 52 + c.flags.toNat * 2 ^ 59), false, c.seq⟩

/-- Bytes that a command copies. -/
def Copy.total (c : Copy) : Nat :=
  match c.form with
  | 1 => c.rows * ctlLen c.ctl.toNat
  | 2 => c.rows * ctlLen c.ctl.toNat
  | _ => ctlLen c.ctl.toNat

/-- Places a command in the copy queue, waiting while it is full; one of no bytes posts its record at once (05 R81). -/
def enqueue (c : Copy) : M Bool := fun s =>
  if c.total = 0 then .ok (true, s.post s.cur.1 (c.record 0))
  else if 2 ≤ s.cc.copyq.length then .ok (false, s)
  else .ok (true, s.setCc { s.cc with copyq := s.cc.copyq ++ [{ c with id := s.copyId }] })

/-- The command of an entry. -/
def mkCopy (e : Entry) (form : Nat) (ctl : W64) : M Copy := fun s =>
  .ok ({ id := 0, seq := e.seq, core := s.cur.1, ctx := s.cur.2, domain := s.cc.domain, priv := e.priv, form := form,
         ctl := ctl, dst := e.opd, src := e.opa, rows := 1, dstride := 0, sstride := 0, idx := 0, mode := 0, desc := 0,
         started := false, stage := 0, reads := [], data := [], runs := [], todo := [], flags := 0, err := none }, s)

/-- Address and length alignment of 05 R81. -/
def copyAlign (e : Entry) (ctl : Nat) (pre : Bool) (also : Bool) : M Unit := fun s =>
  let bad : Option W64 := if e.opd.toNat % 8 ≠ 0 then some e.opd else if e.opa.toNat % 8 ≠ 0 then some e.opa
    else if ctlLen ctl % 8 ≠ 0 ∨ also then some e.opb else none
  match bad with
  | some a => .error (.trap .align 0x32 a pre)
  | none => .ok ((), s)

/-- The record of CP2D or CPIDX in the core's own local store (05 R80, R81). -/
def copyRecord (e : Entry) : M Nat := do
  if e.opb.toNat % 8 ≠ 0 then trapPre .prot 0x1B e.opb
  else
    let _ ← ownOffset e.opb
    let _ ← ownOffset (e.opb + 31)
    let w ← e.who
    let l ← accessM w e.opb 32 .read .ls
    loadAt w l 32

/-- The record that the entry holds, or the record in local store. -/
def heldRecord (e : Entry) (read : M Nat) : M Nat :=
  match e.ext.drop 2 with
  | [r] => pure r
  | _ => read

/-- The entry waits with what it captured, from its first wait on. -/
def holdOr (e : Entry) (ext : List Nat) : M Fin := if e.ext.length = ext.length then waitM else pure (.hold ext)

/-- The command may write the word at an address: one of its runs covers it, addresses compared by their offset in a page of 64 KiB. -/
def Copy.mayWrite (c : Copy) (va : W64) : Bool :=
  let len := ctlLen c.ctl.toNat
  let over_ (d : W64) : Bool := decide (2 ^ 16 ≤ len + 8 ∨ (va - d).toNat % 2 ^ 16 < len)
  match c.form with
  | 0 => over_ c.dst
  | 1 => (List.range c.rows).any (fun i => over_ (c.dst + BitVec.ofNat 64 i * c.dstride))
  | 2 => c.mode != 0 || decide (2 ^ 16 ≤ c.rows * len + 8 ∨ (va - c.dst).toNat % 2 ^ 16 < c.rows * len)
  | _ => true

/-- The word accesses memory as the context's own access. -/
def Entry.accesses (x : Entry) : Bool := loads x.instr || writes x.instr

/-- An earlier access of the context that is to be made before the command is placed: a load or store, and a request that may be parked
where the command may write its word (05 R84, R88; DEDUCED, log entry 32). -/
def Copy.follows (c : Copy) (x : Entry) : Bool :=
  if parks x.instr then c.mayWrite x.opa else x.accesses

/-- Issuing a copy command is a core-scope release (05 R84): the context's stores on their way land first, and its earlier accesses that
are not finished are made. -/
def copyRelease (e : Entry) (p : Entry → Bool) : M Unit := do
  nearRelease
  afterEarlier e p

/-- The release of a copy command may still have to wait. -/
def State.copyUnreleased (s : State) (e : Entry) (p : Entry → Bool) : Bool :=
  s.nearWaits || s.cx.hasEarlier e p

/-- Places a command whose record is captured; while the queue is full the entry holds the record. -/
def enqueueHeld (e : Entry) (r : Nat) (k : Copy) : M Fin := do
  let s ← get
  if s.copyUnreleased e k.follows then return ← holdOr e [0, 0, r]
  let placed ← enqueue k
  if placed then pure .done else holdOr e [0, 0, r]

/-- Places a command, waiting while the queue is full. -/
def enqueueWait (e : Entry) (k : Copy) : M Unit := do
  copyRelease e k.follows
  let placed ← enqueue k
  if placed then pure () else waitM

/-- CPRED.o and CPRED.u (05 R82). RFMT 6 needs a block descriptor, KIND 6 to 8; the spec names no fault for a valid descriptor of another
KIND, and FORMAT with WANT and HAVE 0xFF is raised as for an invalid one (DESIGN CHOICE, log entry 76). -/
def cpred (e : Entry) (ordered : Bool) : M Unit := do
  let c := e.opb.toNat
  if ctlBad c || ctlRop c == 0 || engBad c e.opd e.opa || !redOk c ordered then copyBad e.opb true
  else
    copyAlign e c true false
    let cx ← getCx
    let f := (cx.fOf (bits c 39 36)).toNat
    if ctlFmt c = 6 ∧ ¬ (descValid f ∧ descKind f = 0) then format 0xFF 0xFF (96 + bits c 39 36)
    else
      let k ← mkCopy e (if ordered then 3 else 4) e.opb
      enqueueWait e { k with desc := BitVec.ofNat 32 f }

/-! ### The event queue (05 R89-R92) -/

/-- Slots of the overflow area. -/
def Core.evSlots (x : Core) : Nat := if x.evovfb.toNat % 32 = 0 then 0 else 2 ^ (x.evovfb.toNat % 32)

/-- The two words of a record (05 R89). -/
def evNum (r : EvRec) : Nat :=
  r.kind * 2 ^ 56 + r.tag % 2 ^ 8 * 2 ^ 48 + r.status * 2 ^ 40 + r.ctx * 2 ^ 36 + r.count % 2 ^ 32 + r.word1.toNat * 2 ^ 64

/-- Address of an overflow slot. -/
def Core.evSlot (x : Core) (n : Nat) : Nat := bits x.evovfb.toNat 51 12 * 2 ^ 12 + 16 * (n % x.evSlots)

/-- A record is discarded (05 R91). -/
def State.evLost (s : State) (core : Nat) : State :=
  let x := s.core core
  let t := Tbl.set 0 x.creg 0x063 (Tbl.get 0 x.creg 0x063 + 1)
  s.setCore core { x with creg := Tbl.set 0 t 0x062 (Tbl.get 0 x.creg 0x062 ||| 2) }

/-- A record reaches the event queue of its core (05 R91). The access to the overflow area is privileged (DESIGN CHOICE, log entry
54). -/
def State.recArrive (s : State) (core : Nat) (r : EvRec) : State :=
  let x := s.core core
  if x.evq.length < 64 ∧ x.evhead = x.evtail then s.setCore core { x with evq := x.evq ++ [{ r with held := false }] }
  else if x.evtail - x.evhead < x.evSlots then
    match s.vwrite ⟨x.evdom, true, core⟩ (x.evSlot x.evtail) 16 (evNum r) with
    | .error _ => s.evLost core
    | .ok s =>
      let x := s.core core
      s.setCore core { x with
        evtail := x.evtail + 1, creg := Tbl.set 0 x.creg 0x062 (Tbl.get 0 x.creg 0x062 ||| 1) }
  else if r.kind = 0x01 ∨ r.kind = 0x02 then
    { s with net := { s.net with recs := (core, { r with held := true }) :: s.net.recs } }
  else s.evLost core

/-- The event queue of a core, or its overflow area, takes a record (05 R91). -/
def Core.evRoom (x : Core) : Bool :=
  decide (x.evq.length < 64 ∧ x.evhead = x.evtail) || decide (x.evtail - x.evhead < x.evSlots)

/-! ### Engines (05 R77, R78, R82, R84-R86) -/

/-- The slice of an HBM4E address, counted over the package (03 R42). -/
def sliceOf (pa : Nat) : Nat := pa / 0x3000000000 * 16 + pa % 0x3000000000 / 1024 % 96 % 16

/-- On whose behalf the engine works. -/
def Copy.who (c : Copy) : Who := ⟨c.domain, c.priv, c.core⟩

/-- The access class of the engine. -/
def Copy.cls (c : Copy) : ACls := if ctlEng c.ctl.toNat = 0 then .eng else .bulk

/-- The command is for a bulk engine. -/
def Copy.bulk (c : Copy) : Bool := ctlEng c.ctl.toNat != 0

/-- The bulk engine of a command: that of the slice of its first destination or source byte, or, outside HBM4E, of the core's
die and column (05 R77). -/
def State.bulkEngine (s : State) (c : Copy) : Nat :=
  match (if ctlEng c.ctl.toNat = 1 then s.xlate c.who c.dst .write else s.xlate c.who c.src .read) with
  | .ok (.hbm pa _) => sliceOf pa
  | _ => c.core / 384 * 16 + c.core % 16

/-- The command has nothing left to read or to write. -/
def Copy.done (c : Copy) : Bool := c.err.isSome || (c.stage == 3 && c.todo.isEmpty)

/-- Bulk commands at the engine of `c`, waiting (`on` false) or running. -/
def State.atEngine (s : State) (c : Copy) (on : Bool) : List Copy :=
  s.cores.flatMap (fun p => p.2.copyRun.filter (fun y => y.bulk && y.started == on && s.bulkEngine y == s.bulkEngine c))

/-- An engine of the core holds a record that finds no place, and starts nothing further (05 R91). -/
def State.recHeld (s : State) (core : Nat) : Bool := s.net.recs.any (fun r => r.1 == core && r.2.held)

/-- The runs of a command, from the indices that it has read (05 R81). -/
def Copy.runsNow (c : Copy) : List (W64 × W64) :=
  let len := BitVec.ofNat 64 (ctlLen c.ctl.toNat)
  match c.form with
  | 1 => (List.range c.rows).map (fun i => (c.dst + BitVec.ofNat 64 i * c.dstride, c.src + BitVec.ofNat 64 i * c.sstride))
  | 2 => (List.range c.rows).map (fun i =>
      let x := w64OfInt (signed 32 (Tbl.get 0 c.data i)) * len
      let y := BitVec.ofNat 64 i * len
      if c.mode = 0 then (c.dst + y, c.src + x) else (c.dst + x, c.src + y))
  | _ => [(c.dst, c.src)]

/-- The words of `k` bytes in `n` bytes from an address on, numbered from `base`. -/
def wordsOf (base : Nat) (va : W64) (n k : Nat) : List (Nat × W64 × Nat) :=
  (List.range (n / k)).map (fun i => (base + i, va + BitVec.ofNat 64 (k * i), k))

/-- The format of RFMT 0 to 3. -/
def rfmtFmt (r : Nat) : Fmt :=
  match r with
  | 0 => fF32
  | 1 => fF16
  | 2 => fH16
  | _ => fF64

/-- The updates of a run: address, width in bytes and the value that 05 R81 or R82 takes from the source. -/
def Copy.items (c : Copy) (dst : W64) (v : Nat) : List (Nat × Nat × Nat) × Flags :=
  let len := ctlLen c.ctl.toNat
  let r := ctlFmt c.ctl.toNat
  let z := rfmtBytes r
  let at_ (o : Nat) : Nat := (dst + BitVec.ofNat 64 o).toNat
  if c.form ≤ 2 then ((List.range (len / 8)).map (fun i => (at_ (8 * i), 8, lane64 v i)), 0#5)
  else if ctlRop c.ctl.toNat = 4 then
    let rs := (List.range (len / 64)).map (fun i => cellRead (rfmtFmt r) (toBytes 64 (slice v (64 * i) 64)))
    (rs.zipIdx.map (fun (x, i) => (at_ (z * i), z, x.1)), rs.foldl (fun f x => f ||| x.2) 0#5)
  else if r = 6 then
    ((List.range (len / 18)).flatMap (fun b => (List.range 16).map (fun j =>
      (at_ (64 * (16 * b + j)), 64,
        slice v (18 * b + j) 1 + slice v (18 * b + 16) 1 * 2 ^ 8 + slice v (18 * b + 17) 1 / 2 ^ (j / 2) % 2 * 2 ^ 16))), 0#5)
  else if c.form = 3 ∧ ctlRop c.ctl.toNat = 1 ∧ r < 3 then
    ((List.range (len / z)).map (fun i => (at_ (64 * i), 64, slice v (z * i) z)), 0#5)
  else ((List.range (len / z)).map (fun i => (at_ (z * i), z, slice v (z * i) z)), 0#5)

/-- The lesser or greater of two signed integers of `n` bits. -/
def intPick (n : Nat) (greatest : Bool) (a b : Nat) : Nat :=
  if (signed n a < signed n b) = greatest then b else a

/-- An element combined in place (05 R82, 17 R332): the operation, the format and the two values. -/
def combineElem (rop r d x : Nat) : Nat × Flags :=
  if r = 4 ∨ r = 5 then
    let n := 8 * rfmtBytes r
    (if rop = 1 then (d + x) % 2 ^ n else intPick n (rop == 3) d x, 0#5)
  else if rop = 1 then fadd (rfmtFmt r) d x
  else if rop = 2 then (fmin (rfmtFmt r) d x, 0#5)
  else (fmax2 (rfmtFmt r) d x, 0#5)

/-- The value that an update adds to a cell. -/
def Copy.cellVal (c : Copy) (x : Nat) : Val :=
  let r := ctlFmt c.ctl.toNat
  if r = 6 then blockElem (descFmt c.desc.toNat) (x % 2 ^ 8) (x / 2 ^ 8 % 2 ^ 8) (x / 2 ^ 16) else (rfmtFmt r).decode x

/-- What an update stores over the old content. -/
def Copy.update (c : Copy) (width old x : Nat) : Nat × Flags :=
  if c.form ≤ 2 ∨ ctlRop c.ctl.toNat = 4 then (x, 0#5)
  else if width = 64 then (ofBytes (cellAdd (toBytes 64 old) (c.cellVal x)), 0#5)
  else combineElem (ctlRop c.ctl.toNat) (ctlFmt c.ctl.toNat) old x

/-- The command reads what it writes. -/
def Copy.rmw (c : Copy) : Bool := 2 < c.form && ctlRop c.ctl.toNat != 4

/-- Where an update goes, or the code of its fault (05 R82, R86). -/
def State.wordPlace (s : State) (c : Copy) (it : Nat × Nat × Nat) : Except Nat Loc :=
  match s.access c.who (BitVec.ofNat 64 it.1) it.2.1 (if c.rmw then .rmw else .write) c.cls with
  | .error f => .error f.2
  | .ok l =>
    let home := match l with
      | .hbm _ _ => true
      | .ls _ _ => true
      | .fab _ _ => true
      | .cxl _ _ => false
      | .host _ => false
      | .reg _ => false
    if 2 < c.form ∧ !home then .error 0x21 else .ok l

/-- Makes one update at its home; a fault ends the command (05 R82, R85, R86). -/
def State.landWord (s : State) (c : Copy) (it : Nat × Nat × Nat) : State × Copy :=
  if c.err.isSome then (s, c)
  else
    match s.wordPlace c it with
    | .error code => (s, { c with err := some (code, BitVec.ofNat 64 it.1) })
    | .ok l =>
      let (old, s) := if c.rmw then s.engLoad l it.2.1 else (0, s)
      let (v, fl) := c.update it.2.1 old it.2.2
      (s.engStore l it.2.1 v, { c with flags := c.flags ||| fl })

/-- Makes the updates of a list in its order. -/
def State.landAll (s : State) (c : Copy) (l : List (Nat × Nat × Nat)) : State × Copy :=
  l.foldl (fun p it => p.1.landWord p.2 it) (s, c)

/-- Of several writes of one word, the last stands (05 R81). -/
def lastWins : List (Nat × Nat × Nat) → List (Nat × Nat × Nat)
  | [] => []
  | x :: r => if r.any (fun y => y.1 == x.1) then lastWins r else x :: lastWins r

/-- The command as it begins to read its sources. -/
def Copy.toSources (c : Copy) : Copy :=
  let len := ctlLen c.ctl.toNat
  let rs := c.runsNow
  { c with stage := 2, runs := rs, data := [], reads := (indexed 0 rs).flatMap (fun (i, r) => wordsOf (len / 8 * i) r.2 len 8) }

/-- The command as it begins to write: the updates that follow from what it has read (05 R81, R82). -/
def Copy.toWrites (c : Copy) : Copy :=
  let n := ctlLen c.ctl.toNat / 8
  let rs := (indexed 0 c.runs).map (fun (i, r) => c.items r.1 (ofLanes 64 ((List.range n).map (fun j => Tbl.get 0 c.data (n * i + j)))))
  let l := rs.flatMap (·.1)
  { c with stage := 3, data := [], todo := if c.form = 2 ∨ c.form = 1 then lastWins l else l
           flags := rs.foldl (fun f r => f ||| r.2) c.flags }

/-- The command once what it had to read is read: it turns to the next thing. -/
def Copy.turn (c : Copy) : Copy :=
  if c.err.isSome then { c with reads := [], todo := [] }
  else if c.reads ≠ [] then c
  else if c.stage = 1 then c.toSources
  else if c.stage = 2 then c.toWrites
  else c

/-- The command as it starts. -/
def Copy.start (c : Copy) : Copy :=
  let c := { c with started := true, stage := 1, reads := if c.form = 2 then wordsOf 0 c.idx (4 * c.rows) 4 else [] }
  c.turn

/-- Reads words, each as one access (05 R84). -/
def State.readWords (s : State) (c : Copy) (l : List (Nat × W64 × Nat)) : State × Copy :=
  l.foldl (fun p x =>
    if p.2.err.isSome then p
    else
      match p.1.engRead c.who x.2.1 x.2.2 c.cls with
      | .error (f, a) => (p.1, { p.2 with err := some (f.2, a) })
      | .ok (v, s) => (s, { p.2 with data := Tbl.put p.2.data x.1 v })) (s, c)

/-- Splits a list freely into what is done now and what is left. -/
def State.split {α : Type} (s : State) : List α → State × List α × List α
  | [] => (s, [], [])
  | x :: r =>
    let (b, s) := s.choose 2
    let (s, now, rest) := s.split r
    (s, if b = 0 then (now, x :: rest) else (x :: now, rest))

/-- A command goes on: a free part of the words that it is at is read, or written (05 R84, R85). -/
def State.copyStep (s : State) (c : Copy) : State × Copy :=
  if c.stage < 3 then
    let (s, now, rest) := s.split c.reads
    let (s, c) := s.readWords { c with reads := rest } now
    (s, c.turn)
  else
    let (s, now, rest) := s.split c.todo
    let (s, c) := s.landAll { c with todo := rest } now
    (s, c.turn)

/-- A command completes its reads. -/
def State.copyReads (s : State) : Nat → Copy → State × Copy
  | 0, c => (s, c)
  | n + 1, c =>
    if c.stage = 3 ∨ c.err.isSome then (s, c)
    else
      let (s, c') := s.readWords { c with reads := [] } c.reads
      s.copyReads n c'.turn

/-- A command makes everything that is left of it. -/
def State.copyAll (s : State) (c : Copy) : State × Copy :=
  let (s, c) := s.copyReads 3 c
  s.landAll { c with todo := [] } c.todo

/-- The domain of a command is being halted (18 R355). -/
def State.haltsDom (s : State) (d : Nat) : Bool := s.admin.halting == some d && !s.admin.stepping

/-- The first command whose bulk engine has room for it leaves the copy queue (05 R78). -/
def State.bulkAdmit (s : State) (core : Nat) : Option State :=
  let x := s.core core
  match x.copyq.find? (fun c => c.bulk && decide ((s.atEngine c false).length < 32)) with
  | none => none
  | some c =>
    some (s.setCore core { x with
      copyq := x.copyq.filter (fun y => y.id != c.id), copyRun := x.copyRun ++ [{ c with id := s.copyId }] })

/-- A command may start: the oldest of its engine, with the engine free for it and no record held there (05 R78, R91). -/
def State.copyMayStart (s : State) (c : Copy) : Bool :=
  !s.haltsDom c.domain && !s.recHeld c.core &&
    (if c.bulk then
      decide ((s.atEngine c true).length < 4) && (s.atEngine c true).all (fun y => !y.done || (s.core y.core).evRoom)
        && (s.atEngine c false).all (fun y => decide (c.id ≤ y.id))
    else !(s.core c.core).copyRun.any (fun y => !y.bulk))

/-- The waiting commands of a core that an engine may start: those at bulk engines and the first for the copy unit. -/
def Core.copyWaiting (x : Core) : List Copy := x.copyRun.filter (fun c => !c.started) ++ (x.copyq.find? (fun c => !c.bulk)).toList

/-- Command `id` of a core starts (05 R78). -/
def State.copyStartId (s : State) (core id : Nat) : Option State :=
  match (s.core core).copyWaiting.find? (fun c => c.id == id) with
  | none => none
  | some c =>
    if !s.copyMayStart c then none
    else
      let x := s.core core
      some (s.setCore core { x with
        copyq := x.copyq.filter (fun y => y.id != id), copyRun := x.copyRun.filter (fun y => y.id != id) ++ [c.start] })

/-- Command `id` of a core goes on (05 R84, R85). -/
def State.copyStepId (s : State) (core id : Nat) : Option State :=
  match (s.core core).copyRun.find? (fun c => c.started && c.id == id) with
  | none => none
  | some c =>
    if s.admin.halting = some c.domain then none
    else
      let (s, z) := s.copyStep c
      let x := s.core core
      some (s.setCore core { x with copyRun := x.copyRun.map (fun y => if y.id = id then z else y) })

/-- Command `id` of a core ends: what is left of it is done and its record is posted; a record that finds no room waits
in its engine (05 R85, R86, R91). The flag says that the command failed. -/
def State.copyEndId (s : State) (core id : Nat) : Option (State × Bool) :=
  match (s.core core).copyRun.find? (fun c => c.started && c.id == id) with
  | none => none
  | some c =>
    if s.admin.halting = some c.domain then none
    else
      let (s, z) := s.copyAll c
      let x := s.core core
      if x.evRoom then
        some ((s.setCore core { x with copyRun := x.copyRun.filter (fun y => y.id != id) }).recArrive core (z.record z.total),
          z.err.isSome)
      else if c.done then none
      else
        some (s.setCore core { x with copyRun := x.copyRun.map (fun y => if y.id = id then { z with todo := [] } else y) },
          z.err.isSome)

/-- The die of the engine that carries out a command: that of its core or of its bulk engine. -/
def State.copyDie (s : State) (c : Copy) : Nat := if c.bulk then s.bulkEngine c / 16 else c.core / 384

/-- One write of a running copy goes to the holding buffer of its engine's die; where that is full the engine pauses, and the write stays
the command's. An update reads what the buffer will have left (18 R355). -/
def State.holdWord (s : State) (die : Nat) (c : Copy) (it : Nat × Nat × Nat) : State × Copy :=
  if c.err.isSome then (s, c)
  else if c.todo ≠ [] then (s, { c with todo := c.todo ++ [it] })
  else
    match s.wordPlace c it with
    | .error code => (s, { c with err := some (code, BitVec.ofNat 64 it.1) })
    | .ok l =>
      match s.tgt l with
      | .reg _ => (s, c)
      | .out => s.landWord c it
      | .mem m =>
        let (v, fl) := c.update it.2.1 (if c.rmw then s.underHeld.peek m it.2.1 else 0) it.2.2
        let h : Held := .write die ((m.key?).getD 0) m.mat it.2.1 v
        if s.admin.fits h then (s.hold h, { c with flags := c.flags ||| fl })
        else (s, { c with todo := [it] })

/-- The running copies of a halted domain complete their reads, and their writes go to the holding buffer (18 R355). -/
def State.holdCopies (s : State) (d : Nat) : State :=
  (s.cores.flatMap (fun p => (p.2.copyRun.filter (fun c => c.started && c.domain == d)).map (fun c => (p.1, c)))).foldl
    (fun s (k, c) =>
      let (s, c) := s.copyReads 3 c
      let (s, c) := c.todo.foldl (fun p it => p.1.holdWord (s.copyDie c) p.2 it) (s, { c with todo := [] })
      let x := s.core k
      s.setCore k { x with copyRun := x.copyRun.map (fun y => if y.id = c.id then c else y) }) s

/-- Removes the first record of a list that equals one given. -/
def dropRec (l : List (Nat × EvRec)) (core : Nat) (r : EvRec) : List (Nat × EvRec) :=
  match l with
  | [] => []
  | x :: t => if x.1 = core ∧ x.2 = r then t else x :: dropRec t core r

/-- The oldest record of a core that is on its way arrives; one that an engine holds for want of room stands aside. -/
def State.recNext (s : State) (core : Nat) : Option State :=
  match s.net.recs.find? (fun r => r.1 == core && (!r.2.held || (s.core core).evRoom)) with
  | none => none
  | some r => some ({ s with net := { s.net with recs := dropRec s.net.recs core r.2 } }.recArrive core r.2)

/-- Takes the oldest record, from the queue and then from the overflow area, by a privileged access (DESIGN CHOICE, log entry 54). -/
def State.evTake (s : State) : Except (Flt × W64) (Option (Nat × State)) :=
  let x := s.cc
  match x.evq with
  | r :: q => .ok (some (evNum r, s.setCc { x with evq := q }))
  | [] =>
    if x.evhead = x.evtail then .ok none
    else
      match s.vread ⟨x.evdom, true, s.cur.1⟩ (x.evSlot x.evhead) 16 with
      | .error e => .error e
      | .ok v => .ok (some (v, s.setCc { x with evhead := x.evhead + 1 }))

/-- Takes a record in a meaning. A fault on the read of the overflow area, of which the spec says nothing, is the trap of that fault at the
word (DESIGN CHOICE, log entry 77). -/
def evPopM : M (Option Nat) := fun s =>
  match s.evTake with
  | .error ((c, code), a) => .error (.trap c code a false)
  | .ok none => .ok (none, s)
  | .ok (some (v, s)) => .ok (some v, s)

/-- Writes a record's words: word 0 to the register of the result, word 1 to the other at once (05 R93, 07 R128). -/
def evOut (e : Entry) (d a v : Nat) : M Unit := do
  let w0 := BitVec.ofNat 64 (v % 2 ^ 64)
  let w1 := BitVec.ofNat 64 (v / 2 ^ 64)
  if d = a then wFin e d w1
  else
    modCx (fun c => c.fileW a w1)
    wFin e d (if d = 0 then 0 else w0)

/-- Only the control context pops events. -/
def controlOnly : M Unit := fun s => if s.cur.2 = 0 then .ok ((), s) else .error (.trap .prot 0x17 0 true)

/-! ### Meanings -/

/-- CP (05 R81). -/
def finCp : Eff := plain (fun e => do
  let c := e.opb.toNat
  if ctlBad c || ctlRop c != 0 || engBad c e.opd e.opa then copyBad e.opb true
  else
    copyAlign e c true false
    let k ← mkCopy e 0 e.opb
    enqueueWait e k)

/-- CP (05 R81). -/
def execCp (d : Nat) (a : Nat) (b : Nat) (g : Nat) (la : Nat) (s : State) : Host.Outcome State Fault Refusal :=
  issue (.cp d a b g la) finCp s

/-- CP2D: its shape record is captured whole (05 R80, R81). -/
def finCp2d : Eff := fun e => do
  let r ← heldRecord e (copyRecord e)
  if e.left ≠ 0 then
    return .hold [0, 0, r]
  let ctl := slice r 0 8
  let rows := slice r 8 4
  if ctlBad ctl || slice r 12 4 != 0 || ctlRop ctl != 0 || engBad ctl e.opd e.opa || decide (2 ^ 32 ≤ rows * ctlLen ctl) then
    copyBad e.opb false
  else
    copyAlign e ctl false (slice r 16 8 % 8 != 0 || slice r 24 8 % 8 != 0)
    let k ← mkCopy e 1 (BitVec.ofNat 64 ctl)
    enqueueHeld e r { k with rows := rows, dstride := BitVec.ofNat 64 (slice r 16 8), sstride := BitVec.ofNat 64 (slice r 24 8) }

/-- CP2D: its shape record is captured whole (05 R80, R81). -/
def execCp2d (d : Nat) (a : Nat) (b : Nat) (g : Nat) (la : Nat) (s : State) : Host.Outcome State Fault Refusal :=
  issue (.cp2d d a b g la) finCp2d s

/-- CPIDX: its index record is captured whole (05 R80, R81). -/
def finCpidx : Eff := fun e => do
  let r ← heldRecord e (copyRecord e)
  if e.left ≠ 0 then
    return .hold [0, 0, r]
  let ctl := slice r 0 8
  let n := slice r 8 4
  if ctlBad ctl || decide (1 < slice r 12 1) || slice r 13 3 != 0 || slice r 24 8 != 0 || ctlRop ctl != 0
      || engBad ctl e.opd e.opa || decide (2 ^ 32 ≤ n * ctlLen ctl) then copyBad e.opb false
  else
    copyAlign e ctl false (slice r 16 8 % 4 != 0)
    let k ← mkCopy e 2 (BitVec.ofNat 64 ctl)
    enqueueHeld e r { k with rows := n, idx := BitVec.ofNat 64 (slice r 16 8), mode := slice r 12 1 }

/-- CPIDX: its index record is captured whole (05 R80, R81). -/
def execCpidx (d : Nat) (a : Nat) (b : Nat) (g : Nat) (la : Nat) (s : State) : Host.Outcome State Fault Refusal :=
  issue (.cpidx d a b g la) finCpidx s

/-- CPWAIT: it waits until the records of this context's earlier copies stand in the event queue, whatever later ones do (05 R83; DEDUCED,
log entry 32). -/
def finCpwait : Eff := plain (fun e => do
  let x ← getCc
  let k ← getCur
  let hit (t : Nat) : Bool := e.opa.toNat / 2 ^ 8 % 2 == 1 || t == e.opa.toNat % 2 ^ 8
  afterEarlier e (fun y => match y.instr with
    | .cp .. | .cpredO .. | .cpredU .. => hit (ctlTag y.opb.toNat)
    | .cp2d .. | .cpidx .. => match y.ext.drop 2 with
      | [r] => hit (ctlTag (slice r 0 8))
      | _ => true
    | _ => false)
  fun s =>
    if x.copies.any (fun c => c.ctx == k.2 && decide (c.seq < e.seq) && hit (ctlTag c.ctl.toNat))
        || s.net.recs.any (fun r => r.1 == k.1 && (r.2.kind == 1 || r.2.kind == 2) && r.2.ctx == k.2
          && decide (r.2.seq < e.seq) && hit r.2.tag) then
      .error .wait
    else .ok ((), s))

/-- CPWAIT: it waits for the records of this context's earlier copies (05 R83). -/
def execCpwait (a : Nat) (g : Nat) (la : Nat) (s : State) : Host.Outcome State Fault Refusal :=
  issue (.cpwait a g la) finCpwait s

/-- CPRED.o (05 R82). -/
def finCpredO : Eff := plain (fun e => cpred e true)

/-- CPRED.o (05 R82). -/
def execCpredO (d : Nat) (a : Nat) (b : Nat) (g : Nat) (la : Nat) (s : State) : Host.Outcome State Fault Refusal :=
  issue (.cpredO d a b g la) finCpredO s

/-- CPRED.u (05 R82). -/
def finCpredU : Eff := plain (fun e => cpred e false)

/-- CPRED.u (05 R82). -/
def execCpredU (d : Nat) (a : Nat) (b : Nat) (g : Nat) (la : Nat) (s : State) : Host.Outcome State Fault Refusal :=
  issue (.cpredU d a b g la) finCpredU s

/-- EVPOP (05 R93). -/
def finEvpop (d : Nat) (a : Nat) : Eff := plain (fun e => do
  controlOnly
  let r ← evPopM
  evOut e d a (r.getD 0))

/-- EVPOP (05 R93). -/
def execEvpop (d : Nat) (a : Nat) (g : Nat) (s : State) : Host.Outcome State Fault Refusal :=
  issue (.evpop d a g) (finEvpop d a) s

/-- EVWAIT: a record, or NONE once its limit has passed (05 R93). -/
def finEvwait (d : Nat) (a : Nat) : Eff := plain (fun e => do
  controlOnly
  promiseLimit e.opb
  match ← takeRes e with
  | some _ => evOut e d a 0
  | none =>
    match ← evPopM with
    | some v => evOut e d a v
    | none => waitM)

/-- EVWAIT: a record, or NONE once its limit has passed (05 R93). -/
def execEvwait (d : Nat) (a : Nat) (b : Nat) (g : Nat) (la : Nat) (s : State) : Host.Outcome State Fault Refusal :=
  issue (.evwait d a b g la) (finEvwait d a) s

/-- EVPOST: a SOFT record (05 R93). -/
def finEvpost : Eff := plain (fun e => do
  let w := e.opd.toNat
  if destBad w || !destPlain w then trapPre .prot 0x1C e.opd
  else fun s => .ok ((), s.post (bits w 10 0)
    ⟨0x09, e.opb.toNat % 2 ^ 8, 0, if bits w 10 0 = s.cur.1 then s.cur.2 else 15, e.opb.toNat / 2 ^ 32, e.opa, false, 0⟩))

/-- EVPOST: a SOFT record (05 R93). -/
def execEvpost (d : Nat) (a : Nat) (b : Nat) (g : Nat) (s : State) : Host.Outcome State Fault Refusal :=
  issue (.evpost d a b g) finEvpost s

/-! ### Events -/

/-- An event that happens when its condition holds, and changes nothing otherwise. -/
def eventIf (ok : Bool) (s : State) (r : Option State) : Host.Outcome State Fault Refusal := eventOn ok (r.getD s)

/-- A record arrives at the event queue of its core (05 R91). -/
def execEventRecordArrival (core : Nat) (rec : EvRec) (s : State) : Host.Outcome State Fault Refusal :=
  eventOn (decide (core < 1536))
    ({ s with net := { s.net with recs := dropRec s.net.recs core rec } }.recArrive core rec)

/-- A command for a bulk engine leaves the copy queue (05 R78). -/
def execBulkQueueAdmit (core : Nat) (s : State) : Host.Outcome State Fault Refusal :=
  eventIf (decide (core < 1536)) s (s.bulkAdmit core)

/-- An engine starts a copy command (05 R78). -/
def execCopyCommandStart (core id : Nat) (s : State) : Host.Outcome State Fault Refusal :=
  eventIf (decide (core < 1536)) s (s.copyStartId core id)

/-- A copy command ends with CP_DONE (05 R85). -/
def execCopyCommandComplete (core id : Nat) (s : State) : Host.Outcome State Fault Refusal :=
  eventIf (decide (core < 1536)) s (match s.copyEndId core id with
    | some (s, false) => some s
    | some (_, true) => none
    | none => none)

/-- A fault on an access ends a copy command with CP_ERR (05 R86). -/
def execCopyCommandFault (core id : Nat) (s : State) : Host.Outcome State Fault Refusal :=
  eventIf (decide (core < 1536)) s (match s.copyEndId core id with
    | some (s, true) => some s
    | some (_, false) => none
    | none => none)

/-- An EVWAIT limit passes (05 R93): NONE is returned. -/
def execEvwaitTimeout (core : Nat) (s : State) : Host.Outcome State Fault Refusal :=
  eventOn (decide (core < 1536)) (s.setCtx core 0 ((s.ctx core 0).answer (fun e =>
    (match e.instr with
      | .evwait .. => true
      | _ => false) && e.opb != 0) (.w2 0 0)))

end Sys2Proof.Machine
end

