-- ==== Sys2Proof/Machine/Collective.lean ====
section
/-! DEFINITION. Collectives: communicators, counters, work entries and the adders of the base dies (17 R326-R336). -/

namespace Sys2Proof.Machine

/-! ### Communicators and counters (17 R326-R328) -/

/-- Register of a communicator. -/
def commReg (c r : Nat) : Nat := 0x240000 + 64 * c + r

/-- A communicator's control register. -/
def State.cctl (s : State) (c : Nat) : Nat := s.dregN (commReg c 0)

/-- Rank count. -/
def State.cnrank (s : State) (c : Nat) : Nat := bits (s.dregN (commReg c 0x10)) 16 0

/-- The communicator is enabled. -/
def State.commOn (s : State) (c : Nat) : Bool := bit (s.cctl c) 63 && s.cnrank c != 0

/-- The domain of a communicator. -/
def State.commDom (s : State) (c : Nat) : Nat := bits (s.cctl c) 15 8

/-- On whose behalf the engine works for a communicator at a core, with the privilege of the context that posted the entry (03 R52). -/
def State.commWho (s : State) (c core : Nat) (priv : Bool) : Who := ⟨s.commDom c, priv, core⟩

/-- The counter index lies in the range of a communicator. -/
def State.inRange (s : State) (c idx : Nat) : Bool :=
  let r := s.dregN (commReg c 0x18)
  decide (bits r 11 0 ≤ idx ∧ idx < bits r 11 0 + bits r 27 16)

/-- The domain may reach a counter of this device (17 R327). -/
def State.ctrOk (s : State) (dom id : Nat) : Bool :=
  (List.range 64).any (fun c => s.commOn c && s.commDom c == dom && s.inRange c (id % 4096))

/-- A counter identifier that the running context may use, or PROT code 0x30. -/
def ctrId (id : W64) : M Nat := fun s =>
  if 2 ^ 14 ≤ id.toNat then .error (.trap .prot 0x30 id true)
  else if !s.ctrOk s.cc.domain id.toNat then .error (.trap .prot 0x30 id false)
  else .ok (id.toNat, s)

/-! ### Entry records (17 R329) -/

/-- A field of an entry's record. -/
def Work.field (w : Work) (off n : Nat) : Nat := slice (ofBytes w.record) off n

/-- Elements of `len` source bytes. -/
def elemCount (rfmt len : Nat) : Nat := if rfmt = 6 then 16 * len / 18 else len / rfmtBytes rfmt

/-- StepBytes (17 R329). -/
def stepBytes (rop rfmt len ncontrib : Nat) : Nat :=
  if rfmt < 3 ∨ rfmt = 6 then 64 * elemCount rfmt len
  else if rfmt = 3 ∧ rop = 1 then ncontrib * len
  else len

/-- A record that breaks a rule of 17 R329. -/
def State.recBad (s : State) (c r : Nat) : Bool :=
  let h := slice r 0 8
  let op := bits h 63 60
  let rop := bits h 59 56
  let fmt := bits h 55 52
  let ord := bit h 47
  let len := bits h 31 0
  let n := slice r 32 4
  let id (x : Nat) : Bool := decide (2 ^ 14 ≤ x)
  let done := slice r 48 4
  let rctr := slice r 52 4
  bits h 44 40 != 0 || slice r 56 8 != 0 || decide (1 < op) || decide (3 < rop) || decide (6 < fmt)
    || (op == 0 && (rop != 0 || fmt != 0 || bits h 51 48 != 0 || ord)) || (op == 1 && rop == 0)
    || (decide (2 ≤ rop) && fmt == 6) || (op == 1 && !ord && fmt == 6)
    || decide (len < 8) || decide (65536 < len) || len % 8 != 0 || (fmt == 6 && len % 72 != 0)
    || slice r 8 8 % 8 != 0 || slice r 16 8 % 8 != 0 || decide (s.cnrank c ≤ slice r 24 4)
    || (if op == 1 && ord then n == 0 || decide (s.cnrank c < n) else n != 0)
    || id (slice r 36 4) || !s.inRange c (slice r 36 4 % 4096)
    || (done != 0xFFFFFFFF && (id done || !s.inRange c (done % 4096))) || (rctr != 0xFFFFFFFF && id rctr)

/-- A free entry of a die's table: which one the manual leaves open, but nothing other than the entries in use decides it (19 R364, R365;
DESIGN CHOICE, log entry 30). -/
def State.freeEntry (s : State) (die : Nat) : Option Nat :=
  let taken := (List.range 4096).filter (fun i => (Tbl.find s.coll.work (4096 * die + i)).isSome)
  let k := Config.handleFrom taken % 4096
  (((List.range 4096).drop k) ++ ((List.range 4096).take k)).find? (fun i => (Tbl.find s.coll.work (4096 * die + i)).isNone)

/-! ### Movement (17 R332, R333) -/

/-- Step buffer that a communicator has on a stack. -/
def State.commPool (s : State) (c : Nat) : Nat :=
  let p (i : Nat) : Nat := bits (s.dregN (commReg i 0x20)) 9 0
  if 512 < ((List.range (c + 1)).map p).foldl (· + ·) 0 then 0 else p c * 65536

/-- Buffer that open steps of a communicator hold on a stack. -/
def State.poolHeld (s : State) (c stack : Nat) : Nat :=
  ((s.coll.steps.filter (fun t => t.comm == c && t.stack == stack)).map (·.bytes)).foldl (· + ·) 0

/-- The stack of an HBM4E address (03 R42). -/
def stackOf (pa : Nat) : Nat := pa / 0x3000000000 * 3 + pa % 0x3000000000 / 1024 % 96 / 32

/-- A rank's entry: device and core. -/
def State.rankOf (s : State) (c rank : Nat) (priv : Bool) : Except (Flt × W64) (Nat × Nat) :=
  match s.engRead (s.commWho c 0 priv) (BitVec.ofNat 64 (bits (s.dregN (commReg c 8)) 51 6 * 64 + 4 * rank)) 4 .eng with
  | .error e => .error e
  | .ok (v, _) => .ok (bits v 31 16, bits v 10 0)

/-- This device's number, as DEVNUM holds it. -/
def State.ownDev (s : State) : Nat := s.dregN 0x2D0000 % 2 ^ 16

/-- The rank of a core of this device: the lowest rank whose entry names it, or, where none does, one that the manual leaves open (DESIGN
CHOICE, log entry 30). -/
def State.senderRank (s : State) (c core : Nat) (priv : Bool) : Nat :=
  ((List.range (s.cnrank c)).find? (fun r =>
    match s.rankOf c r priv with
    | .ok (d, k) => d == s.ownDev && k == core
    | .error _ => false)).getD (Config.strayRank c core % 2 ^ 16)

/-- Changes a work entry. -/
def State.setWork (s : State) (k : Nat) (w : Work) : State := { s with coll := { s.coll with work := Tbl.put s.coll.work k w } }

/-- The open step of a key. -/
def State.stepOf (s : State) (comm seq : Nat) (dst : W64) : Option AdderStep :=
  s.coll.steps.find? (fun t => t.comm == comm && t.seq == seq && t.dst == dst)

/-- Where the adder of a chunk's step stands: its stack, or a fault (17 R332). -/
def State.stepStack (s : State) (ch : Chunk) : Except Nat Nat :=
  match s.access (s.commWho ch.comm ch.target ch.priv) ch.dst 8 .write .eng with
  | .error f => .error f.2
  | .ok (.hbm pa _) => .ok (stackOf pa)
  | .ok (.cxl _ _) => .error 0x21
  | .ok (.ls _ _) => .error 0x21
  | .ok (.fab _ _) => .error 0x21
  | .ok (.host _) => .error 0x21
  | .ok (.reg _) => .error 0x21

/-- What opening the step of a chunk gives: an error, no room, or the step (17 R333, R335). -/
inductive Opening where
  | err (code : Nat)
  | full
  | ok (s : State)
  deriving DecidableEq, Repr

/-- Opens the step of a chunk if it is not open. A key that was completed needs no step. -/
def State.openStep (s : State) (ch : Chunk) : Opening :=
  match s.stepStack ch with
  | .error c => .err c
  | .ok stack =>
    if (s.stepOf ch.comm ch.seq ch.dst).isSome || s.coll.completed.contains (ch.comm, ch.seq, ch.dst, stack) then .ok s
    else
      let n := stepBytes ch.rop ch.rfmt ch.len ch.ncontrib
      if s.commPool ch.comm < n then .err 0x32
      else if s.commPool ch.comm < s.poolHeld ch.comm stack + n then .full
      else .ok { s with coll := { s.coll with steps := s.coll.steps ++ [{
        comm := ch.comm, seq := ch.seq, dst := ch.dst, stack := stack, ncontrib := ch.ncontrib, rop := ch.rop,
        rfmt := ch.rfmt, len := ch.len, rctr := ch.rctr, target := ch.target, bytes := n, priv := ch.priv,
        contribs := [], opened := s.time }] } }

/-- The chunk of an entry from byte `off`, with its data. -/
def Work.chunk (w : Work) (die idx rank target off : Nat) (data : List Byte) : Chunk :=
  let h := w.field 0 8
  { die := die, idx := idx, core := w.core, ctx := w.ctx, priv := w.priv, fab := false, tag := bits h 39 32, comm := w.comm,
    reduce := bits h 63 60 == 1, rop := bits h 59 56, rfmt := bits h 55 52, desc := w.desc, ordered := bit h 47,
    seq := w.field 28 4, dst := BitVec.ofNat 64 (w.field 16 8), rank := rank, ncontrib := w.field 32 4,
    rctr := w.field 52 4, target := target, len := bits h 31 0, off := off, data := data }

/-- The entry ends with an error after what it has sent. -/
def Work.fail (w : Work) (code : Nat) (a : W64) : Work :=
  { w with err := some (w.err.getD (code, a)), sent := bits (w.field 0 8) 31 0 }

/-- The STATUS codes of an error at another device: those of R59 for an access, and the two of 17 R335. -/
def remoteErrors (ordered : Bool) : List Nat :=
  [0x01, 0x02, 0x03, 0x04, 0x10, 0x11, 0x12, 0x13, 0x20, 0x21, 0x22, 0x23, 0x30] ++ (if ordered then [0x32] else [])

/-- The entry ends with an error that another device reports: which of the codes is free, and the address is DST or, for an access, a free
byte of the destination (17 R335; DESIGN CHOICE, log entry 1). -/
def State.remoteFail (s : State) (w : Work) (ordered : Bool) (dst : W64) (len : Nat) : Work × State :=
  let l := remoteErrors ordered
  let (i, s) := s.choose l.length
  let code := l.getD i 0x30
  if code = 0x30 ∨ code = 0x32 then (w.fail code dst, s)
  else
    let (y, s) := s.choose len
    (w.fail code (dst + BitVec.ofNat 64 y), s)

/-- Sends the next chunk of an entry; none when its step finds no buffer, which only a first chunk needs (17 R333). A chunk for another
device leaves the package, and what that device answers is free: it takes the chunk, finds no buffer for its step, or reports an error
(DESIGN CHOICE, log entry 1). -/
def State.sendChunk (s : State) (key : Nat) (w : Work) : Option State :=
  let w := { w with state := 3 }
  let die := key / 4096
  let len := bits (w.field 0 8) 31 0
  let n := min 4096 (len - w.sent)
  let src := BitVec.ofNat 64 (w.field 8 8 + w.sent)
  let dst := BitVec.ofNat 64 (w.field 16 8)
  match s.rankOf w.comm (w.field 24 4) w.priv with
  | .error (f, a) => some (s.setWork key (w.fail f.2 a))
  | .ok (dev, core) =>
    match s.engRead (s.commWho w.comm w.core w.priv) src n .eng with
    | .error (f, a) => some (s.setWork key (w.fail f.2 a))
    | .ok (v, s) =>
      let ch := w.chunk die (key % 4096) (s.senderRank w.comm w.core w.priv) core w.sent (toBytes n v)
      let w' := { w with sent := w.sent + n, outstanding := w.outstanding + 1 }
      let send (s : State) : State := { s.setWork key w' with net := { s.net with chunks := s.net.chunks ++ [ch] } }
      let first := ch.reduce && ch.ordered && w.sent == 0
      if dev = s.ownDev then
        if first && s.commOn w.comm then
          match s.openStep ch with
          | .err c => some (s.setWork key (w.fail c dst))
          | .full => none
          | .ok s => some (send s)
        else some (send s)
      else if !s.reachable dev then some (s.setWork key (w.fail 0x20 dst))
      else
        let (b, s) := s.choose 3
        if b = 0 then some (s.setWork key { w with sent := w.sent + n })
        else if b = 1 ∧ first then none
        else
          let (w, s) := s.remoteFail w (ch.reduce && ch.ordered) dst len
          some (s.setWork key w)

/-- The current entry of a communicator on a die: the one that runs, else the first to have become READY (17 R333). -/
def State.currentEntry (s : State) (die c : Nat) : Option (Nat × Work) :=
  let ws := s.coll.work.filter (fun p => p.1 / 4096 == die && p.2.comm == c)
  match ws.find? (fun p => p.2.state == 3) with
  | some p => some p
  | none => (ws.filter (fun p => p.2.state == 2)).foldl (fun (r : Option (Nat × Work)) p =>
      match r with
      | none => some p
      | some q => if p.2.ready < q.2.ready then some p else some q) none

/-- Communicators in the order of choice: priority, then the entry that has been READY longest, then number (17 R333). -/
def State.commOrder (s : State) (die : Nat) : List (Nat × Work) :=
  let l := (List.range 64).filterMap (fun c => s.currentEntry die c)
  let key (w : Work) : Nat := bits (s.cctl w.comm) 30 28 * 2 ^ 96 + w.ready * 2 ^ 8 + w.comm
  sortBy (fun p => key p.2) l

/-- A chunk boundary of a die's engine (17 R333): the first communicator in order that can send a chunk does. -/
def State.admitChunk (s : State) (die : Nat) : Option State :=
  (s.commOrder die).foldl (fun r p =>
    match r with
    | some s => some s
    | none => if p.2.sent < bits (p.2.field 0 8) 31 0 then s.sendChunk p.1 p.2 else none) none

/-- The sender of a chunk learns that it has been handled. -/
def State.chunkDone (s : State) (ch : Chunk) (err : Option Nat) (a : W64) : State :=
  if ch.fab then s
  else
    let k := 4096 * ch.die + ch.idx
    match Tbl.find s.coll.work k with
    | none => s
    | some w =>
      let w := { w with outstanding := w.outstanding - 1 }
      s.setWork k (match err with
        | none => w
        | some c => w.fail c a)

/-- Bytes that a contribution has received. -/
def Contribution.got (c : Contribution) : Nat := (c.parts.map (fun p => p.2.length)).foldl (· + ·) 0

/-- The bytes of a contribution as a number. -/
def Contribution.num (c : Contribution) : Nat := layout (c.parts.map (fun p => (p.1, ofBytes p.2)))

/-- Contributions received whole, in the order of their ranks. -/
def AdderStep.whole (t : AdderStep) : List Contribution :=
  sortBy (·.rank) (t.contribs.filter (fun c => c.got == t.len))

/-- The step is complete. -/
def AdderStep.complete (t : AdderStep) : Bool := decide (t.ncontrib ≤ t.whole.length)

/-- The step's time has passed; a limit of 0 acts as 1 (17 R326, R334). -/
def State.stepLate (s : State) (t : AdderStep) : Bool :=
  !t.complete && decide (t.opened + max 1 (s.dregN (commReg t.comm 0x28)) ≤ s.time)

/-- A step is abandoned: its buffer is released, CSTAT counts it, and the cores of its contributors get LATE (17 R334). -/
def State.abandon (s : State) (t : AdderStep) : State :=
  let r := commReg t.comm 0x38
  let v := s.dregN r
  let s := s.setDreg r (BitVec.ofNat 64 (v % 2 ^ 16 + (v / 2 ^ 16 + 1) % 2 ^ 16 * 2 ^ 16))
  let s := { s with coll := { s.coll with steps := s.coll.steps.filter (fun x => x != t) } }
  (t.contribs.filter (fun c => !c.fab)).foldl (fun s c =>
    s.post c.core ⟨0x0C, c.tag, 0, c.ctx, t.seq, BitVec.ofNat 64 (t.comm * 2 ^ 32 + t.whole.length), false, 0⟩) s

/-- A duplicate contribution is discarded and counted (17 R333). -/
def State.duplicate (s : State) (ch : Chunk) : State :=
  if ch.off ≠ 0 then s
  else
    let r := commReg ch.comm 0x38
    let v := s.dregN r
    s.setDreg r (BitVec.ofNat 64 (v / 2 ^ 16 * 2 ^ 16 + (v + 1) % 2 ^ 16))

/-- A chunk of an ordered step joins its contribution; a step that is complete takes no further rank (17 R332, R333). -/
def State.contribute (s : State) (ch : Chunk) : State :=
  match s.stepOf ch.comm ch.seq ch.dst with
  | none => s.duplicate ch
  | some t =>
    if t.complete then s.duplicate ch
    else
    let mine (c : Contribution) : Bool := c.rank == ch.rank
    let part := (ch.off, ch.data)
    match t.contribs.find? mine with
    | none =>
      let c : Contribution := ⟨ch.rank, ch.core, ch.ctx, ch.fab, ch.tag, ch.desc, [part]⟩
      { s with coll := { s.coll with
        steps := s.coll.steps.map (fun x => if x = t then { t with contribs := t.contribs ++ [c] } else x) } }
    | some c =>
      if c.core ≠ ch.core ∨ c.ctx ≠ ch.ctx ∨ c.fab ≠ ch.fab ∨ c.tag ≠ ch.tag ∨ c.parts.any (fun p => p.1 == ch.off) then
        s.duplicate ch
      else
        { s with coll := { s.coll with steps := s.coll.steps.map (fun x => if x = t then
          { t with contribs := t.contribs.map (fun y => if mine y then { c with parts := c.parts ++ [part] } else y) } else x) } }

/-- Elements updated in place at their homes (17 R332), with the first fault: `store` writes a result, and `view` is what the old value is
read from. -/
def State.reduceInPlace (s : State) (ch : Chunk) (store : State → Loc → Nat → Nat → State) (view : State → State) : State × Option (Nat × W64) :=
  let z := rfmtBytes ch.rfmt
  let v := ofBytes ch.data
  (List.range (ch.data.length / z)).foldl (fun (p : State × Option (Nat × W64)) i =>
    if p.2.isSome then p
    else
      let va := ch.dst + BitVec.ofNat 64 (ch.off + z * i)
      match p.1.access (p.1.commWho ch.comm ch.target ch.priv) va z .rmw .eng with
      | .error f => (p.1, some (f.2, va))
      | .ok l =>
        match l with
        | .cxl _ _ => (p.1, some (0x21, va))
        | .host _ => (p.1, some (0x21, va))
        | .reg _ => (p.1, some (0x21, va))
        | .hbm _ _ | .ls _ _ | .fab _ _ =>
          let (old, _) := (view p.1).engLoad l z
          let s := (p.1.engLoad l z).2
          (store s l z (combineElem ch.rop ch.rfmt old (slice v (z * i) z)).1, none)) (s, none)

/-- A chunk of a WRITE or of an update in place has been handled: the sender learns it. For an entry of another device, whose chunks arrive in
order from offset 0 on at each of its runs, RCTR is incremented once every byte of the run is written and none has failed; while the writes
stand in a holding buffer, the increment waits for them (17 R330, R336). -/
def State.chunkHandled (s : State) (ch : Chunk) (err : Option (Nat × W64)) (held : Bool) : State :=
  if !ch.fab then s.chunkDone ch (err.map (·.1)) ((err.map (·.2)).getD 0)
  else
    let head := { ch with off := 0, data := [] }
    let (before, bad) := if ch.off = 0 then (0, false) else match s.coll.inbound.find? (fun p => p.1 == head) with
      | some p => p.2
      | none => (0, true)
    let got := before + ch.data.length
    let bad := bad || err.isSome
    let rest := s.coll.inbound.filter (fun p => p.1 != head)
    let s := { s with coll := { s.coll with inbound := if ch.len ≤ got then rest else rest ++ [(head, got, bad)] } }
    if got < ch.len || bad then s
    else if held then s.hold (.ctr ch.rctr)
    else s.incCtr ch.rctr

/-- One write goes to the holding buffer of the die of a chunk's target, or, where it leaves the package, out (18 R355). -/
def State.holdAt (s : State) (ch : Chunk) (l : Loc) (n v : Nat) : State :=
  match s.tgt l with
  | .mem l => s.hold (.write (ch.target / 384) ((l.key?).getD 0) l.mat n v)
  | .reg _ | .out => s.engStore l n v

/-- The bytes of a WRITE's chunk go to the holding buffer (18 R355), up to a first fault. -/
def State.holdChunk (s : State) (ch : Chunk) : State × Option (Nat × W64) :=
  let n := ch.data.length
  let a := ch.dst + BitVec.ofNat 64 ch.off
  let w := s.commWho ch.comm ch.target ch.priv
  (pieces a.toNat (n / 65536 + 2) 0 n).foldl (fun (p : State × Option (Nat × W64)) (off, k) =>
    if p.2.isSome then p
    else
      let va := a + BitVec.ofNat 64 off
      match p.1.access w va k .write .eng with
      | .error f => (p.1, some (f.2, p.1.failAddr w va k .write f))
      | .ok l => (p.1.holdAt ch l k (slice (ofBytes ch.data) off k), none)) (s, none)

/-- The chunk goes to the holding buffer of its target's die, if that has room: its writes, or its updates in place, which read memory as
the buffer will leave it (18 R355). -/
def State.chunkHeld (s : State) (ch : Chunk) : Option State :=
  if !s.admin.fits (.write (ch.target / 384) 0 0 ch.data.length 0) then none
  else
    let (s, err) := if ch.reduce then s.reduceInPlace ch (fun s l n v => s.holdAt ch l n v) State.underHeld else s.holdChunk ch
    some (s.chunkHandled ch err true)

/-- A chunk is handled at its target (17 R332, R335); none while the holding buffer of a debug halt is full, or while the first chunk of
a contribution finds no buffer. A step whose time has passed is abandoned first (17 R334). A later chunk of a contribution whose step was
abandoned opens the step again where there is room and is discarded where there is none (DESIGN CHOICE, log entry 78). -/
def State.handleChunk (s : State) (ch : Chunk) : Option State :=
  if !s.commOn ch.comm then some (s.chunkHandled ch (some (0x30, ch.dst)) false)
  else if !(ch.reduce && ch.ordered) && ch.fab && s.admin.halting == some (s.commDom ch.comm) then s.chunkHeld ch
  else if !ch.reduce then
    match s.engWrite (s.commWho ch.comm ch.target ch.priv) (ch.dst + BitVec.ofNat 64 ch.off) ch.data.length (ofBytes ch.data) .eng with
    | (s, some (f, a)) => some (s.chunkHandled ch (some (f.2, a)) false)
    | (s, none) => some (s.chunkHandled ch none false)
  else if !ch.ordered then
    let (s, err) := s.reduceInPlace ch State.engStore id
    some (s.chunkHandled ch err false)
  else
    let s := match s.stepOf ch.comm ch.seq ch.dst with
      | some t => if s.stepLate t then s.abandon t else s
      | none => s
    match s.openStep ch with
    | .err c => some (s.chunkDone ch (some c) ch.dst)
    | .full => if ch.off = 0 then none else some (s.chunkDone ch none 0)
    | .ok s => some ((s.contribute ch).chunkDone ch none 0)

/-- Removes the first chunk that equals one given. -/
def dropChunk : List Chunk → Chunk → List Chunk
  | [], _ => []
  | x :: t, c => if x = c then t else x :: dropChunk t c

/-- A chunk arrives. -/
def State.chunkArrive (s : State) (ch : Chunk) : Option State :=
  { s with net := { s.net with chunks := dropChunk s.net.chunks ch } }.handleChunk ch

/-! ### Steps (17 R332-R334) -/

/-- Element `i` of a contribution, under the descriptor that came with it, as a value that goes into a cell. -/
def AdderStep.elem (t : AdderStep) (desc : W32) (v i : Nat) : Val :=
  if t.rfmt = 6 then blockVal (descFmt desc.toNat) (slice v (18 * (i / 16)) 18) (i % 16)
  else (rfmtFmt t.rfmt).decode (slice v (rfmtBytes t.rfmt * i) (rfmtBytes t.rfmt))

/-- Result element `i`: its code and flags. -/
def AdderStep.result (t : AdderStep) (vs : List (W32 × Nat)) (i : Nat) : Nat × Flags :=
  let z := rfmtBytes t.rfmt
  if t.rop = 1 ∧ (t.rfmt < 3 ∨ t.rfmt = 6) then
    cellRead (if t.rfmt = 6 then fF32 else rfmtFmt t.rfmt)
      (vs.foldl (fun c v => cellAdd c (t.elem v.1 v.2 i)) (toBytes 64 0))
  else
    let xs := vs.map (fun v => slice v.2 (z * i) z)
    if t.rop = 1 ∧ t.rfmt = 3 then
      let (r, fl) := treeSum (fadd fF64) 17 (xs.map some)
      (fF64.canon (r.getD 0), fl)
    else
      match xs with
      | [] => (0, 0#5)
      | x :: r => r.foldl (fun (p : Nat × Flags) y => combineElem t.rop t.rfmt p.1 y)
          (if t.rfmt < 4 then (rfmtFmt t.rfmt).canon x else x, 0#5)

/-- Bytes of a result element. -/
def AdderStep.outBytes (t : AdderStep) : Nat := if t.rfmt = 6 then 4 else rfmtBytes t.rfmt

/-- A complete step writes its results, increments RCTR and releases its buffer (17 R332). -/
def State.stepWrite (s : State) (k : StepKey) : Option State :=
  match s.stepOf k.comm k.seq k.dst with
  | none => none
  | some t =>
    if !t.complete then none
    else
      let vs := t.whole.map (fun c => (c.desc, c.num))
      let rs := (List.range (elemCount t.rfmt t.len)).map (t.result vs)
      let z := t.outBytes
      let (s, _) := s.engWrite (s.commWho t.comm t.target t.priv) t.dst (z * rs.length) (ofLanes (8 * z) (rs.map (·.1))) .eng
      let fl := (rs.foldl (fun f r => f ||| r.2) 0#5).toNat
      let s := s.setDreg (commReg t.comm 0x30) (s.dreg! (commReg t.comm 0x30) ||| BitVec.ofNat 64 fl)
      let same (x : Nat × Nat × W64 × Nat) : Bool := x.1 == t.comm && x.2.2.2 == t.stack
      let mine := ((t.comm, t.seq, t.dst, t.stack) :: s.coll.completed.filter same).take 4096
      some ({ s with coll := { s.coll with
        steps := s.coll.steps.filter (fun x => x != t)
        completed := mine ++ s.coll.completed.filter (fun x => !same x) } }.incCtr t.rctr)

/-- A step that is not complete in time is abandoned (17 R334). -/
def State.stepDrop (s : State) (k : StepKey) : Option State :=
  match s.stepOf k.comm k.seq k.dst with
  | none => none
  | some t => if s.stepLate t then some (s.abandon t) else none

/-- Every step whose time has passed is abandoned at once (17 R334). -/
def State.dropLate (s : State) : State := (s.coll.steps.filter s.stepLate).foldl State.abandon s

/-- A work entry that has nothing left to send and nothing outstanding ends (17 R330). -/
def State.entryEnd (s : State) (die idx : Nat) : Option State :=
  let k := 4096 * die + idx
  match Tbl.find s.coll.work k with
  | none => none
  | some w =>
    let h := w.field 0 8
    if w.state ≠ 3 ∨ w.outstanding ≠ 0 ∨ w.sent < bits h 31 0 then none
    else
      let dst := BitVec.ofNat 64 (w.field 16 8 % 2 ^ 52)
      let handle := 4096 * die + idx
      let s := if bit h 46 then s.setWork k { w with state := 4, sent := 0, err := none }
        else { s with coll := { s.coll with work := Tbl.erase s.coll.work k } }
      match w.err with
      | some (c, a) =>
        some (s.post w.core ⟨0x11, bits h 39 32, c, w.ctx, handle, BitVec.ofNat 64 (a.toNat % 2 ^ 52), false, 0⟩)
      | none =>
        let here := match s.rankOf w.comm (w.field 24 4) w.priv with
          | .ok (d, _) => d == s.ownDev
          | .error _ => false
        let s := if here && !(bits h 63 60 == 1 && bit h 47) then s.incCtr (w.field 52 4) else s
        let s := s.incCtr (w.field 48 4)
        some (if bit h 45 then s.post w.core ⟨0x10, bits h 39 32, 0, w.ctx, handle, dst, false, 0⟩ else s)

/-! ### Meanings -/

/-- The entry record of QPOST in the core's own local store, after the context's earlier stores (17 R336). -/
def postRecord (e : Entry) : M Nat := do
  let _ ← ownOffset e.opa
  alignTo e.opa 64 0x3C
  let w ← e.who
  let l ← accessM w e.opa 64 .read .ls
  afterEarlier e (fun x => writes x.instr)
  loadAt w l 64

/-- QPOST of the captured record `r` to communicator `n`. -/
def postEntry (e : Entry) (d n r : Nat) : M Fin := do
  let s ← get
  let h := slice r 0 8
  let fmt := bits h 55 52
  let f := (s.cx.fOf (bits h 51 48)).toNat
  let bad := s.recBad n r
  if !bad && decide (1 ≤ ((s.cc.part.map (·.promise)).getD 0) ∧ bits h 63 60 = 1 ∧ bit h 47 = false ∧ fmt ≤ 3) then
    trapPre .prot 0x33 e.opa
  else if e.left ≠ 0 then pure (.hold [0, 0, r])
  else if bad then trapPost .prot 0x31 e.opa
  else if bits h 63 60 = 1 ∧ bit h 47
      ∧ bits (s.dregN (commReg n 0x20)) 9 0 * 65536 < stepBytes (bits h 59 56) fmt (bits h 31 0) (slice r 32 4) then
    trapPost .prot 0x32 e.opa
  else if fmt = 6 ∧ ¬ (descValid f ∧ descKind f = 0) then
    trapPost .format 0 (BitVec.ofNat 64 (0xFFFF00 + 96 + bits h 51 48))
  else
    let die := s.cur.1 / 384
    match s.freeEntry die with
    | none => holdOr e [0, 0, r]
    | some i =>
      let k := 4096 * die + i
      let wk : Work := {
        state := 1, comm := n, core := s.cur.1, ctx := s.cur.2, priv := e.priv, record := toBytes 64 r
        desc := BitVec.ofNat 32 f, threshold := BitVec.ofNat 64 (slice r 40 8), ready := 0, sent := 0, outstanding := 0
        err := none }
      set ((s.setWork k wk).fire (ctrKey (slice r 36 4)))
      wFin e d (BitVec.ofNat 64 k)
      pure .done

/-- QPOST (17 R329). -/
def finQpost (d : Nat) : Eff := fun e => do
  let s ← get
  let n := e.opb.toNat
  if 63 < n then trapPre .prot 0x30 e.opb
  else if !s.commOn n || s.commDom n != s.cc.domain then
    if e.left ≠ 0 then pure (.hold [0, 0]) else trapPost .prot 0x30 e.opb
  else
    let r ← heldRecord e (postRecord e)
    postEntry e d n r

/-- QPOST (17 R329). -/
def execQpost (d : Nat) (a : Nat) (b : Nat) (g : Nat) (la : Nat) (s : State) : Host.Outcome State Fault Refusal :=
  issue (.qpost d a b g la) (finQpost d) s

/-- QARM (17 R331). -/
def finQarm : Eff := plain (fun e => fun s =>
  let h := e.opa.toNat
  let k := 4096 * (s.cur.1 / 384) + h % 4096
  if h % 2 ^ 15 ≠ h % 4096 ∨ 2 ^ 16 ≤ h then .error (.trap .prot 0x31 e.opa true)
  else
    match Tbl.find s.coll.work k with
    | none => .error (.trap .prot 0x31 e.opa false)
    | some w =>
      if w.state ≠ 4 ∨ s.commDom w.comm ≠ s.cc.domain then .error (.trap .prot 0x31 e.opa false)
      else if bit h 15 then .ok ((), { s with coll := { s.coll with work := Tbl.erase s.coll.work k } })
      else .ok ((), (s.setWork k { w with state := 1, threshold := e.opb }).fire (ctrKey (w.field 36 4))))

/-- QARM (17 R331). -/
def execQarm (a : Nat) (b : Nat) (g : Nat) (s : State) : Host.Outcome State Fault Refusal :=
  issue (.qarm a b g) finQarm s

/-- CTRADD (17 R328). -/
def finCtradd (d : Nat) : Eff := plain (fun e => do
  let k ← ctrId e.opa
  sysRelease
  let s ← get
  set (s.setCtr k (s.ctr k + e.opb))
  wFin e d (s.ctr k))

/-- CTRADD (17 R328). -/
def execCtradd (d : Nat) (a : Nat) (b : Nat) (g : Nat) (la : Nat) (s : State) : Host.Outcome State Fault Refusal :=
  issue (.ctradd d a b g la) (finCtradd d) s

/-- CTRWAIT (17 R328). -/
def finCtrwait (d : Nat) : Eff := plain (fun e => do
  let k ← ctrId e.opa
  let s ← get
  if s.ctr k < e.opb then waitM else wFin e d (s.ctr k))

/-- CTRWAIT (17 R328). -/
def execCtrwait (d : Nat) (a : Nat) (b : Nat) (g : Nat) (la : Nat) (s : State) : Host.Outcome State Fault Refusal :=
  issue (.ctrwait d a b g la) (finCtrwait d) s

/-- CTRSET (17 R328). -/
def finCtrset : Eff := plain (fun e => do
  let k ← ctrId e.opa
  sysRelease
  let s ← get
  set (s.setCtr k e.opb))

/-- CTRSET (17 R328). -/
def execCtrset (a : Nat) (b : Nat) (g : Nat) (s : State) : Host.Outcome State Fault Refusal :=
  issue (.ctrset a b g) finCtrset s

/-! ### Events -/

/-- A chunk boundary (17 R333). -/
def execCollectiveChunkAdmit (die : Nat) (s : State) : Host.Outcome State Fault Refusal :=
  eventIf (decide (die < 4)) s (s.admitChunk die)

/-- The ports may bring the chunk: one of another device comes only while this device has its number (04 R64). -/
def State.receivesChunk (s : State) (ch : Chunk) : Bool := !ch.fab || s.devnum.isSome

/-- A chunk arrives at its target (17 R332). -/
def execChunkArrival (chunk : Chunk) (s : State) : Host.Outcome State Fault Refusal :=
  eventIf (decide (chunk.comm < 64 ∧ chunk.target < 1536)) s (if s.receivesChunk chunk then s.chunkArrive chunk else none)

/-- A complete step writes its results (17 R332). -/
def execStepResultWrite (key : StepKey) (s : State) : Host.Outcome State Fault Refusal := eventIf true s (s.stepWrite key)

/-- A step is abandoned (17 R334). -/
def execStepAbandon (key : StepKey) (s : State) : Host.Outcome State Fault Refusal := eventIf true s (s.stepDrop key)

/-- A work entry completes (17 R330). -/
def execEntryComplete (die idx : Nat) (s : State) : Host.Outcome State Fault Refusal :=
  eventIf (decide (die < 4 ∧ idx < 4096)) s (s.entryEnd die idx)

end Sys2Proof.Machine
end

