-- ==== Sys2Proof/Machine/Exec.lean ====
section
/-! DEFINITION. The execution model: starting and ending contexts, work identifiers, pennants, following, and the halyard
network (14 R270-R292). -/

namespace Sys2Proof.Machine

/-! ### Contexts (14 R270-R274) -/

/-- A check that only the control context outside handler mode passes (PROT code 0x2E; 18 R345). -/
def controlWord (also : Bool) : M Unit := fun s =>
  if s.cur.2 ≠ 0 ∨ s.cx.level ≠ 0 ∨ also then .error (.trap .prot 0x2E 0 true) else .ok ((), s)

/-- The lowest-numbered idle helper of a core (14 R271). -/
def Core.idleHelper (x : Core) : Option Nat := (List.range 11).find? (fun k => k != 0 && (x.ctx k).life == .idle)

/-- The identifier with its helper field replaced (14 R271). -/
def helperWid (hdr wid k : Nat) : Nat :=
  match (widFields hdr).find? (fun f => f.1 == 4) with
  | none => wid
  | some f => wid - wid / 2 ^ f.2.2 % 2 ^ f.2.1 * 2 ^ f.2.2 + k % 2 ^ f.2.1 * 2 ^ f.2.2

/-- The context with no work. -/
def Ctx.idle (c : Ctx) : Ctx :=
  { c with
    life := .idle, held := [], started := false, pennant := none, follow := none, results := [], stepping := false
    flow := { c.flow with chain := [], inflight := [], gone := [], loops := [], bypass := [], stale := [], q := [] } }

/-- A helper that START started on this core has not exited. -/
def Core.helpersLeft (x : Core) : Bool := x.ctxs.any (fun p => p.1 != 0 && p.2.started && p.2.busy)

/-- Ends the running context (14 R272): a helper becomes idle, and the parent of a pennant with AJ is to be joined; the
control context restarts with its next identifier or becomes idle. -/
def State.exitCtx (s : State) : State :=
  let (core, k) := s.cur
  let c := s.cx
  if k ≠ 0 then
    let s := match c.pennant with
      | some (a, true) => { s with net := { s.net with posts := s.net.posts ++ [(core, a, s.queueOf core, s.cc.domain)] } }
      | _ => s
    (s.setCx c.idle).endPart core
  else
    let s := (s.countRun core).setCx { c with held := [], follow := none }
    match s.nextId core with
    | some (id, s) =>
      let args := ((s.core core).part.map (·.args)).getD []
      let p := (s.core core).part
      s.beginCtx core 0 ((p.map (·.kimg)).getD 0) id ((p.map (·.widhdr)).getD 0) args false none
    | none => (s.setCx s.cx.idle).endPart core

/-- The value of a WID selector 0 to 7 (14 R274). -/
def widSelect (c : Ctx) (n : Nat) : W64 :=
  if n = 6 then c.spec.wid
  else if n = 7 then c.spec.widhdr
  else
    match (widFields c.spec.widhdr.toNat)[n]? with
    | none => 0
    | some f => BitVec.ofNat 64 (c.spec.wid.toNat / 2 ^ f.2.2 % 2 ^ f.2.1)

/-! ### Pennants (14 R275-R280) -/

/-- Fields of a pennant's 32 bytes. -/
def pnCode (r : Nat) : Nat := slice r 0 8
def pnCount (r : Nat) : Nat := slice r 16 4
def pnParent (r : Nat) : Int := signed 32 (slice r 20 4)
def pnPrio (r : Nat) : Nat := bits (slice r 24 8) 1 0
def pnQ (r : Nat) : Bool := bit (slice r 24 8) 7

/-- A malformed record (14 R275). -/
def pnBad (r : Nat) : Bool :=
  let w := slice r 24 8
  bits w 63 8 != 0 || bits w 6 3 != 0 || pnCode r % 4 != 0 || (bit w 2 && pnParent r == 0)

/-- The record with another count or Q bit. -/
def pnWith (r count : Nat) (q : Bool) : Nat :=
  r - slice r 16 4 * 2 ^ 128 + count * 2 ^ 128 - b2n (pnQ r) * 2 ^ 199 + b2n q * 2 ^ 199

/-- The parent's address (14 R275). -/
def pnParentAt (a : W64) (r : Nat) : W64 := a + w64OfInt (32 * pnParent r)

/-- The ready queues of a cluster are enabled (14 R277). -/
def State.pnOn (s : State) (cluster : Nat) : Bool := bit (s.dregN (0x2C0000 + 8 * cluster)) 63

/-- The ready queue has room. -/
def State.pnRoom (s : State) (k : Nat) : Bool :=
  match Tbl.get [] s.launch.pennants k with
  | [] => true
  | h :: _ => decide (Tbl.get 0 s.launch.pntail k - h < 65536)

/-- Adds a pennant at the tail of ready queue `k` = 4 cluster + priority (14 R276, R277). -/
def State.pnPut (s : State) (k a queue : Nat) : State :=
  let n := Tbl.get 0 s.launch.pntail k
  let base := bits (s.dregN (0x2C0000 + 8 * (k / 4))) 51 22 * 2 ^ 22
  let s := s.poke (.hbm (base + k % 4 * 2 ^ 20 + n % 65536 * 16) 0) 16 (a % 2 ^ 52 + queue % 2 ^ 12 * 2 ^ 64)
  { s with launch := { s.launch with
    pennants := Tbl.set [] s.launch.pennants k (Tbl.get [] s.launch.pennants k ++ [n])
    pntail := Tbl.put s.launch.pntail k (n + 1) } }

/-- What a join gives (14 R280). -/
inductive Joined where
  | bad
  /-- The counter was already zero. -/
  | zero
  | queued
  /-- Cluster without ready queues. -/
  | off
  /-- The ready queue is full. -/
  | full
  | ok (count : Nat) (s : State)
  deriving DecidableEq, Repr

/-- Joins the record at a place, for a core and the launch of a queue (14 R280). -/
def State.joinAt (s : State) (core queue : Nat) (a : W64) (l : Loc) : Joined :=
  let r := s.peek l 32
  if pnBad r then .bad
  else if pnCount r = 0 then .zero
  else if pnCount r ≠ 1 then .ok (pnCount r - 1) (s.poke l 32 (pnWith r (pnCount r - 1) (pnQ r)))
  else if pnQ r then .queued
  else if !s.pnOn (core / 192) then .off
  else
    let k := 4 * (core / 192) + pnPrio r
    if !s.pnRoom k then .full else .ok 0 ((s.poke l 32 (pnWith r 0 true)).pnPut k a.toNat queue)

/-- A record PNFAIL for a core. -/
def State.pnFail (s : State) (core status : Nat) (a : W64) : State := s.post core (hwRec 0x0F status 0 a)

/-- On whose behalf the hardware accesses pennants for a core under a domain. -/
def State.pnWho (s : State) (core dom : Nat) : Who := ⟨dom, s.domPriv dom, core⟩

/-- The hardware joins a pennant for a core and the launch and domain that caused it, or posts PNFAIL; none while the ready queue is
full (14 R280). -/
def State.hwPost (s : State) (core : Nat) (a : W64) (queue dom : Nat) : Option State :=
  if a.toNat % 32 ≠ 0 then some (s.pnFail core 0 a)
  else
    match s.access (s.pnWho core dom) a 32 .rmw .fe with
    | .error f => some (s.pnFail core f.2 a)
    | .ok l =>
      match s.joinAt core queue a l with
      | .bad => some (s.pnFail core 0 a)
      | .zero => some (s.pnFail core 1 a)
      | .queued => some (s.pnFail core 2 a)
      | .off => some (s.pnFail core 0x20 a)
      | .full => none
      | .ok _ s => some s

/-- The first post of a pennant on its way for a core is made. -/
def State.postPennant (s : State) (core : Nat) (a : W64) : Option State :=
  match s.net.posts.find? (fun p => p.1 == core && p.2.1 == a) with
  | none => s.hwPost core a (s.queueOf core) (s.core core).domain
  | some p => { s with net := { s.net with posts := s.net.posts.erase p } }.hwPost core a p.2.2.1 p.2.2.2

/-- A START of a core waits for a helper (14 R271). -/
def Core.startWaits (x : Core) : Bool := (x.ctx 0).flow.inflight.any (fun e => match e.instr with
  | .start .. => true
  | _ => false)

/-- The oldest pennant of the queue's launch in the first ready queue of a cluster that holds one (14 R276). -/
def State.pnFind (s : State) (cluster queue : Nat) : Option (Nat × Nat) :=
  [0, 1, 2, 3].findSome? (fun p =>
    ((Tbl.get [] s.launch.pennants (4 * cluster + p)).find? (fun n => (s.pnSlot (4 * cluster + p) n).1 == queue)).map
      (fun n => (4 * cluster + p, n)))

/-- Takes a slot out of a ready queue. -/
def State.pnTake (s : State) (k n : Nat) : State :=
  { s with launch := { s.launch with
    pennants := Tbl.set [] s.launch.pennants k ((Tbl.get [] s.launch.pennants k).filter (fun x => x != n)) } }

/-- The part of a core whose launch is placed there: one that runs, or one that has ended while its launch goes on (14 R272,
R276). -/
def State.hostedPart (s : State) (core : Nat) : Option Part :=
  (s.core core).part.filter (fun p => !p.ended || (Tbl.find s.launch.active p.queue).isSome)

/-- An idle helper pops a pennant of its launch and becomes live (14 R276, R278); not while its part is being pre-empted or its domain is
halted (15 R308, 18 R355). -/
def State.pnPop (s : State) (core : Nat) : Option State :=
  let x := s.core core
  match s.hostedPart core with
  | none => none
  | some p =>
    let idle := (List.range 11).filter (fun k => k != 0 && (x.ctx k).life == .idle)
    if idle = [] ∨ x.startWaits ∨ s.launch.taking.any (fun t => t.1 == core) ∨ s.admin.halting = some p.domain then none
    else
      match s.pnFind (core / 192) p.queue with
      | none => none
      | some (k, n) =>
        let a := BitVec.ofNat 64 (s.pnSlot k n).2
        let s := s.pnTake k n
        match s.access (s.pnWho core p.domain) a 32 .read .ls with
        | .error f => some (s.pnFail core f.2 a)
        | .ok l =>
          let r := s.peek l 32
          let s := s.poke l 32 (pnWith r (pnCount r) false)
          let (i, s) := s.choose idle.length
          let s := s.setCore core { s.core core with part := some { p with ended := false } }
          some (s.beginCtx core (idle.getD i 1) (BitVec.ofNat 64 (pnCode r)) 0 p.widhdr
            [BitVec.ofNat 64 (slice r 8 8), a] false (some (pnParentAt a r, bit (slice r 24 8) 2)))

/-- A pennant that has waited long enough moves to the next queue (14 R276). -/
def State.pnPromote (s : State) (cluster prio idx : Nat) : Option State :=
  if prio = 0 ∨ 3 < prio then none
  else
    let k := 4 * cluster + prio
    match (Tbl.get [] s.launch.pennants k)[idx]? with
    | none => none
    | some n =>
      if !s.pnRoom (k - 1) then none
      else
        let (q, a) := s.pnSlot k n
        some ((s.pnTake k n).pnPut (k - 1) a q)

/-! ### Halyard words (14 R284, R285) -/

/-- The core lies within the extent of a word issued by `core`. -/
def halyIn (w core i : Nat) : Bool :=
  match bits w 41 40 with
  | 0 =>
    i / 192 == core / 192 && decide (bits w 7 4 ≤ i % 192 / 16 ∧ i % 192 / 16 ≤ bits w 15 12)
      && decide (bits w 3 0 ≤ i % 16 ∧ i % 16 ≤ bits w 11 8)
  | 1 => i / 384 == core / 384
  | 2 => bit (bits w 39 36) (i / 384)
  | _ => true

/-- A word that breaks the rules of 14 R284; `modes` is the number of its modes. -/
def halyBad (w core modes : Nat) : Bool :=
  let ext := bits w 41 40
  bits w 63 44 != 0 || bits w 35 16 != 0 || decide (modes ≤ bits w 43 42)
    || (if ext = 2 then !bit (bits w 39 36) (core / 384) else bits w 39 36 != 0)
    || (if ext = 0 then
          decide (bits w 11 8 < bits w 3 0) || decide (bits w 15 12 < bits w 7 4) || decide (11 < bits w 15 12)
            || !halyIn w core core
        else bits w 15 0 != 0)

/-- The cores that count together with `core` for a word: its cluster, its die, or the package. -/
def halyPlace (w core : Nat) : Nat :=
  match bits w 41 40 with
  | 0 => core / 192
  | 1 => core / 384
  | _ => 0

/-- A representative core of a place. -/
def halyAt (w place : Nat) : Nat :=
  match bits w 41 40 with
  | 0 => 192 * place
  | 1 => 384 * place
  | _ => 0

/-- The launch of a queue can still deal an identifier to a core (14 R285). -/
def State.mayDeal (s : State) (q core : Nat) : Bool :=
  match Tbl.find s.launch.active q with
  | none => false
  | some l =>
    (s.fixUsable l).hasFor core

/-- The core is a member: the launch has dealt to it or can still do so. -/
def State.memberOf (s : State) (q core : Nat) : Bool :=
  (match (s.core core).part with
    | some p => p.queue == q
    | none => false)
  || (match Tbl.find s.launch.active q with
    | some l => l.trace.any (fun t => t.1 == core)
    | none => false) || s.mayDeal q core

/-- A member whose control context is idle for good (14 R285, 18 R347). -/
def State.idleForGood (s : State) (q core : Nat) : Bool :=
  let ended (p : Part) (c : Ctx) : Bool := c.life == .dead || (c.life == .idle && p.run == [] && !s.mayDeal q core)
  match s.launch.stopped.find? (fun x => x.core == core && x.part.queue == q) with
  | some x => ended x.part (Tbl.get Ctx.reset x.ctxs 0)
  | none =>
    match (s.core core).running with
    | some p => if p.queue = q then ended p (s.ctx core 0) else !s.mayDeal q core
    | none => !s.mayDeal q core

/-- The members of an episode, in ascending order. -/
def State.members (s : State) (e : Episode) : List Nat :=
  (List.range 1536).filter (fun i => halyIn e.word.toNat (halyAt e.word.toNat e.place) i && s.memberOf e.launch i)

/-- Every member has arrived or is idle for good. -/
def State.episodeFull (s : State) (e : Episode) : Bool :=
  (s.members e).all (fun i => e.arrived.any (fun a => a.1 == i) || s.idleForGood e.launch i)

/-- The arrivals of a member join its first open episode that it has not joined, or open the next one (14 R285). -/
def arriveIn (core seq : Nat) (v : W64) (op : Nat) (w : W64) (q place : Nat) : List Episode → List Episode
  | [] => [⟨op, w, q, place, [(core, seq, v)]⟩]
  | e :: r =>
    if e.op = op ∧ e.word = w ∧ e.launch = q ∧ e.place = place ∧ e.arrived.all (fun a => a.1 != core) then
      { e with arrived := e.arrived ++ [(core, seq, v)] } :: r
    else e :: arriveIn core seq v op w q place r

/-- The result of a full episode (14 R286-R288): the answer that every member receives. -/
def State.episodeResult (s : State) (e : Episode) : Res :=
  let mode := bits e.word.toNat 43 42
  let vals := (s.members e).map (fun i => ((e.arrived.find? (fun a => a.1 == i)).map (fun a => a.2.2)))
  match e.op with
  | 0 =>
    if mode = 0 then .q (vals.all (fun v => match v with
      | some x => x.getLsbD 0
      | none => true))
    else .q (vals.any (fun v => match v with
      | some x => x.getLsbD 0
      | none => false))
  | 1 => .w 0
  | _ =>
    let xs := vals.map (fun v => (v.getD 0).toNat)
    if mode = 0 then .w2 (BitVec.ofNat 64 (xs.foldl (· + ·) 0)) 0
    else
      let f := if mode = 1 then fF64 else fF32
      let (r, fl) := treeSum (fadd f) 11 (xs.map (fun x => some (x % 2 ^ f.width)))
      .w2 (BitVec.ofNat 64 (f.canon (r.getD 0))) (BitVec.ofNat 64 fl.toNat)

/-- A full episode completes (14 R285); where members share their physical cores, it waits for their partners too (19 R360). -/
def State.episodeEnd (s : State) (e : Episode) : Option State :=
  if !s.episodeFull e || !s.partnersReady (s.members e) then none
  else
    let r := s.episodeResult e
    let s1 := { s with episodes := s.episodes.erase e }
    some (e.arrived.foldl (fun s a => s.deliver a.1 0 a.2.1 r) s1)

/-- A barrier's limit passes before its release: the member withdraws (14 R286). -/
def State.halyExpire (s : State) (core : Nat) : Option State :=
  match (s.ctx core 0).flow.inflight.find? (fun e => (match e.instr with
      | .haly .. => true
      | _ => false) && e.opb != 0 && e.await) with
  | none => none
  | some e =>
    match s.episodes.find? (fun p => p.op == 1 && p.arrived.any (fun a => a.1 == core && a.2.1 == e.seq)) with
    | none => none
    | some p =>
      let p' := { p with arrived := p.arrived.filter (fun a => a.1 != core) }
      let es := s.episodes.flatMap (fun x => if x = p then (if p'.arrived = [] then [] else [p']) else [x])
      some ({ s with episodes := es }.deliver core 0 e.seq (.w 1))

/-- Checks of a halyard word (14 R284, R285). -/
def halyCheck (e : Entry) (modes : Nat) : M Unit := do
  controlWord false
  let k ← getCur
  if halyBad e.opa.toNat k.1 modes then trapPre .prot 0x2F e.opa else pure ()

/-- Checks of a halyard word, then the arrival of an entry that has not arrived, which is a release (14 R284, R285, R289). -/
def arrive (e : Entry) (op modes : Nat) : M Unit := do
  halyCheck e modes
  let k ← getCur
  if e.await then pure ()
  else
    nearRelease
    fun s =>
    let es := arriveIn k.1 e.seq e.opb op e.opa (s.queueOf k.1) (halyPlace e.opa.toNat k.1) s.episodes
    .ok ((), { s with episodes := es })

/-- Still in progress: it waits unless it has just begun. -/
def goOn (e : Entry) : M Fin := if e.await then waitM else pure .await

/-! ### Meanings -/

/-- START: the lowest-numbered idle helper starts, once there is one (14 R271). -/
def finStart (d : Nat) : Eff := plain (fun e => do
  controlWord false
  alignTo e.opa 4 0x36
  nearRelease
  let x ← getCc
  match x.idleHelper with
  | none => waitM
  | some k =>
    fun s => .ok ((), s.beginCtx s.cur.1 k e.opa
      (BitVec.ofNat 64 (helperWid s.cx.spec.widhdr.toNat s.cx.spec.wid.toNat k)) s.cx.spec.widhdr [e.opb] true none)
    wFin e d (BitVec.ofNat 64 k))

/-- START: the lowest-numbered idle helper starts, once there is one (14 R271). -/
def execStart (d : Nat) (a : Nat) (b : Nat) (g : Nat) (s : State) : Host.Outcome State Fault Refusal :=
  issue (.start d a b g) (finStart d) s

/-- EXIT: after the other instructions of the context, its stores and the helpers that it started (14 R272). -/
def finExit : Eff := plain (fun e => do
  let c ← getCx
  let x ← getCc
  let k ← getCur
  if c.flow.inflight.any (fun p => p.seq != e.seq) then waitM
  else if k.2 = 0 ∧ x.helpersLeft then waitM
  else
    nearRelease
    fun s => .ok ((), s.exitCtx))

/-- EXIT: after the other instructions of the context and the helpers that it started (14 R272). -/
def execExit (g : Nat) (s : State) : Host.Outcome State Fault Refusal :=
  issue (.exit g) finExit s

/-- YIELD (14 R273). -/
def finYield : Eff := plain (fun e => fun s => .ok ((), s.setCx { s.cx with yielded := s.cc.cycle + 1 + e.opa.toNat % 2 ^ 16 }))

/-- YIELD (14 R273). -/
def execYield (a : Nat) (g : Nat) (s : State) : Host.Outcome State Fault Refusal :=
  issue (.yield a g) finYield s

/-- FOLLOW: no following, or a wait for the leader to issue the next instruction (14 R290); two logical cores that share a physical one do
not follow (19 R369). -/
def finFollow (d : Nat) : Eff := fun e => do
  controlWord (decide (2 ^ 8 ≤ e.opa.toNat))
  let s ← get
  let core := s.cur.1
  let lead := core / 192 * 192 + e.opa.toNat
  match s.cx.follow with
  | some f =>
    if f.on then
      wFin e d 1
      pure .done
    else waitM
  | none =>
    let same := match s.cc.running, (s.core lead).running with
      | some p, some q => p.queue == q.queue && p.kimg == q.kimg && (s.ctx lead 0).life == .live
      | _, _ => false
    if lead = core ∨ 192 ≤ e.opa.toNat ∨ !same ∨ (s.ctx lead 0).follow.isSome ∨ s.physOf lead = s.physOf core then
      wFin e d 0
      pure .done
    else
      modCx (fun c => { c with follow := some ⟨lead, e.own + 4, false, []⟩ })
      pure .stay

/-- FOLLOW: no following, or a wait for the leader to issue the next instruction (14 R290). -/
def execFollow (d : Nat) (a : Nat) (g : Nat) (s : State) : Host.Outcome State Fault Refusal :=
  issue (.follow d a g) (finFollow d) s

/-- UNFOLLOW (14 R292). -/
def finUnfollow : Eff := plain (fun _ => modCx (fun c => { c with follow := none }))

/-- UNFOLLOW (14 R292). -/
def execUnfollow (g : Nat) (s : State) : Host.Outcome State Fault Refusal :=
  issue (.unfollow g) finUnfollow s

/-- WID (14 R274). -/
def finWid (d : Nat) : Eff := plain (fun e => do
  let c ← getCx
  let k ← getCur
  let n := e.opa.toNat
  if 8 < n ∨ (n = 8 ∧ k.2 ≠ 0) then trapPre .prot 0x2E e.opa
  else if n ≠ 8 then wFin e d (if c.pennant.isSome then 0 else widSelect c n)
  else fun s =>
    match s.nextId k.1 with
    | some (id, s) =>
      let s := s.countRun k.1
      let c := { s.cx with spec := { s.cx.spec with wid := id } }
      .ok ((), s.setCx (c.finW e d id))
    | none =>
      let x := s.cc
      let s := s.setCc { x with part := x.part.map (fun p => { p with exhausted := true }) }
      let c := { s.cx with spec := { s.cx.spec with wid := BitVec.allOnes 64 } }
      .ok ((), s.setCx (c.finW e d (BitVec.allOnes 64))))

/-- WID (14 R274). -/
def execWid (d : Nat) (a : Nat) (g : Nat) (s : State) : Host.Outcome State Fault Refusal :=
  issue (.wid d a g) (finWid d) s

/-- PNPUSH (14 R279). -/
def finPnpush : Eff := plain (fun e => do
  alignTo e.opa 32 0x3B
  let w ← e.who
  let l ← accessM w e.opa 32 .rmw .fe
  let k ← getCur
  nearRelease
  fun s =>
    let r := s.peek l 32
    let q := 4 * (k.1 / 192) + pnPrio r
    if pnBad r || pnCount r != 0 || pnQ r then .error (.trap .prot 0x2E e.opa false)
    else if !s.pnOn (k.1 / 192) then .error (.trap .memfault 0x20 e.opa false)
    else if !s.pnRoom q then .error .wait
    else .ok ((), (s.poke l 32 (pnWith r 0 true)).pnPut q e.opa.toNat (s.queueOf k.1)))

/-- PNPUSH (14 R279). -/
def execPnpush (a : Nat) (g : Nat) (s : State) : Host.Outcome State Fault Refusal :=
  issue (.pnpush a g) finPnpush s

/-- JOIN (14 R280). -/
def finJoin (d : Nat) : Eff := plain (fun e => do
  alignTo e.opa 32 0x3B
  let w ← e.who
  let l ← accessM w e.opa 32 .rmw .fe
  nearRelease
  let s ← get
  match s.joinAt s.cur.1 (s.queueOf s.cur.1) e.opa l with
  | .bad => trapPost .prot 0x2E e.opa
  | .queued => trapPost .prot 0x2E e.opa
  | .off => trapPost .memfault 0x20 e.opa
  | .full => waitM
  | .zero => wFin e d (BitVec.allOnes 64)
  | .ok n s =>
    set s
    wFin e d (BitVec.ofNat 64 n))

/-- JOIN (14 R280). -/
def execJoin (d : Nat) (a : Nat) (g : Nat) (s : State) : Host.Outcome State Fault Refusal :=
  issue (.join d a g) (finJoin d) s

/-- VOTE: its slot is pending from its issue until the episode completes (14 R287), and takes the result only while it still is (18 R348). -/
def finVote (d : Nat) : Eff := fun e => do
  match ← takeRes e with
  | some (.q v) =>
    modCx (fun c => if c.qOf d = .pending e.seq then c.setQ d (.val v) else c)
    pure .done
  | _ =>
    halyCheck e 2
    let s ← get
    modCx (fun c => if c.flow.inflight.any (fun x => x.seq == e.seq) then c else c.setQ d (.pending e.seq))
    if !e.await && s.nearWaits then pure .stay
    else
      arrive e 0 2
      goOn e

/-- VOTE: its slot is pending until the episode completes (14 R287). -/
def execVote (d : Nat) (a : Nat) (b : Nat) (g : Nat) (s : State) : Host.Outcome State Fault Refusal :=
  issue (.vote d a b g) (finVote d) s

/-- HALY (14 R286). -/
def finHaly (d : Nat) : Eff := fun e => do
  match ← takeRes e with
  | some (.w v) =>
    wFin e d v
    pure .done
  | _ =>
    promiseLimit e.opb
    arrive e 1 1
    goOn e

/-- HALY (14 R286). -/
def execHaly (d : Nat) (a : Nat) (b : Nat) (g : Nat) (s : State) : Host.Outcome State Fault Refusal :=
  issue (.haly d a b g) (finHaly d) s

/-- HSUM (14 R288). -/
def finHsum (d : Nat) : Eff := fun e => do
  match ← takeRes e with
  | some (.w2 v f) =>
    raiseFlags (BitVec.ofNat 5 f.toNat)
    wFin e d v
    pure .done
  | _ =>
    arrive e 2 3
    goOn e

/-- HSUM (14 R288). -/
def execHsum (d : Nat) (a : Nat) (b : Nat) (g : Nat) (s : State) : Host.Outcome State Fault Refusal :=
  issue (.hsum d a b g) (finHsum d) s

/-! ### Events -/

/-- Completes the first entry of a context that `p` finds, if its effect lets it. -/
def State.finishIf (s : State) (eff : Instr → Eff) (core k : Nat) (p : Instr → Bool) : Option State :=
  match (s.ctx core k).flow.inflight.find? (fun e => p e.instr) with
  | none => none
  | some e =>
    match s.finish eff core k e.seq with
    | .wait => none
    | .next s => some s

/-- A core waiting to follow begins once its leader issues the word after the FOLLOW (14 R290). -/
def execFollowEngage (core : Nat) (s : State) : Host.Outcome State Fault Refusal :=
  eventIf (decide (core < 1536)) s (s.finishIf (fun i => match i with
    | .follow d .. => finFollow d
    | _ => fun _ => waitM) core 0 (fun i => match i with
    | .follow .. => true
    | _ => false))

/-- The hardware joins a pennant or posts PNFAIL (14 R280). -/
def execHardwarePost (core : Nat) (addr : W64) (s : State) : Host.Outcome State Fault Refusal :=
  eventIf (decide (core < 1536)) s (s.postPennant core addr)

/-- After its helpers exit, a waiting EXIT of a control context restarts it or leaves it idle (14 R272). -/
def execControlContextRestart (core : Nat) (s : State) : Host.Outcome State Fault Refusal :=
  eventIf (decide (core < 1536)) s (s.finishIf (fun _ => finExit) core 0 (fun i => match i with
    | .exit .. => true
    | _ => false))

/-- A waiting START receives a helper that became idle (14 R271). -/
def execStartHelperAssign (core : Nat) (s : State) : Host.Outcome State Fault Refusal :=
  eventIf (decide (core < 1536)) s (s.finishIf (fun i => match i with
    | .start d .. => finStart d
    | _ => fun _ => waitM) core 0 (fun i => match i with
    | .start .. => true
    | _ => false))

/-- An idle helper pops a pennant (14 R278). -/
def execPennantPop (core : Nat) (s : State) : Host.Outcome State Fault Refusal :=
  eventIf (decide (core < 1536)) s (s.pnPop core)

/-- A pennant moves to the next higher-priority queue (14 R276). -/
def execPennantAgePromote (cluster prio idx : Nat) (s : State) : Host.Outcome State Fault Refusal :=
  eventIf (decide (cluster < 8)) s (s.pnPromote cluster prio idx)

/-- An episode completes (14 R285). -/
def execHalyardEpisodeComplete (op : Nat) (word : W64) (launch : Nat) (s : State) : Host.Outcome State Fault Refusal :=
  eventIf true s
    ((s.episodes.filter (fun e => e.op == op && e.word == word && e.launch == launch)).findSome? (fun e => s.episodeEnd e))

/-- A barrier's limit passes (14 R286). -/
def execHalyLimitExpire (core : Nat) (s : State) : Host.Outcome State Fault Refusal :=
  eventIf (decide (core < 1536)) s (s.halyExpire core)

/-- A yielded context returns to issue selection (14 R273). -/
def execYieldExpire (core ctx : Nat) (s : State) : Host.Outcome State Fault Refusal :=
  eventOn (decide (core < 1536 ∧ ctx < 11)) (s.setCtx core ctx { s.ctx core ctx with yielded := 0 })

end Sys2Proof.Machine
end

