-- ==== Sys2Proof/Machine/Matrix.lean ====
section
/-! DEFINITION. The matrix engine and the accumulator store (10 R191-R208). A context's command runs at its completion when
the engine is idle; otherwise it enters the matrix queue, whose head starts and completes by events. -/

namespace Sys2Proof.Machine

/-! ### Regions and elements (06 R105, R106, 10 R195) -/

/-- The region of a word, or PROT code 0x15. -/
def regionM (w : W64) (ok : Region → Bool) : M Region :=
  match region? w.toNat with
  | some r => if ok r then pure r else trapPre .prot 0x15 w
  | none => trapPre .prot 0x15 w

/-- Frames parked in a region move out before the region is used (06 R108). -/
def evictM (r : Region) : M Unit := fun s => .ok ((), s.evictRegion s.cur.1 r.row r.nrow r.col r.ncol)

/-- The elements of a region as rows. -/
def Core.rows (x : Core) (r : Region) : List (List Nat) :=
  (List.range r.nrow).map (fun i => (List.range r.ncol).map (fun j => (x.accAt (r.row + i) (r.col + j)).toNat))

/-- Writes elements given by row, column and value. -/
def Core.setAccs (x : Core) (l : List (Nat × Nat × Nat)) : Core :=
  l.foldl (fun x p => x.setAcc p.1 p.2.1 (BitVec.ofNat 32 p.2.2)) x

/-- Writes rows into a region. -/
def Core.setRows (x : Core) (r : Region) (rows : List (List Nat)) : Core :=
  x.setAccs ((indexed 0 rows).flatMap (fun (i, l) => (indexed 0 l).map (fun (j, v) => (r.row + i, r.col + j, v))))

/-! ### Tiles (08 R157, 10 R194) -/

/-- Bits of a code position of a class. -/
def Cls.bits (c : Cls) : Nat := 512 / c.perRow

/-- The code at a position of a tile's content. -/
def posCode (c : Cls) (v e : Nat) : Nat := v / 2 ^ (c.bits * e) % 2 ^ c.bits

/-- Every code of a tile's 64 rows. -/
def tileCodes (c : Cls) (v : Nat) : List Nat := (List.range (64 * c.perRow)).map (posCode c v)

/-- The value at a position, with block scales for tag 0x86 (08 R156). -/
def posVal (t : Tag) (v side e : Nat) : Val := tileVal t (byteAt v) (byteAt side) e

/-- A side area that leaves every scale at 2^0 (08 R157). -/
def neutralNum (t : Tag) : Nat := ofLanes 8 ((List.range 512).map (fun i => (neutralSide t i).toNat))

/-- A captured tag: from the entry, or as it stands when the entry was injected again. -/
def Entry.exs (e : Entry) (l : List Ex) : M (List Nat) := fun s =>
  .ok (if e.ext.length ≤ 2 then s.captureEx s.cur.1 s.cur.2 l else e.ext.drop 2, s)

/-- The tag at a place of the captured list. -/
def tagAt (l : List Nat) (i : Nat) : Tag := ⟨l.getD i 0, l.getD (i + 1) 0⟩

/-- A tile that a command of the context has written and whose word is not complete yet: later commands see it (10 R191). -/
def Ctx.pendingTile (c : Ctx) (n : Nat) : Option (Nat × Nat) :=
  (c.results.filterMap (fun r => match r.2 with
    | .tile m v side _ | .tfact m v side _ _ => if m = n then some (v, side) else none
    | .none | .w _ | .w2 .. | .q _ | .fault .. | .regs _ | .cfg _ => none)).getLast?

/-- The tile or latch that an operand names, as the engine reads it (10 R192, 11 R212). -/
def State.mxTile (s : State) (core k n : Nat) : Nat × Nat :=
  if n < 8 then
    ((s.ctx core k).pendingTile n).getD (Tbl.get 0 (s.ctx core k).vec.x n, Tbl.get 0 (s.ctx core k).vec.side n)
  else
    match (s.core core).ring with
    | none => (0, 0)
    | some r =>
      match Tbl.find s.rings r with
      | none => (0, 0)
      | some g =>
        let p := ringPos g.cfg.toNat core
        match Tbl.find g.latch (4 * p + (n - 8)) with
        | none => (0, 0)
        | some t => (t.bytes, t.side)

/-! ### Products (10 R193-R196) -/

/-- Integer-coded with BIAS 0 and no block scale. -/
def Tag.intCoded (t : Tag) : Bool := t.code == 6 && (descFmt t.desc).E == 0 && (descFmt t.desc).bias == 0

/-- The values of A row by row. -/
def aVals (c : Cls) (t : Tag) (v side : Nat) : List (List Val) :=
  (List.range 64).map (fun m => (List.range c.k).map (fun k => posVal t v side (c.perRow * m + k)))

/-- The values of B column by column. -/
def bVals (c : Cls) (t : Tag) (v side : Nat) : List (List Val) :=
  (List.range c.n).map (fun n => (List.range c.k).map (fun k => posVal t v side (k * c.n + n)))

/-- An exact triple product, and whether it has a 0 × ∞. -/
def mul3 (a b sc : Val) : Val × Bool :=
  let p := a.mul b
  let q := p.1.mul sc
  (if p.2 then .nan else q.1, p.2 || q.2)

/-- An integer value; the codes of an integer-coded format have no fraction. -/
def Val.int : Val → Int
  | .fin s m e => (if s then -(m : Int) else m) * (2 ^ e.toNat : Nat)
  | .inf _ => 0
  | .nan => 0

/-- A new element from the old one: exact products summed exactly and rounded once, or integers modulo 2^32 (10 R196). -/
def mxElem (f : Fmt) (ints : Bool) (sc : Val) (old : Nat) (a b : List Val) : Nat × Flags :=
  if ints then
    (wrapInt 32 ((old : Int) + ((a.zip b).map (fun p => p.1.int * p.2.int)).foldl (· + ·) 0), 0#5)
  else
    ((a.zip b).foldl (fun (s : Sum) p => s.addProd (mul3 p.1 p.2 sc)) (Sum.zero.add (f.decode old))).round f

/-- An accumulator element of a class under 10 R195. -/
def Core.mxOld (x : Core) (c : Cls) (row col : Nat) : Nat :=
  if c = .f64 then (x.accAt row (col % 64)).toNat + (x.accAt row ((col + 1) % 64)).toNat * 2 ^ 32
  else (x.accAt row (col % 64)).toNat

/-- The product of A rows and B columns added into the accumulator at (row0, col0) (10 R195, R196). -/
def State.mxProduct (s : State) (core : Nat) (c : Cls) (ints : Bool) (a b : List (List Val)) (sc : W32) (row0 col0 : Nat) :
    State × Flags :=
  let s := s.evictRegion core row0 64 0 64
  let x := s.core core
  let f := if c = .f64 then fF64 else fF32
  let scv := fF32.decode sc.toNat
  let rs : List (Nat × Nat × Nat × Flags) := (indexed 0 a).flatMap (fun (m, ra) => (indexed 0 b).map (fun (n, cb) =>
    let col := if c = .f64 then col0 + 2 * n else col0 + n
    let v := mxElem f ints scv (x.mxOld c (row0 + m) col) ra cb
    (row0 + m, col, v.1, v.2)))
  let ws := rs.flatMap (fun (r, col, v, _) =>
    if c = .f64 then [(r, col % 64, v % 2 ^ 32), (r, (col + 1) % 64, v / 2 ^ 32)] else [(r, col % 64, v)])
  (s.setCore core (x.setAccs ws), rs.foldl (fun fl r => fl ||| r.2.2.2) 0#5)

/-- MMA of two tiles with their tags (10 R196). -/
def State.mxMma (s : State) (core : Nat) (ta tb : Tag) (a b : Nat × Nat) (sc : W32) (row0 col0 : Nat) : State × Flags :=
  match ta.cls? with
  | none => (s, 0#5)
  | some c =>
    s.mxProduct core c (ta.intCoded && tb.intCoded) (aVals c ta a.1 a.2) (bVals c tb b.1 b.2) sc row0 col0

/-- The class check of two operands (10 R193): registers are numbered as in 08 R161, latches from 88. -/
def mxClass (ta tb : Tag) (ra rb : Nat) : M Cls :=
  match ta.cls? with
  | none => format 0xFF ta.code ra
  | some c => if tb.cls? = some c then pure c else format ta.code tb.code rb

/-- REG of a tile or latch. -/
def mxReg (n : Nat) : Nat := 80 + n

/-! ### Encoding tiles (10 R197, R199, R200) -/

/-- A tile of a class from its codes by position. -/
def tileOf (c : Cls) (codes : List Nat) : Nat := ofLanes c.bits codes

/-- Encodes values, given position by position, as a tile of descriptor `f` (10 R199): bytes, side area, tag and flags. -/
def encodeTile (f : Nat) (vs : List Val) : Nat × Nat × Tag × Flags :=
  let t := descTag f true
  match t.cls? with
  | none => (0, 0, t, 0#5)
  | some c =>
    if descKind f = 0 then
      let bs := (List.range (vs.length / 16)).map (fun b => encodeBlock (descFmt f) (c == .c8) .rne ((vs.drop (16 * b)).take 16))
      let side := if c = .c4 then bs.map (·.e8) else bs.flatMap (fun b => [b.e8, b.mu])
      (tileOf c (bs.flatMap (·.codes)), ofLanes 8 side, t, bs.foldl (fun fl b => fl ||| b.flags) 0#5)
    else
      let cs := vs.map (fun v => (descToFmt f).convert .rne v)
      (tileOf c (cs.map (·.1)), neutralNum t, t, cs.foldl (fun fl x => fl ||| x.2) 0#5)

/-- Values row by row, each row filled with zeros to the positions of the class. -/
def padRows (c : Cls) (rows : List (List Val)) : List Val :=
  rows.flatMap (fun r => (List.range c.perRow).map (fun i => r.getD i (.fin false 0 0)))

/-- The A operand of MMAC: a row of the region converted into B's tag (10 R197). -/
def convRow (t : Tag) (vs : List Val) : List Val × Flags :=
  if t.code = 0x86 then
    let bs := (List.range (vs.length / 16)).map (fun b => encodeBlock (descFmt t.desc) true .rne ((vs.drop (16 * b)).take 16))
    (bs.flatMap (fun b => (indexed 0 b.codes).map (fun (j, x) =>
      blockElem (descFmt t.desc) x b.e8 (b.mu / 2 ^ (j / 2) % 2))), bs.foldl (fun fl b => fl ||| b.flags) 0#5)
  else
    match t.fmt? with
    | none => (vs, 0#5)
    | some f =>
      let cs := vs.map (fun v => f.convert .rne v)
      (cs.map (fun x => f.decode x.1), cs.foldl (fun fl x => fl ||| x.2) 0#5)

/-- The values of a region row as the class reads it: F32 elements, or F64 pairs. -/
def rowVals (f64 : Bool) (r : List Nat) : List Val :=
  if f64 then (List.range (r.length / 2)).map (fun k => fF64.decode (r.getD (2 * k) 0 + r.getD (2 * k + 1) 0 * 2 ^ 32))
  else r.map fF32.decode

/-! ### Factoring and solving (10 R201-R203) -/

/-- A block of n × n codes, row by row, in rows of 128 bytes. -/
def blockOf (f : Fmt) (v n m : Nat) : List (List Nat) :=
  (List.range n).map (fun i => (List.range m).map (fun j => v / 2 ^ (1024 * i + f.width * j) % 2 ^ f.width))

/-- The tile content with a block written over it. -/
def blockInto (f : Fmt) (v : Nat) (rows : List (List Nat)) : Nat :=
  (indexed 0 rows).foldl (fun v (i, r) =>
    let w := f.width * r.length
    v - v / 2 ^ (1024 * i) % 2 ^ w * 2 ^ (1024 * i) + ofLanes f.width r * 2 ^ (1024 * i)) v

/-- |x| is greater than |y|, with NaN below every number. -/
def absAbove (f : Fmt) (x y : Nat) : Bool :=
  let a := f.decode (fabs f x)
  let b := f.decode (fabs f y)
  if a.isNan then false else b.isNan || b.ltB a

/-- The pivot row from `k`: the lowest of greatest magnitude. -/
def pivotRow (f : Fmt) (a : List (List Nat)) (k n : Nat) : Nat :=
  (List.range n).foldl (fun p i =>
    if k < i ∧ absAbove f ((a.getD i []).getD k 0) ((a.getD p []).getD k 0) then i else p) k

/-- Swaps two elements of a list. -/
def swapAt {α : Type} (d : α) (l : List α) (i j : Nat) : List α := (l.set i (l.getD j d)).set j (l.getD i d)

/-- A code with the sign of another, + for NaN; a NaN stays the canonical one (08 R147). -/
def withSign (f : Fmt) (x s : Nat) : Nat :=
  let top := 2 ^ (f.width - 1)
  if (f.decode x).isNan then f.nan
  else if (f.decode s).isNan then x % top else x % top + s / top % 2 * top

/-- The factorisation in progress. -/
structure Fact where
  a : List (List Nat)
  perm : List Nat
  mask : Nat
  flags : Flags
  deriving DecidableEq, Repr

/-- One step of TFACT (10 R202). -/
def factStep (f : Fmt) (thr reg n : Nat) (t : Fact) (k : Nat) : Fact :=
  let p := pivotRow f t.a k n
  let a := swapAt [] t.a k p
  let piv := (a.getD k []).getD k 0
  let av := f.decode (fabs f piv)
  let tv := f.decode thr
  let small := !(tv.ltB av || tv.eqB av)
  let piv' := if small then withSign f reg piv else piv
  let rowK := (a.getD k []).set k piv'
  let rs : List (List Nat × Flags) := (indexed 0 a).map (fun (i, r) =>
    if i = k then (rowK, 0#5)
    else if i < k then (r, 0#5)
    else
      let q := fdiv f (r.getD k 0) piv'
      let es : List (Nat × Flags) := (indexed 0 r).map (fun (j, x) =>
        if j < k then (x, 0#5) else if j = k then q else ffma f true false q.1 (rowK.getD j 0) x)
      (es.map (·.1), es.foldl (fun fl e => fl ||| e.2) 0#5))
  { a := rs.map (·.1), perm := t.perm ++ [p], mask := t.mask + (if small then 2 ^ k else 0),
    flags := rs.foldl (fun fl r => fl ||| r.2) t.flags }

/-- The factorisation of a block (10 R202). -/
def factor (f : Fmt) (thr reg n : Nat) (a : List (List Nat)) : Fact :=
  (List.range n).foldl (factStep f thr reg n) ⟨a, [], 0, 0#5⟩

/-- y[i] less the products of `row` and y over the columns `js`. -/
def solveRow (f : Fmt) (row y : List Nat) (i : Nat) (js : List Nat) : Nat × Flags :=
  js.foldl (fun (p : Nat × Flags) j =>
    let r := ffma f true false (row.getD j 0) (y.getD j 0) p.1
    (r.1, p.2 ||| r.2)) (y.getD i 0, 0#5)

/-- One column of TSOLVE (10 R203). -/
def solveCol (f : Fmt) (lu : List (List Nat)) (perm : List Nat) (n : Nat) (y : List Nat) : List Nat × Flags :=
  let y := (indexed 0 perm).foldl (fun y (k, p) => swapAt 0 y k p) y
  let (y, fl) := (List.range n).foldl (fun (q : List Nat × Flags) i =>
    let r := solveRow f (lu.getD i []) q.1 i (List.range i)
    (q.1.set i r.1, q.2 ||| r.2)) (y, 0#5)
  (List.range n).reverse.foldl (fun (q : List Nat × Flags) i =>
    let r := solveRow f (lu.getD i []) q.1 i ((List.range n).filter (fun j => decide (i < j)))
    let d := fdiv f r.1 ((lu.getD i []).getD i 0)
    (q.1.set i d.1, q.2 ||| r.2 ||| d.2)) (y, fl)

/-- The largest order of a block: 32 for F32 and 16 for F64. -/
def blockMax (t : Tag) : Nat := if t.code = 2 then 16 else 32

/-- F32 or F64, or FORMAT. -/
def blockTag (t : Tag) (reg : Nat) : M Fmt := if t.code = 1 then pure fF32 else if t.code = 2 then pure fF64 else format 0xFF t.code reg

/-! ### Commands: the checks at issue, and the work in the engine -/

/-- A matrix command on its captured operands: the checks made at issue, then the work of the engine. -/
structure Mx where
  check : Entry → M Unit
  run : Entry → M (Res × Flags)

/-- Captured words of MMA and MMAC. -/
def mmaEx (a b s : Nat) : List Ex := [.tag a, .tag b, .scale s]

/-- MMA (10 R196). -/
def mxOfMma (a b row col s : Nat) : Mx where
  check := fun e => do
    let l ← e.exs (mmaEx a b s)
    let _ ← mxClass (tagAt l 0) (tagAt l 2) (mxReg a) (mxReg b)
  run := fun e => do
    let l ← e.exs (mmaEx a b s)
    fun st =>
      let (st, fl) := st.mxMma st.cur.1 (tagAt l 0) (tagAt l 2) (st.mxTile st.cur.1 st.cur.2 a)
        (st.mxTile st.cur.1 st.cur.2 b) (BitVec.ofNat 32 (l.getD 4 0)) (64 * row) (32 * col)
      .ok ((.none, fl), st)

/-- MMAC (10 R197). -/
def mxOfMmac (b row col s : Nat) : Mx where
  check := fun e => do
    let l ← e.exs [.tag b, .scale s]
    let t := tagAt l 0
    match t.cls? with
    | none => format 0xFF t.code (mxReg b)
    | some c =>
      if c = .c4 then format 0xFF t.code (mxReg b)
      else
        let _ ← regionM e.opa (fun r => r.nrow == 64 && r.ncol == (if c = .f64 then 2 * c.k else c.k))
  run := fun e => do
    let l ← e.exs [.tag b, .scale s]
    let t := tagAt l 0
    let c := (t.cls?).getD .c8
    let r ← regionM e.opa (fun _ => true)
    evictM r
    fun st =>
      let rows := (st.cc.rows r).map (fun x => convRow t (rowVals (c == .f64) x))
      let tile := st.mxTile st.cur.1 st.cur.2 b
      let (st, fl) := st.mxProduct st.cur.1 c t.intCoded (rows.map (·.1)) (bVals c t tile.1 tile.2)
        (BitVec.ofNat 32 (l.getD 2 0)) (64 * row) (32 * col)
      .ok ((.none, rows.foldl (fun fl x => fl ||| x.2) fl), st)

/-- ACCZ (10 R198). -/
def mxOfAccz : Mx where
  check := fun e => do
    let _ ← regionM e.opd (fun _ => true)
  run := fun e => do
    let r ← regionM e.opd (fun _ => true)
    evictM r
    modCc (fun x => x.setRows r (List.replicate r.nrow (List.replicate r.ncol 0)))
    pure (.none, 0#5)

/-- Checks of ACCLD and ACCST at issue. -/
def accCheck (e : Entry) : M Unit := do
  let _ ← regionM e.opd (fun _ => true)
  alignTo e.opa 4 0x37
  alignTo e.opb 4 0x37

/-- The addresses of ACCLD and ACCST with their elements, all checked before any element moves (10 R198). -/
def accLocs (e : Entry) (r : Region) (a : Acc) : M (List (Nat × Nat × Loc)) := do
  let w ← e.who
  ((List.range r.nrow).flatMap (fun i => (List.range r.ncol).map (fun j => (i, j)))).mapM (fun (i, j) => do
    let l ← accessM w (e.opa + BitVec.ofNat 64 i * e.opb + BitVec.ofNat 64 (4 * j)) 4 a .ls
    inOrder e l 4 a
    pure (r.row + i, r.col + j, l))

/-- A relaxed 4-byte store that the engine makes for its context (10 R198): of those to the fabric aperture, more than the context may
have unacknowledged wait in the engine, behind the 256 that may be taken by the network (04 R65). -/
def accStore (w : Who) (va : W64) (l : Loc) (v : Nat) : M Unit := fun s =>
  match l with
  | .fab _ _ => .ok ((), s.sent (l.store (s.home l) 4 v))
  | .hbm _ _ | .cxl _ _ | .ls _ _ | .host _ | .reg _ => storeAt w va l 4 v s

/-- A step of ACCLD, or the whole of it: the elements are accesses of their own, so that while the memory path is busy a free part of those
left is read; at 2 and 3 the list keeps the elements taken and their bits. None once all are read and the region is written (10 R198, 16 R316). -/
def accldStep (e : Entry) (whole : Bool) : M (Option (List Nat)) := do
  let r ← regionM e.opd (fun _ => true)
  let ls ← accLocs e r .read
  let n := ls.length
  let taken := e.ext.getD 2 0
  let now ← if whole then pure (List.range n) else partsNow n taken
  let w ← e.who
  let vs ← (indexed 0 ls).mapM (fun (i, _, _, l) => if now.contains i then loadAt w l 4 else pure (slice (e.ext.getD 3 0) (4 * i) 4))
  let taken := taking taken now
  if taken = 2 ^ n - 1 then
    evictM r
    modCc (fun x => x.setAccs ((ls.zip vs).map (fun (p, v) => (p.1, p.2.1, v))))
    pure none
  else pure (some [0, 0, taken, ofLanes 32 vs])

/-- ACCLD (10 R198). -/
def mxOfAccld : Mx where
  check := accCheck
  run := fun e => do
    let _ ← accldStep e true
    pure (.none, 0#5)

/-- ACCST (10 R198). -/
def mxOfAccst : Mx where
  check := accCheck
  run := fun e => do
    let r ← regionM e.opd (fun _ => true)
    let ls ← accLocs e r .write
    let w ← e.who
    evictM r
    let x ← getCc
    ls.forM (fun (i, j, l) =>
      accStore w (e.opa + BitVec.ofNat 64 (i - r.row) * e.opb + BitVec.ofNat 64 (4 * (j - r.col))) l (x.accAt i j).toNat)
    pure (.none, 0#5)

/-- A descriptor of ACCCVT and XCVT: valid and not KIND 5 (10 R199, R200). -/
def mxDesc (f n : Nat) : M Unit := if descValid f && decide (descKind f ≤ 4) then pure () else format 0xFF 0xFF (96 + n)

/-- The shape rule of ACCCVT (10 R199). -/
def cvtShape (f : Nat) (r : Region) : Bool :=
  r.nrow == 64 && (match descKind f with
    | 4 => r.col % 2 == 0 && r.ncol % 2 == 0 && decide (r.ncol ≤ 16)
    | 3 => decide (r.ncol ≤ 16)
    | 0 => true
    | _ => decide (r.ncol ≤ 32))

/-- ACCCVT (10 R199). -/
def mxOfAcccvt (d b : Nat) : Mx where
  check := fun e => do
    let l ← e.exs [.desc b]
    let f := l.getD 0 0
    mxDesc f b
    let _ ← regionM e.opa (cvtShape f)
  run := fun e => do
    let l ← e.exs [.desc b]
    let f := l.getD 0 0
    let r ← regionM e.opa (fun _ => true)
    evictM r
    let x ← getCc
    let c := ((descTag f true).cls?).getD .c8
    let (v, side, t, fl) := encodeTile f (padRows c ((x.rows r).map (rowVals (descKind f == 4))))
    pure (.tile d v side t, fl)

/-- ACCMOV (10 R198). -/
def mxOfAccmov : Mx where
  check := fun e => do
    let q ← regionM e.opa (fun _ => true)
    let _ ← regionM e.opd (fun r => r.nrow == q.nrow && r.ncol == q.ncol)
  run := fun e => do
    let r ← regionM e.opd (fun _ => true)
    let q ← regionM e.opa (fun _ => true)
    evictM r
    evictM q
    modCc (fun x => x.setRows r (x.rows q))
    pure (.none, 0#5)

/-- The tile of a register of the running context. -/
def xTile (n : Nat) : M (Nat × Nat) := fun s => .ok (s.mxTile s.cur.1 s.cur.2 n, s)

/-- XMOV (10 R200). -/
def mxOfXmov (d a : Nat) : Mx where
  check := fun _ => pure ()
  run := fun e => do
    let l ← e.exs [.tag a]
    let x ← xTile a
    pure (.tile d x.1 x.2 (tagAt l 0), 0#5)

/-- XTR (10 R200). -/
def mxOfXtr (d a : Nat) : Mx where
  check := fun e => do
    let l ← e.exs [.tag a]
    let t := tagAt l 0
    if t.cls? = none ∨ t.code = 0x86 then format 0xFF t.code (mxReg a) else pure ()
  run := fun e => do
    let l ← e.exs [.tag a]
    let t := tagAt l 0
    let c := (t.cls?).getD .c8
    let x ← xTile a
    let cs := tileCodes c x.1
    let n := c.perRow
    pure (.tile d (tileOf c ((List.range (64 * n)).map (fun q => cs.getD (q % 64 * n + q / 64) 0))) x.2 t, 0#5)

/-- XZERO (10 R200). -/
def mxOfXzero (d : Nat) : Mx where
  check := fun _ => pure ()
  run := fun e => do
    let l ← e.exs [.tag d]
    pure (.tile d 0 0 (tagAt l 0), 0#5)

/-- XCVT (10 R200). -/
def mxOfXcvt (d a b : Nat) : Mx where
  check := fun e => do
    let l ← e.exs [.tag a, .desc b]
    if (tagAt l 0).cls? = none then format 0xFF (l.getD 0 0) (mxReg a) else mxDesc (l.getD 2 0) b
  run := fun e => do
    let l ← e.exs [.tag a, .desc b]
    let t := tagAt l 0
    let f := l.getD 2 0
    let cs := (t.cls?).getD .c8
    let cd := ((descTag f true).cls?).getD .c8
    let x ← xTile a
    let rows := (List.range 64).map (fun r => (List.range (min cs.perRow cd.perRow)).map (fun i =>
      posVal t x.1 x.2 (cs.perRow * r + i)))
    let (v, side, t', fl) := encodeTile f (padRows cd rows)
    pure (.tile d v side t', fl)

/-- TFACT (10 R202). -/
def mxOfTfact (d a : Nat) : Mx where
  check := fun e => do
    let l ← e.exs [.tag a, .piv]
    let _ ← blockTag (tagAt l 0) (mxReg a)
    let n := e.opb.toNat % 64
    if n = 0 ∨ blockMax (tagAt l 0) < n then trapPre .prot 0x25 e.opb else pure ()
  run := fun e => do
    let l ← e.exs [.tag a, .piv]
    let t := tagAt l 0
    let f := if t.code = 2 then fF64 else fF32
    let n := e.opb.toNat % 64
    let x ← xTile a
    let q (i : Nat) : Nat := (f.convert .rne (fF64.decode (l.getD i 0))).1
    let r := factor f (q 2) (q 3) n (blockOf f x.1 n n)
    let side := ofLanes 8 (r.perm ++ List.replicate (32 - n) 0) + r.mask * 2 ^ 256 + n * 2 ^ 288
    pure (.tfact d (blockInto f x.1 r.a) side t r.mask, r.flags)

/-- TSOLVE (10 R203). -/
def mxOfTsolve (d a b : Nat) : Mx where
  check := fun e => do
    let l ← e.exs [.tag a, .tag b]
    let _ ← blockTag (tagAt l 0) (mxReg a)
    if tagAt l 2 = tagAt l 0 then pure () else format (l.getD 0 0) (l.getD 2 0) (mxReg b)
  run := fun e => do
    let l ← e.exs [.tag a, .tag b]
    let t := tagAt l 0
    let f := if t.code = 2 then fF64 else fF32
    let m := blockMax t
    let x ← xTile a
    let y ← xTile b
    let n := slice x.2 36 1
    let perm := (List.range n).map (fun k => slice x.2 k 1)
    if n = 0 ∨ m < n ∨ (indexed 0 perm).any (fun (k, p) => decide (p < k ∨ n ≤ p)) then trapPost .prot 0x25 0
    else
      let lu := blockOf f x.1 n n
      let cols := (List.range m).map (fun c => solveCol f lu perm n
        ((List.range n).map (fun i => y.1 / 2 ^ (1024 * i + f.width * c) % 2 ^ f.width)))
      let rows := (List.range n).map (fun i => cols.map (fun c => c.1.getD i 0))
      pure (.tile d (blockInto f y.1 rows) y.2 t, cols.foldl (fun fl c => fl ||| c.2) 0#5)


end Sys2Proof.Machine
end

