-- ==== Sys2Proof/Machine/Projection.lean ====
section
/-! DEFINITION. The streaming vocabulary projection (13 R252-R267): its configuration, state blocks, logits, merges and
gradients. Its words enter the matrix queue. -/

namespace Sys2Proof.Machine

/-! ### Configuration (13 R253, R254) -/

/-- A projection configuration with the descriptors captured with it. -/
structure VCfg where
  hbase : W64
  wbase : W64
  lbase : W64
  gout : W64
  vbase : Nat
  vcnt : Nat
  ht : Nat
  nrows : Nat
  kh : Nat
  mode : Nat
  fd : Nat
  side : Nat
  scl : Nat
  thr : Nat
  shard : Nat
  grow0 : Nat
  gs : Nat
  gh0 : Nat
  ghn : Nat
  descH : Nat
  descW : Nat
  deriving DecidableEq, Repr

/-- The fields of a record. -/
def VCfg.of (r descH descW : Nat) : VCfg where
  hbase := BitVec.ofNat 64 (slice r 0 8)
  wbase := BitVec.ofNat 64 (slice r 8 8)
  lbase := BitVec.ofNat 64 (slice r 16 8)
  gout := BitVec.ofNat 64 (slice r 24 8)
  vbase := slice r 32 4
  vcnt := slice r 36 4
  ht := slice r 40 2
  nrows := slice r 42 1
  kh := slice r 43 1
  mode := slice r 44 1
  fd := slice r 45 1
  side := slice r 46 1
  scl := slice r 47 1
  thr := slice r 48 4
  shard := slice r 52 2
  grow0 := slice r 54 2
  gs := slice r 56 4
  gh0 := slice r 60 2
  ghn := slice r 62 2
  descH := descH
  descW := descW

/-- The tag of hidden tiles. -/
def VCfg.tagH (v : VCfg) : Tag := descTag v.descH (bit v.side 0)
/-- The tag of weight tiles. -/
def VCfg.tagW (v : VCfg) : Tag := descTag v.descW (bit v.side 1)
/-- The class of both. -/
def VCfg.cls (v : VCfg) : Cls := (v.tagH.cls?).getD .c8
/-- Bytes of a hidden tile (13 R254). -/
def VCfg.sizeH (v : VCfg) : Nat := if bit v.side 0 then 4608 else 4096
/-- Bytes of a weight tile. -/
def VCfg.sizeW (v : VCfg) : Nat := if bit v.side 1 then 4608 else 4096
/-- Offset of hidden tile 0 in the local store. -/
def VCfg.offH (v : VCfg) : Nat := v.hbase.toNat % 2 ^ 20
/-- Bytes of a row record (13 R256). -/
def VCfg.rowBytes (v : VCfg) : Nat := 48 + 8 * v.kh
/-- Tiles that exist (13 R255). -/
def VCfg.tiles (v : VCfg) : Nat := (v.vcnt + 63) / 64
/-- Threshold mode. -/
def VCfg.thresh (v : VCfg) : Bool := bit v.mode 0

/-- A field is out of range, or two fields do not agree (13 R254, step 3). -/
def VCfg.bad (v : VCfg) (r : Nat) : Bool :=
  v.mode / 2 != 0 || v.side / 4 != 0 || v.scl / 8 != 0 || slice r 64 64 != 0 || decide (v.vcnt < 1)
    || decide (v.ht < 1 ∨ 1024 < v.ht) || decide (v.nrows < 1 ∨ 64 < v.nrows) || decide (v.kh < 1 ∨ 64 < v.kh)
    || decide (511 < v.grow0) || decide (512 < v.ghn) || bits v.wbase.toNat 63 44 == 0xFF
    || (v.thresh && v.kh != 64) || v.lbase.toNat % 64 != 0 || beyondLs (v.offH + v.ht * v.sizeH - 1)
    || decide (512 < v.grow0 + v.ghn) || decide (v.ht * v.cls.k < v.gh0 + v.ghn) || decide (2 ^ 32 < v.vbase + v.vcnt)

/-- The configuration of the running context, or PROT code 0x2C (13 R252). -/
def vcfgM : M VCfg := do
  let c ← getCx
  if c.vpj = [] then trapPre .prot 0x2C 0
  else pure (VCfg.of (ofLanes 8 (c.vpj.take 128)) (c.vpj.getD 128 0) (c.vpj.getD 129 0))

/-- Checks that `n` bytes at an address lie in the core's own local store, then its alignment, and gives the offset (13 R254). -/
def ownBlock (va : W64) (align n : Nat) : M Nat := do
  let off ← ownOffset va
  if beyondLs (off + n - 1) then trapPre .prot 0x1B va
  else
    alignTo va align 0x3A
    pure off

/-- The state block at an address (13 R256, R259). -/
def VCfg.block (v : VCfg) (va : W64) : M Nat := ownBlock va 64 (v.nrows * v.rowBytes)

/-- The record of VPJ.CFG. -/
def cfgRecord (e : Entry) : M Nat := do
  let w ← e.who
  let l ← accessM w e.opd 128 .read .ls
  loadAt w l 128

/-- FORMAT decided by a captured record: it is found after issue (18 R341). -/
def formatPost {α : Type} (want have_ reg : Nat) : M α :=
  trapPost .format 0 (BitVec.ofNat 64 (want * 2 ^ 16 + have_ * 2 ^ 8 + reg))

/-- A family descriptor of the projection (13 R254, step 2). -/
def projDesc (c : Ctx) (n : Nat) (side : Bool) : M Nat :=
  let f := (c.fOf n).toNat
  if !descValid f then formatPost 0xFF 0xFF (96 + n)
  else if decide (4 ≤ descKind f) || (side && descKind f != 0) then formatPost 0xFF (descTag f false).code (96 + n)
  else pure f

/-- VPJ.CFG on its captured record. -/
def mxOfVpjCfg : Mx where
  check := fun e => do
    let _ ← ownBlock e.opd 64 128
  run := fun e => do
    let r := e.ext.getD 2 0
    let v := VCfg.of r 0 0
    let s ← get
    let c ← getCx
    if !(ownWindow s.cur.1 v.hbase && !beyondLs v.offH) then trapPost .prot 0x1B v.hbase
    else
      match [v.wbase, v.hbase, v.gout].find? (fun a => a.toNat % 64 != 0) with
      | some a => trapPost .align 0x3A a
      | none =>
        let fh ← projDesc c (v.fd % 16) (bit v.side 0)
        let fw ← projDesc c (v.fd / 16) (bit v.side 1)
        let v := { v with descH := fh, descW := fw }
        if v.tagH.cls? ≠ v.tagW.cls? then formatPost v.tagH.code v.tagW.code (96 + v.fd / 16)
        else if v.bad r then trapPost .prot 0x2C e.opd
        else
          modCx (fun c => c.engineWrites (.cfg ((List.range 128).map (fun i => slice r i 1) ++ [fh, fw])))
          pure (.none, 0#5)

/-! ### State blocks (13 R256, R257) -/

/-- A row record. -/
structure VRow where
  m : Nat
  s : Nat
  flags : Nat
  lo : Nat
  hi : Nat
  /-- LIDX and LVAL of the four label slots. -/
  labels : List (Nat × Nat)
  /-- Value and index of the heap entries. -/
  heap : List (Nat × Nat)
  deriving DecidableEq, Repr

/-- SEEN of a slot. -/
def VRow.seen (x : VRow) (l : Nat) : Bool := bit x.flags (8 + l)

/-- The row at byte `off` of a block of heap capacity `kh`, or none where it is malformed. -/
def rowOf? (kh n off : Nat) : Option VRow :=
  let f (o k : Nat) : Nat := slice n (off + o) k
  let x : VRow := ⟨f 0 4, f 4 4, f 10 2, f 12 2, f 14 2, (List.range 4).map (fun l => (f (16 + 8 * l) 4, f (20 + 8 * l) 4)),
    (List.range (min (f 8 2) kh)).map (fun e => (f (48 + 8 * e) 4, f (52 + 8 * e) 4))⟩
  if !bit x.flags 4 || decide (kh < f 8 2) || bits x.flags 7 5 != 0 || bits x.flags 15 12 != 0 || decide (x.hi < x.lo)
      || (List.range 4).any (fun l => x.seen l && (x.labels.getD l (0, 0)).1 == 0xFFFFFFFF)
      || slice n (off + 48 + 8 * f 8 2) (8 * (kh - f 8 2)) != 0 then none
  else some x

/-- The bytes of a row; heap entries beyond COUNT are zero. -/
def VRow.num (x : VRow) : Nat :=
  layout ([(0, x.m), (4, x.s), (8, x.heap.length), (10, x.flags), (12, x.lo), (14, x.hi)]
    ++ (indexed 0 x.labels).flatMap (fun (l, p) => [(16 + 8 * l, p.1), (20 + 8 * l, p.2)])
    ++ (indexed 0 x.heap).flatMap (fun (e, p) => [(48 + 8 * e, p.1), (52 + 8 * e, p.2)]))

/-- Reads every row of a block; a malformed row raises PROT code 0x2D. -/
def VCfg.rows (v : VCfg) (e : Entry) (va : W64) : M (List VRow) := do
  let w ← e.who
  let l ← accessM w va (v.nrows * v.rowBytes) .read .ls
  let n ← loadAt w l (v.nrows * v.rowBytes)
  match (List.range v.nrows).mapM (fun r => rowOf? v.kh n (v.rowBytes * r)) with
  | none => trapPost .prot 0x2D va
  | some l => pure l

/-- Writes rows from row `first` of the block at `off` on. -/
def VCfg.putRows (v : VCfg) (off first : Nat) (rows : List VRow) : M Unit := fun s =>
  .ok ((), (indexed first rows).foldl (fun s (r, x) =>
    let l : Loc := .ls s.cur.1 (off + v.rowBytes * r)
    (s.poke l v.rowBytes x.num).fill l v.rowBytes) s)

/-- (a, i) comes before (b, j) in candidate order (13 R257). -/
def candBefore (x y : Nat × Nat) : Bool :=
  let a := fF32.decode x.1
  let b := fF32.decode y.1
  b.ltB a || (a.eqB b && decide (x.2 < y.2))

/-- Puts a candidate into its place. -/
def candInsert (x : Nat × Nat) : List (Nat × Nat) → List (Nat × Nat)
  | [] => [x]
  | y :: r => if candBefore x y then x :: y :: r else y :: candInsert x r

/-- Candidates in candidate order. -/
def candSort (l : List (Nat × Nat)) : List (Nat × Nat) := l.foldl (fun r x => candInsert x r) []

/-! ### Logits and the tile (13 R255, R259, R260) -/

/-- log2 e, as F32. -/
def l2e : Nat := 0x3FB8AA3B

/-- RNE(a − b). -/
def sub32 (a b : Nat) : Nat := (fsub fF32 a b).1

/-- The rows of every hidden tile. -/
def VCfg.hidden (v : VCfg) (s : State) : List (List (List Val)) :=
  (List.range v.ht).map (fun h =>
    let n := s.peek (.ls s.cur.1 (v.offH + h * v.sizeH)) v.sizeH
    aVals v.cls v.tagH (n % 2 ^ 32768) (n / 2 ^ 32768))

/-- The columns of every weight tile of tile `t`: engine reads. -/
def VCfg.weights (v : VCfg) (w : Who) (t : Nat) : M (List (List (List Val))) :=
  (List.range v.ht).mapM (fun h => fun s =>
    match s.engRead w (v.wbase + BitVec.ofNat 64 ((t * v.ht + h) * v.sizeW)) v.sizeW .eng with
    | .error ((ca, code), a) => .error (.trap ca code a false)
    | .ok (n, s) => .ok (bVals v.cls v.tagW (n % 2 ^ 32768) (n / 2 ^ 32768), s))

/-- Valid columns of tile `t`. -/
def VCfg.valid (v : VCfg) (t : Nat) : Nat := min 64 (v.vcnt - 64 * t)

/-- One exact sum over the whole hidden dimension, rounded once. -/
def logit (sc : Val) (a b : List (List Val)) : Nat × Flags :=
  ((a.zip b).foldl (fun (s : Sum) p => (p.1.zip p.2).foldl (fun (s : Sum) q => s.addProd (mul3 q.1 q.2 sc)) s) Sum.zero).round fF32

/-- The logits of tile `t` by row, with their flags. -/
def VCfg.logits (v : VCfg) (s : State) (t : Nat) (ws : List (List (List Val))) (sc : Val) : List (List Nat) × Flags :=
  let hs := v.hidden s
  let rs : List (List (Nat × Flags)) := (List.range v.nrows).map (fun r => (List.range (v.valid t)).map (fun c =>
    logit sc (hs.map (fun h => h.getD r [])) (ws.map (fun w => w.getD c []))))
  (rs.map (fun r => r.map (·.1)), rs.foldl (fun fl r => r.foldl (fun fl x => fl ||| x.2) fl) 0#5)

/-- The scale of the projection. -/
def VCfg.scale (v : VCfg) (c : Ctx) : Val := fF32.decode (c.sOf v.scl).toNat

/-- Neither the logit nor its y is a NaN or infinite. -/
def counted (z : Nat) : Bool := (fF32.decode z).isFin && (fF32.decode (mul32 z l2e)).isFin

/-- The candidates of a row in tile `t`. -/
def VCfg.cands (v : VCfg) (t : Nat) (zs : List Nat) : List (Nat × Nat) :=
  let thr := fF32.decode v.thr
  (indexed 0 zs).filterMap (fun (c, z) =>
    if counted z && (!v.thresh || (!thr.isNan && !(fF32.decode z).ltB thr)) then some (z, v.vbase + 64 * t + c) else none)

/-- The label slots after the logits of tile `t` (13 R259). -/
def VCfg.label (v : VCfg) (t : Nat) (zs : List Nat) (x : VRow) : VRow :=
  (indexed 0 zs).foldl (fun x (c, z) =>
    (List.range 4).foldl (fun (x : VRow) l =>
      if (x.labels.getD l (0, 0)).1 = v.vbase + 64 * t + c then
        { x with labels := x.labels.set l (v.vbase + 64 * t + c, z), flags := x.flags ||| 2 ^ (8 + l) }
      else x) x) x

/-- A tile applied to a row (13 R259). -/
def VCfg.fold (v : VCfg) (t : Nat) (x : VRow) (zs : List Nat) : VRow :=
  let x := v.label t zs x
  let ys := (zs.filter counted).map (fun z => mul32 z l2e)
  let x := if ys.length < zs.length then { x with flags := x.flags ||| 1 } else x
  let x := if ys = [] then x
    else
      let m := ys.foldl (fmax2 fF32) x.m
      let s := if (fF32.decode x.m).ltB (fF32.decode m) then mul32 x.s (exp2 (sub32 x.m m)).1 else x.s
      let t := (exactSum fF32 (ys.map (fun y => fF32.decode (exp2 (sub32 y m)).1))).1
      { x with m := m, s := add32 s t }
  let h := candSort (x.heap ++ v.cands t zs)
  { x with heap := if v.thresh then h else h.take v.kh }

/-- What VPJ and VPJ.REGEN check before any tile, the hidden tiles among it (06 R102, 13 R259, R261). -/
def vpjCheck (e : Entry) : M Unit := do
  let v ← vcfgM
  let c ← getCx
  if e.opb = 0 ∨ v.tiles < e.opa.toNat + e.opb.toNat then trapPre .prot 0x2C 0
  else
    let _ ← v.block e.opd
    let differs : List (Nat × Nat) := [(v.fd % 16, v.descH), (v.fd / 16, v.descW)].filter (fun p => (c.fOf p.1).toNat != p.2)
    match sortBy (·.1) differs with
    | (n, f) :: _ =>
      let g := (c.fOf n).toNat
      format (descTag f false).code (if descValid g then (descTag g false).code else 0xFF) (96 + n)
    | [] =>
      let s ← get
      if bits v.hbase.toNat 43 28 ≠ 0 then trapPost .memfault 0x20 v.hbase
      else
      match (linesOf (lsKey s.cur.1 v.offH) (v.ht * v.sizeH)).find? (fun ln => (Tbl.find s.lost ln).isSome) with
      | some ln => trapPost .memfault 0x22 (v.hbase + BitVec.ofNat 64 (64 * ln - lsKey s.cur.1 v.offH))
      | none =>
        let _ ← v.rows e e.opd

/-- One tile of VPJ: the state block takes it whole, or not at all (13 R259-R261). -/
def vpjTile (e : Entry) : M (Res × Flags) := do
  let v ← vcfgM
  let off ← v.block e.opd
  let rows ← v.rows e e.opd
  let w ← e.who
  let c ← getCx
  let t := e.opa.toNat
  let ws ← v.weights w t
  let s ← get
  let (zs, fl) := v.logits s t ws (v.scale c)
  let mask := ((indexed 0 (rows.zip zs)).map (fun (r, x, z) =>
    b2n (v.thresh && decide (64 < x.heap.length + (v.cands t z).length)) * 2 ^ r)).foldl (· + ·) 0
  if mask ≠ 0 then trapPost .heapspill 0 (BitVec.ofNat 64 mask)
  else
    v.putRows off 0 ((rows.zip zs).map (fun p => v.fold t p.1 p.2))
    pure (.none, fl)

/-- The first tile of the instruction: captured with it, or its operand. -/
def vpjFirst (e : Entry) : Nat := match e.ext.drop 2 with
  | a :: _ => a
  | [] => e.opa.toNat

/-- g of a logit (13 R265). -/
def gradient (v : VCfg) (x : VRow) (idx z : Nat) : Nat × Flags :=
  let (p, f1) := if counted z then fdiv fF32 (exp2 (sub32 (mul32 z l2e) x.m)).1 x.s else (0, 0#5)
  let pv := fF32.decode p
  let d := if x.seen 0 && (x.labels.getD 0 (0, 0)).1 == idx then ((Sum.zero.add pv).add (fF32.decode 0xBF800000)).val else pv
  let (q, inv) := d.mul (fF32.decode v.gs)
  let (g, f2) := fF32.convert .rne q
  (g, f1 ||| f2 ||| flIf inv flNV)

/-- One tile of VPJ.REGEN: its gradients, their accumulation into the window, and the gradient tile (13 R265). -/
def regenTile (e : Entry) : M (Res × Flags) := do
  let v ← vcfgM
  let rows ← v.rows e e.opd
  let w ← e.who
  let c ← getCx
  let t := e.opa.toNat
  let ws ← v.weights w t
  let s ← get
  let sc := v.scale c
  let (zs, _) := v.logits s t ws sc
  let gs : List (List (Nat × Flags)) := (rows.zip zs).map (fun (x, z) =>
    (indexed 0 z).map (fun (i, z) => gradient v x (v.vbase + 64 * t + i) z))
  let fl1 := gs.foldl (fun fl r => r.foldl (fun fl x => fl ||| x.2) fl) 0#5
  let code (r i : Nat) : Nat := ((gs.getD r []).map (·.1)).getD i 0
  let out := v.gout + BitVec.ofNat 64 (16384 * (t - vpjFirst e))
  match (if v.gout = 0 then none else s.rangeFault w out 16384 .write .eng) with
  | some ((ca, code), a) => trapPost ca code a
  | none =>
    let k := v.cls.k
    let s1 := s.evictRegion s.cur.1 v.grow0 v.ghn 0 v.nrows
    let x := s1.core s.cur.1
    let es : List (Nat × Nat × Nat × Flags) := (List.range v.ghn).flatMap (fun i =>
      let h := v.gh0 + i
      let b := (ws.getD (h / k) []).map (fun col => col.getD (h % k) .nan)
      (List.range v.nrows).map (fun r =>
        let q := mxElem fF32 false sc (x.accAt (v.grow0 + i) r).toNat
          ((List.range 64).map (fun j => fF32.decode (code r j))) b
        (v.grow0 + i, r, q.1, q.2)))
    set (s1.setCore s.cur.1 (x.setAccs (es.map (fun q => (q.1, q.2.1, q.2.2.1)))))
    if v.gout ≠ 0 then
      modify (fun s =>
        (s.engWrite w out 16384 (ofLanes 32 ((List.range 4096).map (fun i => code (i / 64) (i % 64)))) .eng).1)
    pure (.none, es.foldl (fun fl q => fl ||| q.2.2.2) fl1)

/-- VPJ, one tile at a time. -/
def mxOfVpj : Mx := ⟨vpjCheck, vpjTile⟩

/-- VPJ.REGEN, one tile at a time. -/
def mxOfVpjRegen : Mx := ⟨vpjCheck, regenTile⟩

/-! ### VPJ.INIT, VPJ.MRG and VPJ.RD (13 R258, R262, R264) -/

/-- The label array that VPJ.INIT reads at issue. -/
def labelRecord (e : Entry) : M Nat := do
  let v ← vcfgM
  let w ← e.who
  if v.lbase = 0 then pure (2 ^ (8 * 16 * v.nrows) - 1)
  else
    fun s =>
      match s.engRead w v.lbase (16 * v.nrows) .eng with
      | .error ((ca, code), a) => .error (.trap ca code a false)
      | .ok r => .ok r

/-- VPJ.INIT. -/
def mxOfVpjInit : Mx where
  check := fun e => do
    let v ← vcfgM
    let _ ← v.block e.opd
  run := fun e => do
    let v ← vcfgM
    let off ← v.block e.opd
    let n := e.ext.getD 2 0
    v.putRows off 0 ((List.range v.nrows).map (fun r =>
      ⟨0xFF800000, 0, 16, v.shard, v.shard, (List.range 4).map (fun l => (slice n (16 * r + 4 * l) 4, 0)), []⟩))
    pure (.none, 0#5)

/-- The merge of a left and a right row (13 R262). -/
def mergeRow (kh : Nat) (x y : VRow) : VRow :=
  let m := fmax2 fF32 x.m y.m
  let part (z : VRow) : Nat := mul32 z.s (exp2 (sub32 z.m m)).1
  let right := y.heap.filter (fun p => !(x.heap.map (·.2)).contains p.2)
  let u := candSort (x.heap ++ right)
  let both := (List.range 4).any (fun l => x.seen l && y.seen l)
  let old := (x.flags ||| y.flags) % 16
  let seen := (List.range 4).map (fun l => b2n (x.seen l || y.seen l) * 2 ^ (8 + l))
  let dup := both || decide (right.length < y.heap.length)
  { m := m
    s := if m = 0xFF800000 then 0 else add32 (part x) (part y)
    flags := (old ||| 2 * b2n dup ||| 8 * b2n (decide (kh < u.length))) + 16 + seen.foldl (· + ·) 0
    lo := x.lo, hi := y.hi
    labels := (List.range 4).map (fun l => if x.seen l then x.labels.getD l (0, 0) else y.labels.getD l (0, 0))
    heap := u.take kh }

/-- The rows may be merged in this order. -/
def mergeable (x y : VRow) : Bool := decide (x.hi < y.lo) && x.labels.map (·.1) == y.labels.map (·.1)

/-- VPJ.MRG. -/
def mxOfVpjMrg : Mx where
  check := fun e => do
    let v ← vcfgM
    let _ ← v.block e.opd
    let _ ← v.block e.opa
    let _ ← v.block e.opb
  run := fun e => do
    let v ← vcfgM
    let off ← v.block e.opd
    let l ← v.rows e e.opa
    let r ← v.rows e e.opb
    if (l.zip r).all (fun p => mergeable p.1 p.2) then
      v.putRows off 0 ((l.zip r).map (fun p => mergeRow v.kh p.1 p.2))
      pure (.none, 0#5)
    else trapPost .prot 0x2D e.opa

/-- The read record of VPJ.RD, captured at issue. -/
def readRecord (e : Entry) : M Nat := do
  let w ← e.who
  let l ← accessM w e.opb 32 .read .ls
  loadAt w l 32

/-- An engine read of a meaning. -/
def engReadM (w : Who) (va : W64) (n : Nat) : M Nat := fun s =>
  match s.engRead w va n .eng with
  | .error ((ca, code), a) => .error (.trap ca code a false)
  | .ok r => .ok r

/-- The `n` entries of a number. -/
def entriesOf (n v : Nat) : List (Nat × Nat) := (List.range n).map (fun e => (slice v (8 * e) 4, slice v (8 * e + 4) 4))

/-- The entries of a segment: those that its count word reports as written. -/
def segment (w : Who) (va : W64) : M (List (Nat × Nat)) := do
  if va.toNat % 8 ≠ 0 then trapPost .align 0x3A va
  else
    let c ← engReadM w va 8
    let n := c / 2 ^ 32
    if 2 ^ 24 ≤ n then trapPost .prot 0x2C va
    else
      let v ← engReadM w (va + 8) (8 * n)
      pure (entriesOf n v)

/-- VPJ.RD on its captured record. -/
def mxOfVpjRd : Mx where
  check := fun e => do
    let v ← vcfgM
    if v.nrows ≤ e.opa.toNat then trapPre .prot 0x2C 0
    else
      let _ ← v.block e.opd
      let _ ← ownBlock e.opb 8 32
  run := fun e => do
    let v ← vcfgM
    let off ← v.block e.opd
    let w ← e.who
    let r := e.ext.getD 2 0
    let dest := BitVec.ofNat 64 (slice r 0 8)
    let segs := BitVec.ofNat 64 (slice r 8 8)
    let nseg := slice r 16 4
    let mode := slice r 20 1
    let dcap := slice r 24 4
    let row := e.opa.toNat
    if 1024 < nseg ∨ 2 < mode ∨ slice r 21 3 ≠ 0 ∨ slice r 28 4 ≠ 0 then trapPost .prot 0x2C e.opb
    else if dest.toNat % 8 ≠ 0 then trapPost .align 0x3A dest
    else if segs.toNat % 8 ≠ 0 then trapPost .align 0x3A segs
    else
      let l ← accessM w (e.opd + BitVec.ofNat 64 (v.rowBytes * row)) v.rowBytes .read .ls
      let n ← loadAt w l v.rowBytes
      match rowOf? v.kh n 0 with
      | none => trapPost .prot 0x2D e.opd
      | some x =>
        let more ← (if mode = 2 then do
            let a ← engReadM w segs (8 * nseg)
            (List.range nseg).mapM (fun i => segment w (BitVec.ofNat 64 (slice a (8 * i) 8)))
          else pure [])
        let l := if mode = 2 then candSort (x.heap ++ more.flatten) else x.heap
        if 2 ^ 24 ≤ l.length then trapPost .prot 0x2C segs
        else if mode = 1 ∧ dcap < l.length then trapPost .prot 0x2C e.opb
        else
          let out := l.take dcap
          let v1 := layout ([(0, l.length), (4, out.length)]
            ++ (indexed 0 out).flatMap (fun (i, p) => [(8 + 8 * i, p.1), (12 + 8 * i, p.2)]))
          let s ← get
          match s.engWrite w dest (8 + 8 * out.length) v1 .eng with
          | (s, some ((ca, code), a)) => do
            set s
            pure (.fault ca code a, 0#5)
          | (s, none) => do
            set s
            if mode = 1 then v.putRows off row [{ x with heap := [], flags := x.flags ||| 4 }] else pure ()
            pure (.none, 0#5)

end Sys2Proof.Machine
end

