-- ==== Sys2Proof/Machine/MatrixQueue.lean ====
section
/-! DEFINITION. The matrix queue (10 R191, R192, R204-R206) and the meanings of the words that enter it. A context's command
runs at its completion when the engine is idle; otherwise it enters the queue, whose head starts and completes by events. -/

namespace Sys2Proof.Machine

/-- The command of a word of majors 0x30 to 0x33 and 0x37; VPJ and VPJ.REGEN work tile by tile. -/
def mxOf (i : Instr) : Option Mx :=
  match i with
  | .mma a b row col s .. => some (mxOfMma a b row col s)
  | .mmac _ b row col s .. => some (mxOfMmac b row col s)
  | .accz .. => some mxOfAccz
  | .accld .. => some mxOfAccld
  | .accst .. => some mxOfAccst
  | .acccvt d _ b .. => some (mxOfAcccvt d b)
  | .accmov .. => some mxOfAccmov
  | .xmov d a .. => some (mxOfXmov d a)
  | .xtr d a .. => some (mxOfXtr d a)
  | .xzero d .. => some (mxOfXzero d)
  | .xcvt d a b .. => some (mxOfXcvt d a b)
  | .tfact d a .. => some (mxOfTfact d a)
  | .tsolve d a b .. => some (mxOfTsolve d a b)
  | .vpjCfg .. => some mxOfVpjCfg
  | .vpjInit .. => some mxOfVpjInit
  | .vpjMrg .. => some mxOfVpjMrg
  | .vpjRd .. => some mxOfVpjRd
  | .vpj .. => some mxOfVpj
  | .vpjRegen .. => some mxOfVpjRegen
  | _ => none

/-- A word that the matrix engine runs. -/
def mxWord (i : Instr) : Bool := (mxOf i).isSome

/-- A word of major 0x37, whose entry captures what it reads at issue before it may be admitted (13 R253, R266). -/
def projWord : Instr → Bool
  | .vpjCfg .. | .vpjInit .. | .vpjMrg .. | .vpjRd .. => true
  | i => tiled i

/-- Multiply work in the array (10 R205). -/
def arrayWord (i : Instr) : Bool :=
  match i with
  | .mma .. => true
  | .mmac .. => true
  | i => tiled i

/-! ### The queue (10 R191, R192, R204, R205) -/

/-- Ring tasks formed for a core that have not entered its queue. -/
def State.formedFor (s : State) (core : Nat) : List (Nat × MqSrc) :=
  match (s.core core).ring with
  | none => []
  | some r => ((Tbl.find s.rings r).map (fun g => g.formed.filter (fun f => f.1 == core))).getD []

/-- The engine has nothing to do and nothing waits for it. -/
def State.mxIdle (s : State) (core : Nat) : Bool :=
  (s.core core).mq.isEmpty && (s.core core).rcbuf.isEmpty && (s.formedFor core).isEmpty

/-- A command arrives or starts (10 R204, R205). -/
def Core.mxWork (x : Core) (array : Bool) : Core :=
  { x with mxlevel := max 1 x.mxlevel, burst := if array then x.burst - 1 else x.burst }

/-- BURST: the level rises, and n array commands hold it (10 R205). -/
def Core.mxBurst (x : Core) (n : Nat) : Core :=
  { x with burst := n, mxlevel := if n = 0 then x.mxlevel else max 1 x.mxlevel }

/-- The result is a fault. -/
def Res.isFault : Res → Bool
  | .fault .. => true
  | .none | .w _ | .w2 .. | .q _ | .tile .. | .tfact .. | .regs _ | .cfg _ => false

/-- A matrix command of the context has ended in a fault that has not been taken. -/
def Ctx.mxFaulted (c : Ctx) : Bool := c.results.any (fun r => r.2.isFault && c.flow.inflight.any (fun e => e.seq == r.1 && mxWord e.instr))

/-- The queue has no entry for a context's command: it is full, or a ring task or remote command seeks an entry first. -/
def State.mxFull (s : State) (core : Nat) : Bool :=
  decide (2 ≤ (s.core core).mq.length) || !(s.core core).rcbuf.isEmpty || !(s.formedFor core).isEmpty

/-- The window of the context's entry is open. -/
def Ctx.windowOpen (c : Ctx) (e : Entry) : Bool := e.left != 0 || c.flow.inflight.any (fun x => x.seq == e.seq && x.left != 0)

/-- The entry waits to be admitted. -/
def Ctx.mxWaits (c : Ctx) (e : Entry) : Bool := mxWord e.instr && !e.await && !c.results.any (fun r => r.1 == e.seq)

/-- An earlier matrix command of the context has not been admitted, or has faulted. -/
def Ctx.mxBefore (c : Ctx) (e : Entry) : Bool :=
  c.mxFaulted || c.flow.inflight.any (fun x => decide (x.seq < e.seq) && c.mxWaits x)

/-- Runs a meaning for a context of a core. -/
def State.runAs {α : Type} (s : State) (core k : Nat) (m : M α) : Except Stop (α × State) :=
  match m { s with cur := (core, k) } with
  | .ok (r, s') => .ok (r, { s' with cur := s.cur })
  | .error e => .error e

/-- The context commands that seek an entry of the queue: the first that waits in each context, once it has captured what it reads at issue
and its checks hold (10 R191, R192). -/
def State.mxReady (s : State) (core : Nat) : List (Nat × Entry) :=
  (List.range 11).filterMap (fun k =>
    let c := s.ctx core k
    if c.life ≠ .live ∨ c.mxFaulted then none
    else
      match c.flow.inflight.find? c.mxWaits with
      | none => none
      | some e =>
        if projWord e.instr && e.ext.length ≤ 2 then none
        else
          match mxOf e.instr with
          | none => none
          | some m =>
            match s.runAs core k (m.check e) with
            | .ok _ => some (k, e)
            | .error _ => none)

/-- Another context of the core has a command that was issued earlier and seeks an entry (10 R191). -/
def State.mxOutranked (s : State) (core k : Nat) (e : Entry) : Bool :=
  (s.mxReady core).any (fun p => p.1 != k && decide (p.2.cyc < e.cyc))

/-- Writes a command's result into the context. -/
def mxWrite (r : Res) : M Unit :=
  match r with
  | .fault ca code aux => trapPost ca code aux
  | .tile .. | .tfact .. | .cfg _ | .none | .w _ | .w2 .. | .q _ | .regs _ => modCx (fun c => c.putRes r)

/-- The stores of an ACCST that the engine still holds: the command is complete once all are accepted (04 R65, 10 R192). -/
def Ctx.accepted (c : Ctx) : Bool := decide (c.unacked ≤ 256)

/-- Puts a command of the running context into the queue. -/
def enqueueMx (e : Entry) (started : Bool) (fl : Flags) (res : Res) : M Unit := fun s =>
  .ok ((), s.setCc { s.cc with mq := s.cc.mq ++ [⟨.ctx s.cur.2 e.seq, started, fl, res, some e⟩] })

/-- The command goes through the queue even where the engine is idle: it is a projection of several tiles (13 R252), an ACCLD while the
memory path is busy, or it stands in an open window, at whose end its tile is written. -/
def Entry.toQueue (e : Entry) (x : Core) (c : Ctx) : Bool :=
  (tiled e.instr && e.opb != 1) || (x.mbusy && (match e.instr with
    | .accld .. => true
    | _ => false)) || c.windowOpen e

/-- A matrix word of a context: its checks, then, once every command before it is admitted and the queue has an entry for it, its work in an
idle engine or a place in the queue; otherwise it waits, and its context stalls (10 R191). An ACCST takes a place until its stores are
accepted. `fresh`: what it captured is not yet in its entry. -/
def mxGo (m : Mx) (fresh : Bool) : Eff := fun e => do
  match ← takeRes e with
  | some r =>
    mxWrite r
    pure .done
  | none =>
    if e.await then waitM
    else
      m.check e
      let c ← getCx
      let s ← get
      if c.mxBefore e ∨ s.mxFull s.cur.1 ∨ s.mxOutranked s.cur.1 s.cur.2 e then
        if fresh then pure (.hold e.ext) else waitM
      else
        let queued := !s.mxIdle s.cur.1 || e.toQueue s.cc c
        modCc (fun x => x.mxWork (arrayWord e.instr && !queued))
        if queued then
          enqueueMx e false 0#5 .none
          pure .await
        else
          let (r, fl) ← m.run e
          let c ← getCx
          if !c.accepted then
            enqueueMx e true fl r
            pure .await
          else
            raiseFlags fl
            match r with
            | .fault ca code a => pure (.trap ca code a)
            | _ =>
              mxWrite r
              pure .done

/-- A matrix word that captures nothing beside its entry. -/
def mxFin (m : Mx) : Eff := mxGo m false

/-- A word of major 0x37: at issue it is a core-scope release, and captures a record (13 R253, R266). -/
def mxHeld (m : Mx) (record : Entry → M Nat) : Eff := fun e => do
  if e.await then mxFin m e
  else
    m.check e
    copyRelease e Entry.accesses
    let r ← heldRecord e (record e)
    mxGo m (e.ext.length ≤ 2) { e with ext := [0, 0, r] }

/-- A record for the sender of a remote command (05 R90, 10 R206). -/
def State.mcReply (s : State) (c : RemoteCmd) (kind status : Nat) : State :=
  s.post c.score ⟨kind, 0, status, c.sctx, 0, c.destWord, false, 0⟩

/-- The STATUS of MX_ERR for a stop (10 R206). -/
def mxStatus (ca : Cause) (code : Nat) : Nat := if ca = .format then 0x40 else code

/-- The entry that stands for a remote command, as issued by the target's control context (10 R206). -/
def State.rcEntry (s : State) (c : RemoteCmd) (i : Instr) : Entry :=
  { seq := 0, instr := i, word := c.word, pc := 0, own := 0, imm := none, opd := c.opd, opa := c.opa, opb := c.opb, mask := 0,
    hints := 0, va := 0, vb := 0, left := 0, await := false, atEnd := false,
    ext := [0, 0] ++ s.captureEx c.target 0 i.shape.ex, priv := s.privOf c.target 0, cyc := 0 }

/-- The instruction of a remote command's word. -/
def rcInstr (c : RemoteCmd) : Option Instr :=
  match decodeOps c.word.toNat with
  | .ok i => if 0x30 ≤ bits c.word.toNat 31 26 ∧ bits c.word.toNat 31 26 ≤ 0x34 then some i else none
  | .error _ => none

/-- An entry of the ensign table admits the command (04 R74). -/
def Core.admits (x : Core) (c : RemoteCmd) : Bool :=
  let maj := bits c.word.toNat 31 26
  decide (0x30 ≤ maj ∧ maj ≤ 0x34) && (List.range 16).any (fun i =>
    let e := (Tbl.get 0 x.creg (0x050 + i)).toNat
    bit e 7 && bits e 63 32 == c.ensign && bits e 31 24 == c.sdom && bit e (maj - 0x30))

/-- A remote command arrives (04 R74, 10 R206). -/
def State.rcArrive (s : State) (c : RemoteCmd) : State :=
  let x := s.core c.target
  if !x.admits c then s.mcReply c 0x07 0
  else
    match rcInstr c with
    | none => s.mcReply c 0x07 1
    | some i =>
      if i.shape.g ≠ 0 then s.mcReply c 0x07 2
      else if 4 ≤ x.rcbuf.length then s.mcReply c 0x08 0
      else s.setCore c.target { x with rcbuf := x.rcbuf ++ [c] }

/-- The first remote command of the buffer is admitted (10 R206). -/
def State.rcAdmit (s : State) (core : Nat) : Option State :=
  let x := s.core core
  match x.rcbuf with
  | [] => none
  | c :: rest =>
    let s := s.setCore core { x with rcbuf := rest }
    let x := s.core core
    match rcInstr c with
    | none => some (s.mcReply c 0x07 1)
    | some i =>
      if (s.ctx core 0).life ≠ .live then some (s.mcReply c 0x0D 0x12)
      else
        let e := s.rcEntry c i
        let put (s : State) : State :=
          let x := s.core core
          s.setCore core { (x.mxWork false) with mq := x.mq ++ [⟨.remote c, false, 0#5, .none, some e⟩] }
        match i with
        | .burst .. => some ((s.setCore core (x.mxBurst (c.opd.toNat % 2 ^ 16))).mcReply c 0x06 0)
        | .mwait .. => some (put s)
        | _ =>
          match mxOf i with
          | none => some (s.mcReply c 0x07 1)
          | some m =>
            match s.runAs core 0 (m.check e) with
            | .error (.trap ca code _ _) => some (s.mcReply c 0x0D (mxStatus ca code))
            | .error .wait => some (put s)
            | .ok _ => some (put s)

/-- The head of the queue is a projection command that has begun and stands at a tile boundary. -/
def Core.midway (x : Core) : Bool :=
  match x.mq with
  | q :: _ => !q.started && q.entry.any (fun e => tiled e.instr && e.opa.toNat != vpjFirst e)
  | [] => false

/-- An entry is admitted to the matrix queue in the order of 10 R191; at a tile boundary of a projection a ring task goes before it (13
R252). Context commands go in the order of their issue; which of two that a frame brought back goes first is free. -/
def State.mxAdmit (s : State) (core : Nat) : Option State :=
  let x := s.core core
  match s.formedFor core, x.ring with
  | f :: _, some r =>
    if 2 ≤ x.mq.length ∧ !x.midway then none
    else
      let s := { s with rings := s.rings.map (fun (p : Nat × Ring) => (p.1, if p.1 = r then { p.2 with formed := p.2.formed.erase f } else p.2)) }
      let q : MqEntry := ⟨f.2, false, 0#5, .none, none⟩
      some (s.setCore core { (x.mxWork false) with mq := if x.midway then q :: x.mq else x.mq ++ [q] })
  | _, _ =>
    if 2 ≤ x.mq.length then none
    else if x.rcbuf ≠ [] then s.rcAdmit core
    else
      let l := s.mxReady core
      let l := l.filter (fun p => l.all (fun q => decide (p.2.cyc ≤ q.2.cyc)))
      let (n, s) := if l.length = 1 then (0, s) else s.choose l.length
      match l[n]? with
      | none => none
      | some (k, e) =>
        let c := s.ctx core k
        let s := s.setCtx core k { c with flow := { c.flow with
          inflight := c.flow.inflight.map (fun y => if y.seq = e.seq then { y with await := true } else y) } }
        let x := s.core core
        some (s.setCore core { (x.mxWork false) with mq := x.mq ++ [⟨.ctx k e.seq, false, 0#5, .none, some e⟩] })

/-- A failed ACCLD or ACCST takes its context's later commands that have not started out of the queue: they are issued again behind it, from a
frame too where they stand in one (10 R208). -/
def State.mxUnqueue (s : State) (core k : Nat) : State :=
  let x := s.core core
  let mine (q : MqEntry) : Option Nat := match q.src with
    | .ctx j n => if j = k ∧ !q.started then some n else none
    | .remote _ => none
    | .ring .. => none
  let out := x.mq.filterMap mine
  let s := s.setCore core { x with mq := x.mq.filter (fun q => (mine q).isNone) }
  let c := s.ctx core k
  let off (l : List Entry) : List Entry := l.map (fun y => if out.contains y.seq then { y with await := false } else y)
  s.setCtx core k { c with flow := { c.flow with inflight := off c.flow.inflight }
                           saved := c.saved.map (fun x => { x with awaiting := off x.awaiting }) }

/-- Replaces the head of the queue. -/
def State.mxHead (s : State) (core : Nat) (q : MqEntry) : State :=
  let x := s.core core
  s.setCore core { x with mq := q :: x.mq.drop 1 }

/-- Removes the head of the queue. -/
def State.mxPop (s : State) (core : Nat) : State :=
  let x := s.core core
  s.setCore core { x with mq := x.mq.drop 1 }

/-- The next tile of a projection, as its entries in the queue and in the context hold it. -/
def Entry.nextTile (e : Entry) : Entry :=
  { e with opa := e.opa + 1, opb := e.opb - 1, ext := [0, 0, vpjFirst e] }

/-- The head of the queue stands before its next part, in the queue and in its context (13 R261). -/
def State.mxGoesOn (s : State) (core k : Nat) (q : MqEntry) (e : Entry) : State :=
  let s := s.mxHead core { q with entry := some e }
  let c := s.ctx core k
  s.setCtx core k { c with flow := { c.flow with inflight := c.flow.inflight.map (fun y =>
    if y.seq = e.seq then { y with opa := e.opa, opb := e.opb, ext := e.ext } else y) } }

/-- A part of the work of the queue's head: its result and flags, and the command as it goes on, where more of it is left. A projection
takes one tile (13 R252), an ACCLD some of its elements (16 R316). -/
def mxPart (m : Mx) (e : Entry) : M (Res × Flags × Option Entry) := do
  match e.instr with
  | .accld .. =>
    let l ← accldStep e false
    pure (.none, 0#5, l.map (fun l => { e with ext := l }))
  | i =>
    let (r, fl) ← m.run e
    pure (r, fl, if tiled i ∧ 1 < e.opb.toNat then some e.nextTile else none)

/-- Takes later commands of a context out of the queue where the failed command is an ACCLD or ACCST (10 R208). -/
def State.mxFailed (s : State) (core k : Nat) (i : Instr) : State :=
  match i with
  | .accld .. | .accst .. => s.mxUnqueue core k
  | _ => s

/-- Flags of engine work join a context's FSTAT (08 R163). -/
def State.joinFlags (s : State) (core k : Nat) (fl : Flags) : State := s.setCtx core k ((s.ctx core k).lateFlags fl)

/-- The head of the queue starts: a context or remote command does its work, or a part of it; its results stand until it completes. At a tile
boundary of a projection a ring task formed at the core goes first (13 R252). -/
def State.mxStartCmd (s : State) (core : Nat) (q : MqEntry) : Option State :=
  match q.entry with
  | none => none
  | some e =>
    let arr := arrayWord e.instr
    let s0 := s.setCore core ((s.core core).mxWork arr)
    match q.src with
    | .ring .. => none
    | .ctx k n =>
      match mxOf e.instr with
      | none => none
      | some m =>
        if (s.core core).midway && !(s.formedFor core).isEmpty then none
        else
          match s0.runAs core k (mxPart m e) with
          | .ok ((_, fl, some e'), s) => some ((s.joinFlags core k fl).mxGoesOn core k q e')
          | .ok ((r, fl, none), s) => some (s.mxHead core { q with started := true, flags := fl, res := r })
          | .error (.trap ca code aux _) => some (((s0.mxPop core).mxFailed core k e.instr).deliver core k n (.fault ca code aux))
          | .error .wait => none
    | .remote c =>
      match mxOf e.instr with
      | none => some (s0.mxHead core { q with started := true })
      | some m =>
        match s0.runAs core 0 (mxPart m e) with
        | .ok ((_, fl, some e'), s) => some ((s.joinFlags core 0 fl).mxHead core { q with entry := some e' })
        | .ok ((r, fl, none), s) => some (s.mxHead core { q with started := true, flags := fl, res := r })
        | .error (.trap ca code _ _) => some ((s0.mxPop core).mcReply c 0x0D (mxStatus ca code))
        | .error .wait => none

/-- A command that stores is complete once the stores are accepted (10 R192). -/
def Core.mxAccepted (x : Core) (q : MqEntry) (k : Nat) : Bool :=
  match q.entry.map (fun e => e.instr) with
  | some (Instr.accst ..) => (x.ctx k).accepted
  | _ => true

/-- The head of the queue completes: a context command's tile is written and the instruction learns of it, once its window is over and while
the context runs at the level that issued it; else its result waits with the instruction, for the return where a trap has put it into a
frame (18 R348). A remote command's result is written to the control context and its sender learns of it. -/
def State.mxEndCmd (s : State) (core : Nat) (q : MqEntry) : Option State :=
  if !q.started then none
  else
    match q.src with
    | .ring .. => none
    | .ctx k n =>
      if !(s.core core).mxAccepted q k then none
      else
        let s := (s.mxPop core).joinFlags core k q.flags
        if !q.res.isFault && (s.ctx core k).flow.inflight.any (fun e => e.seq == n && e.left == 0) then
          match s.runAs core k (mxWrite q.res) with
          | .ok (_, s) => some (s.deliver core k n .none)
          | .error _ => some (s.deliver core k n q.res)
        else some (s.deliver core k n q.res)
    | .remote c =>
      if !(s.core core).mxAccepted q 0 then none
      else
        let s := (s.mxPop core).joinFlags core 0 q.flags
        some ((s.setCtx core 0 ((s.ctx core 0).engineWrites q.res)).mcReply c 0x06 0)

/-- Work is queued at the engine, or a hold is active. -/
def Core.mxBusy (x : Core) : Bool := !x.mq.isEmpty || decide (0 < x.burst)

/-! ### Meanings -/

/-- MMA (10 R196). -/
def finMma (a : Nat) (b : Nat) (row : Nat) (col : Nat) (s : Nat) : Eff := fun e => mxFin (mxOfMma a b row col s) e

/-- MMA (10 R196). -/
def execMma (a : Nat) (b : Nat) (row : Nat) (col : Nat) (s : Nat) (g : Nat) (la : Nat) (st : State) : Host.Outcome State Fault Refusal :=
  issue (.mma a b row col s g la) (finMma a b row col s) st

/-- MMAC (10 R197). -/
def finMmac (b : Nat) (row : Nat) (col : Nat) (s : Nat) : Eff := fun e => mxFin (mxOfMmac b row col s) e

/-- MMAC (10 R197). -/
def execMmac (a : Nat) (b : Nat) (row : Nat) (col : Nat) (s : Nat) (g : Nat) (la : Nat) (st : State) : Host.Outcome State Fault Refusal :=
  issue (.mmac a b row col s g la) (finMmac b row col s) st

/-- ACCZ (10 R198). -/
def finAccz : Eff := fun e => mxFin mxOfAccz e

/-- ACCZ (10 R198). -/
def execAccz (d : Nat) (g : Nat) (la : Nat) (s : State) : Host.Outcome State Fault Refusal :=
  issue (.accz d g la) finAccz s

/-- ACCLD (10 R198). -/
def finAccld : Eff := fun e => mxFin mxOfAccld e

/-- ACCLD (10 R198). -/
def execAccld (d : Nat) (a : Nat) (b : Nat) (g : Nat) (la : Nat) (s : State) : Host.Outcome State Fault Refusal :=
  issue (.accld d a b g la) finAccld s

/-- ACCST (10 R198). -/
def finAccst : Eff := fun e => mxFin mxOfAccst e

/-- ACCST (10 R198). -/
def execAccst (d : Nat) (a : Nat) (b : Nat) (g : Nat) (la : Nat) (s : State) : Host.Outcome State Fault Refusal :=
  issue (.accst d a b g la) finAccst s

/-- ACCCVT (10 R199). -/
def finAcccvt (d : Nat) (b : Nat) : Eff := fun e => mxFin (mxOfAcccvt d b) e

/-- ACCCVT (10 R199). -/
def execAcccvt (d : Nat) (a : Nat) (b : Nat) (g : Nat) (la : Nat) (s : State) : Host.Outcome State Fault Refusal :=
  issue (.acccvt d a b g la) (finAcccvt d b) s

/-- ACCMOV (10 R198). -/
def finAccmov : Eff := fun e => mxFin mxOfAccmov e

/-- ACCMOV (10 R198). -/
def execAccmov (d : Nat) (a : Nat) (g : Nat) (la : Nat) (s : State) : Host.Outcome State Fault Refusal :=
  issue (.accmov d a g la) finAccmov s

/-- XMOV (10 R200). -/
def finXmov (d : Nat) (a : Nat) : Eff := fun e => mxFin (mxOfXmov d a) e

/-- XMOV (10 R200). -/
def execXmov (d : Nat) (a : Nat) (g : Nat) (la : Nat) (s : State) : Host.Outcome State Fault Refusal :=
  issue (.xmov d a g la) (finXmov d a) s

/-- XTR (10 R200). -/
def finXtr (d : Nat) (a : Nat) : Eff := fun e => mxFin (mxOfXtr d a) e

/-- XTR (10 R200). -/
def execXtr (d : Nat) (a : Nat) (g : Nat) (la : Nat) (s : State) : Host.Outcome State Fault Refusal :=
  issue (.xtr d a g la) (finXtr d a) s

/-- XZERO (10 R200). -/
def finXzero (d : Nat) : Eff := fun e => mxFin (mxOfXzero d) e

/-- XZERO (10 R200). -/
def execXzero (d : Nat) (g : Nat) (la : Nat) (s : State) : Host.Outcome State Fault Refusal :=
  issue (.xzero d g la) (finXzero d) s

/-- XCVT (10 R200). -/
def finXcvt (d : Nat) (a : Nat) (b : Nat) : Eff := fun e => mxFin (mxOfXcvt d a b) e

/-- XCVT (10 R200). -/
def execXcvt (d : Nat) (a : Nat) (b : Nat) (g : Nat) (la : Nat) (s : State) : Host.Outcome State Fault Refusal :=
  issue (.xcvt d a b g la) (finXcvt d a b) s

/-- TFACT (10 R202). -/
def finTfact (d : Nat) (a : Nat) : Eff := fun e => mxFin (mxOfTfact d a) e

/-- TFACT (10 R202). -/
def execTfact (d : Nat) (a : Nat) (b : Nat) (g : Nat) (la : Nat) (s : State) : Host.Outcome State Fault Refusal :=
  issue (.tfact d a b g la) (finTfact d a) s

/-- TSOLVE (10 R203). -/
def finTsolve (d : Nat) (a : Nat) (b : Nat) : Eff := fun e => mxFin (mxOfTsolve d a b) e

/-- TSOLVE (10 R203). -/
def execTsolve (d : Nat) (a : Nat) (b : Nat) (g : Nat) (la : Nat) (s : State) : Host.Outcome State Fault Refusal :=
  issue (.tsolve d a b g la) (finTsolve d a b) s

/-- VPJ.CFG (13 R253, R254). -/
def finVpjCfg : Eff := fun e => mxHeld mxOfVpjCfg cfgRecord e

/-- VPJ.CFG (13 R253, R254). -/
def execVpjCfg (d : Nat) (g : Nat) (s : State) : Host.Outcome State Fault Refusal :=
  issue (.vpjCfg d g) finVpjCfg s

/-- VPJ.INIT (13 R258). -/
def finVpjInit : Eff := fun e => mxHeld mxOfVpjInit labelRecord e

/-- VPJ.INIT (13 R258). -/
def execVpjInit (d : Nat) (g : Nat) (la : Nat) (s : State) : Host.Outcome State Fault Refusal :=
  issue (.vpjInit d g la) finVpjInit s

/-- VPJ.MRG (13 R262). -/
def finVpjMrg : Eff := fun e => mxHeld mxOfVpjMrg (fun _ => pure 0) e

/-- VPJ.MRG (13 R262). -/
def execVpjMrg (d : Nat) (a : Nat) (b : Nat) (g : Nat) (la : Nat) (s : State) : Host.Outcome State Fault Refusal :=
  issue (.vpjMrg d a b g la) finVpjMrg s

/-- VPJ.RD (13 R264). -/
def finVpjRd : Eff := fun e => mxHeld mxOfVpjRd readRecord e

/-- VPJ.RD (13 R264). -/
def execVpjRd (d : Nat) (a : Nat) (b : Nat) (g : Nat) (la : Nat) (s : State) : Host.Outcome State Fault Refusal :=
  issue (.vpjRd d a b g la) finVpjRd s

/-- VPJ (13 R259-R261). -/
def finVpj : Eff := fun e => mxHeld mxOfVpj (fun e => pure e.opa.toNat) e

/-- VPJ (13 R259-R261). -/
def execVpj (d : Nat) (a : Nat) (b : Nat) (g : Nat) (la : Nat) (s : State) : Host.Outcome State Fault Refusal :=
  issue (.vpj d a b g la) finVpj s

/-- VPJ.REGEN (13 R265). -/
def finVpjRegen : Eff := fun e => mxHeld mxOfVpjRegen (fun e => pure e.opa.toNat) e

/-- VPJ.REGEN (13 R265). -/
def execVpjRegen (d : Nat) (a : Nat) (b : Nat) (g : Nat) (la : Nat) (s : State) : Host.Outcome State Fault Refusal :=
  issue (.vpjRegen d a b g la) finVpjRegen s

/-- BURST: it acts at issue (10 R205). -/
def finBurst : Eff := plain (fun e => modCc (fun x => x.mxBurst (e.opd.toNat % 2 ^ 16)))

/-- BURST: it acts at issue (10 R205). -/
def execBurst (d : Nat) (g : Nat) (s : State) : Host.Outcome State Fault Refusal :=
  issue (.burst d g) finBurst s

/-- MWAIT (10 R205). -/
def finMwait : Eff := plain (fun e => do
  let c ← getCx
  if c.flow.inflight.any (fun x => decide (x.seq < e.seq) && mxWord x.instr) then waitM else pure ())

/-- MWAIT (10 R205). -/
def execMwait (g : Nat) (s : State) : Host.Outcome State Fault Refusal :=
  issue (.mwait g) finMwait s

/-! ### Events -/

/-- A remote matrix command arrives (04 R74). -/
def execRemoteCommandArrival (cmd : RemoteCmd) (s : State) : Host.Outcome State Fault Refusal :=
  eventOn (decide (cmd.target < 1536 ∧ cmd.score < 1536))
    ({ s with net := { s.net with rcmds := s.net.rcmds.erase cmd } }.rcArrive cmd)

/-- An entry is admitted to a matrix queue (10 R191). -/
def execMatrixQueueAdmit (core : Nat) (s : State) : Host.Outcome State Fault Refusal :=
  eventIf (decide (core < 1536)) s (s.mxAdmit core)

/-- The array level rises one step to the cap (10 R204). -/
def execArrayLevelRise (core : Nat) (s : State) : Host.Outcome State Fault Refusal :=
  let x := s.core core
  eventOn (decide (core < 1536))
    (if x.mxBusy ∧ x.mxlevel < s.admin.arrayCap then s.setCore core { x with mxlevel := x.mxlevel + 1 } else s)

/-- The array level falls one step (10 R204). -/
def execArrayLevelFall (core : Nat) (s : State) : Host.Outcome State Fault Refusal :=
  let x := s.core core
  eventOn (decide (core < 1536)) (if x.mxBusy then s else s.setCore core { x with mxlevel := x.mxlevel - 1 })

/-- A BURST hold ends (10 R205). -/
def execBurstHoldExpire (core : Nat) (s : State) : Host.Outcome State Fault Refusal :=
  eventOn (decide (core < 1536)) (s.setCore core { s.core core with burst := 0 })

/-- A tile boundary of a VPJ or VPJ.REGEN: the entry at place `idx` of the context's unfinished instructions, at the head of the queue,
takes its next tile (13 R252). -/
def execVpjTileBoundary (core ctx idx : Nat) (s : State) : Host.Outcome State Fault Refusal :=
  eventIf (decide (core < 1536 ∧ ctx < 11)) s
    (match (s.ctx core ctx).flow.inflight[idx]? with
      | none => none
      | some e =>
        match (s.core core).mq with
        | q :: _ => if q.src = .ctx ctx e.seq && MqEntry.atTile ctx q then s.mxStartCmd core q else none
        | [] => none)

end Sys2Proof.Machine
end

