-- ==== Sys2Proof/Machine/Ring.lean ====
section
/-! DEFINITION. Encounter rings (11 R209-R232): the beat, the match tables, the tasks in the matrix engine, and the ring
instructions. -/

namespace Sys2Proof.Machine

/-! ### Tiles (11 R211) -/

/-- COUNT. -/
def RTile.count (t : RTile) : Nat := bits t.hdr.toNat 29 20
/-- LAP. -/
def RTile.lap (t : RTile) : Nat := bits t.hdr.toNat 31 30
/-- ORIGIN. -/
def RTile.origin (t : RTile) : Nat := bits t.hdr.toNat 17 13
/-- TAG. -/
def RTile.tag (t : RTile) : Nat := bits t.hdr.toNat 11 0

/-- One encounter fewer is expected. -/
def RTile.met (t : RTile) : RTile := { t with hdr := t.hdr - 0x100000 }

/-- LAP in place of the header's. -/
def RTile.withLap (t : RTile) (n : Nat) : RTile := { t with hdr := t.hdr &&& 0x3FFFFFFF ||| BitVec.ofNat 64 (n * 2 ^ 30) }

/-- Tiles in flight: those in current latches. -/
def Ring.flying (g : Ring) : List (Nat × RTile) := g.latch.filter (fun p => p.1 % 2 == 0)

/-- The family carries a side area. -/
def Ring.sided (g : Ring) (ccw : Bool) : Bool := bit g.cfg.toNat (if ccw then 21 else 20)

/-- Bytes of a tile of the family with its side area (11 R226). -/
def Ring.tileBytes (g : Ring) (ccw : Bool) : Nat := if g.sided ccw then 4608 else 4096

/-- A ring record (11 R222), posted to the owner. -/
def State.ringPost (s : State) (g : Ring) (kind status count low : Nat) : State :=
  let c := g.cfg.toNat
  s.post g.owner (hwRec kind status count
    (BitVec.ofNat 64 (low + bits c 3 0 * 2 ^ 32 + bits c 9 8 * 2 ^ 36 + bits c 4 4 * 2 ^ 38)))

/-- Posts RING_DONE once the ring is idle with its counter at zero (11 R222). -/
def State.ringDone (s : State) (r : Nat) : State :=
  match Tbl.find s.rings r with
  | none => s
  | some g =>
    if g.running || g.doneSent || !g.entered || g.counter != 0 then s
    else
      (s.setRing r { g with doneSent := true }).ringPost g 0x0A 0 (g.beats % 2 ^ 32) (g.tasks % 2 ^ 16)

/-! ### A beat (11 R212-R216, R219, R221) -/

/-- The entry's fields and both counts allow a task of the two tiles (11 R216). -/
def matches_ (w : Nat) (a b : RTile) : Bool :=
  bit w 63 && !bit w 62 && bits w 11 0 == a.tag && bits w 23 12 == b.tag && decide (1 ≤ a.count) && decide (1 ≤ b.count)

/-- One check of one entry: its task is formed, its DONE set and both counts decremented. -/
def State.ringEntry (s : State) (r core ka kb i : Nat) (trail : Bool) : State :=
  match Tbl.find s.rings r with
  | none => s
  | some g =>
    match Tbl.find g.latch ka, Tbl.find g.latch kb with
    | some a, some b =>
      let x := s.core core
      let w := Tbl.get 0 x.matchTab i
      if !matches_ w.toNat a b then s
      else
        let sc := if bits w.toNat 61 60 = 0 then (s.ctx core 0).sOf (bits w.toNat 59 57) else 0
        let g := { g with
          latch := Tbl.put (Tbl.put g.latch ka a.met) kb b.met
          formed := g.formed ++ [(core, .ring (some r) w i trail sc g.cwTag g.ccwTag)] }
        (s.setCore core { x with matchTab := Tbl.set 0 x.matchTab i (w ||| 0x4000000000000000) }).setRing r g
    | _, _ => s

/-- The latch of the CCW tile that position `p` checks: its current one, or the tile in its trailing latch where it is now,
while it is in flight. -/
def Ring.ccwKey (g : Ring) (len p : Nat) (trail : Bool) : Option Nat :=
  if !trail then some (4 * p + 2)
  else
    let k := 4 * ((p + len - 1) % len) + 2
    match Tbl.find g.latch (4 * p + 3), Tbl.find g.latch k with
    | some t, some u => if t.origin = u.origin then some k else none
    | _, _ => none

/-- One check of position `p`: check 1 has the current CCW tile, check 2 the trailing one (11 R213, R216). -/
def State.ringCheck (s : State) (r p : Nat) (trail : Bool) : State :=
  match Tbl.find s.rings r with
  | none => s
  | some g =>
    let c := g.cfg.toNat
    let core := ringCore c (r / 192) p
    match g.ccwKey (ringLen c) p trail with
    | none => s
    | some k => (s.core core).matchTab.foldl (fun s e => s.ringEntry r core (4 * p) k e.1 trail) s

/-- Positions in an order that starts anywhere (DESIGN CHOICE, log entry 2). -/
def State.ringOrder (s : State) (len : Nat) : List Nat × State :=
  let (k, s) := s.choose len
  ((List.range len).map (fun i => (k + i) % len), s)

/-- The checks of a beat: check 1 at every member before check 2 at any (11 R216). -/
def State.ringChecks (s : State) (r : Nat) : State :=
  match Tbl.find s.rings r with
  | none => s
  | some g =>
    let l := List.range (ringLen g.cfg.toNat)
    [false, true].foldl (fun s trail => l.foldl (fun s p => s.ringCheck r p trail) s) s

/-- Every tile moves one position, and what the current latches held stands in the trailing ones (11 R212). -/
def Ring.move (g : Ring) : Ring :=
  let len := ringLen g.cfg.toNat
  let from_ (k n : Nat) : List (Nat × RTile) := ((Tbl.find g.latch k).map (fun t => (n, t))).toList
  { g with
    latch := (List.range len).flatMap (fun p =>
      from_ (4 * ((p + len - 1) % len)) (4 * p) ++ from_ (4 * p) (4 * p + 1)
        ++ from_ (4 * ((p + 1) % len) + 2) (4 * p + 2) ++ from_ (4 * p + 2) (4 * p + 3)) }

/-- Writes a retiring tile to its return address (11 R221, R222). -/
def State.ringReturn (s : State) (g : Ring) (core p : Nat) (ccw : Bool) (t : RTile) : State :=
  if t.ret = 0 then s
  else
    match s.engWrite ⟨g.domain, false, core⟩ t.ret (g.tileBytes ccw) (t.bytes + t.side * 2 ^ 32768) .eng with
    | (s, none) => s
    | (s, some ((_, code), _)) => s.ringPost g 0x0E code p t.tag

/-- What happens to the tile of a family that comes home at position `p` (11 R221). -/
def State.ringHome (s : State) (r p : Nat) (ccw : Bool) : State :=
  match Tbl.find s.rings r with
  | none => s
  | some g =>
    let k := 4 * p + 2 * b2n ccw
    match Tbl.find g.latch k with
    | none => s
    | some t =>
      if t.origin ≠ p then s
      else
        let t := t.withLap ((t.lap + 1) % 4)
        let core := ringCore g.cfg.toNat (r / 192) p
        if t.count = 0 then (s.setRing r { g with latch := Tbl.erase g.latch k }).ringReturn g core p ccw t
        else if t.lap < bits g.cfg.toNat 23 22 then s.setRing r { g with latch := Tbl.put g.latch k t }
        else
          (s.setRing r { g with
            latch := Tbl.erase g.latch k
            park := Tbl.put g.park (2 * p + b2n ccw) t }).ringPost g 0x0B t.lap t.count (t.hdr.toNat % 2 ^ 18)

/-- A beat boundary: tiles move, those at home are dealt with, waiting updates are applied, and the next beat's checks are
made while a tile is in flight. -/
def State.ringBoundary (s : State) (r : Nat) : State :=
  match Tbl.find s.rings r with
  | none => s
  | some g =>
    let s := s.setRing r { g.move with beats := g.beats + 1 }
    let (l, s) := s.ringOrder (ringLen g.cfg.toNat)
    let s := l.foldl (fun s p => (s.ringHome r p false).ringHome r p true) s
    let s := s.ringApply r
    match Tbl.find s.rings r with
    | none => s
    | some g => if g.flying = [] then s else s.ringChecks r

/-- A task of the ring that holds its beat: a TT task that has not started, or an RT task (11 R219). -/
def MqEntry.holds (r : Nat) (q : MqEntry) : Bool :=
  match q.src with
  | .ring n w _ _ _ _ _ => n == some r && (!q.started || bits w.toNat 61 60 == 1)
  | .ctx _ _ | .remote _ => false

/-- The beat may end (11 R219). -/
def State.beatOver (s : State) (r : Nat) (g : Ring) : Bool :=
  !g.flying.isEmpty && g.formed.isEmpty
    && !(ringMembers g.cfg.toNat r).any (fun c => (s.core c).mq.any (MqEntry.holds r))
    && !s.net.recs.any (fun x => x.1 == g.owner && (x.2.kind == 0x0A || x.2.kind == 0x0B || x.2.kind == 0x0E))

/-! ### Tasks in the matrix engine (11 R217, R218) -/

/-- The tile of a latch, or zero bytes. -/
def State.ringTile (s : State) (ring : Option Nat) (core : Nat) (n : Nat) : Nat × Nat :=
  if ring.isSome then s.mxTile core 0 n else (0, 0)

/-- Writes the bytes of the CW tile at a core, if one is there. -/
def State.setCw (s : State) (ring : Option Nat) (core bytes : Nat) : State :=
  match ring with
  | none => s
  | some r =>
    match Tbl.find s.rings r with
    | none => s
    | some g =>
      let k := 4 * ringPos g.cfg.toNat core
      match Tbl.find g.latch k with
      | none => s
      | some t => s.setRing r { g with latch := Tbl.put g.latch k { t with bytes := bytes } }

/-- The result block of an RT task (11 R218). -/
def rtResult (f : Fmt) (cw ccw blk : Nat) : Nat × Flags :=
  let n := if f.width = 64 then 16 else 32
  let dec (rows : List (List Nat)) : List (List Val) := rows.map (fun r => r.map f.decode)
  let b := dec (blockOf f blk n n)
  let y := dec (blockOf f ccw n n)
  let one := fF32.decode 0x3F800000
  let rows : List (List (Nat × Flags)) := (indexed 0 (blockOf f cw n n)).map (fun (i, r) =>
    (indexed 0 r).map (fun (c, old) => mxElem f false one old (b.getD i []) (y.map (fun (q : List Val) => q.getD c .nan))))
  (blockInto f cw (rows.map (fun r => r.map (·.1))), rows.foldl (fun fl r => r.foldl (fun fl x => fl ||| x.2) fl) 0#5)

/-- A ring task starts: its work is done, or the status of its RING_ERR stands as its result. -/
def State.ringStart (s : State) (core : Nat) (q : MqEntry) (ring : Option Nat) (w : Nat) (trail : Bool) (sc : W32) (ta tb : Tag) :
    State :=
  let ccw := s.ringTile ring core (if trail then 11 else 10)
  let cw := s.ringTile ring core 8
  let s := s.setCore core ((s.core core).mxWork true)
  if bits w 61 60 = 0 then
    let (s, fl) := s.mxMma core ta tb cw ccw sc (64 * bits w 51 49) (32 * bits w 48 48)
    s.mxHead core { q with started := true, flags := fl }
  else
    let off := 4096 * bits w 47 40
    let bad (code : Nat) : State := s.mxHead core { q with started := true, res := .fault .memfault code 0 }
    if ¬ ((ta.code = 1 ∧ tb.code = 1) ∨ (ta.code = 2 ∧ tb.code = 2)) then bad 0x40
    else if beyondLs (off + 4095) then bad 0x20
    else if s.isLost (lsKey core off) 4096 then bad 0x22
    else
      let (v, fl) := rtResult (if ta.code = 1 then fF32 else fF64) cw.1 ccw.1 (s.peek (.ls core off) 4096)
      (s.setCw ring core v).mxHead core { q with started := true, flags := fl }

/-- A ring task completes: its flags join the control context, its ring counts it, and a failed one posts RING_ERR (11 R220,
R222). -/
def State.ringEnd (s : State) (core : Nat) (q : MqEntry) (ring : Option Nat) (w i : Nat) : State :=
  let s := (s.mxPop core).joinFlags core 0 q.flags
  match ring with
  | none => s
  | some r =>
    match Tbl.find s.rings r with
    | none => s
    | some g =>
      let s := s.setRing r { g with counter := g.counter - 1, tasks := g.tasks + 1 }
      let s := match q.res with
        | .fault _ code _ => s.ringPost g 0x0E code (ringPos g.cfg.toNat core) (bits w 23 0 + i * 2 ^ 24)
        | _ => s
      s.ringDone r

/-- The head of a matrix queue starts. -/
def State.mxStart (s : State) (core : Nat) : Option State :=
  match (s.core core).mq with
  | [] => none
  | q :: _ =>
    if q.started then none
    else
      match q.src with
      | .ring n w _ t sc ta tb => some (s.ringStart core q n w.toNat t sc ta tb)
      | .ctx _ _ | .remote _ => s.mxStartCmd core q

/-- The head of a matrix queue, a context's or a remote command, completes. -/
def State.mxEnd (s : State) (core : Nat) : Option State :=
  match (s.core core).mq with
  | [] => none
  | q :: _ =>
    match q.src with
    | .ring .. => none
    | .ctx _ _ | .remote _ => s.mxEndCmd core q

/-- The head of a matrix queue, a ring task, completes. -/
def State.ringTaskEnd (s : State) (core : Nat) : Option State :=
  match (s.core core).mq with
  | [] => none
  | q :: _ =>
    match q.src with
    | .ring n w i _ _ _ _ => if q.started then some (s.ringEnd core q n w.toNat i) else none
    | .ctx _ _ | .remote _ => none

/-- A beat ends; where members share their physical cores, it waits for their partners too (19 R360). -/
def State.ringBeat (s : State) (r : Nat) : Option State :=
  match Tbl.find s.rings r with
  | none => none
  | some g => if s.beatOver r g && s.partnersReady (ringMembers g.cfg.toNat r) then some (s.ringBoundary r) else none

/-- The ring becomes idle: no tile is in flight and every return write is complete (11 R222). -/
def State.ringRest (s : State) (r : Nat) : Option State :=
  match Tbl.find s.rings r with
  | none => none
  | some g => if g.running && g.flying.isEmpty then some ((s.setRing r { g with running := false }).ringDone r) else none

/-! ### The status word (11 R228) -/

/-- The status word of a core. -/
def State.ringStatus (s : State) (core : Nat) : W64 :=
  match (s.core core).ring with
  | none => 0
  | some r =>
    match Tbl.find s.rings r with
    | none => 0
    | some g =>
      let p := ringPos g.cfg.toNat core
      let n := g.flying.length
      BitVec.ofNat 64 (g.beats % 2 ^ 24 * 2 ^ 40 + p * 2 ^ 35 + b2n (Tbl.find g.park (2 * p + 1)).isSome * 2 ^ 34
        + b2n (Tbl.find g.park (2 * p)).isSome * 2 ^ 33 + b2n (g.owner == core) * 2 ^ 32 + 2 ^ 31
        + b2n (decide (0 < n)) * 2 ^ 30 + b2n (!g.park.isEmpty) * 2 ^ 29
        + b2n (!g.running && g.counter == 0 && g.doneSent) * 2 ^ 28 + n * 2 ^ 21 + g.counter % 2 ^ 16)

/-! ### Meanings -/

/-- The ring of the running core with its number. -/
def State.myRing (s : State) : Option (Nat × Ring) :=
  match s.cc.ring with
  | none => none
  | some r => (Tbl.find s.rings r).map (fun g => (r, g))

/-- The configuration word is malformed (11 R223). -/
def ringBad (w : Nat) : Bool :=
  bits w 63 24 != 0 || bits w 23 22 == 0 || bits w 11 10 != 0 || bits w 9 8 == 3 || bits w 7 5 != 0
    || (bit w 4 && bits w 9 8 != 0) || decide (11 < bits w 3 0) || (bits w 9 8 == 2 && bits w 0 0 == 1)

/-- The tag of a family, or FORMAT (11 R223). -/
def familyTag (n : Nat) (side : Bool) : M Tag := do
  let c ← getCx
  let f := (c.fOf n).toNat
  if !descValid f then format 0xFF 0xFF (96 + n)
  else if descKind f = 5 then format 0xFF (descTag f false).code (96 + n)
  else if side && descKind f != 0 then format 0x86 (descTag f false).code (96 + n)
  else pure (descTag f side)

/-- A match table entry is malformed (11 R215, R224). -/
def entryBad (w : Nat) : Bool :=
  bit w 63 && (bit w 61 || bits w 56 52 != 0 || bits w 39 24 != 0
    || (if bit w 60 then bits w 59 57 != 0 || bits w 51 48 != 0 else bits w 47 40 != 0))

/-- An update record is malformed (11 R225). -/
def updateBad (len r : Nat) : Bool :=
  let h := r % 2 ^ 64
  bits h 7 5 != 0 || bits h 63 16 != 0 || decide (len ≤ bits h 4 0) || entryBad (r / 2 ^ 64)

/-- Writes the entries at once, or leaves them for the next beat boundary while the core's ring runs; the instruction then
waits for them (11 R224, R225). -/
def matchWrite (e : Entry) (items : List (Nat × Nat × W64)) (r : Nat) : M Fin := fun s =>
  match s.myRing with
  | none => .ok (.done, s.setMatch items)
  | some (n, g) =>
    if g.flying = [] then .ok (.done, s.setMatch items)
    else .ok (.hold [0, 0, r, 1], s.setRing n { g with pend := g.pend ++ [⟨s.cur.1, s.cur.2, e.seq, items⟩] })

/-- An update that was left for a boundary: done once the boundary has applied it. -/
def matchHeld (e : Entry) : M Fin := do
  match ← takeRes e with
  | some _ => pure .done
  | none => waitM

/-- The `n` bytes at an address lie in the window of the core's own local store (06 R101). -/
def ownRange (va : W64) (n : Nat) : M Unit := do
  let off ← ownOffset va
  if 2 ^ 20 < off + n then trapPre .prot 0x1B va else pure ()

/-- The array that a match table word reads in the core's own local store. -/
def matchArray (e : Entry) (unit n : Nat) : M Nat := do
  let w ← e.who
  let l ← accessM w e.opd (unit * n) .read .ls
  loadAt w l (unit * n)

/-- A control context of the owner of a ring. -/
def ringOwner : M (Nat × Ring) := do
  let s ← get
  if s.cur.2 ≠ 0 then trapPre .prot 0x26 0
  else
    match s.myRing with
    | none => trapPost .prot 0x26 0
    | some (r, g) => if g.owner ≠ s.cur.1 then trapPost .prot 0x26 0 else pure (r, g)

/-- RGCFG (11 R223). -/
def finRgcfg : Eff := plain (fun e => do
  let s ← get
  let w := e.opd.toNat
  let core := s.cur.1
  if s.cur.2 ≠ 0 then trapPre .prot 0x26 0
  else if ringBad w then trapPre .prot 0x28 0
  else
    let mem := ringMembers w core
    if !mem.contains core then trapPre .prot 0x26 0
    else
      let r := ringCore w (core / 192) 0
      let same (rg : Ring) (n : Nat) : Bool := ringMembers rg.cfg.toNat n == mem && rg.owner == core
      if mem.any (fun c => (match (s.core c).ring with
          | none => false
          | some n => match Tbl.find s.rings n with
            | none => false
            | some rg => !same rg n)
          || (s.ctx c 0).life != .live || (s.core c).domain != s.cc.domain) then trapPost .prot 0x26 0
      else
        let old := s.myRing
        if (match old with
            | none => false
            | some (_, rg) => rg.running) then trapPost .prot 0x27 0
        else
          let cw ← familyTag (bits w 15 12) (bit w 20)
          let ccw ← familyTag (bits w 19 16) (bit w 21)
          if cw.cls? ≠ ccw.cls? then format cw.code ccw.code (96 + bits w 19 16)
          else
            let s := match old with
              | none => s
              | some (n, _) => s.ringRelease n
            let s := s.setRing r { owner := core, cfg := e.opd, domain := s.cc.domain, cwTag := cw, ccwTag := ccw, counter := 0,
                                   beats := 0, tasks := 0, entered := false, doneSent := false, latch := [], slot := [],
                                   park := [], pend := [], running := false, formed := [] }
            set (mem.foldl (fun s c => s.setCore c { s.core c with ring := some r }) s))

/-- RGCFG (11 R223). -/
def execRgcfg (d : Nat) (g : Nat) (s : State) : Host.Outcome State Fault Refusal :=
  issue (.rgcfg d g) finRgcfg s

/-- RGMT: its array is captured whole at issue (11 R224). -/
def finRgmt : Eff := fun e => do
  if e.ext.drop 3 ≠ [] then
    return ← matchHeld e
  let i := e.opa.toNat
  let n := e.opb.toNat
  let _ ← ownOffset e.opd
  alignTo e.opd 8 0x38
  if 255 < i ∨ n = 0 ∨ 256 < i + n then trapPre .prot 0x28 0
  else
    ownRange e.opd (8 * n)
    let r ← heldRecord e (matchArray e 8 n)
    if e.left ≠ 0 then pure (.hold [0, 0, r])
    else
      let k ← getCur
      let l := (List.range n).map (fun j => (k.1, i + j, BitVec.ofNat 64 (slice r (8 * j) 8)))
      if l.any (fun x => entryBad x.2.2.toNat) then trapPost .prot 0x28 0 else matchWrite e l r

/-- RGMT: its array is captured whole at issue (11 R224). -/
def execRgmt (d : Nat) (a : Nat) (b : Nat) (g : Nat) (la : Nat) (s : State) : Host.Outcome State Fault Refusal :=
  issue (.rgmt d a b g la) finRgmt s

/-- RGMTU: every record is checked before any is sent (11 R225). -/
def finRgmtu : Eff := fun e => do
  if e.ext.drop 3 ≠ [] then
    return ← matchHeld e
  let s ← get
  match s.myRing with
  | none => trapPost .prot 0x26 0
  | some (r, rg) =>
    let n := e.opa.toNat
    ownRange e.opd (16 * n)
    alignTo e.opd 16 0x38
    if n = 0 ∨ 4096 < n then trapPre .prot 0x28 0
    else
      copyRelease e Entry.accesses
      let v ← matchArray e 16 n
      let c := rg.cfg.toNat
      let l := (List.range n).map (fun j => slice v (16 * j) 16)
      if l.any (updateBad (ringLen c)) then trapPost .prot 0x28 0
      else
        matchWrite e (l.map (fun x => (ringCore c (r / 192) (bits x 4 0), bits x 15 8, BitVec.ofNat 64 (x / 2 ^ 64)))) 0

/-- RGMTU: every record is checked before any is sent (11 R225). -/
def execRgmtu (d : Nat) (a : Nat) (g : Nat) (la : Nat) (s : State) : Host.Outcome State Fault Refusal :=
  issue (.rgmtu d a g la) finRgmtu s

/-- RGINJ: it completes once the tile is captured in the injection slot (11 R226). -/
def finRginj : Eff := plain (fun e => do
  let s ← get
  let h := e.opd.toNat
  match s.myRing with
  | none => trapPost .prot 0x26 0
  | some (r, rg) =>
    if bits h 63 30 ≠ 0 ∨ bits h 19 13 ≠ 0 then trapPre .prot 0x28 0
    else
      let own (x : W64) : M Unit := if ownWindow s.cur.1 x then pure () else trapPre .prot 0x1B x
      own e.opa
      if e.opb ≠ 0 then own e.opb else pure ()
      alignTo e.opa 64 0x38
      alignTo e.opb 64 0x38
      let ccw := bit h 12
      let n := rg.tileBytes ccw
      if beyondLs (e.opa.toNat % 2 ^ 20 + n - 1) then trapPost .memfault 0x20 e.opa
      else if e.opb ≠ 0 ∧ beyondLs (e.opb.toNat % 2 ^ 20 + n - 1) then trapPost .memfault 0x20 e.opb
      else
        let p := ringPos rg.cfg.toNat s.cur.1
        let f := b2n ccw
        let live := rg.flying.filter (fun x => x.1 % 4 == 2 * f) ++ (rg.slot ++ rg.park).filter (fun x => x.1 % 2 == f)
        if live.any (fun x => x.2.origin == p || x.2.tag == bits h 11 0) then trapPost .prot 0x27 0
        else
          copyRelease e Entry.accesses
          let w ← e.who
          let l ← accessM w e.opa n .read .eng
          let v ← loadAt w l n
          let t : RTile := ⟨BitVec.ofNat 64 (h + p * 2 ^ 13), v % 2 ^ 32768, v / 2 ^ 32768, e.opb, true⟩
          modify (fun st => st.setRing r { rg with slot := Tbl.put rg.slot (2 * p + f) t }))

/-- RGINJ: it completes once the tile is captured in the injection slot (11 R226). -/
def execRginj (d : Nat) (a : Nat) (b : Nat) (g : Nat) (la : Nat) (s : State) : Host.Outcome State Fault Refusal :=
  issue (.rginj d a b g la) finRginj s

/-- RGSTART, a cluster-scope release: every slotted tile enters at its origin, and the checks of beat 0 are made (11 R227, R231). -/
def finRgstart : Eff := plain (fun e => do
  let (r, rg) ← ringOwner
  if 1 < e.opd.toNat then trapPre .prot 0x28 0
  else if rg.running then trapPost .prot 0x27 0
  else
    copyRelease e Entry.accesses
    modify (fun s =>
      let s := if e.opd = 0 then s
        else (ringMembers rg.cfg.toNat r).foldl (fun s c =>
          let x := s.core c
          s.setCore c { x with matchTab := x.matchTab.filterMap (fun p =>
            let w := p.2 &&& 0xBFFFFFFFFFFFFFFF
            if w = 0 then none else some (p.1, w)) }) s
      let gain := (rg.slot.filter (fun p => p.1 % 2 == 0 && p.2.fresh)).foldl (fun n p => n + p.2.count) 0
      let latch := rg.slot.foldl (fun t p => Tbl.put t (2 * p.1) { p.2 with fresh := false }) []
      let s := s.setRing r { rg with
        counter := rg.counter + gain, beats := 0, tasks := 0, entered := !rg.slot.isEmpty, doneSent := false, latch := latch
        slot := [], running := !rg.slot.isEmpty }
      if rg.slot = [] then
        if rg.counter = 0 then (s.setRing r { rg with beats := 0, tasks := 0, entered := false, doneSent := true, latch := [] }).ringPost rg 0x0A 0 0 0
        else s
      else s.ringChecks r))

/-- RGSTART: every slotted tile enters at its origin, and the checks of beat 0 are made (11 R227). -/
def execRgstart (d : Nat) (g : Nat) (s : State) : Host.Outcome State Fault Refusal :=
  issue (.rgstart d g) finRgstart s

/-- RGWAIT: it ends when the ring is idle or its limit has passed (11 R228). -/
def finRgwait (d : Nat) : Eff := plain (fun e => do
  promiseLimit e.opa
  let s ← get
  match s.myRing with
  | none => wFin e d 0
  | some (_, rg) =>
    match ← takeRes e with
    | some _ => wFin e d (s.ringStatus s.cur.1)
    | none => if rg.running then waitM else wFin e d (s.ringStatus s.cur.1))

/-- RGWAIT: it ends when the ring is idle or its limit has passed (11 R228). -/
def execRgwait (d : Nat) (a : Nat) (g : Nat) (la : Nat) (s : State) : Host.Outcome State Fault Refusal :=
  issue (.rgwait d a g la) (finRgwait d) s

/-- RGSTAT (11 R228). -/
def finRgstat (d : Nat) : Eff := plain (fun e => do
  let s ← get
  wFin e d (s.ringStatus s.cur.1))

/-- RGSTAT (11 R228). -/
def execRgstat (d : Nat) (g : Nat) (s : State) : Host.Outcome State Fault Refusal :=
  issue (.rgstat d g) (finRgstat d) s

/-- RGREINJ (11 R229). -/
def finRgreinj : Eff := plain (fun e => do
  let s ← get
  let h := e.opd.toNat
  if bits h 63 13 ≠ 0 then trapPre .prot 0x28 0
  else
    match s.myRing with
    | none => trapPost .prot 0x26 0
    | some (r, rg) =>
      let k := 2 * ringPos rg.cfg.toNat s.cur.1 + bits h 12 12
      match Tbl.find rg.park k with
      | none => trapPost .prot 0x27 0
      | some t =>
        if t.tag ≠ bits h 11 0 then trapPost .prot 0x27 0
        else
          set (s.setRing r { rg with
            park := Tbl.erase rg.park k
            slot := Tbl.put rg.slot k { t.withLap 0 with fresh := false } }))

/-- RGREINJ (11 R229). -/
def execRgreinj (d : Nat) (g : Nat) (la : Nat) (s : State) : Host.Outcome State Fault Refusal :=
  issue (.rgreinj d g la) finRgreinj s

/-- RGRET (11 R230). -/
def finRgret : Eff := plain (fun _ => do
  let (r, _) ← ringOwner
  modify (fun s => s.ringRelease r))

/-- RGRET (11 R230). -/
def execRgret (g : Nat) (s : State) : Host.Outcome State Fault Refusal :=
  issue (.rgret g) finRgret s

/-! ### Events -/

/-- The head of a matrix queue starts (10 R192). -/
def execMatrixCommandStart (core : Nat) (s : State) : Host.Outcome State Fault Refusal :=
  eventIf (decide (core < 1536)) s (s.mxStart core)

/-- The head of a matrix queue completes (10 R192). -/
def execMatrixCommandComplete (core : Nat) (s : State) : Host.Outcome State Fault Refusal :=
  eventIf (decide (core < 1536)) s (s.mxEnd core)

/-- A beat of a ring ends (11 R219). -/
def execRingBeatEnd (ring : Nat) (s : State) : Host.Outcome State Fault Refusal :=
  eventIf (decide (ring < 1536)) s (s.ringBeat ring)

/-- A ring task completes (11 R220). -/
def execRingTaskComplete (core : Nat) (s : State) : Host.Outcome State Fault Refusal :=
  eventIf (decide (core < 1536)) s (s.ringTaskEnd core)

/-- A ring becomes idle (11 R222). -/
def execRingIdle (ring : Nat) (s : State) : Host.Outcome State Fault Refusal :=
  eventIf (decide (ring < 1536)) s (s.ringRest ring)

/-- An RGWAIT limit passes (11 R228). -/
def execRgwaitTimeout (core ctx : Nat) (s : State) : Host.Outcome State Fault Refusal :=
  eventOn (decide (core < 1536 ∧ ctx < 11)) (s.setCtx core ctx ((s.ctx core ctx).answer (fun e =>
    (match e.instr with
      | .rgwait .. => true
      | _ => false) && e.opa != 0) .none))

end Sys2Proof.Machine
end

