-- ==== Sys2Proof/Machine/Auction.lean ====
section
/-! DEFINITION. The router's auction engines (12 R233-R251). A command runs at once when its engine is free; otherwise it
waits in arrival order. The rounds of an AUBID after its first are events. -/

namespace Sys2Proof.Machine

/-! ### Engines, prices and package mode (12 R233-R235, R242) -/

/-- The engine of a die. -/
def State.au (s : State) (die : Nat) : Auction := Tbl.get Auction.reset s.auction die

/-- Replaces an engine. -/
def State.setAu (s : State) (die : Nat) (x : Auction) : State := { s with auction := Tbl.put s.auction die x }

/-- The engine that a die's commands reach. -/
def State.auEng (s : State) (die : Nat) : Nat := if (s.au 0).pkg then 0 else die

/-- The engine that holds price register `n` of an engine, and its number there. -/
def State.auReg (s : State) (eng n : Nat) : Nat × Nat := if (s.au eng).pkg then (n / 4096, n % 4096) else (eng, n)

/-- A price register. -/
def State.auPrice (s : State) (eng n : Nat) : W32 :=
  let (k, i) := s.auReg eng n
  Tbl.get 0 (s.au k).prices i

/-- Writes a price register. -/
def State.setPrice (s : State) (eng n : Nat) (v : W32) : State :=
  let (k, i) := s.auReg eng n
  s.setAu k { s.au k with prices := Tbl.set 0 (s.au k).prices i v }

/-- Price registers of the engine. -/
def Auction.size (x : Auction) : Nat := if x.pkg then 16384 else 4096

/-- The engine status word (12 R247). -/
def Auction.status (x : Auction) : W64 :=
  let mask (f : Partition → Bool) : Nat := ((indexed 0 x.parts).map (fun p => b2n (f p.2) * 2 ^ p.1)).foldl (· + ·) 0
  BitVec.ofNat 64 (min x.rounds 65535 * 2 ^ 48 + mask (·.fallback) * 2 ^ 32 + mask (·.complete) * 2 ^ 16 + x.state * 2 ^ 14
    + b2n x.pkg * 2 ^ 13 + b2n x.psat * 2 ^ 12 + x.parts.length)

/-- A partition's word (12 R247). -/
def Auction.partWord (x : Auction) (p : Nat) : W64 :=
  match x.parts[p]? with
  | none => 0
  | some p => BitVec.ofNat 64 (p.fbcount * 2 ^ 32 + (if p.complete then p.doneRounds else 0) % 2 ^ 32)

/-! ### Configuration (12 R236-R238, R244) -/

/-- A partition record, before its capacities are read: its affinity and capacity addresses stand in `aff` and the answer's
second part. -/
def partitionOf (r : Nat) : Partition × W64 :=
  ({ tok0 := slice r 0 4, ntok := slice r 4 4, nexp := slice r 8 2, pbase := slice r 10 2, sparse := slice r 12 1 == 1,
     cand := slice r 13 1, aulim := slice r 14 2, eps := slice r 16 4, aff := BitVec.ofNat 64 (slice r 24 8), caps := []
     rows := [], held := [], rounds := 0, complete := false, fallback := false, fbcount := 0, doneRounds := 0 },
   BitVec.ofNat 64 (slice r 32 8))

/-- A record is malformed by itself (12 R236). -/
def partitionBad (pkg : Bool) (r : Nat) : Bool :=
  let p := (partitionOf r).1
  slice r 20 4 != 0 || slice r 40 24 != 0 || decide (p.ntok < 1) || decide (p.nexp < 1 ∨ 1024 < p.nexp)
    || decide (1 < slice r 12 1) || (if p.sparse then decide (p.cand < 1 ∨ 32 < p.cand) else p.cand != 0)
    || decide (p.aulim < 1) || decide (p.eps < 1 ∨ 0x7FFFFFFF < p.eps) || (!p.sparse && decide (64 < p.nexp))
    || decide ((if pkg then 262144 else 65536) < p.tok0 + p.ntok) || decide ((if pkg then 16384 else 4096) < p.pbase + p.nexp)

/-- Two partitions overlap in tokens or in price registers. -/
def Partition.meets (p q : Partition) : Bool :=
  decide (p.tok0 < q.tok0 + q.ntok ∧ q.tok0 < p.tok0 + p.ntok) || decide (p.pbase < q.pbase + q.nexp ∧ q.pbase < p.pbase + p.nexp)

/-- The lowest partition that is malformed or overlaps another. -/
def badPartition (pkg : Bool) (rs : List Nat) : Option Nat :=
  (List.range rs.length).find? (fun i =>
    partitionBad pkg (rs.getD i 0)
      || (List.range rs.length).any (fun j => j != i && (partitionOf (rs.getD i 0)).1.meets (partitionOf (rs.getD j 0)).1))

/-- On whose behalf the engine works for a command (12 R248). -/
def AuCmd.who (c : AuCmd) : Who := ⟨c.domain, c.priv, c.core⟩

/-- A failed command. -/
def auFail (ca : Cause) (code : Nat) (aux : W64) : Res := .fault ca code aux

/-- Reads a range for a command. -/
def State.auRead (s : State) (c : AuCmd) (va : W64) (n : Nat) : Except Res (Nat × State) :=
  match s.engRead c.who va n .bulk with
  | .ok r => .ok r
  | .error ((ca, code), a) => .error (auFail ca code a)

/-- The capacity arrays, in partition order. -/
def State.auCaps (s : State) (c : AuCmd) : List (Partition × W64) → Except Res (List Partition × State)
  | [] => .ok ([], s)
  | (p, a) :: r =>
    match s.auRead c a (4 * p.nexp) with
    | .error e => .error e
    | .ok (v, s) =>
      match s.auCaps c r with
      | .error e => .error e
      | .ok (l, s) => .ok ({ p with caps := (List.range p.nexp).map (lane v) } :: l, s)

/-- The block's header flag and partitions with their capacities, by the checks of 12 R244 up to the third. -/
def State.auBlock (s : State) (c : AuCmd) : Except Res ((Bool × List Partition) × State) :=
  match s.auRead c c.d 64 with
  | .error e => .error e
  | .ok (h, s) =>
    let n := slice h 0 1
    let pkg := bit h 8
    match s.auRead c (c.d + 64) (64 * min n 16) with
    | .error e => .error e
    | .ok (v, s) =>
      if 16 < n ∨ h / 2 ^ 9 ≠ 0 then .error (auFail .prot 0x2A 0)
      else
        let rs := (List.range n).map (fun i => slice v (64 * i) 64)
        match badPartition pkg rs with
        | some i => .error (auFail .prot 0x2A (BitVec.ofNat 64 i))
        | none =>
          let ps := rs.map partitionOf
          let bad := ps.filterMap (fun p =>
            if p.1.aff.toNat % 128 ≠ 0 then some p.1.aff else if p.2.toNat % 4 ≠ 0 then some p.2 else none)
          match bad with
          | a :: _ => .error (auFail .align 0x39 a)
          | [] =>
            match s.auCaps c ps with
            | .error e => .error e
            | .ok (l, s) => .ok ((pkg, l), s)

/-- The lowest partition whose capacities do not sum to its tokens (12 R238). -/
def capFault (l : List Partition) : Option W64 :=
  ((indexed 0 l).filterMap (fun p =>
    let n := p.2.caps.foldl (· + ·) 0
    if n = p.2.ntok then none else some (BitVec.ofNat 64 (p.1 + b2n (decide (p.2.ntok < n)) * 16)))).head?

/-- An engine takes a configuration of domain `dom`; one from another domain than its last starts from prices of 0 (12 R235). -/
def Auction.take (x : Auction) (dom : Nat) : Auction :=
  { x with prices := if x.domain = dom then x.prices else [], domain := dom }

/-- AUCFG in the engine. -/
def State.auConfigure (s : State) (eng : Nat) (c : AuCmd) : State × Res :=
  match s.auBlock c with
  | .error e => (s, e)
  | .ok ((pkg, l), s) =>
    let x := s.au eng
    if pkg && (c.core / 384 != 0 || (!x.pkg && [1, 2, 3].any (fun i => (s.au i).state != 0))) then (s, auFail .prot 0x29 0)
    else
      match capFault l with
      | some a => (s, auFail .aucap 0 a)
      | none =>
        let joined := x.pkg || pkg
        let dies := if joined then [0, 1, 2, 3] else [eng]
        let s := dies.foldl (fun s i => s.setAu i { (s.au i).take c.domain with pkg := false }) s
        let x := s.au eng
        let s := s.setAu eng { x with
          pkg := joined && !l.isEmpty
          state := if l = [] then 0 else 1
          parts := l, psat := false, rounds := 0 }
        let s := if c.a = 0 then s
          else l.foldl (fun s p => (List.range p.nexp).foldl (fun s j => s.setPrice eng (p.pbase + j) 0) s) s
        (s, .none)

/-! ### Auctions (12 R237, R239-R241, R243) -/

/-- The candidates of an affinity row. -/
def Partition.candidates (p : Partition) (v : Nat) : List (Nat × Int) :=
  if p.sparse then
    (List.range p.cand).filterMap (fun i => if slice v (4 * i) 2 = 0xFFFF then none else some (slice v (4 * i) 2, signed 16 (slice v (4 * i + 2) 2)))
  else (List.range p.nexp).map (fun j => (j, signed 16 (slice v (2 * j) 2)))

/-- A row names no expert twice and none outside the partition. -/
def Partition.rowOk (p : Partition) (l : List (Nat × Int)) : Bool :=
  l.all (fun c => decide (c.1 < p.nexp)) && decide ((l.map (·.1)).Nodup)

/-- The affinity rows of a partition. -/
def State.auRows (s : State) (c : AuCmd) (p : Partition) : Except Res (List (List (Nat × Int)) × State) :=
  (List.range p.ntok).foldl (fun r i =>
    match r with
    | .error e => .error e
    | .ok (l, s) =>
      match s.auRead c (p.aff + BitVec.ofNat 64 (128 * i)) (if p.sparse then 4 * p.cand else 2 * p.nexp) with
      | .error e => .error e
      | .ok (v, s) => .ok (l ++ [p.candidates v], s)) (.ok ([], s))

/-- The rows of every partition. -/
def State.auAllRows (s : State) (c : AuCmd) : List Partition → Except Res (List Partition × State)
  | [] => .ok ([], s)
  | p :: r =>
    match s.auRows c p with
    | .error e => .error e
    | .ok (rows, s) =>
      match s.auAllRows c r with
      | .error e => .error e
      | .ok (l, s) =>
        .ok ({ p with rows := rows, held := rows.map (fun _ => none), rounds := 0, complete := false, fallback := false
                      fbcount := 0, doneRounds := 0 } :: l, s)

/-- The lowest partition with a malformed row, and the token of its first. -/
def badRow (l : List Partition) : Option W64 :=
  ((indexed 0 l).filterMap (fun p =>
    ((indexed 0 p.2.rows).find? (fun r => !p.2.rowOk r.2)).map (fun r => BitVec.ofNat 64 (p.1 + r.1 * 2 ^ 8)))).head?

/-- Begins an auction: affinities are captured and every token is unassigned. -/
def State.auBegin (s : State) (eng : Nat) (c : AuCmd) : Except Res State :=
  match s.auAllRows c (s.au eng).parts with
  | .error e => .error e
  | .ok (l, s) =>
    match badRow l with
    | some a => .error (auFail .prot 0x2A a)
    | none => .ok (s.setAu eng { s.au eng with parts := l, rounds := 0, state := 2 })

/-- The expert that a token bids for and its exact bid (12 R239). -/
def bidOf (p : Partition) (price : Nat → Int) (row : List (Nat × Int)) : Option (Nat × Int) :=
  let vals : List (Nat × Int) := (row.filter (fun c => decide (1 ≤ p.caps.getD c.1 0))).map (fun c => (c.1, 256 * c.2 - price c.1))
  match vals with
  | [] => none
  | v :: r =>
    let b := r.foldl (fun (m x : Nat × Int) => if m.2 < x.2 ∨ (x.2 = m.2 ∧ x.1 < m.1) then x else m) v
    let second := match (vals.filter (fun x => x.1 != b.1)).map (·.2) with
      | [] => b.2
      | y :: ys => ys.foldl max y
    some (b.1, price b.1 + (b.2 - second) + p.eps)

/-- One round of a partition: its new state, new prices by expert, and whether a bid has saturated. -/
def Partition.round (p : Partition) (price : Nat → Int) : Partition × List (Nat × Int) × Bool :=
  let now : List (Nat × Option (Nat × Int × Bool) × Bool) := (indexed 0 (p.held.zip p.rows)).map (fun (i, h, row) =>
    match h with
    | some x => (i, some x, false)
    | none =>
      match bidOf p price row with
      | none => (i, none, false)
      | some (j, b) => (i, some (j, min b 0x7FFFFFFF, false), decide (0x7FFFFFFF < b)))
  let pool (j : Nat) : List (Nat × Int) :=
    let l : List (Nat × Int) := now.filterMap (fun x => match x.2.1 with
      | some (k, b, _) => if k = j then some (x.1, b) else none
      | none => none)
    (sortBy (fun x => (0x7FFFFFFF - x.2).toNat) l).take (p.caps.getD j 0)
  let pools : List (Nat × List (Nat × Int)) := (List.range p.nexp).map (fun j => (j, pool j))
  let kept (i j : Nat) : Bool := (((pools.find? (fun x => x.1 == j)).map (·.2)).getD []).any (fun x => x.1 == i)
  let held : List (Option (Nat × Int × Bool)) := now.map (fun x => match x.2.1 with
    | some (j, b, f) => if kept x.1 j then some (j, b, f) else none
    | none => none)
  let prices : List (Nat × Int) := pools.filterMap (fun x => match x.2.getLast? with
    | some (_, b) => if x.2.length = p.caps.getD x.1 0 then some (x.1, b) else none
    | none => none)
  ({ p with held := held, rounds := p.rounds + 1 }, prices, now.any (fun x => x.2.2))

/-- Completion by fallback (12 R240). -/
def Partition.fall (p : Partition) (price : Nat → Int) : Partition :=
  let r := p.held.foldl (fun (r : List (Option (Nat × Int × Bool)) × List Nat × Nat) h =>
    match h with
    | some x => (r.1 ++ [some x], r.2.1, r.2.2)
    | none =>
      match (List.range p.nexp).find? (fun j => decide (0 < r.2.1.getD j 0)) with
      | none => (r.1 ++ [none], r.2.1, r.2.2)
      | some j => (r.1 ++ [some (j, price j, true)], r.2.1.set j (r.2.1.getD j 0 - 1), r.2.2 + 1))
    (([] : List (Option (Nat × Int × Bool))),
     (List.range p.nexp).map (fun j => p.caps.getD j 0 - (p.held.filter (fun h => match h with
       | some x => x.1 == j
       | none => false)).length), 0)
  { p with held := r.1, fallback := true, fbcount := r.2.2 }

/-- One round of the engine on every partition that is not complete. -/
def State.auRoundOf (s : State) (eng : Nat) : State :=
  let x := s.au eng
  let (s, l) := x.parts.foldl (fun (r : State × List Partition) p =>
    if p.complete then (r.1, r.2 ++ [p])
    else
      let price (s : State) (j : Nat) : Int := (s.auPrice eng (p.pbase + j)).toInt
      let (q, prices, sat) := p.round (price r.1)
      let s := prices.foldl (fun s v => s.setPrice eng (p.pbase + v.1) (BitVec.ofInt 32 v.2)) r.1
      let s := if sat then s.setAu eng { s.au eng with psat := true } else s
      let full := q.held.all Option.isSome
      let q := if full ∨ q.rounds < p.aulim then q else q.fall (price s)
      let past := full || decide (p.aulim ≤ q.rounds)
      (s, r.2 ++ [{ q with complete := past, doneRounds := if past then q.rounds else 0 }])) (s, [])
  s.setAu eng { s.au eng with parts := l, rounds := x.rounds + 1, state := if l.all (·.complete) then 3 else 2 }

/-! ### Commands (12 R234, R243-R247, R249) -/

/-- PRLD in the engine. -/
def State.auLoad (s : State) (eng : Nat) (c : AuCmd) : State × Res :=
  if (s.au eng).size < c.a.toNat + c.b.toNat then (s, auFail .prot 0x2A 0)
  else
    match s.auRead c c.d (4 * c.b.toNat) with
    | .error e => (s, e)
    | .ok (v, s) =>
      ((List.range c.b.toNat).foldl (fun s k => s.setPrice eng (c.a.toNat + k) (BitVec.ofNat 32 (lane v k))) s, .none)

/-- Stores words for a command; what was written before a fault stays. -/
def State.auStore (s : State) (c : AuCmd) (n v : Nat) : State × Res :=
  match s.engWrite c.who c.d n v .bulk with
  | (s, none) => (s, .none)
  | (s, some ((ca, code), a)) => (s, auFail ca code a)

/-- PRST in the engine. -/
def State.auPrst (s : State) (eng : Nat) (c : AuCmd) : State × Res :=
  if (s.au eng).size < c.a.toNat + c.b.toNat then (s, auFail .prot 0x2A 0)
  else
    s.auStore c (4 * c.b.toNat) (ofLanes 32 ((List.range c.b.toNat).map (fun k => (s.auPrice eng (c.a.toNat + k)).toNat)))

/-- The record of a token (12 R246). -/
def auRecord : Option (Nat × Int × Bool) → Nat
  | none => 0
  | some (j, b, f) => (BitVec.ofInt 32 b).toNat * 2 ^ 32 + 2 ^ 31 + b2n f * 2 ^ 30 + j

/-- AURES in the engine. -/
def State.auResult (s : State) (eng : Nat) (c : AuCmd) : State × Res :=
  let x := s.au eng
  if x.state ≠ 3 then (s, auFail .prot 0x2B 0)
  else
    match x.parts[c.a.toNat]? with
    | none => (s, auFail .prot 0x2A 0)
    | some p => s.auStore c (8 * p.ntok) (ofLanes 64 (p.held.map auRecord))

/-- AUBID and AUSTEP up to the end of one round; an AUBID that is not done yet has no result. -/
def State.auStep (s : State) (eng : Nat) (c : AuCmd) : State × Option Res :=
  let x := s.au eng
  if x.state = 0 then (s, some (auFail .prot 0x2B 0))
  else
    let s1 := if x.state = 2 then .ok s else s.auBegin eng c
    match s1 with
    | .error e => (s, some e)
    | .ok s =>
      let s := s.auRoundOf eng
      (s, if c.op = 3 ∧ (s.au eng).state ≠ 3 then none else some (.w (s.au eng).status))

/-- An admitted command runs (12 R235 first); none while its rounds go on. -/
def State.auRun (s : State) (eng : Nat) (c : AuCmd) : State × Option Res :=
  let x := s.au eng
  if x.state ≠ 0 ∧ x.domain ≠ c.domain then (s, some (auFail .prot 0x29 0))
  else
    let done (r : State × Res) : State × Option Res := (r.1, some r.2)
    match c.op with
    | 0 => done (s.auConfigure eng c)
    | 1 => done (s.auLoad eng c)
    | 2 => done (s.auPrst eng c)
    | 5 => done (s.auResult eng c)
    | _ => s.auStep eng c

/-- The command has left the queue of `die` with its result. -/
def State.auEnd (s : State) (die : Nat) (c : AuCmd) (r : Res) : State :=
  let x := s.au die
  let s := s.setAu die { x with queue := x.queue.filter (fun y => !(y.core == c.core && y.ctx == c.ctx && y.seq == c.seq)) }
  if (s.ctx c.core c.ctx).life = .dead then s else s.deliver c.core c.ctx c.seq r

/-- Some command of the engine is running. -/
def State.auBusy (s : State) (eng : Nat) : Bool :=
  [0, 1, 2, 3].any (fun d => s.auEng d == eng && (s.au d).queue.any (·.running))

/-- Admits command `c`, the first of the queue of `die`. -/
def State.auStart (s : State) (die : Nat) (c : AuCmd) : State :=
  match s.auRun (s.auEng die) c with
  | (s, some r) => s.auEnd die c r
  | (s, none) => s.setAu die { s.au die with queue := (s.au die).queue.map (fun y => if y = c then { y with running := true } else y) }

/-- The effect of an entry of a context is in progress from now on, and is not issued again (12 R249, 18 R340). -/
def State.setAwait (s : State) (core k seq : Nat) : State :=
  let c := s.ctx core k
  s.setCtx core k { c with flow := { c.flow with
    inflight := c.flow.inflight.map (fun e => if e.seq = seq then { e with await := true } else e) } }

/-- The first command of the queue of a die whose instruction is still in flight is admitted; those before it are gone. -/
def State.auAdmit (s : State) (die : Nat) : Option State :=
  if s.auBusy (s.auEng die) then none
  else
    let x := s.au die
    let live (c : AuCmd) : Bool := (s.ctx c.core c.ctx).flow.inflight.any (fun e => e.seq == c.seq)
    match x.queue.dropWhile (fun c => !live c) with
    | [] => none
    | c :: r => some (((s.setAu die { x with queue := c :: r }).setAwait c.core c.ctx c.seq).auStart die c)

/-- A further round of the AUBID that runs. -/
def State.auRound (s : State) (die : Nat) : Option State :=
  match (s.au die).queue.find? (·.running) with
  | none => none
  | some c =>
    let eng := s.auEng die
    let s := s.auRoundOf eng
    some (if (s.au eng).state = 3 then s.auEnd die c (.w (s.au eng).status) else s)

/-! ### Meanings -/

/-- Applies a result to its instruction. -/
def auDone (e : Entry) (d : Nat) : Res → M Fin
  | .w v => do
    wFin e d v
    pure .done
  | .fault ca code aux => trapPost ca code aux
  | _ => pure .done

/-- An auction command: its checks before issue, its release of what it reads (12 R250), then the engine. What a faulting command has
written stays (12 R248). -/
def auFin (op : Nat) (d : Nat) (pre : Entry → M Unit) : Eff := fun e => do
  pre e
  match ← takeRes e with
  | some r => auDone e d r
  | none =>
    let s ← get
    let mine (y : AuCmd) : Bool := y.core == s.cur.1 && y.ctx == s.cur.2 && y.seq == e.seq
    match (([0, 1, 2, 3].flatMap (fun i => (s.au i).queue)).find? mine) with
    | some c => if c.running && !e.await then pure .await else waitM
    | none =>
      (if op = 2 ∨ op = 5 then pure () else copyRelease e Entry.accesses)
      let die := s.auEng (s.cur.1 / 384)
      let x := s.au die
      let c : AuCmd := ⟨s.cur.1, s.cur.2, e.seq, op, e.opd, e.opa, e.opb, s.cc.domain, e.priv, false⟩
      if x.queue ≠ [] ∨ s.auBusy die then do
        set (s.setAu die { x with queue := x.queue ++ [c] })
        pure .stay
      else
        let (s, r) := s.auRun die c
        match r with
        | none => do
          set (s.setAu die { s.au die with queue := [{ c with running := true }] })
          pure .await
        | some (.fault ca code aux) => do
          set s
          pure (.trap ca code aux)
        | some r => do
          set s
          auDone e d r

/-- AUCFG (12 R244). -/
def finAucfg : Eff := fun e => auFin 0 0 (fun e => do
  alignTo e.opd 64 0x39
  if 1 < e.opa.toNat then trapPre .prot 0x2A 0 else pure ()) e

/-- AUCFG (12 R244). -/
def execAucfg (d : Nat) (a : Nat) (g : Nat) (la : Nat) (s : State) : Host.Outcome State Fault Refusal :=
  issue (.aucfg d a g la) finAucfg s

/-- PRLD (12 R245). -/
def finPrld : Eff := fun e => auFin 1 0 (fun e => do
  alignTo e.opd 4 0x39
  if e.opb = 0 ∨ 16384 < e.opa.toNat + e.opb.toNat then trapPre .prot 0x2A 0 else pure ()) e

/-- PRLD (12 R245). -/
def execPrld (d : Nat) (a : Nat) (b : Nat) (g : Nat) (la : Nat) (s : State) : Host.Outcome State Fault Refusal :=
  issue (.prld d a b g la) finPrld s

/-- PRST (12 R245). -/
def finPrst : Eff := fun e => auFin 2 0 (fun e => do
  alignTo e.opd 4 0x39
  if e.opb = 0 ∨ 16384 < e.opa.toNat + e.opb.toNat then trapPre .prot 0x2A 0 else pure ()) e

/-- PRST (12 R245). -/
def execPrst (d : Nat) (a : Nat) (b : Nat) (g : Nat) (la : Nat) (s : State) : Host.Outcome State Fault Refusal :=
  issue (.prst d a b g la) finPrst s

/-- AUBID (12 R243). -/
def finAubid (d : Nat) : Eff := fun e => auFin 3 d (fun _ => pure ()) e

/-- AUBID (12 R243). -/
def execAubid (d : Nat) (g : Nat) (la : Nat) (s : State) : Host.Outcome State Fault Refusal :=
  issue (.aubid d g la) (finAubid d) s

/-- AUSTEP (12 R243). -/
def finAustep (d : Nat) : Eff := fun e => auFin 4 d (fun _ => pure ()) e

/-- AUSTEP (12 R243). -/
def execAustep (d : Nat) (g : Nat) (la : Nat) (s : State) : Host.Outcome State Fault Refusal :=
  issue (.austep d g la) (finAustep d) s

/-- AURES (12 R246). -/
def finAures : Eff := fun e => auFin 5 0 (fun e => do
  alignTo e.opd 8 0x39
  if 15 < e.opa.toNat then trapPre .prot 0x2A 0 else pure ()) e

/-- AURES (12 R246). -/
def execAures (d : Nat) (a : Nat) (g : Nat) (la : Nat) (s : State) : Host.Outcome State Fault Refusal :=
  issue (.aures d a g la) finAures s

/-- AUSTAT: it does not wait for the engine (12 R247). -/
def finAustat (d : Nat) : Eff := plain (fun e => do
  let w := e.opa.toNat
  if bits w 63 9 ≠ 0 ∨ bits w 7 4 ≠ 0 then trapPre .prot 0x2A 0
  else
    let s ← get
    let x := s.au (s.auEng (s.cur.1 / 384))
    if x.state ≠ 0 ∧ x.domain ≠ s.cc.domain then trapPost .prot 0x29 0
    else wFin e d (if bit w 8 then x.partWord (bits w 3 0) else x.status))

/-- AUSTAT: it does not wait for the engine (12 R247). -/
def execAustat (d : Nat) (a : Nat) (g : Nat) (s : State) : Host.Outcome State Fault Refusal :=
  issue (.austat d a g) (finAustat d) s

/-! ### Events -/

/-- An auction engine admits a command (12 R234). -/
def execAuctionCommandAdmit (die : Nat) (s : State) : Host.Outcome State Fault Refusal :=
  eventIf (decide (die < 4)) s (s.auAdmit die)

/-- A round of an AUBID that runs (12 R239). -/
def execAuctionRound (die : Nat) (s : State) : Host.Outcome State Fault Refusal :=
  eventIf (decide (die < 4)) s (s.auRound die)

end Sys2Proof.Machine
end

