-- ==== Sys2Proof/Machine/System.lean ====
section
/-! DEFINITION. SYS words and HINTs: control registers (07 R133-R135 and the maps of the other chapters), window spills (07
R124, R125), traps made by instructions and the return from one (18 R348, R349), and HINT words (02 R23-R25). -/

namespace Sys2Proof.Machine

/-! ### Receive ring enables (04 R70) -/

/-- The ring of a descriptor, unless it breaks a limit of 04 R69. The alignment of OVFBASE is no limit while OVFLOG is 0, and bytes that
the layout calls zero are not looked at (DESIGN CHOICE, log entry 62). -/
def rxOf? (d owner : Nat) : Option RxRing :=
  let r : RxRing := {
    base := slice d 0 4, slotLog := slice d 4 1, cntLog := slice d 5 1, dom := slice d 6 1, ovfLog := slice d 7 1
    head := BitVec.ofNat 32 (slice d 8 4), tail := BitVec.ofNat 32 (slice d 12 4), ovfBase := BitVec.ofNat 64 (slice d 16 8)
    ovfHead := BitVec.ofNat 32 (slice d 24 4), ovfTail := BitVec.ofNat 32 (slice d 28 4)
    drops := BitVec.ofNat 32 (slice d 32 4), owner := owner }
  if r.slotLog < 6 ∨ 12 < r.slotLog ∨ r.cntLog < 1 ∨ 12 < r.cntLog ∨ 16 < r.ovfLog then none
  else if r.base % 2 ^ r.slotLog ≠ 0 ∨ beyondLs (r.base + 2 ^ (r.slotLog + r.cntLog) - 1) then none
  else if r.ovfLog ≠ 0 ∧ r.ovfBase.toNat % 4096 ≠ 0 then none
  else if 2 ^ r.cntLog < (r.tail - r.head).toNat then none
  else some r

/-- RBEN takes a new value: a ring whose bit becomes set is read from its descriptor, and one whose bit becomes clear accepts
nothing further. A ring whose descriptor lies at or beyond LSCAP stays disabled (DESIGN CHOICE, log entry 61). -/
def State.rbenSet (s : State) (core dom v : Nat) : State :=
  (List.range 8).foldl (fun s n =>
    let x := s.core core
    match Tbl.find x.rx n, bit v n with
    | some _, false => s.setCore core { x with rx := Tbl.erase x.rx n }
    | none, true =>
      let d := x.rxDesc n
      if beyondLs (d + 63) then s
      else
        match rxOf? (s.peek (.ls core d) 64) dom with
        | none => s
        | some r => s.setCore core { x with rx := Tbl.put x.rx n r }
    | _, _ => s) s

/-! ### Control registers (07 R133, R134) -/

/-- A field of the loop level `l`, 0 where it is not live. -/
def Ctx.loopField (c : Ctx) (l : Nat) (f : Loop → W64) : W64 := ((c.flow.loops[l]?).map f).getD 0

/-- QSTATE. -/
def Ctx.qstate (c : Ctx) : Nat :=
  ((List.range 8).map (fun n => 4 ^ n * (match c.qOf n with
    | .val true => 2
    | .val false => 1
    | .empty => 0
    | .pending _ => 0))).foldl (· + ·) 0

/-- The value of control register `n` for a context; none where no map of the manual assigns it. EVCNT [31:16] holds the count of 05 R92
modulo 2^16, so that it reads 0 when an overflow area of 65,536 slots is full (DESIGN CHOICE, log entry 79). -/
def State.ctl (s : State) (core k n : Nat) : Option W64 :=
  let x := s.core core
  let c := s.ctx core k
  let num (v : Nat) : Option W64 := some (BitVec.ofNat 64 v)
  if n = 0x000 then num (k + 16 * b2n (k == 0) + 32 * b2n (s.domPriv x.domain) + x.domain * 2 ^ 8)
  else if n = 0x001 then num core
  else if n = 0x008 then num c.rf.cwp
  else if n = 0x009 then num c.rf.low
  else if n = 0x010 then num c.flags.toNat
  else if n = 0x012 then some c.spec.wid
  else if n = 0x013 then some c.spec.widhdr
  else if n = 0x014 then num (c.level + 4 * b2n (s.privOf core k))
  else if n = 0x015 then num (s.cimg core k)
  else if 0x020 ≤ n ∧ n < 0x024 then some (c.loopField (n - 0x020) (·.start))
  else if 0x024 ≤ n ∧ n < 0x028 then some (c.loopField (n - 0x024) (·.fin))
  else if 0x028 ≤ n ∧ n < 0x02C then some (c.loopField (n - 0x028) (·.count))
  else if 0x02C ≤ n ∧ n < 0x030 then some (c.loopField (n - 0x02C) (·.init))
  else if n = 0x030 then num c.flow.loops.length
  else if 0x034 ≤ n ∧ n < 0x038 then some (c.loopField (n - 0x034) (fun l => BitVec.ofNat 64 l.win))
  else if n = 0x038 then num c.qstate
  else if n = 0x041 then num (((List.range 8).map (fun r => 2 ^ r * b2n (Tbl.find x.rx r).isSome)).foldl (· + ·) 0)
  else if (0x040 ≤ n ∧ n < 0x044) ∨ (0x050 ≤ n ∧ n < 0x060) ∨ n = 0x062 ∨ n = 0x063 ∨ n = 0x072 then some (Tbl.get 0 x.creg n)
  else if n = 0x060 then num (x.evq.length + (x.evtail - x.evhead) % 2 ^ 16 * 2 ^ 16)
  else if n = 0x061 then some x.evovfb
  else if n = 0x070 then num (if Config.sramPresent then 0x100000 else 0x80000)
  else if n = 0x071 then num c.spec.xlfmt.toNat
  else if 0x080 ≤ n ∧ n < 0x0A0 then some (Tbl.get 0 x.spmap (n - 0x080))
  else if 0x0C0 ≤ n ∧ n < 0x0D0 then num (c.fOf (n - 0x0C0)).toNat
  else if 0x0D0 ≤ n ∧ n < 0x0D8 then num (c.sOf (n - 0x0D0)).toNat
  else if n = 0x0D8 then some c.spec.pivthr
  else if n = 0x0D9 then some c.spec.pivreg
  else if n = 0x0DA then num c.spec.pivmask.toNat
  else if n = 0x0DB then num x.mxlevel
  else none

/-- Privileged control registers: the ensign table (04 R70). -/
def ctlPriv (n : Nat) : Bool := decide (0x050 ≤ n ∧ n < 0x060)

/-- Bits of a W1C register. -/
def ctlW1c (n : Nat) : Bool := n == 0x042 || n == 0x062

/-- Writes an RW register; reserved bits ignore the write. A read-only register ignores it. -/
def State.ctlPut (s : State) (core k n : Nat) (v : W64) : State :=
  let x := s.core core
  let c := s.ctx core k
  let spec (f : SpecFile → SpecFile) : State := s.setCtx core k { c with spec := f c.spec }
  if n = 0x010 then s.setCtx core k (c.setFlags (BitVec.ofNat 5 v.toNat))
  else if n = 0x040 then s.setCore core { x with creg := Tbl.set 0 x.creg n (v &&& 0xFFFC0) }
  else if n = 0x041 then s.rbenSet core x.domain (v.toNat % 256)
  else if 0x050 ≤ n ∧ n < 0x060 then s.setCore core { x with creg := Tbl.set 0 x.creg n (v &&& 0xFFFFFFFFFF00009F) }
  else if n = 0x061 then
    let w := v &&& 0xFFFFFFFFFF01F
    s.setCore core { x with evovfb := if 16 < bits w.toNat 4 0 then w &&& 0xFFFFFFFFFF000 else w, evdom := x.domain }
  else if n = 0x071 then spec (fun p => { p with xlfmt := BitVec.ofNat 32 v.toNat })
  else if 0x0C0 ≤ n ∧ n < 0x0D0 then
    spec (fun p => { p with f := Tbl.set 0x70348 p.f (n - 0x0C0) (BitVec.ofNat 32 (v &&& 0xF0FF1FF8).toNat) })
  else if 0x0D0 ≤ n ∧ n < 0x0D8 then spec (fun p => { p with s := Tbl.set 0x3F800000 p.s (n - 0x0D0) (BitVec.ofNat 32 v.toNat) })
  else if n = 0x0D8 then spec (fun p => { p with pivthr := v })
  else if n = 0x0D9 then spec (fun p => { p with pivreg := v })
  else s

/-- Clears the ones of `v` in a W1C register. -/
def State.ctlClear (s : State) (core n : Nat) (v : W64) : State :=
  let x := s.core core
  s.setCore core { x with creg := Tbl.set 0 x.creg n (Tbl.get 0 x.creg n &&& ~~~v) }

/-- The value of the register that a SYS word names: ILLEGAL where it is not assigned, PROT code 0x11 where it is
privileged and the context is not. -/
def ctlM (word n : Nat) : M W64 := fun s =>
  match s.ctl s.cur.1 s.cur.2 n with
  | none => .error (.trap .illegal 0 (BitVec.ofNat 64 word) true)
  | some v => if ctlPriv n && !s.privOf s.cur.1 s.cur.2 then .error (.trap .prot 0x11 (BitVec.ofNat 64 n) true) else .ok (v, s)

/-! ### Issue of SYS words -/

/-- The operands of SYS words: they have no guard and wait for every long-latency instruction (07 R131). -/
def sysShape (reads writes : List Nat) : Shape := { drain := true, sys := true, opd := reads.head?, wr := writes.map RegName.w }

/-- The number of a SYS word. -/
def sysNum (op d n : Nat) : Nat := encSys 60 op d n 0

/-- A SYS word with an effect on its captured operand. -/
def sysIssue (word : Nat) (h : Shape) (eff : Entry → M Unit) (s : State) : Host.Outcome State Fault Refusal :=
  (issueWord s h word (fun s => runEff s h .nop word (plain eff))).outcome s

/-- The state after the word has issued: the context stands at the next address. -/
def State.sysNext (s : State) (h : Shape) : State :=
  let own := s.cx.flow.pc
  let s := s.setCx (s.cx.issue h)
  s.setCx (s.cx.evalEnd own)

/-- A SYS word that ends in a trap, a stop or another level: `f` takes the address of the word, its operand and the state
after its issue. -/
def sysLeave (word : Nat) (h : Shape) (f : W64 → W64 → State → State) (s : State) : Host.Outcome State Fault Refusal :=
  (issueWord s h word (fun s =>
    match rWo h.opd s with
    | .error .wait => .wait
    | .error (.trap c code aux _) => .next (s.trapHere c code aux)
    | .ok (v, s0) => .next (f s.cx.flow.start v (s0.sysNext h)))).outcome s

/-- A word whose control register no map assigns is ILLEGAL once it is reached, before its operand is read (02 R20, R21, 07 R133). -/
def assigned (word n : Nat) (s : State) (run : State → Host.Outcome State Fault Refusal) : Host.Outcome State Fault Refusal :=
  if (s.ctl s.cur.1 s.cur.2 n).isNone then (illegal word s).outcome s else run s

/-- MFC (07 R133). -/
def execMfc (d n : Nat) (s : State) : Host.Outcome State Fault Refusal :=
  assigned (sysNum 0 d n) n s (sysIssue (sysNum 0 d n) (sysShape [] [d]) (fun _ => do
    let v ← ctlM (sysNum 0 d n) n
    wW d v false))



/-- MTC (07 R133). -/
def execMtc (d n : Nat) (s : State) : Host.Outcome State Fault Refusal :=
  assigned (sysNum 1 d n) n s (sysIssue (sysNum 1 d n) (sysShape [d] []) (fun e => do
    let _ ← ctlM (sysNum 1 d n) n
    modify (fun s => if ctlW1c n then s.ctlClear s.cur.1 n e.opd else s.ctlPut s.cur.1 s.cur.2 n e.opd)))



/-- MSC (07 R133). -/
def execMsc (d n : Nat) (s : State) : Host.Outcome State Fault Refusal :=
  assigned (sysNum 2 d n) n s (sysIssue (sysNum 2 d n) (sysShape [d] []) (fun e => do
    let v ← ctlM (sysNum 2 d n) n
    modify (fun s => if ctlW1c n then s else s.ctlPut s.cur.1 s.cur.2 n (v ||| e.opd))))



/-- MCC (07 R133). -/
def execMcc (d n : Nat) (s : State) : Host.Outcome State Fault Refusal :=
  assigned (sysNum 3 d n) n s (sysIssue (sysNum 3 d n) (sysShape [d] []) (fun e => do
    let v ← ctlM (sysNum 3 d n) n
    modify (fun s => if ctlW1c n then s.ctlClear s.cur.1 n e.opd else s.ctlPut s.cur.1 s.cur.2 n (v &&& ~~~e.opd))))



/-! ### Traps made by instructions (18 R349) -/

/-- A trap of the running context at the next address. -/
def State.trapNext (s : State) (c : Cause) (pc aux : W64) (n : Nat) (sysv : Option W64) : State :=
  s.takeTrap s.cur.1 s.cur.2 ⟨c, 0, aux, pc, s.cx.flow.pc, n, none, sysv⟩

/-- TRAP. -/
def execTrap (d n : Nat) (s : State) : Host.Outcome State Fault Refusal :=
  sysLeave (sysNum 4 d n) (sysShape [d] []) (fun pc v s => s.trapNext .trap pc v n none) s

/-- SYSC: its entry is SYSV of the domain, with privilege, where that is not 0. -/
def execSysc (d n : Nat) (s : State) : Host.Outcome State Fault Refusal :=
  sysLeave (sysNum 6 d n) (sysShape [d] []) (fun pc v s =>
    let e := s.dreg! (0x260008 + 16 * s.cc.domain)
    s.trapNext .sysc pc v n (if e = 0 then none else some e)) s

/-- DBGBRK has bit `b` set for the domain of the running core (18 R356). -/
def State.dbgBrk (s : State) (b : Nat) : Bool :=
  bit (s.dregN 0x280010) b && bits (s.dregN 0x280010) 15 8 == s.cc.domain

/-- The running context stops, and a debug halt of its domain begins. -/
def State.stopHere (s : State) (code : Nat) (aux : W64) : State :=
  (s.stopCtx s.cur.1 s.cur.2 .debug code aux).haltDomain s.cc.domain 0 s.cur

/-- A debug halt of another domain is under way: the word waits for its end. -/
def State.otherHalt (s : State) : Bool :=
  match s.admin.halting with
  | none => false
  | some d => d != s.cc.domain

/-- BRK. -/
def execBrk (n : Nat) (s : State) : Host.Outcome State Fault Refusal :=
  if s.dbgBrk 0 && s.otherHalt then .next s
  else
    sysLeave (sysNum 7 0 n) (sysShape [] []) (fun pc _ s =>
      if s.dbgBrk 0 then s.stopHere 2 0 else s.trapNext .brk pc 0 n none) s

/-- HALT: with no debugger attached the context dies, with the address after the HALT in its frame (18 R342, R349). -/
def execHalt (d : Nat) (s : State) : Host.Outcome State Fault Refusal :=
  if s.dbgBrk 1 && s.otherHalt then .next s
  else
    sysLeave (sysNum 8 d 0) (sysShape [d] []) (fun _ v s =>
      if s.dbgBrk 1 then s.stopHere 3 v
      else s.kill s.cur.1 s.cur.2 (s.cx.frameHdr s.cx.flow.pc s.cx.flow.pc .debug 3 v 0 0) []) s

/-! ### Returning (18 R348) -/

/-- The state that TRET takes up, or the trap that it raises in the handler. -/
def State.tret (s : State) : State :=
  let c := s.cx
  match c.level with
  | 0 => s.trapHere .prot 0x3E 0
  | l + 1 =>
    match (s.landStores s.cur.1 s.cur.2).restoreLevel s.cur.1 s.cur.2 l with
    | .ok s => s.recapture s.cur.1 s.cur.2
    | .error .refused => s.trapHere .prot 0x3F 0
    | .error (.fault (ca, code) a) =>
      s.kill s.cur.1 s.cur.2 (c.frameHdr c.flow.pc c.flow.pc ca code a 0 0) []

/-- TRET. -/
def execTret (s : State) : Host.Outcome State Fault Refusal :=
  (issueWord s (sysShape [] []) (sysNum 5 0 0) (fun s => .next s.tret)).outcome s

/-! ### Window spills (07 R124, R125) -/

/-- A fault on the handler's access to its image: the word has no effect, and raises it in the handler. -/
def imageM {α : Type} (r : Except (Flt × W64) α) : M α :=
  match r with
  | .ok x => pure x
  | .error ((c, code), a) => trapPre c code a

/-- The address of WIN in frame 0, with CWP and LOW of the trapped context. -/
def trappedWin : M (Nat × Nat × Nat) := do
  let s ← get
  let a := s.cimg s.cur.1 s.cur.2 + frameOff 0 + 0x20
  let w ← imageM (s.vread (s.hwWho s.cur.1) a 8)
  pure (a, w % 2 ^ 32, w / 2 ^ 32)

/-- LOW of the trapped context becomes `low`. -/
def setLow (a cwp low : Nat) : M Unit := do
  let s ← get
  let s ← imageM (s.vwrite (s.hwWho s.cur.1) a 8 (cwp + low * 2 ^ 32))
  set s
  modCx (fun c => { c with rf := { c.rf with low := low } })

/-- The image slot of a frame of the running context. -/
def slotM (d : Nat) : M Nat := do
  let s ← get
  imageM (s.frameSlot s.cur.1 s.cur.2 d)

/-- The spill map entry that a predicate finds. -/
def Core.spFind (x : Core) (p : Nat → Bool) : Option Nat :=
  (List.range 32).find? (fun n => let e := (Tbl.get 0 x.spmap n).toNat; bit e 63 && p e)

/-- The register is one of frame `d`. -/
def inFrame (d : Nat) : RegId → Bool
  | .frame n _ => n == d
  | .common _ | .base _ | .hand _ | .v _ | .vq | .m _ | .x _ | .s _ | .f _ => false

/-- SPILLW: while the context is in its handler, its frames stand in their image slots; a half-row takes a copy. The registers of the
frame are stale no more (07 R124). -/
def execSpillw (d : Nat) (s : State) : Host.Outcome State Fault Refusal :=
  sysIssue (sysNum 9 d 0) (sysShape [d] [d]) (fun e => do
    let c ← getCx
    if c.level = 0 then trapPre .prot 0x11 0
    else
      let (a, cwp, low) ← trappedWin
      let w := e.opd.toNat
      let row := bits w 10 2
      let half := bits w 1 1
      if cwp ≤ low + 1 then trapPre .prot 0x1F (BitVec.ofNat 64 cwp)
      else if bits w 62 11 ≠ 0 ∨ bit w 0 then trapPre .prot 0x15 e.opd
      else
        let x ← getCc
        let free := (List.range 32).find? (fun n => !bit (Tbl.get 0 x.spmap n).toNat 63)
        let taken := (x.spFind (fun y => bits y 10 2 == row && bits y 1 1 == half)).isSome
        if bit w 63 && (taken || free.isNone) then trapPre .prot 0x15 e.opd
        else
          let slot ← slotM low
          let s ← get
          let v ← imageM (s.vread (s.hwWho s.cur.1) slot 128)
          setLow a cwp (low + 1)
          modCx (fun c => { c with saved := c.saved.map (fun p =>
            if p.level = 0 then { p with stale := p.stale.filter (fun r => !inFrame low r.1) } else p) })
          if bit w 63 && !Tbl.get false x.marks (2 * row + half) then
            let place := BitVec.ofNat 64 (2 ^ 63 + s.cur.2 * 2 ^ 59 + low % 2 ^ 32 * 2 ^ 24 + row * 4 + half * 2)
            modCc (fun x => { x.parkFrame row half v with spmap := Tbl.set 0 x.spmap (free.getD 0) place })
            wW d place false
          else wW d 0 false) s

/-- FILLW: the frame is in its image slot again, and the half-row as it stood before (06 R108). -/
def execFillw (s : State) : Host.Outcome State Fault Refusal :=
  sysIssue (sysNum 10 0 0) (sysShape [] []) (fun _ => do
    let c ← getCx
    if c.level = 0 then trapPre .prot 0x11 0
    else
      let (a, cwp, low) ← trappedWin
      if low = 0 ∨ cwp - low = 5 then trapPre .prot 0x1F (BitVec.ofNat 64 cwp)
      else
        let s ← get
        let x ← getCc
        match x.spFind (fun y => bits y 62 59 == s.cur.2 && bits y 55 24 == low - 1) with
        | none =>
          let slot ← slotM (low - 1)
          let _ ← imageM (s.vread (s.hwWho s.cur.1) slot 128)
          setLow a cwp (low - 1)
        | some n =>
          let y := (Tbl.get 0 x.spmap n).toNat
          let slot ← slotM (low - 1)
          let s1 ← imageM (s.vwrite (s.hwWho s.cur.1) slot 128 (x.parkedFrame (bits y 10 2) (bits y 1 1)))
          set s1
          modCc (fun x => { x.parkFrame (bits y 10 2) (bits y 1 1) 0 with spmap := Tbl.set 0 x.spmap n 0 })
          setLow a cwp (low - 1)) s

/-! ### HINTs (02 R23, R25) -/

/-- ILLEGAL at a HINT itself. -/
def State.hintIllegal (s : State) (word : Nat) : Issued :=
  if s.cx.flow.closed then .wait
  else
    let pc := s.cx.flow.pc
    .next (s.takeTrap s.cur.1 s.cur.2 ⟨.illegal, 0, BitVec.ofNat 64 word, pc, pc, 0, none, none⟩).stamp

/-- A HINT joins the chain that stands before its consumer; its followers receive it (14 R290). -/
def hintIssue (h : Hint) (word : Nat) (s : State) : Host.Outcome State Fault Refusal :=
  match s.following with
  | none => .next s
  | some s0 =>
    if s.heldByFollower then .next s
    else
      let f := s0.cx.flow
      if 3 ≤ f.chain.length ∨ s0.cx.atEnd f.pc then (s0.hintIllegal word).outcome s
      else
        let s1 := s0.setCx { s0.cx with flow := { f with
          chain := f.chain ++ [h], chainPc := if f.chain = [] then f.pc else f.chainPc, pc := f.pc + 4 } }
        .next (if s0.cx.level = 0 then s1.stream f.pc word false else s1)

/-- HINT.IMM. -/
def execHintImm (payload : Nat) (s : State) : Host.Outcome State Fault Refusal :=
  hintIssue (.imm payload) (encH 61 0 payload) s

/-- HINT.HOME. -/
def execHintHome (payload : Nat) (s : State) : Host.Outcome State Fault Refusal :=
  hintIssue (.home payload) (encH 61 1 payload) s

/-- HINT.MOD. -/
def execHintMod (payload : Nat) (s : State) : Host.Outcome State Fault Refusal :=
  hintIssue (.mod payload) (encH 61 2 payload) s

/-- A word that is no instruction, reached in execution (02 R20, R21). -/
def execIllegalWord (w : Nat) (s : State) : Host.Outcome State Fault Refusal :=
  ((if bits w 31 26 = 61 then s.hintIllegal w else illegal w s).outcome s)

/-- The meaning of a SYS word or HINT. -/
def SysWord.exec (w : SysWord) (s : State) : Host.Outcome State Fault Refusal :=
  match w with
  | .mfc d n => execMfc d n s
  | .mtc d n => execMtc d n s
  | .msc d n => execMsc d n s
  | .mcc d n => execMcc d n s
  | .trap d n => execTrap d n s
  | .tret => execTret s
  | .sysc d n => execSysc d n s
  | .brk n => execBrk n s
  | .halt d => execHalt d s
  | .spillw d => execSpillw d s
  | .fillw => execFillw s
  | .hintImm p => execHintImm p s
  | .hintHome p => execHintHome p s
  | .hintMod p => execHintMod p s

end Sys2Proof.Machine
end

