-- ==== Sys2Proof/Machine/Finish.lean ====
section
/-! DEFINITION. The effect that an issued instruction makes when it completes (07 R129). The instructions that never wait in a
window or a queue, and the rows that are events, have none. -/

namespace Sys2Proof.Machine

/-- What an entry of a context does when it completes (07 R129, 18 R340, R348). -/
def Instr.fin (i : Instr) : Eff :=
  match i with
  | .add d _ _ t _ => finAdd d t
  | .sub d _ _ t _ => finSub d t
  | .and d _ _ t _ => finAnd d t
  | .or d _ _ t _ => finOr d t
  | .xor d _ _ t _ => finXor d t
  | .andn d _ _ t _ => finAndn d t
  | .sll d _ _ t _ => finSll d t
  | .srl d _ _ t _ => finSrl d t
  | .sra d _ _ t _ => finSra d t
  | .ror d _ _ t _ => finRor d t
  | .slt d _ _ t _ => finSlt d t
  | .sltu d _ _ t _ => finSltu d t
  | .min d _ _ t _ => finMin d t
  | .max d _ _ t _ => finMax d t
  | .minu d _ _ t _ => finMinu d t
  | .maxu d _ _ t _ => finMaxu d t
  | .mul d _ _ t _ => finMul d t
  | .mulh d _ _ t _ => finMulh d t
  | .mulhu d _ _ t _ => finMulhu d t
  | .clz d _ t _ => finClz d t
  | .ctz d _ t _ => finCtz d t
  | .popc d _ t _ => finPopc d t
  | .sextb d _ t _ => finSextb d t
  | .sexth d _ t _ => finSexth d t
  | .sextw d _ t _ => finSextw d t
  | .zextw d _ t _ => finZextw d t
  | .shadd1 d _ _ t _ => finShadd1 d t
  | .shadd2 d _ _ t _ => finShadd2 d t
  | .shadd3 d _ _ t _ => finShadd3 d t
  | .div d _ _ _ => finDiv d
  | .divu d _ _ _ => finDivu d
  | .rem d _ _ _ => finRem d
  | .remu d _ _ _ => finRemu d
  | .addi d _ imm _ => finAddi d imm
  | .andi d _ imm _ => finAndi d imm
  | .ori d _ imm _ => finOri d imm
  | .xori d _ imm _ => finXori d imm
  | .slti d _ imm _ => finSlti d imm
  | .sltiu d _ imm _ => finSltiu d imm
  | .slli d _ sh _ => finSlli d sh
  | .srli d _ sh _ => finSrli d sh
  | .srai d _ sh _ => finSrai d sh
  | .rori d _ sh _ => finRori d sh
  | .movi d imm _ => finMovi d imm
  | .qsetEq d _ _ _ => finQsetEq d
  | .qsetNe d _ _ _ => finQsetNe d
  | .qsetLt d _ _ _ => finQsetLt d
  | .qsetGe d _ _ _ => finQsetGe d
  | .qsetLtu d _ _ _ => finQsetLtu d
  | .qsetGeu d _ _ _ => finQsetGeu d
  | .qand d a b _ => finQand d a b
  | .qor d a b _ => finQor d a b
  | .qxor d a b _ => finQxor d a b
  | .qandn d a b _ => finQandn d a b
  | .qnot d a _ => finQnot d a
  | .qtrue d _ => finQtrue d
  | .qfalse d _ => finQfalse d
  | .qunres d _ => finQunres d
  | .ld d _ off sz _ _ => finLd d off sz
  | .ldn d _ off sz _ _ => finLdn d off sz
  | .st _ _ off sz _ _ => finSt off sz
  | .ldv d _ m cls _ => finLdv d m cls
  | .stv _ _ _ _ => finStv
  | .ldx d _ _ => finLdx d
  | .ldxSc d _ _ => finLdxSc d
  | .stx d _ _ => finStx d
  | .stxSc d _ _ => finStxSc d
  | .gather d _ vi m cls _ => finGather d vi m cls
  | .scatter _ _ vi _ _ => finScatter vi
  | .lds d _ ord scope _ => finLds d ord scope
  | .ldsE d _ ord scope _ => finLdsE d ord scope
  | .stf _ _ ord scope _ => finStf ord scope
  | .sete _ ord scope _ => finSete ord scope
  | .amoSwap d _ sz ord scope _ => finAmoSwap d sz ord scope
  | .amoAdd d _ sz ord scope _ => finAmoAdd d sz ord scope
  | .amoAnd d _ sz ord scope _ => finAmoAnd d sz ord scope
  | .amoOr d _ sz ord scope _ => finAmoOr d sz ord scope
  | .amoXor d _ sz ord scope _ => finAmoXor d sz ord scope
  | .amoMin d _ sz ord scope _ => finAmoMin d sz ord scope
  | .amoMax d _ sz ord scope _ => finAmoMax d sz ord scope
  | .amoMinu d _ sz ord scope _ => finAmoMinu d sz ord scope
  | .amoMaxu d _ sz ord scope _ => finAmoMaxu d sz ord scope
  | .amoFadd d _ sz ord scope _ => finAmoFadd d sz ord scope
  | .amoFaddX _ _ ord scope _ => finAmoFaddX ord scope
  | .amoFmin d _ sz ord scope _ => finAmoFmin d sz ord scope
  | .amoFmax d _ sz ord scope _ => finAmoFmax d sz ord scope
  | .ldo d _ sz _ _ _ => finLdo d sz
  | .sto _ _ sz rel scope _ => finSto sz rel scope
  | .cas d _ sz ord scope _ => finCas d sz ord scope
  | .fence ord scope => finFence ord scope
  | .prefTlb _ off _ => finPrefTlb off
  | .prefMsc _ off _ => finPrefMsc off
  | .send _ _ _ _ _ => finSend
  | .sends _ _ _ _ _ => finSends
  | .hoist _ => finHoist
  | .strike _ => finStrike
  | .mcmd _ _ _ _ _ => finMcmd
  | .rbwait d _ _ _ _ => finRbwait d
  | .rbadv _ _ => finRbadv
  | .stbind _ _ _ _ => finStbind
  | .stunbind _ => finStunbind
  | .cp _ _ _ _ _ => finCp
  | .cp2d _ _ _ _ _ => finCp2d
  | .cpidx _ _ _ _ _ => finCpidx
  | .cpwait _ _ _ => finCpwait
  | .cpredO _ _ _ _ _ => finCpredO
  | .cpredU _ _ _ _ _ => finCpredU
  | .evpop d a _ => finEvpop d a
  | .evwait d a _ _ _ => finEvwait d a
  | .evpost _ _ _ _ => finEvpost
  | .qpost d _ _ _ _ => finQpost d
  | .qarm _ _ _ => finQarm
  | .ctradd d _ _ _ _ => finCtradd d
  | .ctrwait d _ _ _ _ => finCtrwait d
  | .ctrset _ _ _ => finCtrset
  | .vadd d a b m t => finVadd d a b m t
  | .vsub d a b m t => finVsub d a b m t
  | .vmul d a b m t => finVmul d a b m t
  | .vmin d a b m t => finVmin d a b m t
  | .vmax d a b m t => finVmax d a b m t
  | .vabs d a m t => finVabs d a m t
  | .vneg d a m t => finVneg d a m t
  | .viadd d a b m t => finViadd d a b m t
  | .visub d a b m t => finVisub d a b m t
  | .vimul d a b m t => finVimul d a b m t
  | .vimin d a b m t => finVimin d a b m t
  | .vimax d a b m t => finVimax d a b m t
  | .viminu d a b m t => finViminu d a b m t
  | .vimaxu d a b m t => finVimaxu d a b m t
  | .viadds d a b m t => finViadds d a b m t
  | .visubs d a b m t => finVisubs d a b m t
  | .vand d a _ m t => finVand d a m t
  | .vor d a _ m t => finVor d a m t
  | .vxor d a _ m t => finVxor d a m t
  | .vsll d a _ m t => finVsll d a m t
  | .vsrl d a _ m t => finVsrl d a m t
  | .vsra d a _ m t => finVsra d a m t
  | .vfcmpEq d a b _ t => finVfcmpEq d a b t
  | .vfcmpLt d a b _ t => finVfcmpLt d a b t
  | .vfcmpLe d a b _ t => finVfcmpLe d a b t
  | .vfcmpUn d a b _ t => finVfcmpUn d a b t
  | .vicmpEq d a b _ t => finVicmpEq d a b t
  | .vicmpLt d a b _ t => finVicmpLt d a b t
  | .vicmpLtu d a b _ t => finVicmpLtu d a b t
  | .vmov d a m t => finVmov d a m t
  | .vsplat d _ _ t => finVsplat d t
  | .vext d a _ _ t => finVext d a t
  | .vins d _ _ _ t => finVins d t
  | .vsel d a b _ t => finVsel d a b t
  | .vperm d a b m t => finVperm d a b m t
  | .vdiv d a b m p _ => finVdiv d a b m p
  | .vsqrt d a m p _ => finVsqrt d a m p
  | .vrcp d a m p _ => finVrcp d a m p
  | .vexp2 d a m _ => finVexp2 d a m
  | .vlog2 d a m _ => finVlog2 d a m
  | .vraddO d a _ t => finVraddO d a t
  | .vraddU d a _ t => finVraddU d a t
  | .vrmin d a _ t => finVrmin d a t
  | .vrmax d a _ t => finVrmax d a t
  | .vscanO d a _ m t => finVscanO d a m t
  | .vscanU d a _ m t => finVscanU d a m t
  | .viradd d a _ t => finViradd d a t
  | .vcvtRne d a b m t => finVcvtRne d a b m t
  | .vcvtRtz d a b m t => finVcvtRtz d a b m t
  | .vcvtRdn d a b m t => finVcvtRdn d a b m t
  | .vcvtRup d a b m t => finVcvtRup d a b m t
  | .vcvtSr d a _ f t => finVcvtSr d a f t
  | .vpackb d a b _ t => finVpackb d a b t
  | .vunpackb d a b m t => finVunpackb d a b m t
  | .vftoi d a m t => finVftoi d a m t
  | .vitof d a m t => finVitof d a m t
  | .vfma d a b m t => finVfma d a b m t
  | .vfms d a b m t => finVfms d a b m t
  | .vfnma d a b m t => finVfnma d a b m t
  | .vfnms d a b m t => finVfnms d a b m t
  | .mand d _ _ t => finMand d t
  | .mor d _ _ t => finMor d t
  | .mxor d _ _ t => finMxor d t
  | .mandn d _ _ t => finMandn d t
  | .mnot d _ t => finMnot d t
  | .mpopc d _ t => finMpopc d t
  | .mma a b row col s _ _ => finMma a b row col s
  | .mmac _ b row col s _ _ => finMmac b row col s
  | .accz _ _ _ => finAccz
  | .accld _ _ _ _ _ => finAccld
  | .accst _ _ _ _ _ => finAccst
  | .acccvt d _ b _ _ => finAcccvt d b
  | .accmov _ _ _ _ => finAccmov
  | .xmov d a _ _ => finXmov d a
  | .xtr d a _ _ => finXtr d a
  | .xzero d _ _ => finXzero d
  | .xcvt d a b _ _ => finXcvt d a b
  | .tfact d a _ _ _ => finTfact d a
  | .tsolve d a b _ _ => finTsolve d a b
  | .burst _ _ => finBurst
  | .mwait _ => finMwait
  | .rgcfg _ _ => finRgcfg
  | .rgmt _ _ _ _ _ => finRgmt
  | .rgmtu _ _ _ _ => finRgmtu
  | .rginj _ _ _ _ _ => finRginj
  | .rgstart _ _ => finRgstart
  | .rgwait d _ _ _ => finRgwait d
  | .rgstat d _ => finRgstat d
  | .rgreinj _ _ _ => finRgreinj
  | .rgret _ => finRgret
  | .aucfg _ _ _ _ => finAucfg
  | .prld _ _ _ _ _ => finPrld
  | .prst _ _ _ _ _ => finPrst
  | .aubid d _ _ => finAubid d
  | .austep d _ _ => finAustep d
  | .aures _ _ _ _ => finAures
  | .austat d _ _ => finAustat d
  | .vpjCfg _ _ => finVpjCfg
  | .vpj _ _ _ _ _ => finVpj
  | .vpjMrg _ _ _ _ _ => finVpjMrg
  | .vpjRd _ _ _ _ _ => finVpjRd
  | .vpjRegen _ _ _ _ _ => finVpjRegen
  | .vpjInit _ _ _ => finVpjInit
  | .start d _ _ _ => finStart d
  | .exit _ => finExit
  | .yield _ _ => finYield
  | .follow d _ _ => finFollow d
  | .unfollow _ => finUnfollow
  | .wid d _ _ => finWid d
  | .pnpush _ _ => finPnpush
  | .join d _ _ => finJoin d
  | .vote d _ _ _ => finVote d
  | .haly d _ _ _ => finHaly d
  | .hsum d _ _ _ => finHsum d
  | .nop => finNop
  | .beq .. | .bne .. | .blt .. | .bge .. | .bltu .. | .bgeu ..
  | .bqt .. | .bqf .. | .j .. | .call .. | .jr .. | .callr ..
  | .ret .. | .lpset .. | .lppop | .mfc .. | .mtc .. | .msc ..
  | .mcc .. | .trap .. | .tret | .sysc .. | .brk .. | .halt ..
  | .spillw .. | .fillw | .hintImm .. | .hintHome .. | .hintMod .. | .illegalWord ..
  | .instructionComplete .. | .followEngage .. | .pageWalkComplete .. | .postedStoreAck .. | .postedStoreFail .. | .uncorrectableError ..
  | .correctedError .. | .unitRetire .. | .parkedRequestServe .. | .ldsParkRetry .. | .messageArrival .. | .messageFail ..
  | .remoteCommandArrival .. | .eventRecordArrival .. | .hardwarePost .. | .bulkQueueAdmit .. | .copyCommandStart .. | .copyCommandComplete ..
  | .copyCommandFault .. | .matrixQueueAdmit .. | .matrixCommandStart .. | .matrixCommandComplete .. | .arrayLevelRise .. | .arrayLevelFall ..
  | .burstHoldExpire .. | .ringBeatEnd .. | .ringTaskComplete .. | .ringIdle .. | .auctionCommandAdmit .. | .auctionRound ..
  | .vpjTileBoundary .. | .collectiveChunkAdmit .. | .chunkArrival .. | .stepResultWrite .. | .stepAbandon .. | .entryComplete ..
  | .quantumBoundary | .preemptResume .. | .qtailWrite .. | .launchPacketRead .. | .dealIdentifier .. | .launchComplete ..
  | .controlContextRestart .. | .startHelperAssign .. | .pennantPop .. | .pennantAgePromote .. | .halyardEpisodeComplete .. | .halyLimitExpire ..
  | .rbwaitTimeout .. | .evwaitTimeout .. | .rgwaitTimeout .. | .yieldExpire .. | .partnerSwitch .. | .faultRecordAppend ..
  | .fqheadWrite .. | .xlinvPage .. | .xlinvDomain .. | .xlinvAllDomains | .xlinvReserved | .xlinvComplete
  | .keyInstall | .keyErase | .keyCommandComplete | .rngFill .. | .rngFillComplete .. | .devnumWrite ..
  | .linkTraining .. | .pnqbaseWrite .. | .rbenWrite .. | .domctlWrite .. | .domainDisable .. | .cctlWrite ..
  | .dbgHalt .. | .dbgResume .. | .dbgStep .. | .dbgSuperstep .. | .debugHaltComplete | .coldReset
  | .warmReset | .functionLevelReset .. | .linkWidthRequest .. | .linkRetrainComplete | .dieClockRequest .. | .dieClockChange ..
  | .powerCapWindow | .attestationReport .. | .hostWrite .. | .hostRead .. | .registerWrite .. | .powerDown
  | .fabricLinkLoss .. | .qctlWrite .. | .fqctlWrite .. | .ideKmKeyProgram .. | .spdmSession .. => fun _ => waitM

/-- The row is something that happens to the package, and no instruction word. -/
def Instr.isEvent (i : Instr) : Bool :=
  match i with
  | .add .. | .sub .. | .and .. | .or .. | .xor .. | .andn ..
  | .sll .. | .srl .. | .sra .. | .ror .. | .slt .. | .sltu ..
  | .min .. | .max .. | .minu .. | .maxu .. | .mul .. | .mulh ..
  | .mulhu .. | .clz .. | .ctz .. | .popc .. | .sextb .. | .sexth ..
  | .sextw .. | .zextw .. | .shadd1 .. | .shadd2 .. | .shadd3 .. | .div ..
  | .divu .. | .rem .. | .remu .. | .addi .. | .andi .. | .ori ..
  | .xori .. | .slti .. | .sltiu .. | .slli .. | .srli .. | .srai ..
  | .rori .. | .movi .. | .qsetEq .. | .qsetNe .. | .qsetLt .. | .qsetGe ..
  | .qsetLtu .. | .qsetGeu .. | .qand .. | .qor .. | .qxor .. | .qandn ..
  | .qnot .. | .qtrue .. | .qfalse .. | .qunres .. | .beq .. | .bne ..
  | .blt .. | .bge .. | .bltu .. | .bgeu .. | .bqt .. | .bqf ..
  | .j .. | .call .. | .jr .. | .callr .. | .ret .. | .ld ..
  | .ldn .. | .st .. | .ldv .. | .stv .. | .ldx .. | .ldxSc ..
  | .stx .. | .stxSc .. | .gather .. | .scatter .. | .lds .. | .ldsE ..
  | .stf .. | .sete .. | .amoSwap .. | .amoAdd .. | .amoAnd .. | .amoOr ..
  | .amoXor .. | .amoMin .. | .amoMax .. | .amoMinu .. | .amoMaxu .. | .amoFadd ..
  | .amoFaddX .. | .amoFmin .. | .amoFmax .. | .ldo .. | .sto .. | .cas ..
  | .fence .. | .prefTlb .. | .prefMsc .. | .send .. | .sends .. | .hoist ..
  | .strike .. | .mcmd .. | .rbwait .. | .rbadv .. | .stbind .. | .stunbind ..
  | .cp .. | .cp2d .. | .cpidx .. | .cpwait .. | .cpredO .. | .cpredU ..
  | .evpop .. | .evwait .. | .evpost .. | .qpost .. | .qarm .. | .ctradd ..
  | .ctrwait .. | .ctrset .. | .vadd .. | .vsub .. | .vmul .. | .vmin ..
  | .vmax .. | .vabs .. | .vneg .. | .viadd .. | .visub .. | .vimul ..
  | .vimin .. | .vimax .. | .viminu .. | .vimaxu .. | .viadds .. | .visubs ..
  | .vand .. | .vor .. | .vxor .. | .vsll .. | .vsrl .. | .vsra ..
  | .vfcmpEq .. | .vfcmpLt .. | .vfcmpLe .. | .vfcmpUn .. | .vicmpEq .. | .vicmpLt ..
  | .vicmpLtu .. | .vmov .. | .vsplat .. | .vext .. | .vins .. | .vsel ..
  | .vperm .. | .vdiv .. | .vsqrt .. | .vrcp .. | .vexp2 .. | .vlog2 ..
  | .vraddO .. | .vraddU .. | .vrmin .. | .vrmax .. | .vscanO .. | .vscanU ..
  | .viradd .. | .vcvtRne .. | .vcvtRtz .. | .vcvtRdn .. | .vcvtRup .. | .vcvtSr ..
  | .vpackb .. | .vunpackb .. | .vftoi .. | .vitof .. | .vfma .. | .vfms ..
  | .vfnma .. | .vfnms .. | .mand .. | .mor .. | .mxor .. | .mandn ..
  | .mnot .. | .mpopc .. | .mma .. | .mmac .. | .accz .. | .accld ..
  | .accst .. | .acccvt .. | .accmov .. | .xmov .. | .xtr .. | .xzero ..
  | .xcvt .. | .tfact .. | .tsolve .. | .burst .. | .mwait .. | .rgcfg ..
  | .rgmt .. | .rgmtu .. | .rginj .. | .rgstart .. | .rgwait .. | .rgstat ..
  | .rgreinj .. | .rgret .. | .aucfg .. | .prld .. | .prst .. | .aubid ..
  | .austep .. | .aures .. | .austat .. | .vpjCfg .. | .vpj .. | .vpjMrg ..
  | .vpjRd .. | .vpjRegen .. | .vpjInit .. | .start .. | .exit .. | .yield ..
  | .follow .. | .unfollow .. | .wid .. | .pnpush .. | .join .. | .vote ..
  | .haly .. | .hsum .. | .lpset .. | .lppop | .mfc .. | .mtc ..
  | .msc .. | .mcc .. | .trap .. | .tret | .sysc .. | .brk ..
  | .halt .. | .spillw .. | .fillw | .hintImm .. | .hintHome .. | .hintMod ..
  | .nop | .illegalWord .. => false
  | .instructionComplete .. | .followEngage .. | .pageWalkComplete .. | .postedStoreAck .. | .postedStoreFail .. | .uncorrectableError ..
  | .correctedError .. | .unitRetire .. | .parkedRequestServe .. | .ldsParkRetry .. | .messageArrival .. | .messageFail ..
  | .remoteCommandArrival .. | .eventRecordArrival .. | .hardwarePost .. | .bulkQueueAdmit .. | .copyCommandStart .. | .copyCommandComplete ..
  | .copyCommandFault .. | .matrixQueueAdmit .. | .matrixCommandStart .. | .matrixCommandComplete .. | .arrayLevelRise .. | .arrayLevelFall ..
  | .burstHoldExpire .. | .ringBeatEnd .. | .ringTaskComplete .. | .ringIdle .. | .auctionCommandAdmit .. | .auctionRound ..
  | .vpjTileBoundary .. | .collectiveChunkAdmit .. | .chunkArrival .. | .stepResultWrite .. | .stepAbandon .. | .entryComplete ..
  | .quantumBoundary | .preemptResume .. | .qtailWrite .. | .launchPacketRead .. | .dealIdentifier .. | .launchComplete ..
  | .controlContextRestart .. | .startHelperAssign .. | .pennantPop .. | .pennantAgePromote .. | .halyardEpisodeComplete .. | .halyLimitExpire ..
  | .rbwaitTimeout .. | .evwaitTimeout .. | .rgwaitTimeout .. | .yieldExpire .. | .partnerSwitch .. | .faultRecordAppend ..
  | .fqheadWrite .. | .xlinvPage .. | .xlinvDomain .. | .xlinvAllDomains | .xlinvReserved | .xlinvComplete
  | .keyInstall | .keyErase | .keyCommandComplete | .rngFill .. | .rngFillComplete .. | .devnumWrite ..
  | .linkTraining .. | .pnqbaseWrite .. | .rbenWrite .. | .domctlWrite .. | .domainDisable .. | .cctlWrite ..
  | .dbgHalt .. | .dbgResume .. | .dbgStep .. | .dbgSuperstep .. | .debugHaltComplete | .coldReset
  | .warmReset | .functionLevelReset .. | .linkWidthRequest .. | .linkRetrainComplete | .dieClockRequest .. | .dieClockChange ..
  | .powerCapWindow | .attestationReport .. | .hostWrite .. | .hostRead .. | .registerWrite .. | .powerDown
  | .fabricLinkLoss .. | .qctlWrite .. | .fqctlWrite .. | .ideKmKeyProgram .. | .spdmSession .. => true

end Sys2Proof.Machine
end

