-- ==== Sys2Proof/Machine/HostEvents.lean ====
section
/-! DEFINITION. Completions of single instructions, errors and retirements, the launch unit's moves, and everything the host port
and the fabric do to the package (03 R44, R56-R58, 04 R59, R64, R65, 15 R302-R313, 18 R353-R357, 19 R360, R367, 20). -/

namespace Sys2Proof.Machine

/-! ### Completions of instructions -/

/-- The `idx`-th unfinished instruction of a context completes, if its effect lets it (07 R129). -/
def State.completeNth (s : State) (core k idx : Nat) : Option State :=
  match (s.ctx core k).flow.inflight[idx]? with
  | none => none
  | some e =>
    match s.finish Instr.fin core k e.seq with
    | .wait => none
    | .next s => some s

/-- A core and a context that the device has. -/
def ctxOk (core k : Nat) : Bool := decide (core < 1536) && decide (k < 11)

/-- An issued instruction completes (07 R129). -/
def execInstructionComplete (core ctx idx : Nat) (s : State) : Host.Outcome State Fault Refusal :=
  eventIf (ctxOk core ctx) s (s.completeNth core ctx idx)

/-- A page walk ends: a leaf is loaded, a fault loads nothing (03 R54, R55). -/
def execPageWalkComplete (core domain va : Nat) (s : State) : Host.Outcome State Fault Refusal :=
  eventOn (decide (core < 1536 ∧ domain < 256)) (s.tlbFill core domain (va % 2 ^ 52))

/-- The store takes its place in this package, and its domain is being halted, so that it waits in the holding buffer (18 R355). -/
def State.storeHeld (s : State) (core : Nat) (x : Store) : Bool := x.key.isSome && s.admin.halting == some (s.core core).domain

/-- The store at an index of those on their way waits: an earlier one to the same bytes has not landed (16 R317), or the network has as many
posted stores of the context as it takes (04 R65). -/
def storeWaits (l : List Store) (idx : Nat) (x : Store) : Bool :=
  (l.take idx).any (fun y => !y.landed && y.meets x) || (x.posted && decide (256 ≤ (l.take idx).countP (·.posted)))

/-- The oldest posted store of a context is acknowledged: it has taken its place at its target (04 R65). -/
def State.ackStore (s : State) (core k : Nat) : Option State :=
  let l := (s.ctx core k).stores
  match (indexed 0 l).find? (fun p => p.2.posted) with
  | none => none
  | some (i, x) =>
    if !x.landed && (s.storeHeld core x || storeWaits l i x) then none
    else
      let s := if x.landed then s else s.land core k x
      let c := s.ctx core k
      some (s.setCtx core k { c with stores := c.stores.erase { x with landed := true } })

/-- The acknowledgement of a posted store arrives (04 R65). -/
def execPostedStoreAck (core ctx : Nat) (s : State) : Host.Outcome State Fault Refusal :=
  eventIf (ctxOk core ctx) s (s.ackStore core ctx)

/-- A store of a context that is on its way takes its place in memory: one that no earlier store to the same bytes precedes (16 R317,
R320). -/
def State.landStore (s : State) (core k idx : Nat) : Option State :=
  let l := (s.ctx core k).stores
  match l[idx]? with
  | none => none
  | some x =>
    if x.landed || s.storeHeld core x || storeWaits l idx x then none else some (s.land core k x)

/-- A posted store to a physical address fails: it has no effect and counts as answered, its address waits for the next release of system
scope, and a record of KIND 0x05 is posted (03 R59, 18 R354). -/
def execPostedStoreFail (core ctx pa : Nat) (s : State) : Host.Outcome State Fault Refusal :=
  let c := s.ctx core ctx
  eventOn (ctxOk core ctx) (match c.stores.find? (fun x => x.posted && !x.landed && x.pa == pa) with
    | none => s
    | some x =>
      (s.setCtx core ctx { c with stores := c.stores.erase x, postFail := some (c.postFail.getD pa) }).postFault (core / 384)
        ⟨0x05, Cause.memfault.num, 0x24, ctx, core, 0, BitVec.ofNat 64 pa, 0⟩)

/-- A word that is full serves the request parked first (05 R88). -/
def execParkedRequestServe (addr : Nat) (s : State) : Host.Outcome State Fault Refusal := .next (s.serveWord addr 1)

/-- A full-empty load that found no room at its home asks again (05 R88). -/
def execLdsParkRetry (core ctx : Nat) (s : State) : Host.Outcome State Fault Refusal :=
  eventIf (ctxOk core ctx) s (s.finishIf Instr.fin core ctx (fun i => match i with
    | .lds .. | .ldsE .. => true
    | _ => false))

/-! ### Errors and retirement -/

/-- The die of a memory key: the owner of an HBM4E address or of a core; a free choice for a CXL address. -/
def State.dieOf (s : State) (key : Nat) : Nat × State :=
  if lsKey 0 0 ≤ key then ((key - lsKey 0 0) / 2 ^ 20 / 384, s)
  else if key < hbmEnd then (key / 0x3000000000, s)
  else s.choose 4

/-- Data is lost to an uncorrectable error: a memory line from then on (03 R44, 06 R98), or the state of a context, which
dies (18 R346); the manual names no cause for that frame, so cause and code are free. Or the transfers of a CXL port begin to fail, or
fail no more (03 R47). -/
def State.loseData (s : State) : ErrSite → State
  | .line addr =>
    let (die, s) := s.dieOf addr
    { s with lost := Tbl.put s.lost (addr / 64) [] }.postFault die ⟨0x04, 0, 0, 15, 0, 0, BitVec.ofNat 64 addr, 0⟩
  | .regFile core k =>
    let c := s.ctx core k
    if c.life ≠ .live then s
    else
      let (cause, s) := s.choose 256
      let (code, s) := s.choose 256
      (s.killNow core k cause code 0).postFault (core / 384) ⟨0x04, cause, code, k, core, 0, 0, c.flow.start⟩
  | .cxlPort p =>
    { s with admin := { s.admin with cxlErr := if s.admin.cxlErr.contains p then s.admin.cxlErr.erase p else p :: s.admin.cxlErr } }

/-- The site exists. -/
def siteOk : ErrSite → Bool
  | .line addr => decide (addr < lsKey 1536 0)
  | .regFile core k => ctxOk core k
  | .cxlPort p => decide (p < 4)

/-- An uncorrectable error (03 R44, 06 R98, 18 R346). -/
def execUncorrectableError (site : ErrSite) (s : State) : Host.Outcome State Fault Refusal := eventOn (siteOk site) (s.loseData site)

/-- The unit exists: 1,536 logical cores, 384 pseudo-channels, 1,632 routers, 32 ports (01 R6, R7). -/
def unitOk : HwUnit → Bool
  | .core i => decide (i < 1536)
  | .channel c => decide (c < 384)
  | .router r => decide (r < 1632)
  | .port p => decide (p < 32)

/-- Number of a unit within its kind. -/
def unitNum : HwUnit → Nat
  | .core i | .channel i | .router i | .port i => i

/-- The logical core index of a record about the unit. -/
def unitCore : HwUnit → Nat
  | .core i => i
  | .channel _ | .router _ | .port _ => 0

/-- The die that reports a unit; a fabric port is on the I/O die, so that die is a free choice. -/
def State.unitDie (s : State) : HwUnit → Nat × State
  | .core i => (i / 384, s)
  | .channel c => (c / 96, s)
  | .router r => (r / 408, s)
  | .port _ => s.choose 4

/-- A record about a unit. -/
def State.unitRecord (s : State) (kind : Nat) (u : HwUnit) : State :=
  let (die, s) := s.unitDie u
  s.postFault die ⟨kind, 0, 0, 15, (unitCore u), (unitNum u), 0, 0⟩

/-- The 16 most recent corrected errors fall within one span of 100 ms. -/
def spanned (l : List Nat) : Bool := decide (l.length = 16) && decide (l.getLastD 0 ≤ l.headD 0 + 100000)

/-- A corrected error of a unit is counted (18 R353); one of the local store or the accumulator store also counts in LSCORR
(06 R98), one of the register file does not. The errors of a physical core are those of the logical cores that it serves. -/
def State.countError (s : State) (u : HwUnit) : State :=
  match u with
  | .core i =>
    let (regfile, s) := s.choose 2
    let x := s.core i
    let l := (x.errs ++ [s.time])
    let l := l.drop (l.length - 16)
    let v := Tbl.get 0 x.creg 0x072
    let x := { x with errs := l, creg := if regfile = 1 then x.creg else Tbl.set 0 x.creg 0x072 (v + 1) }
    let served := s.servedBy (i / 192) (s.physOf i)
    let all := sortBy id (served.flatMap (fun j => if j = i then l else (s.core j).errs))
    if spanned (all.drop (all.length - 16)) && served.all (fun j => !(s.core j).lasting) then
      (s.setCore i { x with lasting := true }).unitRecord 0x03 u
    else s.setCore i x
  | u =>
    let l := ((s.admin.unitErrs.find? (fun p => decide (p.1 = u))).map (·.2)).getD [] ++ [s.time]
    let l := l.drop (l.length - 16)
    let s := { s with admin := { s.admin with unitErrs := (u, l) :: s.admin.unitErrs.filter (fun p => !decide (p.1 = u)) } }
    if spanned l && !s.admin.lastingUnits.contains u then
      { s with admin := { s.admin with lastingUnits := s.admin.lastingUnits ++ [u] } }.unitRecord 0x03 u
    else s

/-- A unit counts a corrected error (18 R353). -/
def execCorrectedError (unit : HwUnit) (s : State) : Host.Outcome State Fault Refusal := eventOn (unitOk unit) (s.countError unit)

/-- No launch part that the unit serves is running: for a core those of the logical cores on its physical core, for a channel, a router or
a port any part. -/
def State.unitQuiet (s : State) : HwUnit → Bool
  | .core i => (s.servedBy (i / 192) (s.physOf i)).all (fun j => (s.core j).running.isNone)
  | .channel _ | .router _ | .port _ => s.cores.all (fun p => p.2.running.isNone)

/-- A record about a unit whose KIND the manual does not give: it is free (DESIGN CHOICE, log entry 64). -/
def State.openRecord (s : State) (u : HwUnit) : State :=
  let (kind, s) := s.choose 256
  s.unitRecord kind u

/-- Retired pseudo-channels of the stack of a channel (03 R43). -/
def State.stackRetired (s : State) (c : Nat) : Nat := s.admin.retiredUnits.countP (fun u => match u with
  | .channel d => d / 32 == c / 32
  | .core _ | .router _ | .port _ => false)

/-- A lasting unit is retired at its launch boundary (18 R353): the logical core on the physical core behind a bypassed router is remapped like
one whose physical core is retired (04 R61); a stack with a third retired pseudo-channel is reported failed (03 R43). -/
def State.retireUnit (s : State) (u : HwUnit) : State :=
  if !s.unitQuiet u then s
  else
    match u with
    | .core i =>
      if !(s.core i).lasting then s
      else
        let p := s.physOf i
        let served := s.servedBy (i / 192) p
        let s := { s with admin := { s.admin with deadPhys := p :: s.admin.deadPhys } }
        (served.foldl State.remap s).unitRecord 0x06 u
    | u =>
      if !s.admin.lastingUnits.contains u || s.admin.retiredUnits.contains u then s
      else
        let s := { s with admin := { s.admin with
          retiredUnits := s.admin.retiredUnits ++ [u]
          failedPorts := match u with
            | .port p => s.admin.failedPorts.erase p ++ [p]
            | .core _ | .channel _ | .router _ => s.admin.failedPorts } }
        let s := s.unitRecord 0x06 u
        match u with
        | .channel c => if s.stackRetired c = 3 then s.openRecord u else s
        | .router p =>
          let s := { s with admin := { s.admin with deadPhys := p :: s.admin.deadPhys } }
          (s.servedBy (p / 204) p).foldl State.remap s
        | .core _ | .port _ => s

/-- A lasting unit is retired (18 R353). -/
def execUnitRetire (unit : HwUnit) (s : State) : Host.Outcome State Fault Refusal := eventOn (unitOk unit) (s.retireUnit unit)

/-- A physical core switches from a logical core to its partner (19 R360). -/
def execPartnerSwitch (core : Nat) (s : State) : Host.Outcome State Fault Refusal := eventOn (decide (core < 1536)) (s.switchTurn core)

/-- A record on its way reaches the concentrator (18 R354). -/
def dropFrec : List (Nat × FaultRec) → Nat × FaultRec → List (Nat × FaultRec)
  | [], _ => []
  | r :: l, x => if r = x then l else r :: dropFrec l x

/-- The record is the oldest of its die on its way, or none of them: the records of one die arrive in the order they arose (18 R354). -/
def State.frecNext (s : State) (die : Nat) (rec : FaultRec) : Bool :=
  let l := s.net.frecs.filter (fun r => r.1 == die)
  l.head? == some (die, rec) || !l.contains (die, rec)

/-- A fault record is appended, latched or counted lost (18 R354). -/
def execFaultRecordAppend (die : Nat) (rec : FaultRec) (s : State) : Host.Outcome State Fault Refusal :=
  eventOn (decide (die < 4) && s.frecNext die rec) ({ s with net := { s.net with frecs := dropFrec s.net.frecs (die, rec) } }.fqAppend die rec)

/-! ### The launch unit -/

/-- A quantum boundary (15 R305, R308, R314). -/
def execQuantumBoundary (s : State) : Host.Outcome State Fault Refusal := .next s.quantum

/-- A pre-empted launch part resumes (15 R308). -/
def execPreemptResume (core : Nat) (s : State) : Host.Outcome State Fault Refusal := eventOn (decide (core < 1536)) (s.preemptResume core)

/-- A write of QTAIL gives its queue work (15 R302, R305). -/
def execQtailWrite (fn q : Nat) (v : W64) (s : State) : Host.Outcome State Fault Refusal :=
  eventOn (decide (fn < 65 ∧ q < 4096)) (s.hostPut fn (qReg q 0x10) 8 v.toNat)

/-- A write of QCTL (15 R302). -/
def execQctlWrite (fn q : Nat) (v : W64) (s : State) : Host.Outcome State Fault Refusal :=
  eventOn (decide (fn < 65 ∧ q < 4096)) (s.hostPut fn (qReg q 8) 8 v.toNat)

/-- The launch unit reads and checks the packet at the head of a queue (15 R304). -/
def execLaunchPacketRead (q : Nat) (s : State) : Host.Outcome State Fault Refusal := eventOn (decide (q < 4096)) (s.packetRead q)

/-- Dealing to a core: a replayed launch whose cores are not all usable ends with STATUS 4 (15 R311), a launch that another goes before
waits (15 R306), and else the core receives identifiers. -/
def State.dealCore (s : State) (q core : Nat) : State :=
  match Tbl.find s.launch.active q with
  | none => s
  | some _ =>
    if s.replayLost q then s.endReplay q
    else if s.firstFor q core then s.startPart q core
    else s

/-- A free core receives identifiers and its control context starts (15 R306). -/
def execDealIdentifier (q core : Nat) (s : State) : Host.Outcome State Fault Refusal :=
  eventOn (decide (q < 4096 ∧ core < 1536)) (s.dealCore q core)

/-- A launch whose contexts have all ended completes (15 R313). -/
def execLaunchComplete (q : Nat) (s : State) : Host.Outcome State Fault Refusal := eventOn (decide (q < 4096)) (s.finishLaunch q)

/-! ### Register writes of the host -/

/-- A write of FQHEAD: latches drain into the freed room (18 R354). -/
def execFqheadWrite (v : W64) (s : State) : Host.Outcome State Fault Refusal := .next (s.hostPut 0 0x270010 8 v.toNat)

/-- A write of FQCTL: enabling the queue drains the latches (18 R354). -/
def execFqctlWrite (v : W64) (s : State) : Host.Outcome State Fault Refusal := .next (s.hostPut 0 0x270008 8 v.toNat)

/-- A GO write of XLINV (03 R58). -/
def State.xlinvGo (s : State) (kind dom : Nat) : State := s.hostPut 0 0x101008 8 (2 ^ 63 + kind * 2 ^ 8 + dom)

/-- GO with KIND 0: one page of a domain (03 R58). -/
def execXlinvPage (domain : Nat) (s : State) : Host.Outcome State Fault Refusal := eventOn (decide (domain < 256)) (s.xlinvGo 0 domain)

/-- GO with KIND 1: all of a domain (03 R58). -/
def execXlinvDomain (domain : Nat) (s : State) : Host.Outcome State Fault Refusal := eventOn (decide (domain < 256)) (s.xlinvGo 1 domain)

/-- GO with KIND 2: all domains (03 R58). -/
def execXlinvAllDomains (s : State) : Host.Outcome State Fault Refusal := .next (s.xlinvGo 2 0)

/-- GO with KIND 3 starts nothing and sets ERR (03 R58). -/
def execXlinvReserved (s : State) : Host.Outcome State Fault Refusal := .next (s.xlinvGo 3 0)

/-- The oldest invalidation completes (03 R56). -/
def execXlinvComplete (s : State) : Host.Outcome State Fault Refusal := .next s.invEnd

/-- A write of KEYCMD with INSTALL (20 R373). -/
def execKeyInstall (s : State) : Host.Outcome State Fault Refusal := .next (s.hostPut 0 0x2A1050 8 1)

/-- A write of KEYCMD with ERASE (20 R373). -/
def execKeyErase (s : State) : Host.Outcome State Fault Refusal := .next (s.hostPut 0 0x2A1050 8 2)

/-- A key command finishes (20 R373). -/
def execKeyCommandComplete (s : State) : Host.Outcome State Fault Refusal := .next s.keyEnd

/-- A write of RNGCTL with GO, the stream's domain kept (19 R367). -/
def execRngFill (stream : Nat) (s : State) : Host.Outcome State Fault Refusal :=
  eventOn (decide (stream < 256))
    (s.hostPut 0 (rngReg stream 0x38) 8 (2 ^ 63 + bits (s.dregN (rngReg stream 0x38)) 15 8 * 2 ^ 8))

/-- A fill ends (19 R367). -/
def execRngFillComplete (stream : Nat) (s : State) : Host.Outcome State Fault Refusal :=
  eventOn (decide (stream < 256)) (s.rngEnd stream)

/-- A write of DEVNUM (04 R64). -/
def execDevnumWrite (fn : Nat) (v : W64) (s : State) : Host.Outcome State Fault Refusal :=
  eventOn (decide (fn < 65)) (s.hostPut fn 0x2D0000 8 v.toNat)

/-- A fabric port trains with a neighbour: one of the same number leaves the port down and is recorded; any other brings up a port that
is not retired (04 R63, R64). -/
def execLinkTraining (port neighbour : Nat) (s : State) : Host.Outcome State Fault Refusal :=
  let rest := s.admin.failedPorts.erase port
  let same := decide (s.devnum = some neighbour)
  let t := { s with admin := { s.admin with
    failedPorts := if same || s.admin.retiredUnits.contains (.port port) then rest ++ [port] else rest } }
  eventOn (decide (port < 32)) (if same then t.openRecord (.port port) else t)

/-- A link of the fabric is lost: its port is marked failed (04 R63). -/
def execFabricLinkLoss (port : Nat) (s : State) : Host.Outcome State Fault Refusal :=
  eventOn (decide (port < 32)) { s with admin := { s.admin with failedPorts := s.admin.failedPorts.erase port ++ [port] } }

/-- A write of PNQBASE (14 R277). -/
def execPnqbaseWrite (fn n : Nat) (v : W64) (s : State) : Host.Outcome State Fault Refusal :=
  eventOn (decide (fn < 65 ∧ n < 8)) (s.hostPut fn (0x2C0000 + 8 * n) 8 v.toNat)

/-- A write of RBEN for a context of a core (04 R69). -/
def execRbenWrite (core ctx : Nat) (v : W64) (s : State) : Host.Outcome State Fault Refusal :=
  eventOn (ctxOk core ctx) (s.rbenSet core (s.core core).domain v.toNat)

/-- A write of DOMCTL (20 R372). -/
def execDomctlWrite (fn n : Nat) (v : W64) (s : State) : Host.Outcome State Fault Refusal :=
  eventOn (decide (fn < 65 ∧ n < 256)) (s.hostPut fn (0x2A0000 + 8 * n) 8 v.toNat)

/-- Clearing EN takes effect once no launch part of the domain runs (20 R372). -/
def execDomainDisable (n : Nat) (s : State) : Host.Outcome State Fault Refusal := eventOn (decide (n < 256)) (s.disableNow n)

/-- A write of CCTL: a change of domain clears the counters of the communicator (17 R326, R327). -/
def execCctlWrite (fn c : Nat) (v : W64) (s : State) : Host.Outcome State Fault Refusal :=
  eventOn (decide (fn < 65 ∧ c < 64)) (s.hostPut fn (0x240000 + 64 * c) 8 v.toNat)

/-- A write of any device register by a function (00 R2, 20 R370). -/
def execRegisterWrite (fn off size : Nat) (v : W64) (s : State) : Host.Outcome State Fault Refusal :=
  eventOn (decide (fn < 65 ∧ off < 2 ^ 32)) (if (size = 4 ∨ size = 8) ∧ off % size = 0 then s.hostPut fn off size v.toNat else s)

/-! ### Debug (18 R355-R357) -/

/-- A write of DBGCTL with HALT. -/
def execDbgHalt (domain : Nat) (s : State) : Host.Outcome State Fault Refusal :=
  eventOn (decide (domain < 256)) (s.hostPut 0 0x280000 8 (2 ^ 63 + domain))

/-- A write of DBGCTL with RESUME. -/
def execDbgResume (domain : Nat) (s : State) : Host.Outcome State Fault Refusal :=
  eventOn (decide (domain < 256)) (s.hostPut 0 0x280000 8 (2 ^ 62 + domain))

/-- DBGCTL with STEP. -/
def stepWord (domain : Nat) (one : Bool) (core : Nat) (super : Bool) : Nat :=
  2 ^ 61 + b2n super * 2 ^ 60 + b2n one * 2 ^ 59 + core * 2 ^ 16 + domain

/-- A write of DBGCTL with STEP. -/
def execDbgStep (domain : Nat) (one : Bool) (core : Nat) (s : State) : Host.Outcome State Fault Refusal :=
  eventOn (decide (domain < 256 ∧ core < 1536)) (s.hostPut 0 0x280000 8 (stepWord domain one core false))

/-- A write of DBGCTL with STEP and SUPER. -/
def execDbgSuperstep (domain : Nat) (one : Bool) (core : Nat) (s : State) : Host.Outcome State Fault Refusal :=
  eventOn (decide (domain < 256 ∧ core < 1536)) (s.hostPut 0 0x280000 8 (stepWord domain one core true))

/-- Every context of the domain has stopped. -/
def State.allStopped (s : State) (d : Nat) : Bool :=
  s.cores.all (fun p => (match p.2.part with
    | some x => x.domain != d
    | none => true) || p.2.ctxs.all (fun q => q.2.life != .live))

/-- Every context has stopped and the buffers hold the writes in progress: HALTED is set and a record of KIND 0x07 is posted,
by a die that the manual leaves open. -/
def State.haltEnd (s : State) : State :=
  match s.admin.halting with
  | none => s
  | some d =>
    if s.admin.halted || !s.allStopped d then s
    else
      let s := s.holdCopies d
      let (die, s) := s.choose 4
      { s with admin := { s.admin with halted := true } }.postFault die ⟨0x07, 0, 0, 15, 0, 0, 0, 0⟩

/-- A debug halt completes (18 R355). -/
def execDebugHaltComplete (s : State) : Host.Outcome State Fault Refusal := .next s.haltEnd

/-! ### Resets, power and links (20 R374-R378) -/

/-- A cold reset (20 R376). -/
def execColdReset (s : State) : Host.Outcome State Fault Refusal := .next s.coldReset

/-- A write of 1 to DEVSTAT[63] (20 R376). -/
def execWarmReset (s : State) : Host.Outcome State Fault Refusal := .next (s.hostPut 0 0x2B0000 8 (2 ^ 63))

/-- A function-level reset clears EN in every domain that the virtual function owns (20 R376), and a device interface that was locked is in
error (PRESUMED, log entry 71). -/
def State.flr (s : State) (fn : Nat) : State :=
  let s := if (Tbl.get (0, []) s.admin.tdi fn).1 = 0 then s
    else { s with admin := { s.admin with tdi := Tbl.put s.admin.tdi fn (3, []) } }
  (List.range 256).foldl (fun s d =>
    let v := s.dreg! (0x2A0000 + 8 * d)
    if bit v.toNat 63 && v.toNat % 2 ^ 7 == fn then s.domWrite d (v &&& ~~~(1#64 <<< 63)) else s) s

/-- A function-level reset of a virtual function (20 R376). -/
def execFunctionLevelReset (fn : Nat) (s : State) : Host.Outcome State Fault Refusal :=
  eventOn (decide (1 ≤ fn ∧ fn < 65)) (s.flr fn)

/-- A write of LINKREQ (20 R378). -/
def execLinkWidthRequest (v : W64) (s : State) : Host.Outcome State Fault Refusal := .next (s.hostPut 0 0x2B0010 8 v.toNat)

/-- The link trains: a link whose width is requested comes up at that width, and a link that is down at either; where the training gives any
other width the link is down, which is free (20 R370, R378). -/
def State.retrain (s : State) : State :=
  let asked := if s.dregN 0x2B0010 % 4 = 1 then 8 else 16
  if s.admin.linkPending then
    let (b, s) := s.choose 2
    { s with admin := { s.admin with linkPending := false, linkWidth := if b = 0 then asked else 0 } }
  else if s.admin.linkWidth = 0 then
    let (b, s) := s.choose 3
    { s with admin := { s.admin with linkWidth := 8 * b } }
  else s

/-- Link retraining ends (20 R370, R378). -/
def execLinkRetrainComplete (s : State) : Host.Outcome State Fault Refusal := .next s.retrain

/-- A write of DIEFREQ (20 R377). -/
def execDieClockRequest (die : Nat) (v : W64) (s : State) : Host.Outcome State Fault Refusal :=
  eventOn (decide (die < 4)) (s.hostPut 0 (0x2B0018 + 8 * die) 8 v.toNat)

/-- A clock request takes effect, after link retraining where a width request is pending too (20 R378). -/
def execDieClockChange (die : Nat) (s : State) : Host.Outcome State Fault Refusal :=
  eventOn (decide (die < 4))
    (if s.admin.diePending.contains die && !s.admin.linkPending then
      { s with admin := { s.admin with
        diePending := s.admin.diePending.erase die
        dieClock := Tbl.put s.admin.dieClock die (s.dregN (0x2B0018 + 8 * die)) } }
     else s)

/-- The power loop sets the array-level cap over a window of 1 ms; how it lowers die clocks is seen in time only (20 R377). -/
def State.powerCap (s : State) : State :=
  let (n, s) := s.choose 4
  { s with admin := { s.admin with arrayCap := n + 1 } }

/-- The power loop acts (10 R204, 20 R377). -/
def execPowerCapWindow (s : State) : Host.Outcome State Fault Refusal := .next s.powerCap

/-- Before a power-down the memory-side caches are written back (03 R45); caches are seen in timing only. -/
def execPowerDown (s : State) : Host.Outcome State Fault Refusal := .next s

/-! ### The host's accesses to memory and its sessions -/

/-- What the host port answers. -/
def State.reply (s : State) (poisoned : Bool) (l : List Byte) : State :=
  { s with admin := { s.admin with replies := (poisoned, l) :: s.admin.replies } }

/-- A range of HBM4E or populated CXL memory. -/
def State.memPlace (s : State) (pa n : Nat) : Option Loc :=
  match s.place 0 pa 0, s.place 0 (pa + n - 1) 0 with
  | .ok (.hbm p m), .ok (.hbm _ _) => some (.hbm p m)
  | .ok (.cxl p m), .ok (.cxl _ _) => some (.cxl p m)
  | _, _ => none

/-- An agent outside the package: a function of the host port, 0 to 64, or another device of the fabric, whose number stands above 2^16
(16 R314; DESIGN CHOICE, log entry 65). -/
def outside (fn : Nat) : Bool := decide (fn < 65 ∨ (2 ^ 16 ≤ fn ∧ fn < 2 ^ 17))

/-- A fabric port carries the access of another device: the fabric has numbers, and the device is not this one (04 R64). -/
def State.fabAgent (s : State) (fn : Nat) : Bool :=
  decide (2 ^ 16 ≤ fn) && (match s.devnum with
    | none => false
    | some own => decide (own ≠ fn - 2 ^ 16))

/-- The memory that a range of an agent outside names: the host reaches it through BAR 2 with its physical function, another device
through a fabric port (04 R64, 20 R370, R372). -/
def State.barPlace (s : State) (fn pa n : Nat) : Option Loc :=
  if n = 0 ∨ s.fwFailed ∨ !(fn == 0 || s.fabAgent fn) then none else s.memPlace pa n

/-- The link carries accesses of a function of the host (20 R370). -/
def State.linkUp (s : State) (fn : Nat) : Bool := decide (65 ≤ fn) || s.admin.linkWidth != 0

/-! ### TDISP (20 R370; PRESUMED, log entry 71) -/

/-- Reads bytes of a message as a number. -/
def tdispField (m : List Byte) (off n : Nat) : Nat := slice (ofBytes m) off n

/-- The answer of a device interface. -/
def State.tdispReply (s : State) (m : List Byte) (code : Nat) (l : List Byte) : State :=
  s.reply false ([0x10#8, BitVec.ofNat 8 code, 0, 0] ++ (m.drop 4).take 12 ++ l)

/-- Sets a device interface: its state, 0 unlocked, 1 locked, 2 running, 3 in error, and the nonce of its lock. -/
def State.setTdi (s : State) (f n : Nat) (nonce : List Byte) : State :=
  { s with admin := { s.admin with tdi := Tbl.put s.admin.tdi f (n, nonce) } }

/-- A request to the device interface of a virtual function, which a session authenticated with the identity key carries. -/
def State.tdisp (s : State) (m : List Byte) : State :=
  let f := tdispField m 4 4
  let t := Tbl.get (0, []) s.admin.tdi f
  let bad (s : State) : State := s.tdispReply m 0x7F []
  if s.admin.sessions = 0 ∨ m.length < 16 ∨ tdispField m 0 1 ≠ 0x10 then s
  else if f = 0 ∨ 64 < f then bad s
  else
    match tdispField m 1 1 with
    | 0x83 =>
      if t.1 ≠ 0 then bad s
      else
        let (v, s) := s.freeBytes 4
        (s.setTdi f 1 (toBytes 32 v)).tdispReply m 0x03 (toBytes 32 v)
    | 0x85 => s.tdispReply m 0x05 [BitVec.ofNat 8 t.1]
    | 0x86 => if t.1 ≠ 1 ∨ (m.drop 16).take 32 ≠ t.2 then bad s else (s.setTdi f 2 t.2).tdispReply m 0x06 []
    | 0x87 => (s.setTdi f 0 []).tdispReply m 0x07 []
    | _ => bad s

/-- The device register that a range of a function of the host names in BAR 0 (20 R370). -/
def barReg (fn pa n : Nat) : Option Nat :=
  let off := pa - 0xE000000000000
  if fn < 65 ∧ 0xE000000000000 ≤ pa ∧ off < 2 ^ 32 ∧ (n = 4 ∨ n = 8) ∧ off % n = 0 then some off else none

/-- A write of another device reaches memory. In a debug halt the ports hold arriving writes for the halted domain; which of the writes of
other devices, which name a physical address and no domain, are for it is free (18 R355; DESIGN CHOICE, log entry 65). One that finds the
holding buffer full waits at its port. -/
def State.deviceStore (s : State) (l : Loc) (n v : Nat) : Option State :=
  let (b, s) := if s.admin.halting.isSome then s.choose 2 else (0, s)
  if b = 0 then some (s.poke l n v)
  else
    let (die, s) := s.dieOf ((l.key?).getD 0)
    let h : Held := .write die ((l.key?).getD 0) l.mat n v
    if s.admin.fits h then some (s.hold h) else none

/-- A write from outside: to configuration space, where a TDISP request arrives, to a device register, or to memory, of at most 512 bytes for
the host. The answer to another device has the bytes that stood there, which an AMO of it returns (04 R65, 16 R314, 20 R370). -/
def State.hostStore (s : State) (fn pa : Nat) (bytes : List Byte) : Option State :=
  let n := bytes.length
  if !s.linkUp fn then none
  else if fn < 65 ∧ 2 ^ 52 ≤ pa then (if s.fwFailed then none else some (s.tdisp bytes))
  else
    match barReg fn pa n with
    | some off => some (s.hostPut fn off n (ofBytes bytes))
    | none =>
      if fn < 65 then (if 512 < n then none else (s.barPlace fn pa n).map (fun l => s.poke l n (ofBytes bytes)))
      else (s.barPlace fn pa n).bind (fun l => (s.reply false (toBytes n (s.peek l n))).deviceStore l n (ofBytes bytes))

/-- A write of the host or of another device (03 R44, 16 R314, R324, 20 R370). -/
def execHostWrite (fn pa : Nat) (bytes : List Byte) (s : State) : Host.Outcome State Fault Refusal :=
  eventIf (outside fn) s (s.hostStore fn pa bytes)

/-- A host read of memory: a line lost to an error gives a poisoned completion whose data is free (03 R44). -/
def State.hostLoad (s : State) (l : Loc) (n : Nat) : State :=
  match l.key? with
  | none => s
  | some k =>
    if s.isLost k n then
      let (v, s) := s.freeBytes ((n + 7) / 8)
      s.reply true (toBytes n v)
    else s.reply false (toBytes n (s.peek l n))

/-- The numbers whose flag is set. -/
def onlyBits (l : List (Nat × Bool)) : List Nat := (l.filter (·.2)).map (·.1)

/-- The features of the part, by the ID of the capability list: IDE, attestation and the power cap are there, and the example of 20 R371 shows
a part without expanders and SRAM die that lists no other; whether another part lists TDISP is open (20 R371; DESIGN CHOICE, log entry
46). -/
def features : List Nat :=
  onlyBits [(1, [0, 1, 2, 3].any (fun p => Config.cxlBytes p % (2 ^ 41 + 1) != 0)), (2, Config.sramPresent), (3, true),
    (4, Config.tdispEntry && ([0, 1, 2, 3].any (fun p => Config.cxlBytes p % (2 ^ 41 + 1) != 0) || Config.sramPresent)), (5, true), (6, true)]

/-- The capability list: an entry for every feature, 16 bytes apart, each with the offset of the next (20 R371; DESIGN CHOICE, log entry
46). -/
def capList : Nat :=
  layout ((indexed 0 features).map (fun (i, id) =>
    (16 * i, id + Config.capVersion id % 2 ^ 4 * 2 ^ 16 + (if i + 1 = features.length then 0 else 0x410 + 16 * i) * 2 ^ 20
      + (8 + Config.capLength id % 9) * 2 ^ 32)))

/-- A read of configuration space: the capability list stands from 0x400 on; what else it holds the manual leaves to PCI Express, and is
free (20 R371; DESIGN CHOICE, log entry 46). -/
def State.configRead (s : State) (off n : Nat) : State :=
  if 0x400 ≤ off ∧ off + n ≤ 0x460 then s.reply false (toBytes n (slice capList (off - 0x400) n))
  else
    let (v, s) := s.freeBytes ((n + 7) / 8)
    s.reply false (toBytes n v)

/-- A read from outside: configuration space, which stands from 2^52 on, a device register, or memory. -/
def State.hostFetch (s : State) (fn pa n : Nat) : Option State :=
  if !s.linkUp fn then none
  else if 2 ^ 52 ≤ pa then (if fn < 65 ∧ pa - 2 ^ 52 + n ≤ 4096 then some (s.configRead (pa - 2 ^ 52) n) else none)
  else
    match barReg fn pa n with
    | some off =>
      if s.fwFailed && off / 8 != 0x2B0000 / 8 then none else some (s.reply false (toBytes n (s.devLoad (.fn fn) off n)))
    | none => (s.barPlace fn pa n).map (fun l => s.hostLoad l n)

/-- A read of the host or of another device (03 R44, 16 R314, R324, 20 R370, R371). -/
def execHostRead (fn pa n : Nat) (s : State) : Host.Outcome State Fault Refusal := eventIf (outside fn) s (s.hostFetch fn pa n)

/-- A signature with the identity key. Its random bytes are free (20 R375; PRESUMED, log entry 73). -/
def State.signed (s : State) (m : List Byte) : List Byte × State :=
  let (v, s) := s.freeBytes 4
  (slh256s.sign identityKey m (toBytes 32 v), s)

/-- The report over a nonce: the measurements and the nonce, then their signature (20 R375). -/
def State.report (s : State) (nonce : List Byte) : List Byte × State :=
  let m := measurements ++ nonce
  let (g, s) := s.signed m
  (m ++ g, s)

/-- An attestation report over a 32-byte nonce (20 R375). -/
def execAttestationReport (nonce : List Byte) (s : State) : Host.Outcome State Fault Refusal :=
  .next (if nonce.length = 32 then (s.report nonce).2.reply false (s.report nonce).1 else s)

/-- An IDE stream key is programmed, in a session that the identity key has authenticated (20 R370, R375). -/
def execIdeKmKeyProgram (key : List Byte) (s : State) : Host.Outcome State Fault Refusal :=
  .next (if s.admin.sessions = 0 then s else { s with admin := { s.admin with ideKey := key } })

/-- An SPDM session is authenticated with the identity key (20 R375). -/
def execSpdmSession (nonce : List Byte) (s : State) : Host.Outcome State Fault Refusal :=
  let (g, s) := s.signed nonce
  .next ({ s with admin := { s.admin with sessions := s.admin.sessions + 1 } }.reply false g)

end Sys2Proof.Machine
end

