-- ==== Sys2Proof/Machine/Dispatch.lean ====
section
/-! DEFINITION. The meaning of every row of the table of operations: one direct call each. -/

namespace Sys2Proof.Machine

/-- What a row does in a state: an instruction word acts for the context `s.cur`, an event for the whole package. -/
def exec (i : Instr) (s : State) : Host.Outcome State Fault Refusal :=
  match i with
  | .add d a b t g => Sys2Proof.Machine.execAdd d a b t g s
  | .sub d a b t g => Sys2Proof.Machine.execSub d a b t g s
  | .and d a b t g => Sys2Proof.Machine.execAnd d a b t g s
  | .or d a b t g => Sys2Proof.Machine.execOr d a b t g s
  | .xor d a b t g => Sys2Proof.Machine.execXor d a b t g s
  | .andn d a b t g => Sys2Proof.Machine.execAndn d a b t g s
  | .sll d a b t g => Sys2Proof.Machine.execSll d a b t g s
  | .srl d a b t g => Sys2Proof.Machine.execSrl d a b t g s
  | .sra d a b t g => Sys2Proof.Machine.execSra d a b t g s
  | .ror d a b t g => Sys2Proof.Machine.execRor d a b t g s
  | .slt d a b t g => Sys2Proof.Machine.execSlt d a b t g s
  | .sltu d a b t g => Sys2Proof.Machine.execSltu d a b t g s
  | .min d a b t g => Sys2Proof.Machine.execMin d a b t g s
  | .max d a b t g => Sys2Proof.Machine.execMax d a b t g s
  | .minu d a b t g => Sys2Proof.Machine.execMinu d a b t g s
  | .maxu d a b t g => Sys2Proof.Machine.execMaxu d a b t g s
  | .mul d a b t g => Sys2Proof.Machine.execMul d a b t g s
  | .mulh d a b t g => Sys2Proof.Machine.execMulh d a b t g s
  | .mulhu d a b t g => Sys2Proof.Machine.execMulhu d a b t g s
  | .clz d a t g => Sys2Proof.Machine.execClz d a t g s
  | .ctz d a t g => Sys2Proof.Machine.execCtz d a t g s
  | .popc d a t g => Sys2Proof.Machine.execPopc d a t g s
  | .sextb d a t g => Sys2Proof.Machine.execSextb d a t g s
  | .sexth d a t g => Sys2Proof.Machine.execSexth d a t g s
  | .sextw d a t g => Sys2Proof.Machine.execSextw d a t g s
  | .zextw d a t g => Sys2Proof.Machine.execZextw d a t g s
  | .shadd1 d a b t g => Sys2Proof.Machine.execShadd1 d a b t g s
  | .shadd2 d a b t g => Sys2Proof.Machine.execShadd2 d a b t g s
  | .shadd3 d a b t g => Sys2Proof.Machine.execShadd3 d a b t g s
  | .div d a b la => Sys2Proof.Machine.execDiv d a b la s
  | .divu d a b la => Sys2Proof.Machine.execDivu d a b la s
  | .rem d a b la => Sys2Proof.Machine.execRem d a b la s
  | .remu d a b la => Sys2Proof.Machine.execRemu d a b la s
  | .addi d a imm g => Sys2Proof.Machine.execAddi d a imm g s
  | .andi d a imm g => Sys2Proof.Machine.execAndi d a imm g s
  | .ori d a imm g => Sys2Proof.Machine.execOri d a imm g s
  | .xori d a imm g => Sys2Proof.Machine.execXori d a imm g s
  | .slti d a imm g => Sys2Proof.Machine.execSlti d a imm g s
  | .sltiu d a imm g => Sys2Proof.Machine.execSltiu d a imm g s
  | .slli d a sh g => Sys2Proof.Machine.execSlli d a sh g s
  | .srli d a sh g => Sys2Proof.Machine.execSrli d a sh g s
  | .srai d a sh g => Sys2Proof.Machine.execSrai d a sh g s
  | .rori d a sh g => Sys2Proof.Machine.execRori d a sh g s
  | .movi d imm g => Sys2Proof.Machine.execMovi d imm g s
  | .qsetEq d a b g => Sys2Proof.Machine.execQsetEq d a b g s
  | .qsetNe d a b g => Sys2Proof.Machine.execQsetNe d a b g s
  | .qsetLt d a b g => Sys2Proof.Machine.execQsetLt d a b g s
  | .qsetGe d a b g => Sys2Proof.Machine.execQsetGe d a b g s
  | .qsetLtu d a b g => Sys2Proof.Machine.execQsetLtu d a b g s
  | .qsetGeu d a b g => Sys2Proof.Machine.execQsetGeu d a b g s
  | .qand d a b g => Sys2Proof.Machine.execQand d a b g s
  | .qor d a b g => Sys2Proof.Machine.execQor d a b g s
  | .qxor d a b g => Sys2Proof.Machine.execQxor d a b g s
  | .qandn d a b g => Sys2Proof.Machine.execQandn d a b g s
  | .qnot d a g => Sys2Proof.Machine.execQnot d a g s
  | .qtrue d g => Sys2Proof.Machine.execQtrue d g s
  | .qfalse d g => Sys2Proof.Machine.execQfalse d g s
  | .qunres d g => Sys2Proof.Machine.execQunres d g s
  | .beq a b disp => Sys2Proof.Machine.execBeq a b disp s
  | .bne a b disp => Sys2Proof.Machine.execBne a b disp s
  | .blt a b disp => Sys2Proof.Machine.execBlt a b disp s
  | .bge a b disp => Sys2Proof.Machine.execBge a b disp s
  | .bltu a b disp => Sys2Proof.Machine.execBltu a b disp s
  | .bgeu a b disp => Sys2Proof.Machine.execBgeu a b disp s
  | .bqt a disp => Sys2Proof.Machine.execBqt a disp s
  | .bqf a disp => Sys2Proof.Machine.execBqf a disp s
  | .j disp => Sys2Proof.Machine.execJ disp s
  | .call disp => Sys2Proof.Machine.execCall disp s
  | .jr a g => Sys2Proof.Machine.execJr a g s
  | .callr a g => Sys2Proof.Machine.execCallr a g s
  | .ret g => Sys2Proof.Machine.execRet g s
  | .ld d a off sz home la => Sys2Proof.Machine.execLd d a off sz home la s
  | .ldn d a off sz home la => Sys2Proof.Machine.execLdn d a off sz home la s
  | .st d a off sz home la => Sys2Proof.Machine.execSt d a off sz home la s
  | .ldv d a m cls la => Sys2Proof.Machine.execLdv d a m cls la s
  | .stv d a m la => Sys2Proof.Machine.execStv d a m la s
  | .ldx d a la => Sys2Proof.Machine.execLdx d a la s
  | .ldxSc d a la => Sys2Proof.Machine.execLdxSc d a la s
  | .stx d a la => Sys2Proof.Machine.execStx d a la s
  | .stxSc d a la => Sys2Proof.Machine.execStxSc d a la s
  | .gather d a vi m cls la => Sys2Proof.Machine.execGather d a vi m cls la s
  | .scatter d a vi m la => Sys2Proof.Machine.execScatter d a vi m la s
  | .lds d a ord scope la => Sys2Proof.Machine.execLds d a ord scope la s
  | .ldsE d a ord scope la => Sys2Proof.Machine.execLdsE d a ord scope la s
  | .stf d a ord scope la => Sys2Proof.Machine.execStf d a ord scope la s
  | .sete a ord scope la => Sys2Proof.Machine.execSete a ord scope la s
  | .amoSwap d a sz ord scope la => Sys2Proof.Machine.execAmoSwap d a sz ord scope la s
  | .amoAdd d a sz ord scope la => Sys2Proof.Machine.execAmoAdd d a sz ord scope la s
  | .amoAnd d a sz ord scope la => Sys2Proof.Machine.execAmoAnd d a sz ord scope la s
  | .amoOr d a sz ord scope la => Sys2Proof.Machine.execAmoOr d a sz ord scope la s
  | .amoXor d a sz ord scope la => Sys2Proof.Machine.execAmoXor d a sz ord scope la s
  | .amoMin d a sz ord scope la => Sys2Proof.Machine.execAmoMin d a sz ord scope la s
  | .amoMax d a sz ord scope la => Sys2Proof.Machine.execAmoMax d a sz ord scope la s
  | .amoMinu d a sz ord scope la => Sys2Proof.Machine.execAmoMinu d a sz ord scope la s
  | .amoMaxu d a sz ord scope la => Sys2Proof.Machine.execAmoMaxu d a sz ord scope la s
  | .amoFadd d a sz ord scope la => Sys2Proof.Machine.execAmoFadd d a sz ord scope la s
  | .amoFaddX d a ord scope la => Sys2Proof.Machine.execAmoFaddX d a ord scope la s
  | .amoFmin d a sz ord scope la => Sys2Proof.Machine.execAmoFmin d a sz ord scope la s
  | .amoFmax d a sz ord scope la => Sys2Proof.Machine.execAmoFmax d a sz ord scope la s
  | .ldo d a sz acq scope la => Sys2Proof.Machine.execLdo d a sz acq scope la s
  | .sto d a sz rel scope la => Sys2Proof.Machine.execSto d a sz rel scope la s
  | .cas d a sz ord scope la => Sys2Proof.Machine.execCas d a sz ord scope la s
  | .fence ord scope => Sys2Proof.Machine.execFence ord scope s
  | .prefTlb a off home => Sys2Proof.Machine.execPrefTlb a off home s
  | .prefMsc a off home => Sys2Proof.Machine.execPrefMsc a off home s
  | .send d a b g la => Sys2Proof.Machine.execSend d a b g la s
  | .sends d a b g la => Sys2Proof.Machine.execSends d a b g la s
  | .hoist g => Sys2Proof.Machine.execHoist g s
  | .strike g => Sys2Proof.Machine.execStrike g s
  | .mcmd d a b g la => Sys2Proof.Machine.execMcmd d a b g la s
  | .rbwait d a b g la => Sys2Proof.Machine.execRbwait d a b g la s
  | .rbadv a g => Sys2Proof.Machine.execRbadv a g s
  | .stbind d a b g => Sys2Proof.Machine.execStbind d a b g s
  | .stunbind g => Sys2Proof.Machine.execStunbind g s
  | .cp d a b g la => Sys2Proof.Machine.execCp d a b g la s
  | .cp2d d a b g la => Sys2Proof.Machine.execCp2d d a b g la s
  | .cpidx d a b g la => Sys2Proof.Machine.execCpidx d a b g la s
  | .cpwait a g la => Sys2Proof.Machine.execCpwait a g la s
  | .cpredO d a b g la => Sys2Proof.Machine.execCpredO d a b g la s
  | .cpredU d a b g la => Sys2Proof.Machine.execCpredU d a b g la s
  | .evpop d a g => Sys2Proof.Machine.execEvpop d a g s
  | .evwait d a b g la => Sys2Proof.Machine.execEvwait d a b g la s
  | .evpost d a b g => Sys2Proof.Machine.execEvpost d a b g s
  | .qpost d a b g la => Sys2Proof.Machine.execQpost d a b g la s
  | .qarm a b g => Sys2Proof.Machine.execQarm a b g s
  | .ctradd d a b g la => Sys2Proof.Machine.execCtradd d a b g la s
  | .ctrwait d a b g la => Sys2Proof.Machine.execCtrwait d a b g la s
  | .ctrset a b g => Sys2Proof.Machine.execCtrset a b g s
  | .vadd d a b m t => Sys2Proof.Machine.execVadd d a b m t s
  | .vsub d a b m t => Sys2Proof.Machine.execVsub d a b m t s
  | .vmul d a b m t => Sys2Proof.Machine.execVmul d a b m t s
  | .vmin d a b m t => Sys2Proof.Machine.execVmin d a b m t s
  | .vmax d a b m t => Sys2Proof.Machine.execVmax d a b m t s
  | .vabs d a m t => Sys2Proof.Machine.execVabs d a m t s
  | .vneg d a m t => Sys2Proof.Machine.execVneg d a m t s
  | .viadd d a b m t => Sys2Proof.Machine.execViadd d a b m t s
  | .visub d a b m t => Sys2Proof.Machine.execVisub d a b m t s
  | .vimul d a b m t => Sys2Proof.Machine.execVimul d a b m t s
  | .vimin d a b m t => Sys2Proof.Machine.execVimin d a b m t s
  | .vimax d a b m t => Sys2Proof.Machine.execVimax d a b m t s
  | .viminu d a b m t => Sys2Proof.Machine.execViminu d a b m t s
  | .vimaxu d a b m t => Sys2Proof.Machine.execVimaxu d a b m t s
  | .viadds d a b m t => Sys2Proof.Machine.execViadds d a b m t s
  | .visubs d a b m t => Sys2Proof.Machine.execVisubs d a b m t s
  | .vand d a b m t => Sys2Proof.Machine.execVand d a b m t s
  | .vor d a b m t => Sys2Proof.Machine.execVor d a b m t s
  | .vxor d a b m t => Sys2Proof.Machine.execVxor d a b m t s
  | .vsll d a b m t => Sys2Proof.Machine.execVsll d a b m t s
  | .vsrl d a b m t => Sys2Proof.Machine.execVsrl d a b m t s
  | .vsra d a b m t => Sys2Proof.Machine.execVsra d a b m t s
  | .vfcmpEq d a b m t => Sys2Proof.Machine.execVfcmpEq d a b m t s
  | .vfcmpLt d a b m t => Sys2Proof.Machine.execVfcmpLt d a b m t s
  | .vfcmpLe d a b m t => Sys2Proof.Machine.execVfcmpLe d a b m t s
  | .vfcmpUn d a b m t => Sys2Proof.Machine.execVfcmpUn d a b m t s
  | .vicmpEq d a b m t => Sys2Proof.Machine.execVicmpEq d a b m t s
  | .vicmpLt d a b m t => Sys2Proof.Machine.execVicmpLt d a b m t s
  | .vicmpLtu d a b m t => Sys2Proof.Machine.execVicmpLtu d a b m t s
  | .vmov d a m t => Sys2Proof.Machine.execVmov d a m t s
  | .vsplat d a m t => Sys2Proof.Machine.execVsplat d a m t s
  | .vext d a b m t => Sys2Proof.Machine.execVext d a b m t s
  | .vins d a b m t => Sys2Proof.Machine.execVins d a b m t s
  | .vsel d a b m t => Sys2Proof.Machine.execVsel d a b m t s
  | .vperm d a b m t => Sys2Proof.Machine.execVperm d a b m t s
  | .vdiv d a b m p la => Sys2Proof.Machine.execVdiv d a b m p la s
  | .vsqrt d a m p la => Sys2Proof.Machine.execVsqrt d a m p la s
  | .vrcp d a m p la => Sys2Proof.Machine.execVrcp d a m p la s
  | .vexp2 d a m la => Sys2Proof.Machine.execVexp2 d a m la s
  | .vlog2 d a m la => Sys2Proof.Machine.execVlog2 d a m la s
  | .vraddO d a m t => Sys2Proof.Machine.execVraddO d a m t s
  | .vraddU d a m t => Sys2Proof.Machine.execVraddU d a m t s
  | .vrmin d a m t => Sys2Proof.Machine.execVrmin d a m t s
  | .vrmax d a m t => Sys2Proof.Machine.execVrmax d a m t s
  | .vscanO d a b m t => Sys2Proof.Machine.execVscanO d a b m t s
  | .vscanU d a b m t => Sys2Proof.Machine.execVscanU d a b m t s
  | .viradd d a m t => Sys2Proof.Machine.execViradd d a m t s
  | .vcvtRne d a b m t => Sys2Proof.Machine.execVcvtRne d a b m t s
  | .vcvtRtz d a b m t => Sys2Proof.Machine.execVcvtRtz d a b m t s
  | .vcvtRdn d a b m t => Sys2Proof.Machine.execVcvtRdn d a b m t s
  | .vcvtRup d a b m t => Sys2Proof.Machine.execVcvtRup d a b m t s
  | .vcvtSr d a b f t => Sys2Proof.Machine.execVcvtSr d a b f t s
  | .vpackb d a b m t => Sys2Proof.Machine.execVpackb d a b m t s
  | .vunpackb d a b m t => Sys2Proof.Machine.execVunpackb d a b m t s
  | .vftoi d a m t => Sys2Proof.Machine.execVftoi d a m t s
  | .vitof d a m t => Sys2Proof.Machine.execVitof d a m t s
  | .vfma d a b m t => Sys2Proof.Machine.execVfma d a b m t s
  | .vfms d a b m t => Sys2Proof.Machine.execVfms d a b m t s
  | .vfnma d a b m t => Sys2Proof.Machine.execVfnma d a b m t s
  | .vfnms d a b m t => Sys2Proof.Machine.execVfnms d a b m t s
  | .mand d a b t => Sys2Proof.Machine.execMand d a b t s
  | .mor d a b t => Sys2Proof.Machine.execMor d a b t s
  | .mxor d a b t => Sys2Proof.Machine.execMxor d a b t s
  | .mandn d a b t => Sys2Proof.Machine.execMandn d a b t s
  | .mnot d a t => Sys2Proof.Machine.execMnot d a t s
  | .mpopc d a t => Sys2Proof.Machine.execMpopc d a t s
  | .mma a b row col s_ g la => Sys2Proof.Machine.execMma a b row col s_ g la s
  | .mmac a b row col s_ g la => Sys2Proof.Machine.execMmac a b row col s_ g la s
  | .accz d g la => Sys2Proof.Machine.execAccz d g la s
  | .accld d a b g la => Sys2Proof.Machine.execAccld d a b g la s
  | .accst d a b g la => Sys2Proof.Machine.execAccst d a b g la s
  | .acccvt d a b g la => Sys2Proof.Machine.execAcccvt d a b g la s
  | .accmov d a g la => Sys2Proof.Machine.execAccmov d a g la s
  | .xmov d a g la => Sys2Proof.Machine.execXmov d a g la s
  | .xtr d a g la => Sys2Proof.Machine.execXtr d a g la s
  | .xzero d g la => Sys2Proof.Machine.execXzero d g la s
  | .xcvt d a b g la => Sys2Proof.Machine.execXcvt d a b g la s
  | .tfact d a b g la => Sys2Proof.Machine.execTfact d a b g la s
  | .tsolve d a b g la => Sys2Proof.Machine.execTsolve d a b g la s
  | .burst d g => Sys2Proof.Machine.execBurst d g s
  | .mwait g => Sys2Proof.Machine.execMwait g s
  | .rgcfg d g => Sys2Proof.Machine.execRgcfg d g s
  | .rgmt d a b g la => Sys2Proof.Machine.execRgmt d a b g la s
  | .rgmtu d a g la => Sys2Proof.Machine.execRgmtu d a g la s
  | .rginj d a b g la => Sys2Proof.Machine.execRginj d a b g la s
  | .rgstart d g => Sys2Proof.Machine.execRgstart d g s
  | .rgwait d a g la => Sys2Proof.Machine.execRgwait d a g la s
  | .rgstat d g => Sys2Proof.Machine.execRgstat d g s
  | .rgreinj d g la => Sys2Proof.Machine.execRgreinj d g la s
  | .rgret g => Sys2Proof.Machine.execRgret g s
  | .aucfg d a g la => Sys2Proof.Machine.execAucfg d a g la s
  | .prld d a b g la => Sys2Proof.Machine.execPrld d a b g la s
  | .prst d a b g la => Sys2Proof.Machine.execPrst d a b g la s
  | .aubid d g la => Sys2Proof.Machine.execAubid d g la s
  | .austep d g la => Sys2Proof.Machine.execAustep d g la s
  | .aures d a g la => Sys2Proof.Machine.execAures d a g la s
  | .austat d a g => Sys2Proof.Machine.execAustat d a g s
  | .vpjCfg d g => Sys2Proof.Machine.execVpjCfg d g s
  | .vpj d a b g la => Sys2Proof.Machine.execVpj d a b g la s
  | .vpjMrg d a b g la => Sys2Proof.Machine.execVpjMrg d a b g la s
  | .vpjRd d a b g la => Sys2Proof.Machine.execVpjRd d a b g la s
  | .vpjRegen d a b g la => Sys2Proof.Machine.execVpjRegen d a b g la s
  | .vpjInit d g la => Sys2Proof.Machine.execVpjInit d g la s
  | .start d a b g => Sys2Proof.Machine.execStart d a b g s
  | .exit g => Sys2Proof.Machine.execExit g s
  | .yield a g => Sys2Proof.Machine.execYield a g s
  | .follow d a g => Sys2Proof.Machine.execFollow d a g s
  | .unfollow g => Sys2Proof.Machine.execUnfollow g s
  | .wid d a g => Sys2Proof.Machine.execWid d a g s
  | .pnpush a g => Sys2Proof.Machine.execPnpush a g s
  | .join d a g => Sys2Proof.Machine.execJoin d a g s
  | .vote d a b g => Sys2Proof.Machine.execVote d a b g s
  | .haly d a b g => Sys2Proof.Machine.execHaly d a b g s
  | .hsum d a b g => Sys2Proof.Machine.execHsum d a b g s
  | .lpset a endOff => Sys2Proof.Machine.execLpset a endOff s
  | .lppop => Sys2Proof.Machine.execLppop s
  | .mfc d n => Sys2Proof.Machine.execMfc d n s
  | .mtc d n => Sys2Proof.Machine.execMtc d n s
  | .msc d n => Sys2Proof.Machine.execMsc d n s
  | .mcc d n => Sys2Proof.Machine.execMcc d n s
  | .trap d n => Sys2Proof.Machine.execTrap d n s
  | .tret => Sys2Proof.Machine.execTret s
  | .sysc d n => Sys2Proof.Machine.execSysc d n s
  | .brk n => Sys2Proof.Machine.execBrk n s
  | .halt d => Sys2Proof.Machine.execHalt d s
  | .spillw d => Sys2Proof.Machine.execSpillw d s
  | .fillw => Sys2Proof.Machine.execFillw s
  | .hintImm payload => Sys2Proof.Machine.execHintImm payload s
  | .hintHome payload => Sys2Proof.Machine.execHintHome payload s
  | .hintMod payload => Sys2Proof.Machine.execHintMod payload s
  | .nop => Sys2Proof.Machine.execNop s
  | .illegalWord w => Sys2Proof.Machine.execIllegalWord w s
  | .instructionComplete core ctx idx => Sys2Proof.Machine.execInstructionComplete core ctx idx s
  | .followEngage core => Sys2Proof.Machine.execFollowEngage core s
  | .pageWalkComplete core domain va => Sys2Proof.Machine.execPageWalkComplete core domain va s
  | .postedStoreAck core ctx => Sys2Proof.Machine.execPostedStoreAck core ctx s
  | .postedStoreFail core ctx pa => Sys2Proof.Machine.execPostedStoreFail core ctx pa s
  | .uncorrectableError site => Sys2Proof.Machine.execUncorrectableError site s
  | .correctedError unit => Sys2Proof.Machine.execCorrectedError unit s
  | .unitRetire unit => Sys2Proof.Machine.execUnitRetire unit s
  | .parkedRequestServe addr => Sys2Proof.Machine.execParkedRequestServe addr s
  | .ldsParkRetry core ctx => Sys2Proof.Machine.execLdsParkRetry core ctx s
  | .messageArrival msg => Sys2Proof.Machine.execMessageArrival msg s
  | .messageFail msg => Sys2Proof.Machine.execMessageFail msg s
  | .remoteCommandArrival cmd => Sys2Proof.Machine.execRemoteCommandArrival cmd s
  | .eventRecordArrival core rec => Sys2Proof.Machine.execEventRecordArrival core rec s
  | .hardwarePost core addr => Sys2Proof.Machine.execHardwarePost core addr s
  | .bulkQueueAdmit core => Sys2Proof.Machine.execBulkQueueAdmit core s
  | .copyCommandStart core id => Sys2Proof.Machine.execCopyCommandStart core id s
  | .copyCommandComplete core id => Sys2Proof.Machine.execCopyCommandComplete core id s
  | .copyCommandFault core id => Sys2Proof.Machine.execCopyCommandFault core id s
  | .matrixQueueAdmit core => Sys2Proof.Machine.execMatrixQueueAdmit core s
  | .matrixCommandStart core => Sys2Proof.Machine.execMatrixCommandStart core s
  | .matrixCommandComplete core => Sys2Proof.Machine.execMatrixCommandComplete core s
  | .arrayLevelRise core => Sys2Proof.Machine.execArrayLevelRise core s
  | .arrayLevelFall core => Sys2Proof.Machine.execArrayLevelFall core s
  | .burstHoldExpire core => Sys2Proof.Machine.execBurstHoldExpire core s
  | .ringBeatEnd ring => Sys2Proof.Machine.execRingBeatEnd ring s
  | .ringTaskComplete core => Sys2Proof.Machine.execRingTaskComplete core s
  | .ringIdle ring => Sys2Proof.Machine.execRingIdle ring s
  | .auctionCommandAdmit die => Sys2Proof.Machine.execAuctionCommandAdmit die s
  | .auctionRound die => Sys2Proof.Machine.execAuctionRound die s
  | .vpjTileBoundary core ctx idx => Sys2Proof.Machine.execVpjTileBoundary core ctx idx s
  | .collectiveChunkAdmit die => Sys2Proof.Machine.execCollectiveChunkAdmit die s
  | .chunkArrival chunk => Sys2Proof.Machine.execChunkArrival chunk s
  | .stepResultWrite key => Sys2Proof.Machine.execStepResultWrite key s
  | .stepAbandon key => Sys2Proof.Machine.execStepAbandon key s
  | .entryComplete die idx => Sys2Proof.Machine.execEntryComplete die idx s
  | .quantumBoundary => Sys2Proof.Machine.execQuantumBoundary s
  | .preemptResume core => Sys2Proof.Machine.execPreemptResume core s
  | .qtailWrite fn q v => Sys2Proof.Machine.execQtailWrite fn q v s
  | .launchPacketRead q => Sys2Proof.Machine.execLaunchPacketRead q s
  | .dealIdentifier q core => Sys2Proof.Machine.execDealIdentifier q core s
  | .launchComplete q => Sys2Proof.Machine.execLaunchComplete q s
  | .controlContextRestart core => Sys2Proof.Machine.execControlContextRestart core s
  | .startHelperAssign core => Sys2Proof.Machine.execStartHelperAssign core s
  | .pennantPop core => Sys2Proof.Machine.execPennantPop core s
  | .pennantAgePromote cluster prio idx => Sys2Proof.Machine.execPennantAgePromote cluster prio idx s
  | .halyardEpisodeComplete op word launch => Sys2Proof.Machine.execHalyardEpisodeComplete op word launch s
  | .halyLimitExpire core => Sys2Proof.Machine.execHalyLimitExpire core s
  | .rbwaitTimeout core ctx => Sys2Proof.Machine.execRbwaitTimeout core ctx s
  | .evwaitTimeout core => Sys2Proof.Machine.execEvwaitTimeout core s
  | .rgwaitTimeout core ctx => Sys2Proof.Machine.execRgwaitTimeout core ctx s
  | .yieldExpire core ctx => Sys2Proof.Machine.execYieldExpire core ctx s
  | .partnerSwitch core => Sys2Proof.Machine.execPartnerSwitch core s
  | .faultRecordAppend die rec => Sys2Proof.Machine.execFaultRecordAppend die rec s
  | .fqheadWrite v => Sys2Proof.Machine.execFqheadWrite v s
  | .xlinvPage domain => Sys2Proof.Machine.execXlinvPage domain s
  | .xlinvDomain domain => Sys2Proof.Machine.execXlinvDomain domain s
  | .xlinvAllDomains => Sys2Proof.Machine.execXlinvAllDomains s
  | .xlinvReserved => Sys2Proof.Machine.execXlinvReserved s
  | .xlinvComplete => Sys2Proof.Machine.execXlinvComplete s
  | .keyInstall => Sys2Proof.Machine.execKeyInstall s
  | .keyErase => Sys2Proof.Machine.execKeyErase s
  | .keyCommandComplete => Sys2Proof.Machine.execKeyCommandComplete s
  | .rngFill stream => Sys2Proof.Machine.execRngFill stream s
  | .rngFillComplete stream => Sys2Proof.Machine.execRngFillComplete stream s
  | .devnumWrite fn v => Sys2Proof.Machine.execDevnumWrite fn v s
  | .linkTraining port neighbour => Sys2Proof.Machine.execLinkTraining port neighbour s
  | .pnqbaseWrite fn n v => Sys2Proof.Machine.execPnqbaseWrite fn n v s
  | .rbenWrite core ctx v => Sys2Proof.Machine.execRbenWrite core ctx v s
  | .domctlWrite fn n v => Sys2Proof.Machine.execDomctlWrite fn n v s
  | .domainDisable n => Sys2Proof.Machine.execDomainDisable n s
  | .cctlWrite fn c v => Sys2Proof.Machine.execCctlWrite fn c v s
  | .dbgHalt domain => Sys2Proof.Machine.execDbgHalt domain s
  | .dbgResume domain => Sys2Proof.Machine.execDbgResume domain s
  | .dbgStep domain one core => Sys2Proof.Machine.execDbgStep domain one core s
  | .dbgSuperstep domain one core => Sys2Proof.Machine.execDbgSuperstep domain one core s
  | .debugHaltComplete => Sys2Proof.Machine.execDebugHaltComplete s
  | .coldReset => Sys2Proof.Machine.execColdReset s
  | .warmReset => Sys2Proof.Machine.execWarmReset s
  | .functionLevelReset fn => Sys2Proof.Machine.execFunctionLevelReset fn s
  | .linkWidthRequest v => Sys2Proof.Machine.execLinkWidthRequest v s
  | .linkRetrainComplete => Sys2Proof.Machine.execLinkRetrainComplete s
  | .dieClockRequest die v => Sys2Proof.Machine.execDieClockRequest die v s
  | .dieClockChange die => Sys2Proof.Machine.execDieClockChange die s
  | .powerCapWindow => Sys2Proof.Machine.execPowerCapWindow s
  | .attestationReport nonce => Sys2Proof.Machine.execAttestationReport nonce s
  | .hostWrite fn pa bytes => Sys2Proof.Machine.execHostWrite fn pa bytes s
  | .hostRead fn pa n => Sys2Proof.Machine.execHostRead fn pa n s
  | .registerWrite fn off size v => Sys2Proof.Machine.execRegisterWrite fn off size v s
  | .powerDown => Sys2Proof.Machine.execPowerDown s
  | .fabricLinkLoss port => Sys2Proof.Machine.execFabricLinkLoss port s
  | .qctlWrite fn q v => Sys2Proof.Machine.execQctlWrite fn q v s
  | .fqctlWrite v => Sys2Proof.Machine.execFqctlWrite v s
  | .ideKmKeyProgram key => Sys2Proof.Machine.execIdeKmKeyProgram key s
  | .spdmSession nonce => Sys2Proof.Machine.execSpdmSession nonce s

end Sys2Proof.Machine
end

