-- ==== Sys2Proof/Machine/Schedule.lean ====
section
/-! DEFINITION. What the package may do next: the issue cycles of the cores (15 R312), the completion of instructions, and the moves
of every engine and queue. Which of several comes first is a free choice (DESIGN CHOICE, log entry 2). -/

namespace Sys2Proof.Machine

/-! ### Fetch and issue -/

/-- The word at the program counter of the running context (03 R52, R59). A store into the running kernel image is seen by the next fetch
(DESIGN CHOICE, log entry 56). -/
def State.fetch (s : State) : Except Flt Nat :=
  match s.access s.who s.cx.flow.pc 4 .fetch .fetch with
  | .error f => .error f
  | .ok l => .ok (s.peek l 4)

/-- The running context executes a word (02 R12, R20). -/
def runWord (w : Nat) (s : State) : Host.Outcome State Fault Refusal :=
  if isSysMajor w then
    match decodeSys w with
    | .ok i => SysWord.exec i s
    | .error _ => execIllegalWord w s
  else
    match decodeOps w with
    | .ok i => exec i s
    | .error _ => execIllegalWord w s

/-- The running context's next word: a follower takes what its leader has issued, where that is its own next address, and waits while
there is nothing (14 R290); every other context fetches. -/
def State.nextWord (s : State) : Option (Except Flt Nat) :=
  match s.cx.follow with
  | none => some s.fetch
  | some f =>
    if !f.on || s.cx.level != 0 then some s.fetch
    else
      match f.queue with
      | [] => if s.parted f then some s.fetch else none
      | (a, w, _) :: _ => some (if a = s.cx.flow.pc then .ok w else s.fetch)

/-- The leader has issued UNFOLLOW at the follower's next address: the follower goes on after it, without executing it (14 R292). -/
def State.unfollowed (s : State) : Option State :=
  match s.cx.follow with
  | none => none
  | some f =>
    match f.queue with
    | (a, w, true) :: _ =>
      if f.on && s.cx.level == 0 && a == s.cx.flow.pc && bits w 31 26 == 0x38 && bits w 25 22 == 4 && !s.cx.flow.closed then
        some (s.setCx { s.cx with follow := none, flow := { s.cx.flow.issued with pc := a + 4 } }).stamp
      else none
    | _ => none

/-- The running context attempts its next instruction: a fetch that faults traps once it is reached (03 R59). -/
def attemptWord (s : State) : Host.Outcome State Fault Refusal :=
  match s.unfollowed with
  | some s' => .next s'
  | none =>
  match s.nextWord with
  | none => .next s
  | some (.ok w) => runWord w s
  | some (.error (c, code)) => if s.cx.flow.closed then .next s else .next (s.trapHere c code s.cx.flow.pc)

/-- The running context has taken a trap, or died, from one state to the next. -/
def State.trapped (s s' : State) : Bool := decide (s.cx.level < s'.cx.level) || (s'.cx.life == .dead && s.cx.life != .dead)

/-- An attempt; where it traps and an unfinished instruction before it raises a condition too, the earliest in program order traps (18
R343). -/
def attempt (s : State) : Host.Outcome State Fault Refusal :=
  match attemptWord s with
  | .next s' =>
    if s.trapped s' then
      match s.earlierTrap Instr.fin s.cx.flow.seq with
      | none => .next s'
      | some (e, c, code, aux) => .next ((s.rerun e).trapEntry e c code aux).stamp
    else .next s'
  | r => r

/-- The context issued in the cycle that the state is in. -/
def State.issuedNow (s s' : State) (core k : Nat) : Bool :=
  (s'.ctx core k).last == (s.core core).cycle || (s'.ctx core k).flow.chain.length != (s.ctx core k).flow.chain.length

/-- Contexts that issue selection may consider (14 R273, 15 R312). -/
def Core.candidates (x : Core) : List Nat :=
  (List.range 11).filter (fun k => (x.ctx k).life == .live && decide ((x.ctx k).yielded ≤ x.cycle))

/-- The state in which the next cycle of a core begins. -/
def State.nextCycle (s : State) (core : Nat) : State :=
  let x := s.core core
  s.setCore core { x with cycle := x.cycle + 1, ctxs := x.ctxs.map (fun p => (p.1, { p.2 with passed := 0 })) }

/-- Context `k` of a core attempts its next instruction. -/
def State.attemptAt (s : State) (core k : Nat) : Host.Outcome State Fault Refusal := attempt { s with cur := (core, k) }

/-- Of ready contexts, the one that issues: one passed over for 32 ready cycles, else that of greatest age; ties go to the lower number
(15 R312). -/
def State.pick (s : State) (core : Nat) (ready : List Nat) : Nat :=
  match ready.find? (fun k => decide (32 ≤ (s.ctx core k).passed)) with
  | some k => k
  | none => ((sortBy (fun k => (s.ctx core k).last * 16 + k) ready).head?).getD 0

/-- The context is ready: its next word issues, and where that is a HINT, what follows in its chain of at most three up to the consumer
(15 R312). -/
def State.readyAt (s : State) (core k : Nat) : Nat → Bool
  | 0 => true
  | n + 1 =>
    match s.attemptAt core k with
    | .next s' =>
      if (s.ctx core k).flow.chain.length < (s'.ctx core k).flow.chain.length then s'.readyAt core k n else s.issuedNow s' core k
    | .fault _ | .refused _ => true

/-- Stepping control contexts that follow `core` and have received no word from it stop with it (19 R369, j): while their leader is
stopped they have none to issue. -/
def State.stopFollowers (s : State) (core : Nat) : State :=
  (s.cores.filter (fun p => s.followsIt p.2 core && p.2.ctxs.all (fun q => !q.2.stepping || (q.1 == 0 && (match q.2.follow with
    | some f => f.queue == []
    | none => false))))).foldl (fun s p => s.stopSteps p.1) s

/-- After an issue by a stepping context the core stops again (18 R357). -/
def State.afterStep (s s' : State) (core k : Nat) : State :=
  if (s.ctx core k).stepping && !s.admin.super && s.issuedNow s' core k && (s'.ctx core k).flow.chain == [] then
    let s' := (s'.stopSteps core).stopFollowers core
    match s'.admin.stepping, s'.admin.halting with
    | false, some d => s'.holdCopies d
    | _, _ => s'
  else s'

/-- Applies a function to the next state. -/
def mapNext (f : State → State) : Host.Outcome State Fault Refusal → Host.Outcome State Fault Refusal
  | .next s => .next (f s)
  | .fault r => .fault r
  | .refused r => .refused r

/-- The context whose HINT chain has begun and whose next word is ready: a chain issues with its consumer in one cycle (15 R312). -/
def State.chained (s : State) (core : Nat) : Option Nat :=
  (s.core core).candidates.find? (fun k => (s.ctx core k).flow.chain != [] && s.readyAt core k 4)

/-- A cycle of a core begins, and a ready context issues in it (15 R312). -/
def State.issueCycle (s : State) (core : Nat) : Host.Outcome State Fault Refusal :=
  let s0 := s.nextCycle core
  match (s0.core core).candidates with
  | [] => .next s0
  | [k] => if (s0.ctx core k).stepping then mapNext (fun s' => s0.afterStep s' core k) (s0.attemptAt core k) else s0.attemptAt core k
  | ks =>
    let ready := ks.filter (fun k => s0.readyAt core k 4)
    if ready = [] then .next s0
    else
      let k := s.pick core ready
      mapNext (fun s' =>
        let s' := (ready.filter (· != k)).foldl (fun t j =>
          t.setCtx core j { t.ctx core j with passed := (s.ctx core j).passed + 1 }) s'
        s0.afterStep s' core k) (s0.attemptAt core k)

/-- The next issue of a core: a chain that has begun goes on in its cycle, and otherwise a cycle begins. -/
def State.issueCore (s : State) (core : Nat) : Host.Outcome State Fault Refusal :=
  match s.chained core with
  | some k => mapNext (fun s' => s.afterStep s' core k) (s.attemptAt core k)
  | none => s.issueCycle core

/-! ### Moves -/

/-- What may happen next. -/
inductive Move where
  | issue (core : Nat)
  /-- A page walk that an earlier access of the core began ends (03 R54). -/
  | walk (core : Nat)
  | complete (core k idx : Nat)
  /-- A store on its way takes its place, or is acknowledged. -/
  | land (core k idx : Nat)
  | ack (core k : Nat)
  /-- The vector unit or the memory path of a core is busy from now on, or no more. -/
  | vbusy (core : Nat)
  | mbusy (core : Nat)
  | send (core : Nat)
  | record (core : Nat)
  | post (core : Nat) (a : W64)
  | remote (c : RemoteCmd)
  | chunk (c : Chunk)
  | frec (die : Nat) (r : FaultRec)
  | bulkAdmit (core : Nat)
  | copyStart (core id : Nat)
  | copyStep (core id : Nat)
  | copyEnd (core id : Nat)
  | mxAdmit (core : Nat)
  | mxStart (core : Nat)
  | mxEnd (core : Nat)
  | ringTaskEnd (core : Nat)
  | levelUp (core : Nat)
  | levelDown (core : Nat)
  | burstEnd (core : Nat)
  | rbTimeout (core k : Nat)
  | evTimeout (core : Nat)
  | rgTimeout (core k : Nat)
  | halyExpire (core : Nat)
  | partEnd (core : Nat)
  | pop (core : Nat)
  | promote (cluster prio idx : Nat)
  | resume (core : Nat)
  /-- The pre-emption of a core is complete. -/
  | take (core : Nat)
  | beat (ring : Nat)
  | ringRest (ring : Nat)
  | auAdmit (die : Nat)
  | auRound (die : Nat)
  | chunkAdmit (die : Nat)
  | workEnd (die idx : Nat)
  | stepWrite (k : StepKey)
  | stepDrop (k : StepKey)
  | episode (op : Nat) (w : W64) (launch : Nat)
  | packet (q : Nat)
  | deal (q : Nat)
  | launchEnd (q : Nat)
  | quantum
  | invEnd
  | keyEnd
  | rngEnd (n : Nat)
  | haltEnd
  | disable (d : Nat)
  /-- A physical core switches to the partner of its logical core. -/
  | turn (core : Nat)
  /-- The step of bring-up is done. -/
  | boot
  | retrain
  | dieClock (die : Nat)
  | retire (u : HwUnit)
  deriving DecidableEq, Repr

/-- An instruction that may complete while its window is open and nothing waits: one on whose registers no other may depend, or an access
to memory, which may be made before those of the window or after (07 R130, 16 R319). -/
def Entry.early (e : Entry) : Bool :=
  (e.instr.shape.wr.isEmpty && e.instr.shape.late.isEmpty) || rereads e.instr || exchanges e.instr || parks e.instr

/-- The effect of the entry has taken place, and its results wait for the end of its window (07 R130). -/
def Ctx.performed (c : Ctx) (e : Entry) : Bool := e.left != 0 && e.binds && ((Tbl.find c.results e.seq).any (fun r => !r.isFault))

/-- The context has to wait: its next word does not issue as the state stands. -/
def State.waits (s : State) (core k : Nat) : Bool :=
  match (s.nextCycle core).attemptAt core k with
  | .next s' => !(s.nextCycle core).issuedNow s' core k
  | .fault _ | .refused _ => false

/-- The effect of the entry at index `i` lets it go on. -/
def State.mayFinish (s : State) (core k : Nat) (e : Entry) : Bool :=
  match s.finish Instr.fin core k e.seq with
  | .wait => false
  | .next _ => true

/-- The state with every entry of a context complete whose effect has taken place. -/
def State.allSettled (s : State) (core k : Nat) : State :=
  (s.ctx core k).flow.inflight.foldl (fun s e =>
    if (s.ctx core k).performed e then
      match s.finish Instr.fin core k e.seq with
      | .wait => s
      | .next s => s
    else s) s

/-- The moves that complete an instruction of a context, of its queued V words the first only (09 R174): one whose window is closed or that
may complete early; where there is none of these, and the context waits, any that may complete, and at last, where that lets the context go on, those whose effects have taken
place (07 R129, 16 R319; DEDUCED, log entry 6). -/
def State.completions (s : State) (core k : Nat) : List Move :=
  let c := s.ctx core k
  let es := indexed 0 c.flow.inflight
  if c.life ≠ .live then []
  else
    let firstV := (es.find? (fun p => p.2.queued)).map (·.1)
    let may := es.filter (fun p => !c.performed p.2 && (!p.2.queued || firstV == some p.1) && s.mayFinish core k p.2)
    let now := may.filter (fun p => p.2.left == 0 || p.2.early)
    let move (l : List (Nat × Entry)) : List Move := l.map (fun p => .complete core k p.1)
    if now ≠ [] ∨ !s.waits core k then move now
    else if may ≠ [] then move may
    else
      let t := s.allSettled core k
      if !t.waits core k || (t.ctx core k).flow.inflight.any (fun e => t.mayFinish core k e) then
        move (es.filter (fun p => c.performed p.2))
      else []

/-- The limits that may pass in a context: RBWAIT, EVWAIT, RGWAIT and HALY (04 R72, 05 R93, 11 R228, 14 R286). -/
def Ctx.limits (c : Ctx) (core k : Nat) : List Move :=
  c.flow.inflight.filterMap (fun e => match e.instr with
    | .rbwait .. => if e.opb = 0 then none else some (.rbTimeout core k)
    | .evwait .. => if e.opb = 0 then none else some (.evTimeout core)
    | .rgwait .. => if e.opa = 0 then none else some (.rgTimeout core k)
    | .haly .. => if e.opb = 0 then none else some (.halyExpire core)
    | _ => none)

/-- Moves under a condition. -/
def onlyIf (b : Bool) (l : List Move) : List Move := if b then l else []

/-- The moves of one core and of the engines that stand beside it. -/
def State.coreMoves (s : State) (core : Nat) : List Move :=
  let x := s.core core
  let live := (List.range 11).filter (fun k => (x.ctx k).life == .live)
  let mx := !x.mq.isEmpty || !x.rcbuf.isEmpty || x.ring.isSome || live.any (fun k => !(x.ctx k).flow.inflight.isEmpty)
  List.flatten [
    onlyIf (!live.isEmpty && s.onTurn core) [Move.issue core],
    onlyIf ((s.partnerOf core).isSome && s.onTurn core && s.yieldsTurn core) [Move.turn core],
    onlyIf (!live.isEmpty && x.cycle != 0) [Move.walk core],
    live.flatMap (fun k => s.completions core k),
    x.ctxs.flatMap (fun p => (indexed 0 p.2.stores).filterMap (fun q => if q.2.landed then none else some (Move.land core p.1 q.1))),
    x.ctxs.flatMap (fun p => onlyIf (p.2.stores.any (·.posted)) [Move.ack core p.1]),
    onlyIf (!live.isEmpty && x.cycle != 0) [Move.vbusy core, Move.mbusy core],
    live.flatMap (fun k => (x.ctx k).limits core k),
    onlyIf (!x.sendq.isEmpty) [Move.send core],
    onlyIf (x.copyq.any (·.bulk)) [Move.bulkAdmit core],
    x.copyWaiting.map (fun c => Move.copyStart core c.id),
    (x.copyRun.filter (·.started)).flatMap (fun c => [Move.copyStep core c.id, Move.copyEnd core c.id]),
    onlyIf mx [Move.mxAdmit core, Move.mxStart core, Move.mxEnd core, Move.ringTaskEnd core],
    onlyIf (!x.mq.isEmpty || x.mxlevel != 0 || x.burst != 0) [Move.levelUp core, Move.levelDown core, Move.burstEnd core],
    onlyIf (x.running.isSome && (List.range 11).all (fun k => !(x.ctx k).busy)) [Move.partEnd core],
    onlyIf (!s.launch.pennants.isEmpty) [Move.pop core],
    onlyIf (s.launch.stopped.any (fun p => p.core == core)) [Move.resume core],
    onlyIf (s.launch.taking.any (fun p => p.1 == core)) [Move.take core],
    onlyIf x.lasting [Move.retire (.core core)]]

/-- The moves of what is on its way. -/
def State.netMoves (s : State) : List Move :=
  List.flatten [
    s.net.recs.map (fun p => Move.record p.1),
    s.net.posts.map (fun p => Move.post p.1 p.2.1),
    s.net.rcmds.map (fun c => Move.remote c),
    s.net.chunks.map (fun c => Move.chunk c),
    [0, 1, 2, 3].filterMap (fun d => (s.net.frecs.find? (fun p => p.1 == d)).map (fun p => Move.frec p.1 p.2))]

/-- The moves of rings, auctions, collectives and halyards. -/
def State.engineMoves (s : State) : List Move :=
  List.flatten [
    (s.rings.filter (fun p => p.2.running)).flatMap (fun p => [Move.beat p.1, Move.ringRest p.1]),
    (s.auction.filter (fun p => !p.2.queue.isEmpty)).flatMap (fun p => [Move.auAdmit p.1, Move.auRound p.1]),
    onlyIf (!s.coll.work.isEmpty) [Move.chunkAdmit 0, Move.chunkAdmit 1, Move.chunkAdmit 2, Move.chunkAdmit 3],
    s.coll.work.map (fun p => Move.workEnd (p.1 / 4096) (p.1 % 4096)),
    s.coll.steps.map (fun t => Move.stepWrite ⟨t.comm, t.seq, t.dst⟩),
    (s.coll.steps.filter s.stepLate).map (fun t => Move.stepDrop ⟨t.comm, t.seq, t.dst⟩),
    s.episodes.map (fun e => Move.episode e.op e.word e.launch)]

/-- The moves of the launch unit. -/
def State.launchMoves (s : State) : List Move :=
  List.flatten [
    onlyIf (!s.launch.slots.isEmpty || !s.launch.waiting.isEmpty || !s.launch.stopped.isEmpty
      || [0, 1, 2, 3].any (fun d => s.rsvWant d != s.dregN (0x220018 + 32 * d))) [Move.quantum],
    (s.launch.slots.filter (fun p => (Tbl.find s.launch.active p.2.1).isNone)).map (fun p => Move.packet p.2.1),
    s.launch.active.flatMap (fun p => [Move.deal p.1, Move.launchEnd p.1]),
    s.launch.pennants.flatMap (fun p => (indexed 0 p.2).map (fun q => Move.promote (p.1 / 4) (p.1 % 4) q.1))]

/-- The moves of the host port's engines, debug and power. -/
def State.adminMoves (s : State) : List Move :=
  List.flatten [
    onlyIf (!s.admin.xlinv.isEmpty) [Move.invEnd],
    onlyIf (s.admin.keyBusy != 0) [Move.keyEnd],
    s.admin.fills.map (fun n => Move.rngEnd n),
    onlyIf (s.admin.halting.isSome && !s.admin.halted) [Move.haltEnd],
    s.admin.disabling.map (fun d => Move.disable d),
    onlyIf (s.admin.boot != 0) [Move.boot],
    onlyIf (s.admin.linkPending || s.admin.linkWidth == 0) [Move.retrain],
    s.admin.diePending.map (fun d => Move.dieClock d),
    (s.admin.lastingUnits.filter (fun u => !s.admin.retiredUnits.contains u)).map (fun u => Move.retire u)]

/-- Everything that may happen next. -/
def State.moves (s : State) : List Move :=
  List.flatten [s.cores.flatMap (fun p => s.coreMoves p.1), s.netMoves, s.engineMoves, s.launchMoves, s.adminMoves]

/-- An instruction completes; in a superstep the core stops once its control context completes a VOTE or HALY (18 R357). -/
def State.completeMove (s : State) (core k idx : Nat) : State :=
  let sync := match (s.ctx core k).flow.inflight[idx]? with
    | some e => match e.instr with
      | .vote .. | .haly .. => true
      | _ => false
    | none => false
  match s.completeNth core k idx with
  | none => s
  | some s' =>
    if sync && k == 0 && s.admin.super && (s.ctx core k).stepping
        && decide ((s'.ctx core k).flow.inflight.length < (s.ctx core k).flow.inflight.length) then
      let s' := s'.stopSteps core
      match s'.admin.stepping, s'.admin.halting with
      | false, some d => s'.holdCopies d
      | _, _ => s'
    else s'

/-- A page walk of a core ends: which page it was of is free (03 R54). -/
def State.walkMove (s : State) (core : Nat) : State :=
  let (v, s) := s.freeWord
  s.tlbFill core (s.core core).domain (v.toNat % 2 ^ 52)

/-- The launch unit deals to one of the free cores that may receive an identifier (15 R306), or ends a replayed launch whose cores are
not all usable (15 R311). -/
def State.dealMove (s : State) (q : Nat) : State :=
  if s.replayLost q then s.dealCore q 0
  else
    let cs := (List.range 1536).filter (fun c => s.coreFree c && s.canDeal q c && s.mayStart q c && s.firstFor q c)
    if cs = [] then s
    else
      let (n, s) := s.choose cs.length
      s.dealCore q (cs.getD n 0)

/-- The vector unit of a core turns busy or idle (DESIGN CHOICE, log entry 45). -/
def State.turnV (s : State) (core : Nat) : State := s.setCore core { s.core core with vbusy := !(s.core core).vbusy }

/-- The memory path of a core turns busy or idle (DESIGN CHOICE, log entry 45). -/
def State.turnM (s : State) (core : Nat) : State := s.setCore core { s.core core with mbusy := !(s.core core).mbusy }

/-- Makes a move. -/
def State.play (s : State) (m : Move) : Host.Outcome State Fault Refusal :=
  match m with
  | .issue c => s.issueCore c
  | .walk c => .next (s.walkMove c)
  | .complete c k i => .next (s.completeMove c k i)
  | .land c k i => .next ((s.landStore c k i).getD s)
  | .ack c k => execPostedStoreAck c k s
  | .vbusy c => .next (s.turnV c)
  | .mbusy c => .next (s.turnM c)
  | .send c => .next ((s.sendHead c).getD s)
  | .record c => .next ((s.recNext c).getD s)
  | .post c a => execHardwarePost c a s
  | .remote c => execRemoteCommandArrival c s
  | .chunk c => execChunkArrival c s
  | .frec d r => execFaultRecordAppend d r s
  | .bulkAdmit c => execBulkQueueAdmit c s
  | .copyStart c n => execCopyCommandStart c n s
  | .copyStep c n => .next ((s.copyStepId c n).getD s)
  | .copyEnd c n => .next ((s.copyEndId c n).elim s (·.1))
  | .mxAdmit c => execMatrixQueueAdmit c s
  | .mxStart c => execMatrixCommandStart c s
  | .mxEnd c => execMatrixCommandComplete c s
  | .ringTaskEnd c => execRingTaskComplete c s
  | .levelUp c => execArrayLevelRise c s
  | .levelDown c => execArrayLevelFall c s
  | .burstEnd c => execBurstHoldExpire c s
  | .rbTimeout c k => execRbwaitTimeout c k s
  | .evTimeout c => execEvwaitTimeout c s
  | .rgTimeout c k => execRgwaitTimeout c k s
  | .halyExpire c => execHalyLimitExpire c s
  | .partEnd c => .next (s.endPart c)
  | .pop c => execPennantPop c s
  | .promote n p i => execPennantAgePromote n p i s
  | .resume c => execPreemptResume c s
  | .take c => .next (s.takeEnd c)
  | .beat r => execRingBeatEnd r s
  | .ringRest r => execRingIdle r s
  | .auAdmit d => execAuctionCommandAdmit d s
  | .auRound d => execAuctionRound d s
  | .chunkAdmit d => execCollectiveChunkAdmit d s
  | .workEnd d i => execEntryComplete d i s
  | .stepWrite k => execStepResultWrite k s
  | .stepDrop k => execStepAbandon k s
  | .episode o w l => execHalyardEpisodeComplete o w l s
  | .packet q => execLaunchPacketRead q s
  | .deal q => .next (s.dealMove q)
  | .launchEnd q => execLaunchComplete q s
  | .quantum => execQuantumBoundary s
  | .invEnd => execXlinvComplete s
  | .keyEnd => execKeyCommandComplete s
  | .rngEnd n => execRngFillComplete n s
  | .haltEnd => execDebugHaltComplete s
  | .disable d => execDomainDisable d s
  | .turn c => execPartnerSwitch c s
  | .boot => .next s.bootStep
  | .retrain => execLinkRetrainComplete s
  | .dieClock d => execDieClockChange d s
  | .retire u => execUnitRetire u s

/-- Time passes by a free amount before every step (DESIGN CHOICE, log entry 3). -/
def State.tick (s : State) : State := { s with time := s.time + Config.choice s.fresh, fresh := s.fresh + 1 }

/-- Time passes, and the steps of adders whose time is over are abandoned at once (17 R334). -/
def State.passTime (s : State) : State := s.tick.dropLate

/-- A store that has been on its way longer than the bound of the part, and can take its place: it does so before anything else, so that
every write becomes readable in finite time (16 R325; DESIGN CHOICE, log entry 70). -/
def State.overdue (s : State) : Option State :=
  s.cores.findSome? (fun p => p.2.ctxs.findSome? (fun q => (indexed 0 q.2.stores).findSome? (fun x =>
    if !x.2.landed && decide (x.2.birth + Config.landBound ≤ s.fresh) then s.landStore p.1 q.1 x.1 else none)))

/-- One of the moves, by a free choice where there are several; with none, only time passes. -/
def State.move (s : State) : Host.Outcome State Fault Refusal :=
  match s.overdue with
  | some s' => .next s'
  | none =>
  match s.moves with
  | [] => .next s
  | [m] => s.play m
  | ms =>
    let (n, s) := s.choose ms.length
    match ms[n]? with
    | some m => s.play m
    | none => .next s

/-! ### Placing a word for the host -/

/-- A page table of domain 1 that maps the first GiB to itself for reads, writes and fetches, and the word at 0x40000. -/
def placedMem (m : Mem) (w : Nat) : Mem :=
  let m := Mem.write m 0x20000 16 0x30001
  let m := Mem.write m 0x30000 16 0x1F
  Mem.write m 0x40000 4 w

/-- The part that stands for a launch of domain 1 on core 0. -/
def placedPart : Part where
  queue := 0
  domain := 1
  prio := 0
  comm := false
  kimg := 0x40000
  widhdr := 0
  args := []
  fmts := []
  run := []
  done := 0
  exhausted := false
  promise := 0
  died := false
  ended := false

/-- The state with context 0 of core 0 live at a placed word and nothing else at work. -/
def State.placeWord (s : State) (w : Nat) : State :=
  let x := s.core 0
  let c := x.ctx 0
  let flow := { c.flow with pc := 0x40000, chain := [], inflight := [], gone := [], loops := [] }
  let c := { c with life := .live, level := 0, follow := none, yielded := 0, stepping := false, stores := [], flow := flow }
  let x := { x with
    ctxs := [(0, c)], cycle := 0, sendq := [], copyq := [], copyRun := [], mq := [], rcbuf := [], mxlevel := 0, burst := 0
    ring := none, micro := [], vbusy := false, mbusy := false, part := some placedPart, lasting := false }
  { s.setDreg 0x100008 0x20001 with
    cores := [(0, x)], mem := placedMem s.mem w, lost := [], lineKey := [], ctlb := [], net := ⟨[], [], [], [], [], []⟩
    rings := [], auction := [], coll := ⟨[], [], [], [], 0, []⟩, launch := LaunchUnit.reset, episodes := []
    admin := { Admin.reset with keys := s.admin.keys, replies := s.admin.replies }
    cur := (0, 0), agenda := [] }

end Sys2Proof.Machine
end

