-- ==== Sys2Proof/Machine/Step.lean ====
section
/-! DEFINITION. One step of the package, and how the host places an instruction where the next step fetches. -/

namespace Sys2Proof.Machine

/-- The next event of the outside world happens. A row of the agenda that is an instruction word is nothing that the outside world can do,
and is dropped. -/
def State.event (s : State) : Host.Outcome State Fault Refusal :=
  match s.agenda with
  | i :: rest => if Instr.isEvent i then exec i { s with agenda := rest } else .next { s with agenda := rest }
  | [] => .next s

/-- One step: time passes; then one move of the package is made, or the next event of the outside world happens, by a free choice where both
may (16 R320; DESIGN CHOICE, log entries 1 to 3). -/
def step (s : State) : Host.Outcome State Fault Refusal :=
  let s := s.passTime
  if s.agenda = [] then s.move
  else if s.moves = [] then s.event
  else
    let (b, s) := s.choose 2
    if b = 0 then s.event else s.move

/-- The state with a word where step fetches its next instruction, and nothing else at work: it stands for the launch that
would bring a program here (DESIGN CHOICE, log entry 9). -/
def State.withFetchWord (s : State) (nbits w : Nat) : State := s.placeWord (w % 2 ^ min nbits 32)

end Sys2Proof.Machine
end

