-- ==== Sys2Proof/Safety.lean ====
section
/-! DEFINITION. What counts as a safe run of the package, and the terms that claims about its instructions use. -/

namespace Sys2Proof.Machine

/-- A step is safe when it gives a next state: it neither stops with a fault nor is refused. -/
def Safe (r : Host.Outcome State Fault Refusal) : Prop := ∃ t, r = .next t

/-- The state's memory is in its canonical form: addresses rise, and no listed byte is what an unlisted one reads as. -/
def MemOk (s : State) : Prop := Memory.wf s.mem = true

/-- Every byte of memory reads as before. -/
def SameMem (s t : State) : Prop := ∀ x, Mem.byte t.mem x = Mem.byte s.mem x

/-- Every byte of memory outside the `n` bytes at key `a` reads as before. -/
def SameOutside (a n : Nat) (s t : State) : Prop := ∀ x, x < a ∨ a + n ≤ x → Mem.byte t.mem x = Mem.byte s.mem x

/-! ### What the running context reads -/

/-- Nothing of the running context is under way and nothing holds its issue: no HINT chain, no unfinished instruction, no loop
level, no transient result, no bound stream, no store on its way, no earlier work of the core's vector unit or memory path, and no
core follows or is followed. -/
def State.quiet (s : State) : Bool :=
  s.cx.flow.chain.isEmpty && s.cx.flow.inflight.isEmpty && s.cx.flow.gone.isEmpty && s.cx.flow.loops.isEmpty
    && s.cx.flow.stale.isEmpty && s.cx.follow.isNone && s.cx.stream.isNone && s.cx.stores.isEmpty && !s.cc.vbusy && !s.cc.mbusy
    && s.cc.vqueue == 0 && s.cores.all (fun p => (Core.ctx p.2 0).follow.isNone)

/-- No core follows another. -/
def State.alone (s : State) : Prop := ∀ p ∈ s.cores, (Core.ctx p.2 0).follow = none

/-- No message that the running context sent is on its way: a release has none to wait for (04 R75, 06 R118). -/
def State.Sent (s : State) : Prop := s.sending true = false

/-- The guard slot is true; q0 always is (07 R120). -/
def State.guardOk (s : State) (g : Nat) : Bool := g == 0 || s.cx.qOf g == .val true

/-- A w register of the running context; w0 is 0 (07 R121). -/
def State.reg (s : State) (n : Nat) : W64 :=
  match s.cx.wloc n with
  | none => 0
  | some r => s.cx.wraw r

/-- A mask register of the running context; m0 is all ones (07 R120). -/
def State.mreg (s : State) (n : Nat) : W64 := if n = 0 then BitVec.allOnes 64 else Tbl.get 0 s.cx.vec.m n

/-- A vector register of the running context. -/
def State.vreg (s : State) (n : Nat) : Nat := Tbl.get 0 s.cx.vec.v n

/-- Its tag code. -/
def State.vtag (s : State) (n : Nat) : Nat := Tbl.get 0 s.cx.vec.vtag n

/-- What a quiet context captures for a vector operand. -/
def State.vcap (s : State) : Option RegName → Nat × Nat
  | some (.v n) => (s.vreg n, s.vtag n)
  | some (.src n) => (s.vreg n, s.vtag n)
  | _ => (0, 0)

/-- The entry that a quiet context captures (07 R130). -/
def State.entryOf (s : State) (i : Instr) (word : Nat) (h : Shape) : Entry :=
  let a := s.vcap h.va
  let b := s.vcap h.vb
  { seq := s.cx.flow.seq, instr := i, word := BitVec.ofNat 32 word, pc := s.cx.flow.pc, own := s.cx.flow.pc,
    imm := none, opd := (h.opd.map s.reg).getD 0, opa := (h.opa.map s.reg).getD 0, opb := (h.opb.map s.reg).getD 0
    mask := (h.mask.map s.mreg).getD 0, hints := 0, va := a.1, vb := b.1, left := h.la, await := false, atEnd := false
    ext := [a.2, b.2] ++ s.cx.vdestNow h.vdest ++ s.captureEx s.cur.1 s.cur.2 h.ex
    priv := s.privOf s.cur.1 s.cur.2, cyc := s.cc.cycle }

/-- The state after the issue of a word with this shape, before its effect. -/
def State.issuedAs (s : State) (h : Shape) : State := s.setCx (s.cx.issue h)

/-- The state after an issue of the running context that leaves it as `c` and changes nothing else (15 R312). -/
def State.after (s : State) (c : Ctx) : State := s.setCx { c with last := s.cc.cycle, passed := 0 }

/-- The context after the issue of a word with no result of its own. -/
def Ctx.stepped (c : Ctx) : Ctx := { c with flow := { c.flow.issued with seq := c.flow.seq + 1 } }

/-- The state after a word that writes a w register, transient or not, and nothing else (07 R128). -/
def State.wrote (s : State) (d : Nat) (v : W64) (t : Bool) : State := s.after (s.cx.stepped.writeW d v t)

/-- The context of a long-latency word with its result in a w register. -/
def State.resultCx (s : State) (h : Shape) (d : Nat) (v : W64) : Ctx :=
  { ((s.cx.issue h).fileW d v) with flow := ((s.cx.issue h).fileW d v).flow.fillResult s.cx.flow.seq v.toNat 0 }

/-- The state after a long-latency word that completes at once with a result in a w register, and changes nothing else. -/
def State.result (s : State) (i : Instr) (d : Nat) (v : W64) : State := s.after (s.resultCx i.shape d v)

/-- The state after a transfer to `t` that changes nothing else. -/
def State.went (s : State) (t : W64) : State :=
  s.after { s.cx.stepped with flow := { s.cx.stepped.flow with pc := t } }

/-- Nothing of the context is under way but its loop levels. -/
def Unlooped (s : State) : Prop := (s.setCx { s.cx with flow := { s.cx.flow with loops := [] } }).quiet = true ∧ s.alone

/-- The state after a word that goes on at `pc` with the loop levels `ls` and changes nothing else. -/
def State.looped (s : State) (pc : W64) (ls : List Loop) : State :=
  s.after { s.cx.stepped with flow := { s.cx.stepped.flow with pc := pc, loops := ls } }

/-- The level ends at the address of the context, and is current. -/
def EndsHere (s : State) (k : Loop) : Prop := k.win = s.cx.depth ∧ k.fin = s.cx.flow.pc

/-- The state after a word that writes a vector register, transient or not, raises flags and changes nothing else. -/
def State.wroteV (s : State) (d tag v : Nat) (t : Bool) (fl : Flags) : State :=
  s.after ((s.cx.stepped.orFlags fl).writeV d v tag t)

/-- The state after a word that writes a mask register, transient or not, raises flags and changes nothing else. -/
def State.wroteM (s : State) (d : Nat) (v : W64) (t : Bool) (fl : Flags) : State :=
  s.after ((s.cx.stepped.orFlags fl).writeM d v t)

/-- The state after a word that writes a w register, transient or not, raises flags and changes nothing else. -/
def State.wroteF (s : State) (d : Nat) (v : W64) (t : Bool) (fl : Flags) : State :=
  s.after ((s.cx.stepped.orFlags fl).writeW d v t)

/-- The context of a long-latency word with its result in a vector register, and the flags that it raised. -/
def State.resultVCx (s : State) (h : Shape) (d tag v : Nat) (fl : Flags) : Ctx :=
  { (((s.cx.issue h).orFlags fl).fileV d v tag) with
    flow := (((s.cx.issue h).orFlags fl).fileV d v tag).flow.fillResult s.cx.flow.seq v tag }

/-- The state after a long-latency word that completes at once with a result in a vector register. -/
def State.resultV (s : State) (i : Instr) (d tag v : Nat) (fl : Flags) : State := s.after (s.resultVCx i.shape d tag v fl)

/-- The state after the issue of a long-latency word that completes at once with the effect `f` (15 R312). -/
def State.did (s : State) (i : Instr) (f : State → State) : State := (f (s.issuedAs i.shape)).stamp

/-- The `n` bytes at `va` lie in the core's own local store, within LSCAP, and read as those of `l` (04 R67, 05 R81). -/
def OwnBytes (s : State) (va : W64) (n : Nat) (l : Loc) : Prop :=
  ownWindow s.cur.1 va = true ∧ ownWindow s.cur.1 (va + BitVec.ofNat 64 (n - 1)) = true ∧
  s.access s.who va n .read .ls = .ok l ∧ l.key?.isSome = true

/-- The copy command that the running context gives (05 R79). -/
def State.copyOf (s : State) (form : Nat) (ctl dst src : W64) : Copy :=
  { id := 0, seq := s.cx.flow.seq, core := s.cur.1, ctx := s.cur.2, domain := s.cc.domain, priv := s.privOf s.cur.1 s.cur.2,
    form := form, ctl := ctl, dst := dst, src := src, rows := 1, dstride := 0, sstride := 0, idx := 0, mode := 0, desc := 0,
    started := false, stage := 0, reads := [], data := [], runs := [], todo := [], flags := 0, err := none }

/-- The word has issued, its effect is complete and no trap was taken: the context goes on at the next address, at its level
and with nothing unfinished. -/
def Ran (s t : State) : Prop :=
  t.cur = s.cur ∧ t.cx.life = s.cx.life ∧ t.cx.level = s.cx.level ∧ t.cx.flow.pc = s.cx.flow.pc + 4 ∧ t.cx.flow.inflight = []

/-- An instruction completes with a property of the next state. -/
def Completes (i : Instr) (s : State) (q : State → Prop) : Prop := ∃ t, exec i s = .next t ∧ Ran s t ∧ q t

/-- `v` has, in elements of tag code `c`, the values of `f` where active and the old ones elsewhere, and `fl` has the flags
of the active ones (08 R160, 09 R172, R176). -/
def ElemsAre (c : Nat) (on : Nat → Bool) (old : Nat) (f : Nat → Nat × Flags) (v : Nat) (fl : Flags) : Prop :=
  (∀ j, j < elemN c → elemOf c v j = if on j then (f j).1 % 2 ^ elemW c else elemOf c old j) ∧
  ∀ k, k < 5 → (fl.getLsbD k = true ↔ ∃ j, j < elemN c ∧ on j = true ∧ (f j).2.getLsbD k = true)

/-- A word completes by writing vector register `d` with tag code `tag`: elements of tag code `c` as given by `f`. -/
def VecResult (i : Instr) (s : State) (d m c tag : Nat) (t : Bool) (f : Nat → Nat × Flags) : Prop :=
  ∃ v fl, exec i s = .next (s.wroteV d tag v t fl) ∧ ElemsAre c (elemOn c (s.mreg m)) (s.vreg d) f v fl

/-- A long-latency word completes by writing vector register `d`: elements as given by `f`. -/
def VecLong (i : Instr) (s : State) (d m c : Nat) (f : Nat → Nat × Flags) : Prop :=
  ∃ v fl, exec i s = .next (s.resultV i d c v fl) ∧ ElemsAre c (elemOn c (s.mreg m)) (s.vreg d) f v fl

/-- A word completes by writing mask register `d`: the bits of active elements as given by `f`, the others as they stand; an
F64 element gives both its bits (09 R180). -/
def MaskResult (i : Instr) (s : State) (d m c : Nat) (t : Bool) (f : Nat → Bool × Flags) : Prop :=
  ∃ v fl, exec i s = .next (s.wroteM d v t fl) ∧
    (∀ j, j < 64 → v.getLsbD j =
      let k := if c = 2 then j / 2 else j
      if elemOn c (s.mreg m) k then (f k).1 else (s.mreg d).getLsbD j) ∧
    ∀ k, k < 5 → (fl.getLsbD k = true ↔ ∃ j, j < elemN c ∧ elemOn c (s.mreg m) j = true ∧ (f j).2.getLsbD k = true)

/-- The element lies in a region. -/
def Region.has (r : Region) (i j : Nat) : Bool :=
  decide (r.row ≤ i ∧ i < r.row + r.nrow ∧ r.col ≤ j ∧ j < r.col + r.ncol)

/-- A tile register of the running context. -/
def State.xreg (s : State) (n : Nat) : Nat := Tbl.get 0 s.cx.vec.x n

/-- Its side area. -/
def State.xside (s : State) (n : Nat) : Nat := Tbl.get 0 s.cx.vec.side n

/-- A w register other than `d` reads as before; `d` too when it is 0. -/
def RegsBut (d : Nat) (s t : State) : Prop := ∀ n, n ≠ d → t.reg n = s.reg n

/-- The registers of the context that no scalar instruction writes are unchanged. -/
def SameVecSpec (s t : State) : Prop := t.cx.vec = s.cx.vec ∧ t.cx.spec = s.cx.spec

/-- Everything but the running context is unchanged. -/
def SameElse (s t : State) : Prop := ∃ c, t = s.setCx c

end Sys2Proof.Machine
end

