-- ==== Sys2Proof/Certificates/Slice0/Obligations.lean ====
section
/-! DEFINITION. Statements for the provers: what the numbered rules of spec/ say of the instructions and the machine, in terms of
`exec` and `step`. -/

open Sys2Proof Sys2Proof.Machine

/-! ### Scalar results -/

/-- R136, the two-operand operations: each writes the result of the table to wD, transient or not, and changes nothing else
but the place of the context; it completes in every quiet context, handler or not, whose guard is true. -/
def Obligations.AluTwoOperands : Prop :=
  ∀ (s : State) (d a b : Nat) (t : Bool) (g : Nat), s.quiet = true → s.guardOk g = true →
    exec (.add d a b t g) s = .next (s.wrote d (s.reg a + s.reg b) t) ∧
    exec (.sub d a b t g) s = .next (s.wrote d (s.reg a - s.reg b) t) ∧
    exec (.and d a b t g) s = .next (s.wrote d (s.reg a &&& s.reg b) t) ∧
    exec (.or d a b t g) s = .next (s.wrote d (s.reg a ||| s.reg b) t) ∧
    exec (.xor d a b t g) s = .next (s.wrote d (s.reg a ^^^ s.reg b) t) ∧
    exec (.andn d a b t g) s = .next (s.wrote d (s.reg a &&& ~~~(s.reg b)) t) ∧
    exec (.sll d a b t g) s = .next (s.wrote d (s.reg a <<< ((s.reg b).toNat % 64)) t) ∧
    exec (.srl d a b t g) s = .next (s.wrote d (s.reg a >>> ((s.reg b).toNat % 64)) t) ∧
    exec (.sra d a b t g) s = .next (s.wrote d ((s.reg a).sshiftRight ((s.reg b).toNat % 64)) t) ∧
    exec (.ror d a b t g) s = .next (s.wrote d ((s.reg a).rotateRight ((s.reg b).toNat % 64)) t) ∧
    exec (.slt d a b t g) s = .next (s.wrote d (if (s.reg a).toInt < (s.reg b).toInt then 1 else 0) t) ∧
    exec (.sltu d a b t g) s = .next (s.wrote d (if (s.reg a).toNat < (s.reg b).toNat then 1 else 0) t) ∧
    exec (.min d a b t g) s = .next (s.wrote d (if (s.reg a).toInt ≤ (s.reg b).toInt then s.reg a else s.reg b) t) ∧
    exec (.max d a b t g) s = .next (s.wrote d (if (s.reg a).toInt < (s.reg b).toInt then s.reg b else s.reg a) t) ∧
    exec (.minu d a b t g) s = .next (s.wrote d (if (s.reg a).toNat ≤ (s.reg b).toNat then s.reg a else s.reg b) t) ∧
    exec (.maxu d a b t g) s = .next (s.wrote d (if (s.reg a).toNat < (s.reg b).toNat then s.reg b else s.reg a) t) ∧
    exec (.mul d a b t g) s = .next (s.wrote d (s.reg a * s.reg b) t) ∧
    exec (.mulh d a b t g) s = .next (s.wrote d (BitVec.ofInt 64 ((s.reg a).toInt * (s.reg b).toInt / 2 ^ 64)) t) ∧
    exec (.mulhu d a b t g) s = .next (s.wrote d (BitVec.ofNat 64 ((s.reg a).toNat * (s.reg b).toNat / 2 ^ 64)) t) ∧
    exec (.shadd1 d a b t g) s = .next (s.wrote d (s.reg a * 2 + s.reg b) t) ∧
    exec (.shadd2 d a b t g) s = .next (s.wrote d (s.reg a * 4 + s.reg b) t) ∧
    exec (.shadd3 d a b t g) s = .next (s.wrote d (s.reg a * 8 + s.reg b) t)

/-- R136, the one-operand operations: leading and trailing zero bits are characterised by the bits of a, 64 for 0. -/
def Obligations.AluOneOperand : Prop :=
  ∀ (s : State) (d a : Nat) (t : Bool) (g : Nat), s.quiet = true → s.guardOk g = true →
    (∀ n, (s.reg a = 0 ∧ n = 64) ∨ (n < 64 ∧ 2 ^ (63 - n) ≤ (s.reg a).toNat ∧ (s.reg a).toNat < 2 ^ (64 - n)) →
      exec (.clz d a t g) s = .next (s.wrote d (BitVec.ofNat 64 n) t)) ∧
    (∀ n, (s.reg a = 0 ∧ n = 64) ∨ (n < 64 ∧ (s.reg a).getLsbD n = true ∧ (s.reg a).toNat % 2 ^ n = 0) →
      exec (.ctz d a t g) s = .next (s.wrote d (BitVec.ofNat 64 n) t)) ∧
    exec (.popc d a t g) s =
      .next (s.wrote d (BitVec.ofNat 64 ((List.range 64).countP (fun i => (s.reg a).getLsbD i))) t) ∧
    exec (.sextb d a t g) s = .next (s.wrote d (((s.reg a).setWidth 8).signExtend 64) t) ∧
    exec (.sexth d a t g) s = .next (s.wrote d (((s.reg a).setWidth 16).signExtend 64) t) ∧
    exec (.sextw d a t g) s = .next (s.wrote d (((s.reg a).setWidth 32).signExtend 64) t) ∧
    exec (.zextw d a t g) s = .next (s.wrote d (((s.reg a).setWidth 32).setWidth 64) t)

/-- R137, R138: the immediate operations with the 13-bit field sign-extended, and the shifts by an amount of 0 to 63. -/
def Stated.ImmediateResults : Prop :=
  ∀ (s : State) (d a imm sh g : Nat), s.quiet = true → s.guardOk g = true → imm < 2 ^ 13 → sh < 64 →
    exec (.addi d a imm g) s = .next (s.wrote d (s.reg a + (BitVec.ofNat 13 imm).signExtend 64) false) ∧
    exec (.andi d a imm g) s = .next (s.wrote d (s.reg a &&& (BitVec.ofNat 13 imm).signExtend 64) false) ∧
    exec (.ori d a imm g) s = .next (s.wrote d (s.reg a ||| (BitVec.ofNat 13 imm).signExtend 64) false) ∧
    exec (.xori d a imm g) s = .next (s.wrote d (s.reg a ^^^ (BitVec.ofNat 13 imm).signExtend 64) false) ∧
    exec (.slti d a imm g) s =
      .next (s.wrote d (if (s.reg a).toInt < ((BitVec.ofNat 13 imm).signExtend 64).toInt then 1 else 0) false) ∧
    exec (.sltiu d a imm g) s =
      .next (s.wrote d (if (s.reg a).toNat < ((BitVec.ofNat 13 imm).signExtend 64).toNat then 1 else 0) false) ∧
    exec (.slli d a sh g) s = .next (s.wrote d (s.reg a <<< sh) false) ∧
    exec (.srli d a sh g) s = .next (s.wrote d (s.reg a >>> sh) false) ∧
    exec (.srai d a sh g) s = .next (s.wrote d ((s.reg a).sshiftRight sh) false) ∧
    exec (.rori d a sh g) s = .next (s.wrote d ((s.reg a).rotateRight sh) false) ∧
    exec (.movi d imm g) s = .next (s.wrote d ((BitVec.ofNat 13 imm).signExtend 64) false)

/-- The immediate that a field of `n` bits and the payloads `ps` of HINT.IMMs, in fetch order, gather (02 R24). -/
def gatheredImm (n f : Nat) (ps : List Nat) : Int :=
  signed (n + 22 * ps.length) (f + ((indexed 0 ps).map (fun (k, p) => p * 2 ^ (n + 22 * k))).foldr (· + ·) 0)

/-- R24: the consumers of HINT.IMM behind a chain of up to three take the gathered immediate, sign-extended, and consume the chain; one whose
gathered immediate does not fit in 64 bits is ILLEGAL. A load or store with home 3 has a HINT.HOME in its chain. -/
def Stated.HintedImmediate : Prop :=
  ∀ (s : State) (d a g : Nat) (homes : List Hint) (ps : List Nat), homes.length + ps.length ≤ 3 → (∀ p ∈ ps, p < 2 ^ 22) →
    s.cx.flow.chain = homes ++ ps.map Hint.imm → (s.setCx { s.cx with flow := { s.cx.flow with chain := [] } }).quiet = true →
    (∀ imm, imm < 2 ^ 13 → homes = [] →
      let v := gatheredImm 13 imm ps
      let x := w64OfInt v
      (-(2 ^ 63) ≤ v → v < 2 ^ 63 → s.guardOk g = true →
        exec (.addi d a imm g) s = .next (s.wrote d (s.reg a + x) false) ∧
        exec (.andi d a imm g) s = .next (s.wrote d (s.reg a &&& x) false) ∧
        exec (.ori d a imm g) s = .next (s.wrote d (s.reg a ||| x) false) ∧
        exec (.xori d a imm g) s = .next (s.wrote d (s.reg a ^^^ x) false) ∧
        exec (.slti d a imm g) s = .next (s.wrote d (if (s.reg a).toInt < x.toInt then 1 else 0) false) ∧
        exec (.sltiu d a imm g) s = .next (s.wrote d (if (s.reg a).toNat < x.toNat then 1 else 0) false) ∧
        exec (.movi d imm g) s = .next (s.wrote d x false)) ∧
      (v < -(2 ^ 63) ∨ 2 ^ 63 ≤ v → ps ≠ [] →
        ∀ i ∈ [Instr.addi d a imm g, .andi d a imm g, .ori d a imm g, .xori d a imm g, .slti d a imm g, .sltiu d a imm g, .movi d imm g],
          exec i s = .next (s.trapHere .illegal 0 (BitVec.ofNat 64 ((encodeNat i).getD 0))).stamp)) ∧
    ∀ off sz home (l : Loc), off < 2 ^ 8 → sz < 4 → (home ≠ 3 ∧ homes = [] ∨ home = 3 ∧ ∃ die, homes = [Hint.home die]) →
      let n := 2 ^ sz
      let v := gatheredImm 8 off ps
      let ea := s.reg a + w64OfInt v * BitVec.ofNat 64 n
      ea.toNat < 2 ^ 52 → ea.toNat % n = 0 → -(2 ^ 63) ≤ v → v < 2 ^ 63 →
      (s.access s.who ea n .read .ls = .ok l → l.key?.isSome = true →
        exec (.ld d a off sz home 0) s =
          .next (s.result (.ld d a off sz home 0) d (w64OfInt (signed (8 * n) (s.peek l n)))) ∧
        exec (.ldn d a off sz home 0) s = .next (s.result (.ldn d a off sz home 0) d (BitVec.ofNat 64 (s.peek l n)))) ∧
      ∀ k, s.access s.who ea n .write .ls = .ok l → l.key? = some k →
        (∀ ln ∈ linesOf k n, Tbl.get 0 s.lineKey ln = s.keyMat l.mat) →
        Completes (.st d a off sz home 0) s (fun t =>
          (∀ i, i < n → Mem.byte t.mem (k + i) = BitVec.ofNat 8 ((s.reg d).toNat / 2 ^ (8 * i))) ∧ SameOutside k n s t ∧
          (∀ r, t.reg r = s.reg r) ∧ SameVecSpec s t ∧ t.fe = s.fe)

/-- R137, R24: the immediate operations with their own field and with an immediate that HINTs lengthen. -/
def Obligations.ImmediateWords : Prop := Stated.ImmediateResults ∧ Stated.HintedImmediate

/-- R139: quotients truncate towards zero, and the corners have the results of the table; with a window of 0 the result is
written at once.
That a word with a lookahead of 0 has its effect at its issue is the model's choice (DEDUCED, log entry 6). -/
def Obligations.DivisionResults : Prop :=
  ∀ (s : State) (d a b : Nat), s.quiet = true →
    exec (.div d a b 0) s = .next (s.result (.div d a b 0) d
      (if s.reg b = 0 then BitVec.allOnes 64 else BitVec.ofInt 64 ((s.reg a).toInt.tdiv (s.reg b).toInt))) ∧
    exec (.divu d a b 0) s = .next (s.result (.divu d a b 0) d
      (if s.reg b = 0 then BitVec.allOnes 64 else s.reg a / s.reg b)) ∧
    exec (.rem d a b 0) s = .next (s.result (.rem d a b 0) d
      (if s.reg b = 0 then s.reg a else BitVec.ofInt 64 ((s.reg a).toInt.tmod (s.reg b).toInt))) ∧
    exec (.remu d a b 0) s = .next (s.result (.remu d a b 0) d (if s.reg b = 0 then s.reg a else s.reg a % s.reg b))

/-- What the next states of the scalar results say: w0 stays 0, wD reads as the result, transient or not, in the context that
wrote it, every other w register, the vector and special registers, the guard slots, memory and every other part of the
state are as before, and the context goes on at the next address. -/
def Obligations.ScalarFrame : Prop :=
  ∀ (s : State) (d : Nat) (v : W64) (t : Bool) (i : Instr), s.quiet = true → i.shape.wr = [.w d] → i.shape.long = true →
    (s.wrote d v t).reg 0 = 0 ∧ (s.result i d v).reg 0 = 0 ∧
    (d ≠ 0 → d < 32 → rW d (s.wrote d v t) = .ok (v, s.wrote d v t) ∧ (s.result i d v).reg d = v) ∧
    (∀ n, n < 32 → n ≠ d → rW n (s.wrote d v t) = .ok (s.reg n, s.wrote d v t) ∧ (s.result i d v).reg n = s.reg n) ∧
    SameElse s (s.wrote d v t) ∧ SameElse s (s.result i d v) ∧
    SameVecSpec s (s.wrote d v t) ∧ SameVecSpec s (s.result i d v) ∧
    (s.wrote d v t).cx.flow.q = s.cx.flow.q ∧ (s.result i d v).cx.flow.q = s.cx.flow.q ∧
    SameMem s (s.wrote d v t) ∧ SameMem s (s.result i d v) ∧ Ran s (s.wrote d v t) ∧ Ran s (s.result i d v)

/-- R140: the guard-slot instructions set slot D to the comparison or the combination of the source slots; slots with a
value, as every slot has at reset. QUNRES leaves it with no value. With the words of the instructions. -/
def Stated.GuardSlotResults : Prop :=
  ∀ (s : State) (d a b g : Nat) (x y : Bool), s.quiet = true → s.guardOk g = true → d < 8 →
    (s.cx.stepped.qOf a = .val x → s.cx.stepped.qOf b = .val y →
      exec (.qand d a b g) s = .next (s.after (s.cx.stepped.setQ d (.val (x && y)))) ∧
      exec (.qor d a b g) s = .next (s.after (s.cx.stepped.setQ d (.val (x || y)))) ∧
      exec (.qxor d a b g) s = .next (s.after (s.cx.stepped.setQ d (.val (x != y)))) ∧
      exec (.qandn d a b g) s = .next (s.after (s.cx.stepped.setQ d (.val (x && !y)))) ∧
      exec (.qnot d a g) s = .next (s.after (s.cx.stepped.setQ d (.val (!x))))) ∧
    exec (.qsetEq d a b g) s = .next (s.after (s.cx.stepped.setQ d (.val (s.reg a == s.reg b)))) ∧
    exec (.qsetNe d a b g) s = .next (s.after (s.cx.stepped.setQ d (.val (s.reg a != s.reg b)))) ∧
    exec (.qsetLt d a b g) s = .next (s.after (s.cx.stepped.setQ d (.val (decide ((s.reg a).toInt < (s.reg b).toInt))))) ∧
    exec (.qsetGe d a b g) s = .next (s.after (s.cx.stepped.setQ d (.val (decide ((s.reg b).toInt ≤ (s.reg a).toInt))))) ∧
    exec (.qsetLtu d a b g) s = .next (s.after (s.cx.stepped.setQ d (.val (decide ((s.reg a).toNat < (s.reg b).toNat))))) ∧
    exec (.qsetGeu d a b g) s = .next (s.after (s.cx.stepped.setQ d (.val (decide ((s.reg b).toNat ≤ (s.reg a).toNat))))) ∧
    exec (.qtrue d g) s = .next (s.after (s.cx.stepped.setQ d (.val true))) ∧
    exec (.qfalse d g) s = .next (s.after (s.cx.stepped.setQ d (.val false))) ∧
    exec (.qunres d g) s = .next (s.after (s.cx.stepped.setQ d .empty)) ∧
    let word (i : Instr) (fn : Nat) : Prop := encodeNat i = some (encR 0x0B d a b fn 0 g)
    word (.qsetEq d a b g) 0 ∧ word (.qsetNe d a b g) 1 ∧ word (.qsetLt d a b g) 2 ∧ word (.qsetGe d a b g) 3 ∧
    word (.qsetLtu d a b g) 4 ∧ word (.qsetGeu d a b g) 5 ∧ word (.qand d a b g) 8 ∧ word (.qor d a b g) 9 ∧
    word (.qxor d a b g) 10 ∧ word (.qandn d a b g) 11 ∧ encodeNat (.qnot d a g) = some (encR 0x0B d a 0 12 0 g) ∧
    encodeNat (.qtrue d g) = some (encR 0x0B d 0 0 13 0 g) ∧ encodeNat (.qfalse d g) = some (encR 0x0B d 0 0 14 0 g) ∧
    encodeNat (.qunres d g) = some (encR 0x0B d 0 0 15 0 g)

/-- R26: a word whose guard is false consumes its place and has no other effect. -/
def Stated.FalseGuard : Prop :=
  ∀ (s : State) (i : Instr), s.quiet = true → i.shape.g ≠ 0 → i.shape.home ≠ some 3 → s.cx.qOf i.shape.g = .val false →
    exec i s = .next (s.after s.cx.stepped)

/-- R140, R132, 02 R26: the words that write guard slots, with source slots that have a value, and what a false guard does. -/
def Obligations.GuardWords : Prop := Stated.GuardSlotResults ∧ Stated.FalseGuard

/-- R128, R132: reading a transient result that has left the bypass raises STALE, and reading a slot with no value PROT code
0x16; both before the word has any effect. -/
def Stated.StaleOperandTraps : Prop :=
  ∀ (s : State) (d a b : Nat) (t : Bool) (r : RegId), s.cx.flow.chain = [] → s.cx.flow.inflight = [] →
    s.cx.flow.gone = [] → s.cx.flow.loops = [] → s.cx.follow = none → s.alone → s.cx.wloc a = some r → (∃ k, s.cx.flow.staleTag r = some k) →
    s.cx.flow.bypassed r = none →
    exec (.add d a b t 0) s = .next (s.trapHere .stale 0 (BitVec.ofNat 64 a)).stamp

/-- R132: a read of a guard slot that has no value raises PROT code 0x16 with the slot before the word has any effect: as a guard, as the
operand of BQT and BQF, and as a source of the guard-slot logic, the first source before the second. -/
def Stated.EmptySlotTraps : Prop :=
  ∀ (s : State) (d a b g disp : Nat), s.quiet = true →
    let traps (i : Instr) (n : Nat) : Prop := exec i s = .next (s.trapHere .prot 0x16 (BitVec.ofNat 64 n)).stamp
    (∀ i : Instr, i.shape.g ≠ 0 → i.shape.home ≠ some 3 → s.cx.qOf i.shape.g = .empty → traps i i.shape.g) ∧
    (s.cx.qOf a = .empty → traps (.bqt a disp) a ∧ traps (.bqf a disp) a ∧
      (s.guardOk g = true → traps (.qand d a b g) a ∧ traps (.qor d a b g) a ∧ traps (.qxor d a b g) a ∧ traps (.qandn d a b g) a ∧
        traps (.qnot d a g) a)) ∧
    ((∃ x, s.cx.qOf a = .val x) → s.cx.qOf b = .empty → s.guardOk g = true →
      traps (.qand d a b g) b ∧ traps (.qor d a b g) b ∧ traps (.qxor d a b g) b ∧ traps (.qandn d a b g) b)

/-! ### Control flow -/

/-- R141-R143: a branch goes to its target when its condition holds and to the next address when not; J always goes, and
JR to wA where its guard is true; with the words of the branches. -/
def Obligations.BranchResults : Prop :=
  ∀ (s : State) (a b g disp : Nat), s.quiet = true →
    (s.guardOk g = true → (s.reg a).toNat % 4 = 0 → exec (.jr a g) s = .next (s.went (s.reg a))) ∧
    (∀ q, s.cx.stepped.qOf a = .val q →
      exec (.bqt a disp) s = .next (s.went (if q then target s.cx.flow.pc 13 disp else s.cx.flow.pc + 4)) ∧
      exec (.bqf a disp) s = .next (s.went (if q then s.cx.flow.pc + 4 else target s.cx.flow.pc 13 disp))) ∧
    exec (.beq a b disp) s = .next (s.went (if s.reg a = s.reg b then target s.cx.flow.pc 13 disp else s.cx.flow.pc + 4)) ∧
    exec (.bne a b disp) s = .next (s.went (if s.reg a = s.reg b then s.cx.flow.pc + 4 else target s.cx.flow.pc 13 disp)) ∧
    exec (.blt a b disp) s =
      .next (s.went (if (s.reg a).toInt < (s.reg b).toInt then target s.cx.flow.pc 13 disp else s.cx.flow.pc + 4)) ∧
    exec (.bge a b disp) s =
      .next (s.went (if (s.reg a).toInt < (s.reg b).toInt then s.cx.flow.pc + 4 else target s.cx.flow.pc 13 disp)) ∧
    exec (.bltu a b disp) s =
      .next (s.went (if (s.reg a).toNat < (s.reg b).toNat then target s.cx.flow.pc 13 disp else s.cx.flow.pc + 4)) ∧
    exec (.bgeu a b disp) s =
      .next (s.went (if (s.reg a).toNat < (s.reg b).toNat then s.cx.flow.pc + 4 else target s.cx.flow.pc 13 disp)) ∧
    exec (.j disp) s = .next (s.went (target s.cx.flow.pc 26 disp)) ∧
    let word (i : Instr) (cond : Nat) : Prop := encodeNat i = some (encB 0x0C a b cond disp)
    word (.beq a b disp) 0 ∧ word (.bne a b disp) 1 ∧ word (.blt a b disp) 2 ∧ word (.bge a b disp) 3 ∧
    word (.bltu a b disp) 4 ∧ word (.bgeu a b disp) 5 ∧ encodeNat (.bqt a disp) = some (encB 0x0C a 0 6 disp) ∧
    encodeNat (.bqf a disp) = some (encB 0x0C a 0 7 disp)

/-- R123, R142, R143: a call writes the return address to w31 and raises CWP; RET lowers it and goes to w15. -/
def Stated.CallResults : Prop :=
  ∀ (s : State) (a g disp : Nat), s.quiet = true → s.cx.level = 0 → s.guardOk g = true →
    (s.cx.rf.cwp ≠ 2 ^ 32 - 1 → s.cx.rf.cwp - s.cx.rf.low ≠ 5 →
      exec (.call disp) s = .next (s.after { (s.cx.stepped.writeW 31 (s.cx.flow.pc + 4) false) with
        rf := { (s.cx.stepped.writeW 31 (s.cx.flow.pc + 4) false).rf with cwp := s.cx.rf.cwp + 1 },
        flow := { (s.cx.stepped.writeW 31 (s.cx.flow.pc + 4) false).flow with pc := target s.cx.flow.pc 26 disp } }) ∧
      ((s.reg a).toNat % 4 = 0 →
        exec (.callr a g) s = .next (s.after { (s.cx.stepped.writeW 31 (s.cx.flow.pc + 4) false) with
          rf := { (s.cx.stepped.writeW 31 (s.cx.flow.pc + 4) false).rf with cwp := s.cx.rf.cwp + 1 },
          flow := { (s.cx.stepped.writeW 31 (s.cx.flow.pc + 4) false).flow with pc := s.reg a } }))) ∧
    (s.cx.rf.cwp ≠ 0 → (s.reg 15).toNat % 4 = 0 → ¬ (2 ≤ s.cx.rf.cwp ∧ s.cx.rf.low + 1 = s.cx.rf.cwp) →
      exec (.ret g) s = .next (s.after { s.cx.stepped with
        rf := { s.cx.rf with cwp := s.cx.rf.cwp - 1 }, flow := { s.cx.stepped.flow with pc := s.reg 15 } }))

/-- R123, R143, R145: before any effect, a call with six frames resident, CWP − LOW = 5, raises WINOVF, one at the depth limit PROT code
0x1F, which comes first, a return to a frame that is not resident WINUNF, a return at depth 0 PROT code 0x1F, and a target that is not
word-aligned ALIGN code 0x36, which comes before the checks of the window. -/
def Stated.WindowTraps : Prop :=
  ∀ (s : State) (a g disp : Nat), s.quiet = true →
    let cwp := s.cx.rf.cwp
    let traps (i : Instr) (c : Cause) (code : Nat) (aux : W64) : Prop := exec i s = .next (s.trapHere c code aux).stamp
    (s.guardOk g = true → (s.reg a).toNat % 4 ≠ 0 → traps (.jr a g) .align 0x36 (s.reg a)) ∧
    (s.cx.level = 0 →
      (cwp ≠ 2 ^ 32 - 1 → cwp - s.cx.rf.low = 5 → traps (.call disp) .winovf 0 (BitVec.ofNat 64 cwp) ∧
        (s.guardOk g = true → (s.reg a).toNat % 4 = 0 → traps (.callr a g) .winovf 0 (BitVec.ofNat 64 cwp))) ∧
      (cwp = 2 ^ 32 - 1 → traps (.call disp) .prot 0x1F (BitVec.ofNat 64 cwp) ∧
        (s.guardOk g = true → (s.reg a).toNat % 4 = 0 → traps (.callr a g) .prot 0x1F (BitVec.ofNat 64 cwp))) ∧
      (s.guardOk g = true →
        ((s.reg a).toNat % 4 ≠ 0 → traps (.callr a g) .align 0x36 (s.reg a)) ∧
        (cwp = 0 → traps (.ret g) .prot 0x1F 0) ∧
        (cwp ≠ 0 → (s.reg 15).toNat % 4 ≠ 0 → traps (.ret g) .align 0x36 (s.reg 15)) ∧
        (2 ≤ cwp → s.cx.rf.low + 1 = cwp → (s.reg 15).toNat % 4 = 0 → traps (.ret g) .winunf 0 (BitVec.ofNat 64 cwp))))

/-- R122, R123, R143, R145: the words that move the register window, and their traps at its ends: a call with six frames resident, at the depth limit, a return to a frame that is not resident and at depth 0, and a target that is not aligned. -/
def Obligations.CallWords : Prop := Stated.CallResults ∧ Stated.WindowTraps

/-- R294, R298: LPSET pushes a level whose body starts at the next word, or with a count of 0 goes past its end; LPPOP with
no current level has no effect. -/
def Stated.LoopResults : Prop :=
  ∀ (s : State) (a endOff : Nat), s.quiet = true →
    (s.reg a ≠ 0 → exec (.lpset a endOff) s = .next (s.after { (s.cx.issue (Instr.lpset a endOff).shape) with
      flow := { (s.cx.issue (Instr.lpset a endOff).shape).flow with
        pc := s.cx.flow.pc + 4,
        loops := [⟨s.cx.flow.pc + 4, s.cx.flow.pc + BitVec.ofNat 64 (4 * endOff), s.reg a, s.reg a, s.cx.depth⟩] } })) ∧
    (s.reg a = 0 → exec (.lpset a endOff) s = .next (s.went (s.cx.flow.pc + BitVec.ofNat 64 (4 * endOff) + 4))) ∧
    exec .lppop s = .next (s.went (s.cx.flow.pc + 4))

/-- R295: at the end address of the innermost level, a count above 1 goes back to the start with one less, and a count of 1 pops the level;
where the next level out ends there too, a count of 1 takes its first count again and the outer level is evaluated, which pops both where
it is at its last turn; shown for NOP. -/
def Stated.LoopEnd : Prop :=
  ∀ (s : State) (outer : List Loop) (j k : Loop), Unlooped s → EndsHere s k →
    (s.cx.flow.loops = outer ++ [k] →
      (1 < k.count.toNat → exec .nop s = .next (s.looped k.start (outer ++ [{ k with count := k.count - 1 }]))) ∧
      (k.count.toNat ≤ 1 → (∀ x ∈ outer, ¬EndsHere s x) → exec .nop s = .next (s.looped (s.cx.flow.pc + 4) outer))) ∧
    (s.cx.flow.loops = outer ++ [j, k] → EndsHere s j → k.count.toNat ≤ 1 →
      (1 < j.count.toNat → exec .nop s =
        .next (s.looped j.start (outer ++ [{ j with count := j.count - 1 }, { k with count := k.init }]))) ∧
      (j.count.toNat ≤ 1 → (∀ x ∈ outer, ¬EndsHere s x) → exec .nop s = .next (s.looped (s.cx.flow.pc + 4) outer)))

/-- R294, R296, R298 at the levels of one depth, `outer` outside the innermost, and not at the end of one: LPPOP pops the innermost current
level; LPSET pushes a level inside it, takes it up again with a new count, or raises PROT code 0x2E where the new level would end behind it or
would be the fifth; a taken branch, J or JR to an address outside a current level pops that level and those inside it, and one to an
address inside all of them pops none. -/
def Stated.NestedLoops : Prop :=
  ∀ (s : State) (low outer : List Loop) (k : Loop), Unlooped s → s.cx.flow.loops = low ++ (outer ++ [k]) →
    (∀ x ∈ low, x.win ≠ s.cx.depth) → (∀ x ∈ outer ++ [k], x.win = s.cx.depth ∧ x.fin ≠ s.cx.flow.pc) →
    exec .lppop s = .next (s.looped (s.cx.flow.pc + 4) (low ++ outer)) ∧
    (∀ a endOff, s.reg a ≠ 0 →
      let st := s.cx.flow.pc + 4
      let fin := s.cx.flow.pc + BitVec.ofNat 64 (4 * endOff)
      let n := s.reg a
      (k.start = st ∧ k.fin = fin →
        exec (.lpset a endOff) s = .next (s.looped st (low ++ (outer ++ [{ k with count := n, init := n }])))) ∧
      (¬(k.start = st ∧ k.fin = fin) → fin.toNat ≤ k.fin.toNat →
        (s.cx.flow.loops.length < 4 →
          exec (.lpset a endOff) s = .next (s.looped st (low ++ (outer ++ [k, ⟨st, fin, n, n, s.cx.depth⟩])))) ∧
        (s.cx.flow.loops.length = 4 → ∃ aux, exec (.lpset a endOff) s = .next (s.trapHere .prot 0x2E aux).stamp)) ∧
      (¬(k.start = st ∧ k.fin = fin) → k.fin.toNat < fin.toNat →
        ∃ aux, exec (.lpset a endOff) s = .next (s.trapHere .prot 0x2E aux).stamp)) ∧
    ∀ a b g disp,
      let inside (x : Loop) (t : W64) : Prop := x.start.toNat ≤ t.toNat ∧ t.toNat ≤ x.fin.toNat
      let goes (i : Instr) (t : W64) : Prop :=
        ((∀ x ∈ outer ++ [k], inside x t) → exec i s = .next (s.looped t s.cx.flow.loops)) ∧
        ∀ l y r, outer ++ [k] = l ++ y :: r → (∀ x ∈ l, inside x t) → ¬inside y t → exec i s = .next (s.looped t (low ++ l))
      goes (.j disp) (target s.cx.flow.pc 26 disp) ∧
      (s.reg a = s.reg b → goes (.beq a b disp) (target s.cx.flow.pc 13 disp)) ∧
      (s.guardOk g = true → (s.reg a).toNat % 4 = 0 → goes (.jr a g) (s.reg a))

/-- R294 to R296, R298: the words of hardware loops, what the end address of a level does, and what leaves one or more levels. -/
def Obligations.LoopWords : Prop := Stated.LoopResults ∧ Stated.LoopEnd ∧ Stated.NestedLoops

/-! ### Memory -/

/-- R109: an aligned load of 1 to 8 bytes from memory or local store writes the bytes at its address, sign-extended or
zero-extended, and changes nothing else.
That a word with a lookahead of 0 has its effect at its issue is the model's choice (DEDUCED, log entry 6). -/
def Obligations.LoadResults : Prop :=
  ∀ (s : State) (d a off sz home : Nat) (l : Loc), s.quiet = true → home ≠ 3 → off < 2 ^ 8 → sz < 4 →
    let n := 2 ^ sz
    let ea := s.reg a + (BitVec.ofNat 8 off).signExtend 64 * BitVec.ofNat 64 n
    ea.toNat < 2 ^ 52 → ea.toNat % n = 0 → s.access s.who ea n .read .ls = .ok l → l.key?.isSome = true →
      exec (.ld d a off sz home 0) s =
        .next (s.result (.ld d a off sz home 0) d (w64OfInt (signed (8 * n) (s.peek l n)))) ∧
      exec (.ldn d a off sz home 0) s = .next (s.result (.ldn d a off sz home 0) d (BitVec.ofNat 64 (s.peek l n)))

/-- R109 and 00 R1: an aligned store of `n` bytes to memory or local store writes the low bytes of wD, least significant
first, at the place of its address, and leaves every other byte, every register and every full-empty bit as before.
That a word with a lookahead of 0 has its effect at its issue is the model's choice (DEDUCED, log entry 6). -/
def Obligations.StoreResults : Prop :=
  ∀ (s : State) (d a off sz home k : Nat) (l : Loc), s.quiet = true → home ≠ 3 → off < 2 ^ 8 → sz < 4 →
    let n := 2 ^ sz
    let ea := s.reg a + (BitVec.ofNat 8 off).signExtend 64 * BitVec.ofNat 64 n
    ea.toNat < 2 ^ 52 → ea.toNat % n = 0 → s.access s.who ea n .write .ls = .ok l → l.key? = some k →
    (∀ ln ∈ linesOf k n, Tbl.get 0 s.lineKey ln = s.keyMat l.mat) →
      Completes (.st d a off sz home 0) s (fun t =>
        (∀ i, i < n → Mem.byte t.mem (k + i) = BitVec.ofNat 8 ((s.reg d).toNat / 2 ^ (8 * i))) ∧ SameOutside k n s t ∧
        (∀ r, t.reg r = s.reg r) ∧ SameVecSpec s t ∧ t.fe = s.fe ∧ t.dreg = s.dreg ∧ t.net = s.net)

/-- R116: the ordered load and store move 4 or 8 bytes as LD and ST do, in every order and scope; shown where no posted store of the
context failed and, for the store, no message of it is on its way. -/
def Stated.OrderedAccessResults : Prop :=
  ∀ (s : State) (d a sz ord scope : Nat), s.quiet = true → s.cx.postFail = none →
    let n := if sz = 0 then 4 else 8
    (s.reg a).toNat < 2 ^ 52 → (s.reg a).toNat % n = 0 →
    (∀ l, s.access s.who (s.reg a) n .read .ls = .ok l → l.key?.isSome = true →
      exec (.ldo d a sz ord scope 0) s =
        .next (s.result (.ldo d a sz ord scope 0) d (w64OfInt (signed (8 * n) (s.peek l n))))) ∧
    (∀ l, s.Sent → s.access s.who (s.reg a) n .write .ls = .ok l → ∀ k, l.key? = some k →
      (∀ ln ∈ linesOf k n, Tbl.get 0 s.lineKey ln = s.keyMat l.mat) →
      Completes (.sto d a sz ord scope 0) s (fun t =>
        (∀ i, i < n → Mem.byte t.mem (k + i) = BitVec.ofNat 8 ((s.reg d).toNat / 2 ^ (8 * i))) ∧ SameOutside k n s t ∧
        (∀ r, t.reg r = s.reg r) ∧ SameVecSpec s t ∧ t.fe = s.fe))

/-- What an atomic does to the `n` bytes at key `k` that held `old`: it stores `new` there and returns `v` in wD. -/
def AtomicAt (s : State) (i : Instr) (d k n new : Nat) (v : W64) : Prop :=
  Completes i s (fun t =>
    (∀ j, j < n → Mem.byte t.mem (k + j) = BitVec.ofNat 8 (new / 2 ^ (8 * j))) ∧ SameOutside k n s t ∧
    (d ≠ 0 → t.reg d = v) ∧ RegsBut d s t ∧ t.cx.vec = s.cx.vec ∧ t.fe = s.fe)

/-- The place of an aligned atomic on memory that is written under the key of its page. -/
structure AtomicPlace (s : State) (a n k : Nat) (c : ACls) (l : Loc) : Prop where
  quiet : s.quiet = true
  sent : s.Sent
  clean : s.cx.postFail = none
  aligned : (s.reg a).toNat % n = 0
  access : s.access s.who (s.reg a) n .rmw c = .ok l
  key : l.key? = some k
  mat : ∀ ln ∈ linesOf k n, Tbl.get 0 s.lineKey ln = s.keyMat l.mat
  mem : MemOk s

/-- R114: the integer atomics return the old value, sign-extended for the signed forms and zero-extended for MINU and MAXU,
and store the new one. -/
def Stated.IntegerAtomics : Prop :=
  ∀ (s : State) (d a sz ord scope k : Nat) (l : Loc), d < 32 →
    let n := if sz = 0 then 4 else 8
    AtomicPlace s a n k .amo l →
    let old := s.peek l n
    let x := (s.reg d).toNat % 2 ^ (8 * n)
    let sv := w64OfInt (signed (8 * n) old)
    let uv := BitVec.ofNat 64 old
    AtomicAt s (.amoSwap d a sz ord scope 0) d k n x sv ∧
    AtomicAt s (.amoAdd d a sz ord scope 0) d k n ((old + x) % 2 ^ (8 * n)) sv ∧
    AtomicAt s (.amoAnd d a sz ord scope 0) d k n (old &&& x) sv ∧
    AtomicAt s (.amoOr d a sz ord scope 0) d k n (old ||| x) sv ∧
    AtomicAt s (.amoXor d a sz ord scope 0) d k n (old ^^^ x) sv ∧
    AtomicAt s (.amoMin d a sz ord scope 0) d k n (if signed (8 * n) x < signed (8 * n) old then x else old) sv ∧
    AtomicAt s (.amoMax d a sz ord scope 0) d k n (if signed (8 * n) old < signed (8 * n) x then x else old) sv ∧
    AtomicAt s (.amoMinu d a sz ord scope 0) d k n (min old x) uv ∧
    AtomicAt s (.amoMaxu d a sz ord scope 0) d k n (max old x) uv

/-- R115, R117: the floating atomics use the arithmetic of chapter 08 and return the old bits; CAS stores wD+1 where the old
value is wD, and nothing where it is not; AMO.FADD.X adds to an exact cell of 64 bytes and leaves wD alone. -/
def Stated.FloatAtomicsAndCas : Prop :=
  ∀ (s : State) (d a sz ord scope k : Nat) (l : Loc), d < 32 →
    let n := if sz = 0 then 4 else 8
    (AtomicPlace s a n k .amo l →
      let old := s.peek l n
      let x := (s.reg d).toNat % 2 ^ (8 * n)
      let f := if sz = 0 then fF32 else fF64
      AtomicAt s (.amoFadd d a sz ord scope 0) d k n ((fadd f old x).1 % 2 ^ (8 * n)) (BitVec.ofNat 64 old) ∧
      AtomicAt s (.amoFmin d a sz ord scope 0) d k n (fmin f old x % 2 ^ (8 * n)) (BitVec.ofNat 64 old) ∧
      AtomicAt s (.amoFmax d a sz ord scope 0) d k n (fmax2 f old x % 2 ^ (8 * n)) (BitVec.ofNat 64 old) ∧
      AtomicAt s (.cas d a sz ord scope 0) d k n
        (if old = x then (s.reg (d + 1)).toNat % 2 ^ (8 * n) else old) (w64OfInt (signed (8 * n) old))) ∧
    (AtomicPlace s a 64 k .cell l →
      AtomicAt s (.amoFaddX d a ord scope 0) 0 k 64
        (ofBytes (cellAdd (toBytes 64 (s.peek l 64)) (fF32.decode ((s.reg d).toNat % 2 ^ 32))) % 2 ^ 512) 0)

/-- R114, R115, R117: the atomic words on memory.
That a word with a lookahead of 0 has its effect at its issue is the model's choice (DEDUCED, log entry 6). -/
def Obligations.AtomicWords : Prop := Stated.IntegerAtomics ∧ Stated.FloatAtomicsAndCas

/-- R88: LDS returns a full word, and LDS.E leaves it empty; STF stores and fills; SETE empties and keeps the bytes. -/
def Stated.FullEmptyResults : Prop :=
  ∀ (s : State) (d a ord scope k : Nat) (l : Loc), d < 32 → AtomicPlace s a 8 k .fe l → s.net.parked = [] →
    (s.isEmpty k = false →
      Completes (.lds d a ord scope 0) s (fun t =>
        (d ≠ 0 → t.reg d = BitVec.ofNat 64 (s.peek l 8)) ∧ RegsBut d s t ∧ t.isEmpty k = false ∧ SameMem s t) ∧
      Completes (.ldsE d a ord scope 0) s (fun t =>
        (d ≠ 0 → t.reg d = BitVec.ofNat 64 (s.peek l 8)) ∧ RegsBut d s t ∧ t.isEmpty k = true ∧ SameMem s t)) ∧
    Completes (.stf d a ord scope 0) s (fun t =>
      (∀ j, j < 8 → Mem.byte t.mem (k + j) = BitVec.ofNat 8 ((s.reg d).toNat / 2 ^ (8 * j))) ∧ SameOutside k 8 s t ∧
      t.isEmpty k = false ∧ ∀ r, t.reg r = s.reg r) ∧
    Completes (.sete a ord scope 0) s (fun t => t.isEmpty k = true ∧ SameMem s t ∧ ∀ r, t.reg r = s.reg r)

/-- R88: LDS and LDS.E of an empty word are parked at its home, with no other effect, until the word is full. -/
def Stated.EmptyWordParks : Prop :=
  ∀ (s : State) (d a ord scope k : Nat) (l : Loc), AtomicPlace s a 8 k .fe l → s.net.parked = [] → s.isEmpty k = true →
    ∀ i, i = Instr.lds d a ord scope 0 ∨ i = Instr.ldsE d a ord scope 0 →
      ∃ t, exec i s = .next t ∧ t.net.parked = [(s.cur.1, s.cur.2, s.cx.flow.seq, k)] ∧ t.cx.flow.inflight.length = 1 ∧
        t.isEmpty k = true ∧ SameMem s t ∧ (∀ n, t.reg n = s.reg n) ∧ SameVecSpec s t

/-- R88: the full-empty words on a full word and on an empty one.
That a word with a lookahead of 0 has its effect at its issue is the model's choice (DEDUCED, log entry 6). -/
def Obligations.FullEmptyWords : Prop := Stated.FullEmptyResults ∧ Stated.EmptyWordParks

/-! ### Vector and tile transfers, prefetches and fences -/

/-- R111, R113: LDV and GATHER write the active lanes, each with the 4 bytes at its address, and keep the others; they
change nothing else. -/
def Stated.VectorLoads : Prop :=
  ∀ (s : State) (d a vi m cls : Nat) (l : Nat → Loc), s.quiet = true → s.cx.level = 0 → d < 32 →
    (s.reg a).toNat % 4 = 0 →
    let got (i : Instr) (tag : Nat) : Prop := (m = 0 ∨ s.vtag d = tag) →
      Completes i s (fun t =>
        (∀ j, j < 64 → lane (t.vreg d) j = if (s.mreg m).getLsbD j then s.peek (l j) 4 % 2 ^ 32 else lane (s.vreg d) j) ∧
        t.vtag d = tag ∧ (∀ n, n ≠ d → t.vreg n = s.vreg n ∧ t.vtag n = s.vtag n) ∧ (∀ r, t.reg r = s.reg r) ∧
        t.cx.vec.m = s.cx.vec.m ∧ t.cx.vec.x = s.cx.vec.x ∧ t.cx.spec = s.cx.spec ∧ SameElse s t)
    ((∀ j, j < 64 → (s.mreg m).getLsbD j = true → (l j).key?.isSome = true ∧
        s.access s.who (s.reg a + BitVec.ofNat 64 (4 * j)) 4 .read .ls = .ok (l j)) →
      got (.ldv d a m cls 0) (ldvTag cls)) ∧
    (s.vtag vi = 5 → (∀ j, j < 64 → (s.mreg m).getLsbD j = true → (l j).key?.isSome = true ∧
        s.access s.who (s.reg a + w64OfInt (4 * signed 32 (lane (s.vreg vi) j))) 4 .read .ls = .ok (l j)) →
      got (.gather d a vi m cls 0) (gatherTag cls))

/-- R111, R113: STV and SCATTER store the active lanes at their addresses; where two lanes of a SCATTER have one address
the higher lane is stored. No other byte and no register changes. -/
def Stated.VectorStores : Prop :=
  ∀ (s : State) (d a vi m : Nat) (l : Nat → Loc) (k : Nat → Nat), s.quiet = true → s.cx.level = 0 →
    (s.reg a).toNat % 4 = 0 →
    let on (j : Nat) : Prop := j < 64 ∧ (s.mreg m).getLsbD j = true
    let put (i : Instr) (va : Nat → W64) : Prop :=
      (∀ j, on j → (l j).key? = some (k j) ∧ s.access s.who (va j) 4 .write .ls = .ok (l j) ∧
        ∀ ln ∈ linesOf (k j) 4, Tbl.get 0 s.lineKey ln = s.keyMat (l j).mat) →
      (∀ j j', on j → on j' → va j = va j' ∨ k j + 4 ≤ k j' ∨ k j' + 4 ≤ k j) →
      Completes i s (fun t =>
        (∀ j, on j → (∀ j', on j' → j < j' → va j' ≠ va j) →
          ∀ b, b < 4 → Mem.byte t.mem (k j + b) = BitVec.ofNat 8 (lane (s.vreg d) j / 2 ^ (8 * b))) ∧
        (∀ x, (∀ j, on j → x < k j ∨ k j + 4 ≤ x) → Mem.byte t.mem x = Mem.byte s.mem x) ∧
        (∀ r, t.reg r = s.reg r) ∧ SameVecSpec s t ∧ t.fe = s.fe)
    put (.stv d a m 0) (fun j => s.reg a + BitVec.ofNat 64 (4 * j)) ∧
    (s.vtag vi = 5 →
      put (.scatter d a vi m 0) (fun j => s.reg a + w64OfInt (4 * signed 32 (lane (s.vreg vi) j))))

/-- R111, R113: vector loads and stores by lane.
That a word with a lookahead of 0 has its effect at its issue is the model's choice (DEDUCED, log entry 6). -/
def Obligations.VectorTransfers : Prop := Stated.VectorLoads ∧ Stated.VectorStores

/-- R112: LDX and LDXSC write the tile from the 4,096 or 4,608 bytes at wA, whose pieces `ps` translation gives, with the tag
of the descriptor that XLFMT names; LDX gives a neutral side area. STX and STXSC store them.
That a word with a lookahead of 0 has its effect at its issue is the model's choice (DEDUCED, log entry 6). -/
def Obligations.TileTransfers : Prop :=
  ∀ (s : State) (d a : Nat) (e : Entry) (ps : List (Nat × Nat × Loc)), s.quiet = true → s.cx.level = 0 → d < 8 →
    (s.reg a).toNat % 64 = 0 → (∀ p ∈ ps, p.2.2.key?.isSome = true) →
    let f := (s.cx.xlDesc d).2
    let v := (ps.map (fun p => s.peek p.2.2 p.2.1 * 2 ^ (8 * p.1))).foldr (· + ·) 0
    (locsOf e s.who (s.reg a) 4096 .read s = .ok (ps, s) → descValid f = true → descKind f ≤ 5 →
      exec (.ldx d a 0) s = .next (s.after
        ((s.cx.issue (Instr.ldx d a 0).shape).writeX d (v % 2 ^ 32768) (neutral (descTag f false)) (descTag f false)))) ∧
    (locsOf e s.who (s.reg a) 4608 .read s = .ok (ps, s) → descValid f = true → descKind f = 0 →
      exec (.ldxSc d a 0) s = .next (s.after
        ((s.cx.issue (Instr.ldxSc d a 0).shape).writeX d (v % 2 ^ 32768) (v / 2 ^ 32768 % 2 ^ 4096) (descTag f true)))) ∧
    ((∀ p ∈ ps, ∀ ln ∈ linesOf (p.2.2.key?.getD 0) p.2.1, Tbl.get 0 s.lineKey ln = s.keyMat p.2.2.mat) →
    ps.Pairwise (fun p q => p.2.2.key?.getD 0 + p.2.1 ≤ q.2.2.key?.getD 0 ∨ q.2.2.key?.getD 0 + q.2.1 ≤ p.2.2.key?.getD 0) →
    let stored (i : Instr) (x : Nat) : Prop := Completes i s (fun t =>
      (∀ p ∈ ps, ∀ b, b < p.2.1 → Mem.byte t.mem (p.2.2.key?.getD 0 + b) = BitVec.ofNat 8 (x / 2 ^ (8 * (p.1 + b)))) ∧
      (∀ y, (∀ p ∈ ps, y < p.2.2.key?.getD 0 ∨ p.2.2.key?.getD 0 + p.2.1 ≤ y) → Mem.byte t.mem y = Mem.byte s.mem y) ∧
      (∀ r, t.reg r = s.reg r) ∧ SameVecSpec s t ∧ t.fe = s.fe)
    (locsOf e s.who (s.reg a) 4096 .write s = .ok (ps, s) → stored (.stx d a 0) (s.xreg d)) ∧
    (locsOf e s.who (s.reg a) 4608 .write s = .ok (ps, s) → stored (.stxSc d a 0) (s.xreg d + 2 ^ 32768 * s.xside d)))

/-- R110, R118, R144: a prefetch loads at most a translation, never traps and changes no register and no byte of memory; a FENCE, where no
message of its context is on its way and, at system scope, no posted store failed, and a NOP change nothing but the place of the context. -/
def Stated.PrefetchFenceNop : Prop :=
  ∀ (s : State) (a off home ord scope : Nat), s.quiet = true → home ≠ 3 →
    (∀ i, i = Instr.prefTlb a off home ∨ i = Instr.prefMsc a off home →
      Completes i s (fun t => SameMem s t ∧ (∀ r, t.reg r = s.reg r) ∧ SameVecSpec s t ∧ t.fe = s.fe ∧ t.dreg = s.dreg)) ∧
    (s.Sent → scope ≠ 4 ∨ s.cx.postFail = none →
      exec (.fence ord scope) s = .next (s.after s.cx.stepped)) ∧
    exec .nop s = .next (s.after s.cx.stepped)

/-- R110, R116, R118, R144: ordered accesses, fences, prefetches and NOP.
That a word with a lookahead of 0 has its effect at its issue is the model's choice (DEDUCED, log entry 6). -/
def Obligations.OrderedWords : Prop := Stated.OrderedAccessResults ∧ Stated.PrefetchFenceNop

/-! ### The vector unit -/

/-- R176, R177: the floating operations of two operands, of one and the fused ones, over elements of F32 or F64 with the
arithmetic of chapter 08; masked or not, transient or not. -/
def Obligations.VectorFloat : Prop :=
  ∀ (s : State) (d a b m x : Nat) (t : Bool), s.quiet = true → s.cx.level = 0 → x = 1 ∨ x = 2 → s.vtag a = x →
    s.vtag b = x → (m = 0 ∨ s.vtag d = x) →
    let A := elemOf x (s.vreg a)
    let B := elemOf x (s.vreg b)
    let D := elemOf x (s.vreg d)
    let F := elemFmt x
    VecResult (.vadd d a b m t) s d m x x t (fun j => fadd F (A j) (B j)) ∧
    VecResult (.vsub d a b m t) s d m x x t (fun j => fsub F (A j) (B j)) ∧
    VecResult (.vmul d a b m t) s d m x x t (fun j => fmul F (A j) (B j)) ∧
    VecResult (.vmin d a b m t) s d m x x t (fun j => (fmin F (A j) (B j), 0)) ∧
    VecResult (.vmax d a b m t) s d m x x t (fun j => (fmax2 F (A j) (B j), 0)) ∧
    VecResult (.vabs d a m t) s d m x x t (fun j => (fabs F (A j), 0)) ∧
    VecResult (.vneg d a m t) s d m x x t (fun j => (fneg F (A j), 0)) ∧
    (s.vtag d = x →
      VecResult (.vfma d a b m t) s d m x x t (fun j => ffma F false false (A j) (B j) (D j)) ∧
      VecResult (.vfms d a b m t) s d m x x t (fun j => ffma F false true (A j) (B j) (D j)) ∧
      VecResult (.vfnma d a b m t) s d m x x t (fun j => ffma F true true (A j) (B j) (D j)) ∧
      VecResult (.vfnms d a b m t) s d m x x t (fun j => ffma F true false (A j) (B j) (D j)))

/-- R178, R179: the I32 operations modulo 2^32 or clamped, and the bitwise operations and shifts by the low 5 bits, which
take any tag and write the first operand's; with the words of the latter. -/
def Obligations.VectorInteger : Prop :=
  ∀ (s : State) (d a b m : Nat) (t : Bool), s.quiet = true → s.cx.level = 0 →
    let A := lane (s.vreg a)
    let B := lane (s.vreg b)
    let clamp (x : Int) : Nat := wrapInt 32 (max (-(2 ^ 31)) (min (2 ^ 31 - 1) x))
    (s.vtag a = 5 → s.vtag b = 5 → (m = 0 ∨ s.vtag d = 5) →
      VecResult (.viadd d a b m t) s d m 5 5 t (fun j => (A j + B j, 0)) ∧
      VecResult (.visub d a b m t) s d m 5 5 t (fun j => (2 ^ 32 + A j - B j, 0)) ∧
      VecResult (.vimul d a b m t) s d m 5 5 t (fun j => (A j * B j, 0)) ∧
      VecResult (.vimin d a b m t) s d m 5 5 t (fun j => (if signed 32 (A j) < signed 32 (B j) then A j else B j, 0)) ∧
      VecResult (.vimax d a b m t) s d m 5 5 t (fun j => (if signed 32 (A j) < signed 32 (B j) then B j else A j, 0)) ∧
      VecResult (.viminu d a b m t) s d m 5 5 t (fun j => (min (A j) (B j), 0)) ∧
      VecResult (.vimaxu d a b m t) s d m 5 5 t (fun j => (max (A j) (B j), 0)) ∧
      VecResult (.viadds d a b m t) s d m 5 5 t (fun j => (clamp (signed 32 (A j) + signed 32 (B j)), 0)) ∧
      VecResult (.visubs d a b m t) s d m 5 5 t (fun j => (clamp (signed 32 (A j) - signed 32 (B j)), 0))) ∧
    (s.vtag a ∈ anyTag → (m = 0 ∨ s.vtag d = s.vtag a) →
      VecResult (.vand d a b m t) s d m 0 (s.vtag a) t (fun j => (A j &&& B j, 0)) ∧
      VecResult (.vor d a b m t) s d m 0 (s.vtag a) t (fun j => (A j ||| B j, 0)) ∧
      VecResult (.vxor d a b m t) s d m 0 (s.vtag a) t (fun j => (A j ^^^ B j, 0)) ∧
      VecResult (.vsll d a b m t) s d m 0 (s.vtag a) t (fun j => (A j * 2 ^ (B j % 32), 0)) ∧
      VecResult (.vsrl d a b m t) s d m 0 (s.vtag a) t (fun j => (A j / 2 ^ (B j % 32), 0)) ∧
      VecResult (.vsra d a b m t) s d m 0 (s.vtag a) t (fun j => (wrapInt 32 (signed 32 (A j) / 2 ^ (B j % 32)), 0))) ∧
    let word (i : Instr) (fn : Nat) : Prop := encodeNat i = some (encV 0x22 d a b fn m (b2n t))
    word (.vand d a b m t) 0 ∧ word (.vor d a b m t) 1 ∧ word (.vxor d a b m t) 2 ∧ word (.vsll d a b m t) 3 ∧
    word (.vsrl d a b m t) 4 ∧ word (.vsra d a b m t) 5

/-- R180, R189: the compares write the mask bits of active elements, false for a NaN but for UN, with NV for LT and LE; the
mask operations combine whole masks, and MPOPC counts. -/
def Obligations.CompareAndMaskResults : Prop :=
  ∀ (s : State) (d a b m x : Nat) (t : Bool), s.quiet = true → s.cx.level = 0 →
    let A (j : Nat) : Val := (elemFmt x).decode (elemOf x (s.vreg a) j)
    let B (j : Nat) : Val := (elemFmt x).decode (elemOf x (s.vreg b) j)
    let I := lane (s.vreg a)
    let J := lane (s.vreg b)
    let nan (j : Nat) : Bool := (A j).isNan || (B j).isNan
    let nv (j : Nat) : Flags := if nan j then flNV else 0
    (x = 1 ∨ x = 2 → s.vtag a = x → s.vtag b = x →
      MaskResult (.vfcmpEq d a b m t) s d m x t (fun j => ((A j).eqB (B j), 0)) ∧
      MaskResult (.vfcmpLt d a b m t) s d m x t (fun j => ((A j).ltB (B j), nv j)) ∧
      MaskResult (.vfcmpLe d a b m t) s d m x t (fun j => ((A j).ltB (B j) || (A j).eqB (B j), nv j)) ∧
      MaskResult (.vfcmpUn d a b m t) s d m x t (fun j => (nan j, 0))) ∧
    (s.vtag a = 5 → s.vtag b = 5 →
      MaskResult (.vicmpEq d a b m t) s d m 5 t (fun j => (I j == J j, 0)) ∧
      MaskResult (.vicmpLt d a b m t) s d m 5 t (fun j => (decide (signed 32 (I j) < signed 32 (J j)), 0)) ∧
      MaskResult (.vicmpLtu d a b m t) s d m 5 t (fun j => (decide (I j < J j), 0))) ∧
    exec (.mand d a b t) s = .next (s.wroteM d (s.mreg a &&& s.mreg b) t 0) ∧
    exec (.mor d a b t) s = .next (s.wroteM d (s.mreg a ||| s.mreg b) t 0) ∧
    exec (.mxor d a b t) s = .next (s.wroteM d (s.mreg a ^^^ s.mreg b) t 0) ∧
    exec (.mandn d a b t) s = .next (s.wroteM d (s.mreg a &&& ~~~(s.mreg b)) t 0) ∧
    exec (.mnot d a t) s = .next (s.wroteM d (~~~(s.mreg a)) t 0) ∧
    exec (.mpopc d a t) s =
      .next (s.wrote d (BitVec.ofNat 64 ((List.range 64).countP (fun i => (s.mreg a).getLsbD i))) t)

/-- R181: the moves. VSPLAT and VINS keep the tag of their destination, VMOV, VSEL and VPERM write the first operand's, and
VEXT gives an element in a w register, an I32 one sign-extended. -/
def Obligations.VectorMoves : Prop :=
  ∀ (s : State) (d a b m : Nat) (t : Bool), s.quiet = true → s.cx.level = 0 →
    let x := s.vtag a
    let k := s.vtag d
    let idx (c : Nat) : Nat := (s.reg b).toNat % elemN c
    (x ∈ anyTag →
      ((m = 0 ∨ k = x) → VecResult (.vmov d a m t) s d m 0 x t (fun j => (lane (s.vreg a) j, 0))) ∧
      ((m = 0 ∨ k = x) → s.vtag b = 5 →
        VecResult (.vperm d a b m t) s d m 0 x t (fun j => (lane (s.vreg a) (lane (s.vreg b) j % 64), 0))) ∧
      (s.vtag b = x → VecResult (.vsel d a b m t) s d 0 0 x t
        (fun j => (if (s.mreg m).getLsbD j then lane (s.vreg a) j else lane (s.vreg b) j, 0))) ∧
      exec (.vext d a b m t) s = .next (s.wrote d (if x = 5 then w64OfInt (signed 32 (elemOf x (s.vreg a) (idx x)))
        else BitVec.ofNat 64 (elemOf x (s.vreg a) (idx x))) t)) ∧
    VecResult (.vsplat d a m t) s d m k k t (fun _ => ((s.reg a).toNat, 0)) ∧
    VecResult (.vins d a b m t) s d m k k t
      (fun j => (if j = idx k then (s.reg a).toNat else elemOf k (s.vreg d) j, 0))

/-- R183: division, square root and reciprocal in either precision, and the F32 functions, over the active elements; with a
window of 0 the result is written at once. -/
def Stated.VectorLongResults : Prop :=
  ∀ (s : State) (d a b m p : Nat), s.quiet = true → s.cx.level = 0 → p < 2 →
    let x := p + 1
    let A := elemOf x (s.vreg a)
    let B := elemOf x (s.vreg b)
    let E := lane (s.vreg a)
    (s.vtag a = x → (m = 0 ∨ s.vtag d = x) →
      (s.vtag b = x → VecLong (.vdiv d a b m p 0) s d m x (fun j => fdiv (elemFmt x) (A j) (B j))) ∧
      VecLong (.vsqrt d a m p 0) s d m x (fun j => fsqrt (elemFmt x) (A j)) ∧
      VecLong (.vrcp d a m p 0) s d m x (fun j => frcp (elemFmt x) (A j))) ∧
    (s.vtag a = 1 → (m = 0 ∨ s.vtag d = 1) →
      VecLong (.vexp2 d a m 0) s d m 1 (fun j => exp2 (E j)) ∧ VecLong (.vlog2 d a m 0) s d m 1 (fun j => log2f (E j)))

/-- Element values of the active elements up to and with the one at `k`, in order (09 R184). -/
def activeUpTo (s : State) (a m x k : Nat) : List Nat :=
  ((List.range (k + 1)).filter (elemOn x (s.mreg m))).map (elemOf x (s.vreg a))

/-- The rounded sum taken one element after another, with the flags of the last addition (08 R167). -/
def runningSum (f : Fmt) : List Nat → Nat × Flags
  | [] => (0, 0)
  | y :: r => r.foldl (fun p z => fadd f p.1 z) (y, 0)

/-- R147, R167, R184: reductions and scans over the active elements: the exact sum rounded once, the lane tree, the least and the greatest,
the I32 sum modulo 2^32, and the two scans. A NaN element that a result is made of alone gives the canonical NaN. -/
def Stated.ReductionsAndScans : Prop :=
  ∀ (s : State) (d a b m x : Nat) (t : Bool), s.quiet = true → s.cx.level = 0 → s.vtag a = x →
    let L := activeUpTo s a m x (elemN x - 1)
    let F := elemFmt x
    let tree := treeSum (fadd F) 6
      ((List.range (elemN x)).map (fun i => if elemOn x (s.mreg m) i then some (elemOf x (s.vreg a) i) else none))
    let sum32 (l : List Nat) : Nat := l.foldr (· + ·) 0 % 2 ^ 32
    (x = 1 ∨ x = 2 →
      exec (.vraddO d a m t) s =
        .next (s.wroteF d (BitVec.ofNat 64 (exactSum F (L.map F.decode)).1) t (exactSum F (L.map F.decode)).2) ∧
      exec (.vraddU d a m t) s = .next (s.wroteF d (BitVec.ofNat 64 (F.canon (tree.1.getD 0))) t tree.2) ∧
      exec (.vrmin d a m t) s = .next (s.wrote d (BitVec.ofNat 64 (L.foldl (fmin F) (F.infCode false))) t) ∧
      exec (.vrmax d a m t) s = .next (s.wrote d (BitVec.ofNat 64 (L.foldl (fmax2 F) (F.infCode true))) t) ∧
      ((m = 0 ∨ s.vtag d = x) →
        VecResult (.vscanO d a b m t) s d m x x t (fun k => exactSum F ((activeUpTo s a m x k).map F.decode)) ∧
        VecResult (.vscanU d a b m t) s d m x x t (fun k => runningSum F ((activeUpTo s a m x k).map F.canon)))) ∧
    (x = 5 →
      exec (.viradd d a m t) s = .next (s.wrote d (w64OfInt (signed 32 (sum32 L))) t) ∧
      (∃ v : Int, exec (.vrmin d a m t) s = .next (s.wrote d (w64OfInt v) t) ∧ (∀ y ∈ L, v ≤ signed 32 y) ∧
        (v = 2 ^ 31 - 1 ∨ ∃ y ∈ L, v = signed 32 y)) ∧
      (∃ v : Int, exec (.vrmax d a m t) s = .next (s.wrote d (w64OfInt v) t) ∧ (∀ y ∈ L, signed 32 y ≤ v) ∧
        (v = -(2 ^ 31) ∨ ∃ y ∈ L, v = signed 32 y)) ∧
      ((m = 0 ∨ s.vtag d = 5) →
        VecResult (.vscanO d a b m t) s d m 5 5 t (fun k => (sum32 (activeUpTo s a m 5 k), 0)) ∧
        VecResult (.vscanU d a b m t) s d m 5 5 t (fun k => (sum32 (activeUpTo s a m 5 k), 0))))

/-- R147, R167, R183, R184: long-latency vector words by element, reductions and scans.
That a word with a lookahead of 0 has its effect at its issue is the model's choice (DEDUCED, log entry 6). -/
def Obligations.VectorLongWords : Prop := Stated.VectorLongResults ∧ Stated.ReductionsAndScans

/-- A word completes by writing `n` packed codes of `w` bits to vector register `d` with tag RAW: the rest of the register is
zero when it is unmasked and as before when it is masked (09 R185). -/
def PackedResult (i : Instr) (s : State) (d m w n : Nat) (t : Bool) (f : Nat → Nat × Flags) : Prop :=
  ∃ v fl, exec i s = .next (s.wroteV d 0 v t fl) ∧
    (∀ j, j < n → v / 2 ^ (w * j) % 2 ^ w =
      if (s.mreg m).getLsbD j then (f j).1 % 2 ^ w else s.vreg d / 2 ^ (w * j) % 2 ^ w) ∧
    v / 2 ^ (w * n) = (if m = 0 then 0 else s.vreg d / 2 ^ (w * n)) ∧
    ∀ k, k < 5 → (fl.getLsbD k = true ↔ ∃ j, j < n ∧ (s.mreg m).getLsbD j = true ∧ (f j).2.getLsbD k = true)

/-- R185 to R188: conversions under a valid descriptor, to F32 and F64 lanes or to packed codes, in the mode of the word or
stochastically; I32 to and from F32; and the packing and unpacking of four blocks.
The flags of VFTOI out of range are the model's reading (DEDUCED, log entry 25). -/
def Obligations.Conversions : Prop :=
  ∀ (s : State) (d a b m f : Nat) (t : Bool), s.quiet = true → s.cx.level = 0 →
    let x := s.vtag a
    let n := if x = 2 then 32 else 64
    let D := (s.cx.fOf b).toNat
    let conv (g : Nat) (md : Rnd) (j : Nat) : Nat × Flags := (descToFmt g).convert md (srcVal x (s.vreg a) j)
    let cvt (i : Instr) (md : Rnd) : Prop :=
      (descKind D = 3 → (m = 0 ∨ s.vtag d = 1) →
        VecResult i s d m 1 1 t (fun j => if j < n then conv D md j else (0, 0))) ∧
      (descKind D = 4 → (m = 0 ∨ s.vtag d = 2) → VecResult i s d m 2 2 t (conv D md)) ∧
      (descKind D ≤ 2 → (m = 0 ∨ s.vtag d = 0) → PackedResult i s d m (codeBits D) n t (conv D md))
    (1 ≤ x → x ≤ 5 → descValid D = true →
      cvt (.vcvtRne d a b m t) .rne ∧ cvt (.vcvtRtz d a b m t) .rtz ∧ cvt (.vcvtRdn d a b m t) .rdn ∧
      cvt (.vcvtRup d a b m t) .rup) ∧
    (1 ≤ x → x ≤ 5 → descValid (s.cx.fOf f).toNat = true → descKind (s.cx.fOf f).toNat = 0 →
      PackedResult (.vcvtSr d a b f t) s d 0 (codeBits (s.cx.fOf f).toNat) n t
        (fun j => conv (s.cx.fOf f).toNat (.sr (lane (s.vreg b) j)) j)) ∧
    (x = 1 → (m = 0 ∨ s.vtag d = 5) →
      VecResult (.vftoi d a m t) s d m 5 5 t (fun j => toI32 (fF32.decode (lane (s.vreg a) j)))) ∧
    (x = 5 → (m = 0 ∨ s.vtag d = 1) →
      VecResult (.vitof d a m t) s d m 1 1 t (fun j => fF32.convert .rne
        (.fin (decide (signed 32 (lane (s.vreg a) j) < 0)) (signed 32 (lane (s.vreg a) j)).natAbs 0))) ∧
    (descValid D = true → descKind D = 0 →
      (x = 1 →
        let el (j : Nat) : Val := if (s.mreg m).getLsbD j then fF32.decode (lane (s.vreg a) j) else .fin false 0 0
        let bs := (List.range 4).map (fun q => encodeBlock (descFmt D) true .rne ((List.range 16).map (fun j => el (16 * q + j))))
        exec (.vpackb d a b m t) s = .next (s.wroteV d 0 (ofLanes 144 (bs.map (fun k => ofLanes 8 (k.codes ++ [k.e8, k.mu]))))
          t (bs.foldl (fun fl k => fl ||| k.flags) 0))) ∧
      (x ∈ anyTag → (m = 0 ∨ s.vtag d = 1) →
        VecResult (.vunpackb d a b m t) s d m 1 1 t (fun j =>
          let B := slice (s.vreg a) (18 * (j / 16)) 18
          fF32.convert .rne
            (blockElem (descFmt D) (slice B (j % 16) 1) (slice B 16 1) (slice B 17 1 / 2 ^ (j % 16 / 2) % 2)))))

/-- R161, R173: an operand that does not carry an accepted tag raises FORMAT with the tag wanted, the tag found and the
register; a masked write of another tag than its destination's does so too. Nothing is written. -/
def Stated.FormatTraps : Prop :=
  ∀ (s : State) (d a b m : Nat) (t : Bool), s.quiet = true → s.cx.level = 0 →
    let refused (i : Instr) (want found reg : Nat) : Prop :=
      exec i s = .next (s.trapHere .format 0 (BitVec.ofNat 64 (want * 2 ^ 16 + found * 2 ^ 8 + reg))).stamp
    (s.vtag a ∉ floatTag → refused (.vadd d a b m t) 0xFF (s.vtag a) (32 + a)) ∧
    (s.vtag a ∈ floatTag → s.vtag b ≠ s.vtag a → refused (.vadd d a b m t) (s.vtag a) (s.vtag b) (32 + b)) ∧
    (s.vtag a ∈ floatTag → s.vtag b = s.vtag a → m ≠ 0 → s.vtag d ≠ s.vtag a →
      refused (.vadd d a b m t) (s.vtag a) (s.vtag d) (32 + d)) ∧
    (s.vtag a ≠ 5 → refused (.viadd d a b m t) 5 (s.vtag a) (32 + a)) ∧
    (s.vtag a ≠ 1 → refused (.vftoi d a m t) 1 (s.vtag a) (32 + a)) ∧
    ((descValid (s.cx.fOf b).toNat = false ∨ 4 < descKind (s.cx.fOf b).toNat) → 1 ≤ s.vtag a → s.vtag a ≤ 5 →
      refused (.vcvtRne d a b m t) 0xFF 0xFF (96 + b))

/-- R128, R132, R161, R173: operands that trap before issue: a transient result whose time has passed, a guard slot with no value, and a vector of another format. -/
def Obligations.OperandTraps : Prop := Stated.StaleOperandTraps ∧ Stated.EmptySlotTraps ∧ Stated.FormatTraps

/-- What the next states of the vector and mask results say: the register written reads as the result with its tag in the
context that wrote it, the flags join FSTAT, and every other register, memory and every other part of the state are as
before. -/
def Obligations.VectorFrame : Prop :=
  ∀ (s : State) (d tag v : Nat) (w : W64) (t : Bool) (fl : Flags) (i : Instr), s.quiet = true → s.cx.level = 0 →
    i.shape.wr = [.v d] → i.shape.long = true →
    (rV d (s.wroteV d tag v t fl) = .ok (v, s.wroteV d tag v t fl) ∧ (s.wroteV d tag v t fl).cx.vtagOf d = tag) ∧
    ((s.resultV i d tag v fl).vreg d = v ∧ (s.resultV i d tag v fl).vtag d = tag) ∧
    (d ≠ 0 → rM d (s.wroteM d w t fl) = .ok (w, s.wroteM d w t fl)) ∧
    (s.wroteM d w t fl).mreg 0 = BitVec.allOnes 64 ∧
    (s.wroteV d tag v t fl).cx.vec.m = s.cx.vec.m ∧ (s.resultV i d tag v fl).cx.vec.m = s.cx.vec.m ∧
    (s.wroteM d w t fl).cx.vec.v = s.cx.vec.v ∧ (s.wroteM d w t fl).cx.vec.vtag = s.cx.vec.vtag ∧
    (∀ n, n ≠ d → rV n (s.wroteV d tag v t fl) = .ok (s.vreg n, s.wroteV d tag v t fl) ∧
      (s.wroteV d tag v t fl).cx.vtagOf n = s.vtag n ∧ (s.resultV i d tag v fl).vreg n = s.vreg n ∧
      (s.resultV i d tag v fl).vtag n = s.vtag n ∧ rM n (s.wroteM d w t fl) = .ok (s.mreg n, s.wroteM d w t fl)) ∧
    (∀ u, u = s.wroteV d tag v t fl ∨ u = s.resultV i d tag v fl ∨ u = s.wroteM d w t fl →
      u.cx.spec = { s.cx.spec with fstat := s.cx.spec.fstat ||| fl } ∧ (∀ n, u.reg n = s.reg n) ∧
      u.cx.vec.x = s.cx.vec.x ∧ u.cx.flow.q = s.cx.flow.q ∧ SameElse s u ∧ SameMem s u ∧ Ran s u)

/-! ### Messages, rings and streams -/

/-- R67, R68: SEND puts its message at the tail of the core's send queue and SENDS behind the held ones, each with the bytes
captured at issue; HOIST moves the held messages to the queue in order, and STRIKE discards them. -/
def Stated.SendResults : Prop :=
  ∀ (s : State) (d a b g : Nat) (l : Loc), s.quiet = true → s.guardOk g = true →
    let n := (s.reg b).toNat
    let msg := s.mkMsg (s.reg d) (toBytes n (s.peek l n))
    (destBad (s.reg d).toNat = false → (s.reg a).toNat % 8 = 0 → n ≠ 0 → n % 8 = 0 → OwnBytes s (s.reg a) n l →
      (n ≤ 4088 → s.cc.sendq.length < 16 →
        exec (.send d a b g 0) s = .next (s.did (.send d a b g 0)
          (fun u => u.setCc { u.cc with sendq := s.cc.sendq ++ [msg] }))) ∧
      (n ≤ 248 → s.cx.held.length < 64 → s.holds s.cur.1 < 64 →
        exec (.sends d a b g 0) s = .next (s.did (.sends d a b g 0)
          (fun u => u.setCx { u.cx with held := s.cx.held ++ [msg] })))) ∧
    (s.cx.held.length + s.cc.sendq.length ≤ 16 →
      exec (.hoist g) s = .next (s.did (.hoist g)
        (fun u => (u.setCc { u.cc with sendq := s.cc.sendq ++ s.cx.held }).setCx { u.cx with held := [] }))) ∧
    exec (.strike g) s = .next (s.after { s.cx.stepped with held := [] })

/-- R74: MCMD sends the command word and operands of the 32 bytes at wA in the core's own local store. -/
def Stated.RemoteCommand : Prop :=
  ∀ (s : State) (d a b g : Nat) (l : Loc), s.quiet = true → s.guardOk g = true →
    let w := (s.reg d).toNat
    let v := s.peek l 32
    destPlain w = true → destBad w = false → OwnBytes s (s.reg a) 32 l →
      exec (.mcmd d a b g 0) s = .next (s.did (.mcmd d a b g 0) (fun u => { u with net := { s.net with
        rcmds := s.net.rcmds ++ [{
          target := bits w 10 0, score := s.cur.1, sctx := s.cur.2, sdom := s.cc.domain,
          ensign := (s.reg b).toNat % 2 ^ 32, word := BitVec.ofNat 32 (slice v 0 4), opd := BitVec.ofNat 64 (slice v 8 8),
          opa := BitVec.ofNat 64 (slice v 16 8), opb := BitVec.ofNat 64 (slice v 24 8), destWord := s.reg d }] } }))

/-- R67, R68, R74: the words that send messages and remote commands.
That a word with a lookahead of 0 has its effect at its issue is the model's choice (DEDUCED, log entry 6). -/
def Obligations.MessageWords : Prop := Stated.SendResults ∧ Stated.RemoteCommand

/-- R72, R73: RBWAIT gives the address of the current message and RBADV frees it; STBIND binds a ring to the context and
writes the pennant address to its descriptor; STUNBIND ends it and frees a message that is partly consumed. -/
def Stated.RingResults : Prop :=
  ∀ (s : State) (d a b g : Nat) (r : RxRing), s.guardOk g = true → s.cx.results = [] →
    (s.quiet = true → (s.reg a).toNat ≤ 7 → Tbl.find s.cc.rx (s.reg a).toNat = some r →
      Tbl.find s.cc.bound (s.reg a).toNat = none →
      (∀ ovf slot, r.current = some (ovf, slot) → (s.reg b = 0 ∨ (s.cc.part.map (·.promise)).getD 0 = 0) →
        exec (.rbwait d a b g 0) s = .next (s.result (.rbwait d a b g 0) d
          (if ovf then BitVec.ofNat 64 slot else windowAddr s.cur.1 slot))) ∧
      exec (.rbadv a g) s = .next (s.did (.rbadv a g) 
        (fun u => if r.current.isNone then u else u.setRx s.cur.1 (s.reg a).toNat r.advance))) ∧
    (s.quiet = true → (s.reg d).toNat ≤ 7 → Tbl.find s.cc.rx (s.reg d).toNat = some r →
      Tbl.find s.cc.bound (s.reg d).toNat = none →
      exec (.stbind d a b g) s = .next (s.did (.stbind d a b g) (fun u =>
        let p := if beyondLs (s.cc.rxDesc (s.reg d).toNat + 47) then u
          else u.poke (.ls s.cur.1 (s.cc.rxDesc (s.reg d).toNat + 40)) 8 (s.reg a).toNat
        let q := p.setCc { p.cc with bound := Tbl.put s.cc.bound (s.reg d).toNat s.cur.2 }
        q.setCx { q.cx with stream := some ⟨(s.reg d).toNat, (s.reg b).toNat % 2 ^ 8, 0⟩ }))) ∧
    (s.quiet = true → exec (.stunbind g) s = .next (s.after s.cx.stepped)) ∧
    (∀ k : Sys2Proof.Machine.Stream, s.cx.stream = some k → (s.setCx { s.cx with stream := none }).quiet = true →
      Tbl.find s.cc.rx k.ring = some r →
      exec (.stunbind g) s = .next (s.did (.stunbind g) (fun u =>
        let p := if k.used = 0 then u else u.setRx s.cur.1 k.ring r.advance
        let q := p.setCc { p.cc with bound := Tbl.erase p.cc.bound k.ring }
        q.setCx { q.cx with stream := none })))

/-- R73 and 02 R17: as a vector source, register 31 of a context with a bound stream is the next 256 bytes of the stream,
with the tag that STBIND gave; shown where they stand in the current message and do not end it. -/
def Stated.StreamOperand : Prop :=
  ∀ (s : State) (d : Nat) (t : Bool) (k : Sys2Proof.Machine.Stream) (r : RxRing) (off : Nat), s.cx.stream = some k →
    (s.setCx { s.cx with stream := none }).quiet = true → s.cx.level = 0 → k.tag ∈ anyTag →
    Tbl.find s.cc.rx k.ring = some r → r.current = some (false, off) → s.lost = [] →
    k.used + 256 < s.peek (.ls s.cur.1 off) 8 % 2 ^ 16 →
      ∃ c v, exec (.vmov d 31 0 t) s = .next (s.after c) ∧ c.stream = some { k with used := k.used + 256 } ∧
        (∀ j, j < 64 → lane v j = lane (s.peek (.ls s.cur.1 (off + (8 + k.used))) 256) j) ∧
        rV d (s.after c) = .ok (v, s.after c) ∧ c.vtagOf d = k.tag

/-- R72, R73: the words of receive rings and bound streams, and the stream as a vector operand.
That a word with a lookahead of 0 has its effect at its issue is the model's choice (DEDUCED, log entry 6). -/
def Obligations.RingWords : Prop := Stated.RingResults ∧ Stated.StreamOperand

/-! ### Copies and events -/

/-- The word places copy command `k`: at the tail of the core's copy queue, or, for no bytes, its record at once (05 R81); where no message of
its context is on its way, for the word is a release (05 R84). -/
def Placed (i : Instr) (s : State) (k : Copy) : Prop :=
  s.Sent → (k.total = 0 → exec i s = .next (s.did i (fun u => u.post s.cur.1 (k.record 0)))) ∧
  (k.total ≠ 0 → s.cc.copyq.length < 2 → exec i s = .next (s.did i (fun u =>
    u.setCc { u.cc with copyq := s.cc.copyq ++ [{ k with id := u.copyId }] })))

/-- R79 to R83: CP, CP2D, CPIDX and the reductions place a command with what they captured; CPWAIT goes on where no earlier
copy of its context with its tag is unfinished.
That a word with a lookahead of 0 has its effect at its issue is the model's choice (DEDUCED, log entry 6). -/
def Obligations.CopyWords : Prop :=
  ∀ (s : State) (d a b g : Nat) (l : Loc), s.quiet = true → s.guardOk g = true →
    let dst := s.reg d
    let src := s.reg a
    let c := (s.reg b).toNat
    let v := s.peek l 32
    let c2 := slice v 0 8
    let whole (x : Nat) : Prop :=
      ctlBad x = false ∧ engBad x dst src = false ∧ dst.toNat % 8 = 0 ∧ src.toNat % 8 = 0 ∧ ctlLen x % 8 = 0
    (whole c → ctlRop c = 0 → Placed (.cp d a b g 0) s (s.copyOf 0 (s.reg b) dst src)) ∧
    (whole c → ctlRop c ≠ 0 → (redOk c true = true ∨ redOk c false = true) →
      let f := s.cx.fOf (bits c 39 36)
      (ctlFmt c = 6 → descValid f.toNat = true ∧ descKind f.toNat = 0) →
      (redOk c true = true → Placed (.cpredO d a b g 0) s { s.copyOf 3 (s.reg b) dst src with desc := f }) ∧
      (redOk c false = true → Placed (.cpredU d a b g 0) s { s.copyOf 4 (s.reg b) dst src with desc := f })) ∧
    (c % 8 = 0 → OwnBytes s (s.reg b) 32 l → whole c2 → ctlRop c2 = 0 → slice v 8 4 * ctlLen c2 < 2 ^ 32 →
      (slice v 12 4 = 0 → slice v 16 8 % 8 = 0 → slice v 24 8 % 8 = 0 →
        Placed (.cp2d d a b g 0) s { s.copyOf 1 (BitVec.ofNat 64 c2) dst src with
          rows := slice v 8 4, dstride := BitVec.ofNat 64 (slice v 16 8), sstride := BitVec.ofNat 64 (slice v 24 8) }) ∧
      (slice v 12 1 ≤ 1 → slice v 13 3 = 0 → slice v 24 8 = 0 → slice v 16 8 % 4 = 0 →
        Placed (.cpidx d a b g 0) s { s.copyOf 2 (BitVec.ofNat 64 c2) dst src with
          rows := slice v 8 4, idx := BitVec.ofNat 64 (slice v 16 8), mode := slice v 12 1 })) ∧
    let hit (t : Nat) : Prop := src.toNat / 2 ^ 8 % 2 = 1 ∨ t = src.toNat % 2 ^ 8
    ((∀ k ∈ s.cc.copies, k.ctx = s.cur.2 → k.seq < s.cx.flow.seq → ¬ hit (ctlTag k.ctl.toNat)) →
      (∀ r ∈ s.net.recs, r.1 = s.cur.1 → r.2.kind = 1 ∨ r.2.kind = 2 → r.2.ctx = s.cur.2 → r.2.seq < s.cx.flow.seq → ¬ hit r.2.tag) →
      exec (.cpwait a g 0) s = .next (s.after s.cx.stepped))

/-- R93: EVPOP and EVWAIT take the oldest record, word 0 to wD and word 1 to wA; with none EVPOP gives zeros. EVPOST posts a
SOFT record to the core that it names.
That a word with a lookahead of 0 has its effect at its issue is the model's choice (DEDUCED, log entry 6). The slots of
the overflow area follow the reading of log entry 33 (DEDUCED), and that its reads are privileged accesses of the domain
that enabled it is the model's choice (DESIGN CHOICE, log entry 54). -/
def Obligations.EventWords : Prop :=
  ∀ (s : State) (d a b g : Nat), s.quiet = true → s.guardOk g = true → d < 32 → a < 32 →
    let takes (i : Instr) (v : Nat) (u : State) : Prop := Completes i s (fun t =>
      (d ≠ 0 → d ≠ a → t.reg d = BitVec.ofNat 64 (v % 2 ^ 64)) ∧ (a ≠ 0 → t.reg a = BitVec.ofNat 64 (v / 2 ^ 64)) ∧
      (∀ n, n < 32 → n ≠ d → n ≠ a → t.reg n = s.reg n) ∧ SameVecSpec s t ∧ ∃ c, t = u.setCx c)
    (s.cur.2 = 0 → ∀ r q, s.cc.evq = r :: q →
      takes (.evpop d a g) (evNum r) (s.setCc { s.cc with evq := q }) ∧
      (s.reg b = 0 ∨ (s.cc.part.map (·.promise)).getD 0 = 0 → s.cx.results = [] →
        takes (.evwait d a b g 0) (evNum r) (s.setCc { s.cc with evq := q }))) ∧
    (s.cur.2 = 0 → s.cc.evq = [] → s.cc.evhead = s.cc.evtail → takes (.evpop d a g) 0 s) ∧
    (s.cur.2 = 0 → s.cc.evq = [] → s.cc.evhead ≠ s.cc.evtail → ∀ v,
      s.vread ⟨s.cc.evdom, true, s.cur.1⟩ (s.cc.evSlot s.cc.evhead) 16 = .ok v →
      takes (.evpop d a g) v (s.setCc { s.cc with evhead := s.cc.evhead + 1 })) ∧
    (destBad (s.reg d).toNat = false → destPlain (s.reg d).toNat = true →
      exec (.evpost d a b g) s = .next (s.did (.evpost d a b g) (fun u => u.post (bits (s.reg d).toNat 10 0)
        ⟨0x09, (s.reg b).toNat % 2 ^ 8, 0, if bits (s.reg d).toNat 10 0 = s.cur.1 then s.cur.2 else 15,
          (s.reg b).toNat / 2 ^ 32, s.reg a, false, 0⟩)))

/-! ### Collectives -/

/-- R328: CTRADD gives the old value of a counter and adds to it, CTRWAIT the value once it has reached wB, and CTRSET sets
it; for a counter that the domain of the context may reach.
That a word with a lookahead of 0 has its effect at its issue is the model's choice (DEDUCED, log entry 6). -/
def Obligations.CounterWords : Prop :=
  ∀ (s : State) (d a b g : Nat), s.quiet = true → s.guardOk g = true → d < 32 → (s.reg a).toNat < 2 ^ 14 →
    s.ctrOk s.cc.domain (s.reg a).toNat = true →
    let k := (s.reg a).toNat
    (s.cx.postFail = none → s.Sent →
      Completes (.ctradd d a b g 0) s (fun t => (d ≠ 0 → t.reg d = s.ctr k) ∧ t.ctr k = s.ctr k + s.reg b ∧
        (∀ n, n < 32 → n ≠ d → t.reg n = s.reg n) ∧ SameVecSpec s t ∧ ∃ c, t = (s.setCtr k (s.ctr k + s.reg b)).setCx c) ∧
      exec (.ctrset a b g) s = .next (s.did (.ctrset a b g) (fun u => u.setCtr k (s.reg b)))) ∧
    ((s.reg b).toNat ≤ (s.ctr k).toNat →
      exec (.ctrwait d a b g 0) s = .next (s.result (.ctrwait d a b g 0) d (s.ctr k)))

/-- R329, R330: QPOST of a well-formed record arms a work entry of its die on the record's counter and gives its handle; the
entry is READY at once where the counter has reached its threshold. -/
def Stated.WorkPosted : Prop :=
  ∀ (s : State) (d a b g : Nat) (l : Loc), s.quiet = true → s.guardOk g = true → d < 32 →
    let n := (s.reg b).toNat
    let r := s.peek l 64
    let h := slice r 0 8
    let die := s.cur.1 / 384
    let f := s.cx.fOf (bits h 51 48)
    n ≤ 63 → s.commOn n = true → s.commDom n = s.cc.domain → ownWindow s.cur.1 (s.reg a) = true →
    (s.reg a).toNat % 64 = 0 →
    s.access s.who (s.reg a) 64 .read .ls = .ok l → l.key?.isSome = true → s.recBad n r = false →
    (s.cc.part.map (·.promise)).getD 0 = 0 →
    (bits h 63 60 = 1 → bit h 47 = true →
      stepBytes (bits h 59 56) (bits h 55 52) (bits h 31 0) (slice r 32 4) ≤ bits (s.dregN (commReg n 0x20)) 9 0 * 65536) →
    (bits h 55 52 = 6 → descValid f.toNat = true ∧ descKind f.toNat = 0) →
    (s.coll.work.filter (fun p => p.1 / 4096 == die)).length < 4096 →
      Completes (.qpost d a b g 0) s (fun t => ∃ i w, i < 4096 ∧ Tbl.find s.coll.work (4096 * die + i) = none ∧
        Tbl.find t.coll.work (4096 * die + i) = some w ∧ (d ≠ 0 → t.reg d = BitVec.ofNat 64 (4096 * die + i)) ∧
        w.record = toBytes 64 r ∧ w.comm = n ∧ w.core = s.cur.1 ∧ w.ctx = s.cur.2 ∧ w.desc = f ∧
        w.priv = s.privOf s.cur.1 s.cur.2 ∧
        w.threshold = BitVec.ofNat 64 (slice r 40 8) ∧
        w.state = (if (w.threshold.toNat : Nat) ≤ (s.ctr (ctrKey (slice r 36 4))).toNat then 2 else 1) ∧
        (∀ m, m < 32 → m ≠ d → t.reg m = s.reg m) ∧ SameVecSpec s t ∧ SameMem s t ∧ t.coll.ctr = s.coll.ctr)

/-- R331: QARM of a completed entry that stays arms it again at the threshold of wB, or, with bit 15 of the handle, frees
it. -/
def Stated.WorkRearmed : Prop :=
  ∀ (s : State) (a b g : Nat) (w : Work), s.quiet = true → s.guardOk g = true →
    let h := (s.reg a).toNat
    let k := 4096 * (s.cur.1 / 384) + h % 4096
    h < 2 ^ 16 → h % 2 ^ 15 < 4096 → Tbl.find s.coll.work k = some w → w.state = 4 → s.commDom w.comm = s.cc.domain →
      exec (.qarm a b g) s = .next (s.did (.qarm a b g) (fun u =>
        if bit h 15 then { u with coll := { u.coll with work := Tbl.erase u.coll.work k } }
        else (u.setWork k { w with state := 1, threshold := s.reg b }).fire (ctrKey (w.field 36 4))))

/-- R329, R330: QPOST makes an entry and QARM arms one that is done.
That a word with a lookahead of 0 has its effect at its issue is the model's choice (DEDUCED, log entry 6). -/
def Obligations.WorkWords : Prop := Stated.WorkPosted ∧ Stated.WorkRearmed

/-! ### The matrix engine and the accumulator -/

/-- The matrix engine of the running context's core is idle, no other context of the core has a matrix word under way, no frame is
parked in its accumulator, and the context is quiet and runs no handler. -/
structure EngineFree (s : State) : Prop where
  quiet : s.quiet = true
  level : s.cx.level = 0
  results : s.cx.results = []
  idle : s.mxIdle s.cur.1 = true
  others : ∀ k, k < 11 → k ≠ s.cur.2 → ∀ e ∈ (s.ctx s.cur.1 k).flow.inflight, mxWord e.instr = false
  parked : ∀ n, n < 32 → bit (Tbl.get 0 s.cc.spmap n).toNat 63 = false

/-- A word of the engine completes at once with an effect on the core's accumulator only, given element by element, and on
the flags. -/
def AccResult (i : Instr) (s : State) (el : Nat → Nat → W32) (fl : Nat → Prop) : Prop :=
  Completes i s (fun t =>
    (∀ r c, r < 512 → c < 64 → t.cc.accAt r c = el r c) ∧
    (∀ k, k < 5 → (t.cx.spec.fstat.getLsbD k = true ↔ s.cx.spec.fstat.getLsbD k = true ∨ fl k)) ∧
    t.cx.spec = { s.cx.spec with fstat := t.cx.spec.fstat } ∧ t.cx.vec = s.cx.vec ∧ (∀ r, t.reg r = s.reg r) ∧
    t.cx.flow.q = s.cx.flow.q ∧ SameMem s t ∧ t.dreg = s.dreg ∧ t.net = s.net)

/-- R195, R196: the elements that a product of rows `A m` and columns `B n` leaves, with the flags that it raises. -/
def ProductResult (i : Instr) (s : State) (c : Cls) (ints : Bool) (A B : Nat → List Val) (sc : W32) (row col : Nat)
    (more : Nat → Prop) : Prop :=
  let f := if c = .f64 then fF64 else fF32
  let lo (n : Nat) : Nat := if c = .f64 then (32 * col + 2 * n) % 64 else (32 * col + n) % 64
  let old (m n : Nat) : Nat := (s.cc.accAt (64 * row + m) (lo n)).toNat
    + (if c = .f64 then (s.cc.accAt (64 * row + m) (lo n + 1)).toNat * 2 ^ 32 else 0)
  let new (m n : Nat) : Nat × Flags := mxElem f ints (fF32.decode sc.toNat) (old m n) (A m) (B n)
  Completes i s (fun t =>
    (∀ m n, m < 64 → n < c.n → t.cc.accAt (64 * row + m) (lo n) = BitVec.ofNat 32 (new m n).1 ∧
      (c = .f64 → t.cc.accAt (64 * row + m) (lo n + 1) = BitVec.ofNat 32 ((new m n).1 / 2 ^ 32))) ∧
    (∀ r k, r < 64 * row ∨ 64 * row + 64 ≤ r → k < 64 → t.cc.accAt r k = s.cc.accAt r k) ∧
    (∀ k, k < 5 → (t.cx.spec.fstat.getLsbD k = true ↔ s.cx.spec.fstat.getLsbD k = true ∨ more k ∨
      ∃ m n, m < 64 ∧ n < c.n ∧ (new m n).2.getLsbD k = true)) ∧
    t.cx.spec = { s.cx.spec with fstat := t.cx.spec.fstat } ∧ t.cx.vec = s.cx.vec ∧ (∀ r, t.reg r = s.reg r) ∧
    t.cx.flow.q = s.cx.flow.q ∧ SameMem s t ∧ t.dreg = s.dreg ∧ t.net = s.net)

/-- R193 to R197: MMA and MMAC add exact products, rounded once, to the elements of 64 accumulator rows; the operands of MMA are
tiles or latches of one class, and MMAC converts the rows of its region into the tag of its tile.
That an idle engine acts at the issue of the word is the model's choice (DESIGN CHOICE, log entry 19). -/
def Obligations.MatrixProducts : Prop :=
  ∀ (s : State) (a b row col x g : Nat) (c : Cls), EngineFree s → s.guardOk g = true → row < 8 → col < 2 →
    let k := s.cur
    let ta := s.mxTag k.1 k.2 a
    let tb := s.mxTag k.1 k.2 b
    let va := s.mxTile k.1 k.2 a
    let vb := s.mxTile k.1 k.2 b
    let B (n : Nat) : List Val := (List.range c.k).map (fun j => posVal tb vb.1 vb.2 (j * c.n + n))
    tb.cls? = some c →
    (ta.cls? = some c →
      ProductResult (.mma a b row col x g 0) s c (ta.intCoded && tb.intCoded)
        (fun m => (List.range c.k).map (fun j => posVal ta va.1 va.2 (c.perRow * m + j))) B (s.cx.sOf x) row col
        (fun _ => False)) ∧
    (∀ r, c ≠ .c4 → region? (s.reg a).toNat = some r → r.nrow = 64 → r.ncol = (if c = .f64 then 2 * c.k else c.k) →
      let conv (m : Nat) : List Val × Flags := convRow tb (rowVals (c == .f64) ((s.cc.rows r).getD m []))
      ProductResult (.mmac a b row col x g 0) s c tb.intCoded (fun m => (conv m).1) B (s.cx.sOf x) row col
        (fun k => ∃ m, m < 64 ∧ (conv m).2.getLsbD k = true))

/-- R198: ACCZ clears a region, ACCMOV copies one to another of its shape, ACCLD loads one from memory and ACCST stores one,
row by row at the stride of wB; nothing else changes. -/
def Stated.AccumulatorMoves : Prop :=
  ∀ (s : State) (d a b g : Nat) (r : Region), EngineFree s → s.guardOk g = true → region? (s.reg d).toNat = some r →
    AccResult (.accz d g 0) s (fun i j => if r.has i j then 0 else s.cc.accAt i j) (fun _ => False) ∧
    (∀ q, region? (s.reg a).toNat = some q → q.nrow = r.nrow → q.ncol = r.ncol →
      AccResult (.accmov d a g 0) s
        (fun i j => if r.has i j then s.cc.accAt (q.row + (i - r.row)) (q.col + (j - r.col)) else s.cc.accAt i j)
        (fun _ => False)) ∧
    ((s.reg a).toNat % 4 = 0 → (s.reg b).toNat % 4 = 0 → ∀ l : Nat → Nat → Loc,
      let at_ (i j : Nat) : W64 := s.reg a + BitVec.ofNat 64 i * s.reg b + BitVec.ofNat 64 (4 * j)
      let all (m : Acc) : Prop := ∀ i j, i < r.nrow → j < r.ncol →
        s.access s.who (at_ i j) 4 m .ls = .ok (l i j) ∧ (l i j).key?.isSome = true
      let k (i j : Nat) : Nat := (l i j).key?.getD 0
      (all .read → AccResult (.accld d a b g 0) s
        (fun i j => if r.has i j then BitVec.ofNat 32 (s.peek (l (i - r.row) (j - r.col)) 4) else s.cc.accAt i j)
        (fun _ => False)) ∧
      (all .write →
        (∀ i j, i < r.nrow → j < r.ncol → ∀ ln ∈ linesOf (k i j) 4, Tbl.get 0 s.lineKey ln = s.keyMat (l i j).mat) →
        (∀ i j i' j', i < r.nrow → j < r.ncol → i' < r.nrow → j' < r.ncol →
          (i = i' ∧ j = j') ∨ k i j + 4 ≤ k i' j' ∨ k i' j' + 4 ≤ k i j) →
        Completes (.accst d a b g 0) s (fun t =>
          (∀ i j y, i < r.nrow → j < r.ncol → y < 4 →
            Mem.byte t.mem (k i j + y) = BitVec.ofNat 8 ((s.cc.accAt (r.row + i) (r.col + j)).toNat / 2 ^ (8 * y))) ∧
          (∀ y, (∀ i j, i < r.nrow → j < r.ncol → y < k i j ∨ k i j + 4 ≤ y) → Mem.byte t.mem y = Mem.byte s.mem y) ∧
          t.cc.acc = s.cc.acc ∧ (∀ n, t.reg n = s.reg n) ∧ SameVecSpec s t ∧ t.fe = s.fe)))

/-- A word of the engine completes at once by writing tile `d` with its side area and tag, and raising flags. -/
def TileResult (i : Instr) (s : State) (d v side : Nat) (tag : Tag) (fl : Flags) : Prop :=
  exec i s = .next (s.did i (fun u =>
    let p := u.setCc (u.cc.mxWork false)
    p.setCx ((p.cx.orFlags fl).writeX d v side tag)))

/-- R199, R200: XMOV copies a tile with its side area and tag, XZERO clears one and keeps its tag, XTR transposes the codes,
and XCVT and ACCCVT convert values under a descriptor. -/
def Stated.TileWords : Prop :=
  ∀ (s : State) (d a b g : Nat), EngineFree s → s.guardOk g = true → d < 8 → a < 8 →
    let ta := s.cx.xtagOf a
    let f := (s.cx.fOf b).toNat
    let cd := ((descTag f true).cls?).getD .c8
    TileResult (.xmov d a g 0) s d (s.xreg a) (s.xside a) ta 0 ∧
    TileResult (.xzero d g 0) s d 0 0 (s.cx.xtagOf d) 0 ∧
    (∀ c, ta.cls? = some c → ta.code ≠ 0x86 →
      ∃ v, TileResult (.xtr d a g 0) s d v (s.xside a) ta 0 ∧
        ∀ q, q < 64 * c.perRow → posCode c v q = posCode c (s.xreg a) (q % 64 * c.perRow + q / 64)) ∧
    (∀ c, ta.cls? = some c → descValid f = true → descKind f ≤ 4 →
      let rows := (List.range 64).map (fun r => (List.range (min c.perRow cd.perRow)).map (fun i =>
        posVal ta (s.xreg a) (s.xside a) (c.perRow * r + i)))
      let out := encodeTile f (padRows cd rows)
      TileResult (.xcvt d a b g 0) s d out.1 out.2.1 out.2.2.1 out.2.2.2) ∧
    (∀ r, region? (s.reg a).toNat = some r → descValid f = true → descKind f ≤ 4 → cvtShape f r = true →
      let out := encodeTile f (padRows cd ((s.cc.rows r).map (rowVals (descKind f == 4))))
      TileResult (.acccvt d a b g 0) s d out.1 out.2.1 out.2.2.1 out.2.2.2)

/-- R198 to R203: the words that move accumulator regions and tiles.
That an idle engine acts at the issue of the word is the model's choice (DESIGN CHOICE, log entry 19). -/
def Obligations.AccumulatorAndTileWords : Prop := Stated.AccumulatorMoves ∧ Stated.TileWords

/-- R201 to R203: TFACT factors the block of order wB[5:0] and gives its permutation, its order and the mask of replaced pivots,
and TSOLVE solves for the columns of its second tile; R205: BURST acts at once and MWAIT goes on where no earlier matrix
command of its context is unfinished.
That an idle engine acts at the issue of the word is the model's choice (DESIGN CHOICE, log entry 19). -/
def Obligations.FactorSolveBurst : Prop :=
  ∀ (s : State) (d a b g : Nat), s.guardOk g = true →
    let t := s.cx.xtagOf a
    let f := if t.code = 2 then fF64 else fF32
    let m := blockMax t
    (EngineFree s → d < 8 → a < 8 → t.code = 1 ∨ t.code = 2 →
      let n := (s.reg b).toNat % 64
      let q (w : W64) : Nat := (f.convert .rne (fF64.decode w.toNat)).1
      let r := factor f (q s.cx.spec.pivthr) (q s.cx.spec.pivreg) n (blockOf f (s.xreg a) n n)
      (1 ≤ n → n ≤ m →
        exec (.tfact d a b g 0) s = .next (s.did (.tfact d a b g 0) (fun u =>
          let p := u.setCc (u.cc.mxWork false)
          let c := (p.cx.orFlags r.flags).writeX d (blockInto f (s.xreg a) r.a)
            (ofLanes 8 (r.perm ++ List.replicate (32 - n) 0) + r.mask * 2 ^ 256 + n * 2 ^ 288) t
          p.setCx { c with spec := { c.spec with pivmask := BitVec.ofNat 32 r.mask } }))) ∧
      (let k := slice (s.xside a) 36 1
       let perm := (List.range k).map (fun j => slice (s.xside a) j 1)
       let cols := (List.range m).map (fun c => solveCol f (blockOf f (s.xreg a) k k) perm k
          ((List.range k).map (fun i => s.xreg b / 2 ^ (1024 * i + f.width * c) % 2 ^ f.width)))
       b < 8 → s.cx.xtagOf b = t → 1 ≤ k → k ≤ m → (∀ j, j < k → j ≤ perm.getD j 0 ∧ perm.getD j 0 < k) →
        TileResult (.tsolve d a b g 0) s d
          (blockInto f (s.xreg b) ((List.range k).map (fun i => cols.map (fun c => c.1.getD i 0)))) (s.xside b) t
          (cols.foldl (fun fl c => fl ||| c.2) 0))) ∧
    (s.quiet = true → s.cx.level = 0 →
      exec (.burst d g) s = .next (s.did (.burst d g) (fun u => u.setCc (u.cc.mxBurst ((s.reg d).toNat % 2 ^ 16)))) ∧
      exec (.mwait g) s = .next (s.after s.cx.stepped))

/-! ### Encounter rings -/

/-- R210, R223: RGCFG of a well-formed word makes the member cores a ring that its core owns, with the tags of both families;
a ring that its members were in before, of the same owner and members and not running, is released first. -/
def Stated.RingConfigured : Prop :=
  ∀ (s : State) (d g : Nat), s.quiet = true → s.guardOk g = true → s.cur.2 = 0 →
    let w := (s.reg d).toNat
    let core := s.cur.1
    let mem := ringMembers w core
    let r := ringCore w (core / 192) 0
    let fc := (s.cx.fOf (bits w 15 12)).toNat
    let fd := (s.cx.fOf (bits w 19 16)).toNat
    let ok (f : Nat) (side : Bool) : Prop := descValid f = true ∧ descKind f ≠ 5 ∧ (side = true → descKind f = 0)
    ringBad w = false → core ∈ mem → ok fc (bit w 20) → ok fd (bit w 21) →
    (descTag fc (bit w 20)).cls? = (descTag fd (bit w 21)).cls? →
    (∀ c ∈ mem, (s.ctx c 0).life = .live ∧ (s.core c).domain = s.cc.domain ∧
      ∀ n q, (s.core c).ring = some n → Tbl.find s.rings n = some q → ringMembers q.cfg.toNat n = mem ∧ q.owner = core) →
    (∀ n q, s.myRing = some (n, q) → q.running = false) →
      exec (.rgcfg d g) s = .next (s.did (.rgcfg d g) (fun u =>
        let u := match s.myRing with
          | none => u
          | some (n, _) => u.ringRelease n
        mem.foldl (fun v c => v.setCore c { v.core c with ring := some r }) (u.setRing r {
          owner := core, cfg := s.reg d, domain := s.cc.domain, cwTag := descTag fc (bit w 20), ccwTag := descTag fd (bit w 21),
          counter := 0, beats := 0, tasks := 0, entered := false, doneSent := false, latch := [], slot := [], park := []
          pend := [], running := false, formed := [] })))

/-- R224, R225: RGMT writes entries of its core's match table and RGMTU entries of any members', at once while no tile is in
flight; R226: RGINJ puts a tile with its header into the injection slot of its position and family. -/
def Stated.RingTablesAndTiles : Prop :=
  ∀ (s : State) (d a b g : Nat) (l : Loc), s.quiet = true → s.Sent → s.guardOk g = true →
    let i := (s.reg a).toNat
    let n := (s.reg b).toNat
    let core := s.cur.1
    (i ≤ 255 → 1 ≤ n → i + n ≤ 256 → (s.reg d).toNat % 8 = 0 → OwnBytes s (s.reg d) (8 * n) l →
      (∀ r q, s.myRing = some (r, q) → q.flying = []) →
      (∀ j, j < n → entryBad (slice (s.peek l (8 * n)) (8 * j) 8) = false) →
      exec (.rgmt d a b g 0) s = .next (s.did (.rgmt d a b g 0) (fun u => u.setMatch ((List.range n).map (fun j =>
        (core, i + j, BitVec.ofNat 64 (slice (s.peek l (8 * n)) (8 * j) 8))))))) ∧
    (∀ r q, s.myRing = some (r, q) → q.flying = [] → 1 ≤ i → i ≤ 4096 → (s.reg d).toNat % 16 = 0 →
      OwnBytes s (s.reg d) (16 * i) l →
      let c := q.cfg.toNat
      let rec_ (j : Nat) : Nat := slice (s.peek l (16 * i)) (16 * j) 16
      (∀ j, j < i → updateBad (ringLen c) (rec_ j) = false) →
      exec (.rgmtu d a g 0) s = .next (s.did (.rgmtu d a g 0) (fun u => u.setMatch ((List.range i).map (fun j =>
        (ringCore c (r / 192) (bits (rec_ j) 4 0), bits (rec_ j) 15 8, BitVec.ofNat 64 (rec_ j / 2 ^ 64))))))) ∧
    (∀ r q, s.myRing = some (r, q) →
      let h := (s.reg d).toNat
      let f := b2n (bit h 12)
      let p := ringPos q.cfg.toNat core
      let z := q.tileBytes (bit h 12)
      let own (x : W64) : Prop := ownWindow core x = true ∧ beyondLs (x.toNat % 2 ^ 20 + z - 1) = false
      bits h 63 30 = 0 → bits h 19 13 = 0 → own (s.reg a) → (s.reg b = 0 ∨ own (s.reg b)) → (s.reg a).toNat % 64 = 0 →
      (s.reg b).toNat % 64 = 0 →
      (∀ x ∈ q.flying.filter (fun x => x.1 % 4 == 2 * f) ++ (q.slot ++ q.park).filter (fun x => x.1 % 2 == f),
        x.2.origin ≠ p ∧ x.2.tag ≠ bits h 11 0) →
      s.access s.who (s.reg a) z .read .eng = .ok l → l.key?.isSome = true →
      exec (.rginj d a b g 0) s = .next (s.did (.rginj d a b g 0) (fun u => u.setRing r { q with
        slot := Tbl.put q.slot (2 * p + f) ⟨BitVec.ofNat 64 (h + p * 2 ^ 13), s.peek l z % 2 ^ 32768, s.peek l z / 2 ^ 32768,
          s.reg b, true⟩ })))

/-- R209 to R227: the words that configure a ring, its match table and its tiles.
That the pending updates of an idle ring take effect at the issue is the model's choice (DEDUCED, log entry 36). -/
def Obligations.RingConfigWords : Prop := Stated.RingConfigured ∧ Stated.RingTablesAndTiles

/-- R227 to R230: RGSTART of an idle ring moves every slotted tile to its origin, adds the counts of the fresh CW tiles to the
counter and makes the checks of beat 0, or for none posts RING_DONE where the counter is zero; RGSTAT and RGWAIT of an idle ring give the status word;
RGREINJ slots a parked tile again; RGRET releases the ring.
That an idle ring acts at the issue of the word is the model's choice (DESIGN CHOICE, log entry 19; DEDUCED, log entry
36). -/
def Obligations.RingControl : Prop :=
  ∀ (s : State) (d a g r : Nat) (q : Ring), s.quiet = true → s.guardOk g = true → s.myRing = some (r, q) →
    let core := s.cur.1
    (s.cur.2 = 0 → s.Sent → q.owner = core → q.running = false → (s.reg d).toNat ≤ 1 →
      let reset (u : State) : State := if s.reg d = 0 then u
        else (ringMembers q.cfg.toNat r).foldl (fun u c => u.setCore c { u.core c with
          matchTab := (u.core c).matchTab.filterMap (fun p =>
            if p.2 &&& 0xBFFFFFFFFFFFFFFF = 0 then none else some (p.1, p.2 &&& 0xBFFFFFFFFFFFFFFF)) }) u
      (q.slot ≠ [] →
        exec (.rgstart d g) s = .next (s.did (.rgstart d g) (fun u => ((reset u).setRing r { q with
          counter := q.counter + (q.slot.filter (fun p => p.1 % 2 == 0 && p.2.fresh)).foldl (fun n p => n + p.2.count) 0
          beats := 0, tasks := 0, entered := true, doneSent := false, slot := [], running := true
          latch := q.slot.foldl (fun t p => Tbl.put t (2 * p.1) { p.2 with fresh := false }) [] }).ringChecks r))) ∧
      (q.slot = [] → q.counter = 0 →
        exec (.rgstart d g) s = .next (s.did (.rgstart d g) (fun u => ((reset u).setRing r { q with
          beats := 0, tasks := 0, entered := false, doneSent := true, latch := [] }).ringPost q 0x0A 0 0 0))) ∧
      (q.slot = [] → q.counter ≠ 0 →
        exec (.rgstart d g) s = .next (s.did (.rgstart d g) (fun u => (reset u).setRing r { q with
          beats := 0, tasks := 0, entered := false, doneSent := false, latch := [] })))) ∧
    exec (.rgstat d g) s = .next (s.result (.rgstat d g) d (s.ringStatus core)) ∧
    (q.running = false → s.cx.results = [] → (s.reg a = 0 ∨ (s.cc.part.map (·.promise)).getD 0 = 0) →
      exec (.rgwait d a g 0) s = .next (s.result (.rgwait d a g 0) d (s.ringStatus core))) ∧
    (let k := 2 * ringPos q.cfg.toNat core + bits (s.reg d).toNat 12 12
     bits (s.reg d).toNat 63 13 = 0 → ∀ t, Tbl.find q.park k = some t → t.tag = bits (s.reg d).toNat 11 0 →
      exec (.rgreinj d g 0) s = .next (s.did (.rgreinj d g 0) (fun u => u.setRing r { q with
        park := Tbl.erase q.park k, slot := Tbl.put q.slot k { t.withLap 0 with fresh := false } }))) ∧
    (s.cur.2 = 0 → q.owner = core → exec (.rgret g) s = .next (s.did (.rgret g) (fun u => u.ringRelease r)))

/-! ### The auction engine -/

/-- The command of an auction word of the running context (12 R234). -/
def auCmdOf (s : State) (op : Nat) (d a b : W64) : AuCmd :=
  ⟨s.cur.1, s.cur.2, s.cx.flow.seq, op, d, a, b, s.cc.domain, s.privOf s.cur.1 s.cur.2, false⟩

/-- The state in which an auction word runs at an idle engine: it has issued. -/
def auIn (s : State) (i : Instr) : State := s.issuedAs i.shape

/-- An auction word completes with a property of the next state, and no w register but `d` changes. -/
def AuDone (i : Instr) (s : State) (d : Nat) (p : State → Prop) : Prop :=
  Completes i s (fun t => (∀ n, n < 32 → n ≠ d → t.reg n = s.reg n) ∧ SameVecSpec s t ∧ p t)

/-- R234, R243 to R247: the auction words at a free engine of the context's domain: PRLD loads price registers, PRST and
AURES store prices and assignments, AUCFG installs partitions, AUSTEP makes one round and AUBID one that completes, each with the
status word as result.
That an idle engine acts at the issue of the word is the model's choice (DESIGN CHOICE, log entry 19). -/
def Obligations.AuctionWords : Prop :=
  ∀ (s : State) (d a b g : Nat), s.quiet = true → s.guardOk g = true → d < 32 → s.cx.results = [] →
    let eng := s.auEng (s.cur.1 / 384)
    let x := s.au eng
    let m := (s.reg a).toNat
    let n := (s.reg b).toNat
    let dst := s.reg d
    s.Sent → x.queue = [] → s.auBusy eng = false → (x.state = 0 ∨ x.domain = s.cc.domain) →
    (n ≠ 0 → m + n ≤ x.size → dst.toNat % 4 = 0 →
      (∀ y v, (auIn s (.prld d a b g 0)).engRead s.who dst (4 * n) .bulk = .ok (y, v) →
        AuDone (.prld d a b g 0) s 32 (fun t =>
          (∀ k, k < n → t.auPrice eng (m + k) = BitVec.ofNat 32 (lane y k)) ∧
          (∀ k, k < m ∨ m + n ≤ k → t.auPrice eng k = s.auPrice eng k) ∧ (t.au eng).parts = x.parts ∧ SameMem s t)) ∧
      (∀ v, (auIn s (.prst d a b g 0)).engWrite s.who dst (4 * n)
          (ofLanes 32 ((List.range n).map (fun k => (s.auPrice eng (m + k)).toNat))) .bulk = (v, none) →
        AuDone (.prst d a b g 0) s 32 (fun t =>
          t.mem = v.mem ∧ (∀ k, t.auPrice eng k = s.auPrice eng k) ∧ (t.au eng).parts = x.parts))) ∧
    (dst.toNat % 8 = 0 → m ≤ 15 → x.state = 3 → ∀ p v, x.parts[m]? = some p →
      (auIn s (.aures d a g 0)).engWrite s.who dst (8 * p.ntok)
        (ofLanes 64 (p.held.map auRecord)) .bulk = (v, none) →
      AuDone (.aures d a g 0) s 32 (fun t => t.mem = v.mem ∧ (t.au eng).parts = x.parts)) ∧
    (x.state ≠ 0 →
      let rounds (i : Instr) (v : State) : Prop := AuDone i s d (fun t =>
        (d ≠ 0 → t.reg d = ((v.auRoundOf eng).au eng).status) ∧ (t.au eng).parts = ((v.auRoundOf eng).au eng).parts ∧
        (t.au eng).state = ((v.auRoundOf eng).au eng).state ∧ (∀ k, t.auPrice eng k = (v.auRoundOf eng).auPrice eng k) ∧
        SameMem s t)
      let started (op : Nat) (i : Instr) (v : State) : Prop :=
        let u := auIn s i
        (x.state = 2 ∧ v = u) ∨ (x.state ≠ 2 ∧ u.auBegin eng (auCmdOf s op 0 0 0) = .ok v)
      (∀ v, started 4 (.austep d g 0) v → rounds (.austep d g 0) v) ∧
      (∀ v, started 3 (.aubid d g 0) v → ((v.auRoundOf eng).au eng).state = 3 → rounds (.aubid d g 0) v)) ∧
    (dst.toNat % 64 = 0 → m ≤ 1 → ∀ pkg l v,
      (auIn s (.aucfg d a g 0)).auBlock (auCmdOf s 0 dst (s.reg a) 0) = .ok ((pkg, l), v) →
      capFault l = none → (pkg = true → s.cur.1 / 384 = 0 ∧ (x.pkg = true ∨ ∀ k, k = 1 ∨ k = 2 ∨ k = 3 → (s.au k).state = 0)) →
      AuDone (.aucfg d a g 0) s 32 (fun t => (t.au eng).parts = l ∧ (t.au eng).state = (if l = [] then 0 else 1) ∧
        (t.au eng).domain = s.cc.domain ∧ (t.au eng).pkg = ((x.pkg || pkg) && !l.isEmpty) ∧ (t.au eng).rounds = 0 ∧
        SameMem s t)) ∧
    (bits m 63 9 = 0 → bits m 7 4 = 0 →
      exec (.austat d a g) s = .next (s.result (.austat d a g) d (if bit m 8 then x.partWord (bits m 3 0) else x.status)))

/-- R238, R239: a round never gives an expert more tokens than its capacity, leaves with an expert every token that it held or that bids for
it where these are no more than its capacity, and keeps the rows and capacities of its partition. -/
def Obligations.AuctionRoundCapacity : Prop :=
  ∀ (p : Partition) (price : Nat → Int) (j : Nat),
    let q := (p.round price).1
    (q.held.filter (fun h => match h with
      | some x => x.1 == j
      | none => false)).length ≤ p.caps.getD j 0 ∧
    q.rows = p.rows ∧ q.caps = p.caps ∧ q.rounds = p.rounds + 1 ∧ q.held.length = min p.held.length p.rows.length ∧
    let wants (i : Nat) : Option Nat := match (p.held.zip p.rows)[i]? with
      | some (some x, _) => some x.1
      | some (none, row) => (bidOf p price row).map (·.1)
      | none => none
    (j < p.nexp → (List.range p.held.length).countP (fun i => wants i == some j) ≤ p.caps.getD j 0 →
      ∀ i, wants i = some j → ∃ b f, q.held[i]? = some (some (j, b, f)))

/-! ### The vocabulary projection -/

/-- The state in which a projection word runs: it has issued and the engine has begun its work. -/
def mxIn (s : State) (i : Instr) (array : Bool) : State := (s.issuedAs i.shape).setCc ((s.issuedAs i.shape).cc.mxWork array)

/-- R252 to R262, R264, R265: the projection words in an idle engine. VPJ.CFG takes a configuration whose fields agree;
VPJ.INIT writes the initial rows of a state block, VPJ folds one tile into it, VPJ.MRG merges two blocks, VPJ.RD writes out
the heap of a row, alone, or emptying it, or merged with segments, and VPJ.REGEN adds the gradients of one tile into its window
of the accumulator; a projection of several tiles takes an entry of the queue and stays unfinished.
That an idle engine acts at the issue of the word is the model's choice (DESIGN CHOICE, log entry 19). -/
def Obligations.ProjectionWords : Prop :=
  ∀ (s : State) (d a b g : Nat) (l : Loc), EngineFree s → s.Sent → s.guardOk g = true →
    let ent (i : Instr) : Entry := s.entryOf i ((encodeNat i).getD 0) i.shape
    (∀ v, let r := s.peek l 128
      let fh := (s.cx.fOf (slice r 45 1 % 16)).toNat
      let fw := (s.cx.fOf (slice r 45 1 / 16)).toNat
      v = VCfg.of r fh fw → (s.reg d).toNat % 64 = 0 → beyondLs ((s.reg d).toNat % 2 ^ 20 + 128 - 1) = false →
      ownWindow s.cur.1 (s.reg d) = true →
      s.access s.who (s.reg d) 128 .read .ls = .ok l → l.key?.isSome = true →
      ownWindow s.cur.1 v.hbase = true → beyondLs v.offH = false → v.wbase.toNat % 64 = 0 → v.hbase.toNat % 64 = 0 →
      v.gout.toNat % 64 = 0 → descValid fh = true → descKind fh < 4 → (bit v.side 0 = true → descKind fh = 0) →
      descValid fw = true → descKind fw < 4 → (bit v.side 1 = true → descKind fw = 0) → v.tagH.cls? = v.tagW.cls? →
      v.bad r = false →
      exec (.vpjCfg d g) s = .next (s.did (.vpjCfg d g) (fun u =>
        let p := u.setCc (u.cc.mxWork false)
        p.setCx { p.cx with vpj := (List.range 128).map (fun i => slice r i 1) ++ [fh, fw] }))) ∧
    (s.cx.vpj ≠ [] → ∀ off, let v := VCfg.of (ofLanes 8 (s.cx.vpj.take 128)) (s.cx.vpj.getD 128 0) (s.cx.vpj.getD 129 0)
      v.block (s.reg d) s = .ok (off, s) →
      let put (i : Instr) (array : Bool) (rows : List VRow) (fl : Flags) : Prop :=
        ∀ q, v.putRows off 0 rows (mxIn s i array) = .ok ((), q) →
          exec i s = .next (q.setCx (q.cx.orFlags fl)).stamp
      (∀ n, let p := s.issuedAs (Instr.vpjInit d g 0).shape
        (v.lbase = 0 ∧ n = 2 ^ (128 * v.nrows) - 1 ∨ v.lbase ≠ 0 ∧ p.engRead s.who v.lbase (16 * v.nrows) .eng = .ok (n, p)) →
        put (.vpjInit d g 0) false ((List.range v.nrows).map (fun k => ⟨0xFF800000, 0, 16, v.shard, v.shard,
          (List.range 4).map (fun l => (slice n (16 * k + 4 * l) 4, 0)), []⟩)) 0) ∧
      (∀ rows ws, let p := mxIn s (.vpj d a b g 0) true
        s.reg b = 1 → (s.reg a).toNat < v.tiles → vpjCheck (ent (.vpj d a b g 0)) (s.issuedAs (Instr.vpj d a b g 0).shape) = .ok ((), s.issuedAs (Instr.vpj d a b g 0).shape) →
        v.rows (ent (.vpj d a b g 0)) (s.reg d) p = .ok (rows, p) → v.weights s.who (s.reg a).toNat p = .ok (ws, p) →
        let z := v.logits p (s.reg a).toNat ws (v.scale p.cx)
        (∀ x ∈ rows.zip z.1, v.thresh = true → x.1.heap.length + (v.cands (s.reg a).toNat x.2).length ≤ 64) →
        put (.vpj d a b g 0) true ((rows.zip z.1).map (fun x => v.fold (s.reg a).toNat x.1 x.2)) z.2) ∧
      (∀ lf rt o1 o2, let p := mxIn s (.vpjMrg d a b g 0) false
        v.block (s.reg a) s = .ok (o1, s) → v.block (s.reg b) s = .ok (o2, s) →
        v.rows (ent (.vpjMrg d a b g 0)) (s.reg a) p = .ok (lf, p) → v.rows (ent (.vpjMrg d a b g 0)) (s.reg b) p = .ok (rt, p) →
        (∀ x ∈ lf.zip rt, mergeable x.1 x.2 = true) →
        put (.vpjMrg d a b g 0) false ((lf.zip rt).map (fun x => mergeRow v.kh x.1 x.2)) 0) ∧
      (∀ o r n x l q z more L, let i := Instr.vpjRd d a b g 0
        let p := mxIn s i false
        let dest := BitVec.ofNat 64 (slice r 0 8)
        let segs := BitVec.ofNat 64 (slice r 8 8)
        let md := slice r 20 1
        let out := L.take (slice r 24 4)
        (s.reg a).toNat < v.nrows → ownBlock (s.reg b) 8 32 s = .ok (o, s) →
        readRecord (ent i) (s.issuedAs i.shape) = .ok (r, s.issuedAs i.shape) → slice r 16 4 ≤ 1024 → md ≤ 2 →
        slice r 21 3 = 0 → slice r 28 4 = 0 → dest.toNat % 8 = 0 → segs.toNat % 8 = 0 →
        p.access p.who (s.reg d + BitVec.ofNat 64 (v.rowBytes * (s.reg a).toNat)) v.rowBytes .read .ls = .ok l →
        loadAt p.who l v.rowBytes p = .ok (n, p) → rowOf? v.kh n 0 = some x →
        (md ≠ 2 → L = x.heap) →
        (md = 2 → L = candSort (x.heap ++ more.flatten) ∧ ∃ w, engReadM p.who segs (8 * slice r 16 4) p = .ok (w, p) ∧
          (List.range (slice r 16 4)).mapM (fun y => segment p.who (BitVec.ofNat 64 (slice w (8 * y) 8))) p = .ok (more, p)) →
        L.length < 2 ^ 24 → (md = 1 → L.length ≤ slice r 24 4) →
        p.engWrite p.who dest (8 + 8 * out.length) (layout ([(0, L.length), (4, out.length)]
          ++ (indexed 0 out).flatMap (fun (j, y) => [(8 + 8 * j, y.1), (12 + 8 * j, y.2)]))) .eng = (q, none) →
        (md ≠ 1 → z = q) →
        (md = 1 → v.putRows off (s.reg a).toNat [{ x with heap := [], flags := x.flags ||| 4 }] q = .ok ((), z)) →
        exec i s = .next (z.setCx (z.cx.orFlags 0)).stamp) ∧
      (∀ i, i = Instr.vpj d a b g 0 ∨ i = Instr.vpjRegen d a b g 0 → s.reg b ≠ 1 →
        vpjCheck (ent i) (s.issuedAs i.shape) = .ok ((), s.issuedAs i.shape) →
        ∃ t q, exec i s = .next t ∧ t.cc.mq = [q] ∧ q.src = .ctx s.cur.2 s.cx.flow.seq ∧ q.started = false ∧
          (∃ e, q.entry = some e ∧ e.opd = s.reg d ∧ e.opa = s.reg a ∧ e.opb = s.reg b) ∧
          (∃ e, t.cx.flow.inflight = [e] ∧ e.seq = s.cx.flow.seq ∧ e.await = true) ∧ t.cc.acc = s.cc.acc ∧ SameMem s t ∧
          (∀ n, t.reg n = s.reg n) ∧ SameVecSpec s t) ∧
      (∀ rows ws, let i := Instr.vpjRegen d a b g 0
        let p := mxIn s i true
        let zs := (v.logits p (s.reg a).toNat ws (v.scale p.cx)).1
        let gs : List (List Nat) := (rows.zip zs).map (fun (x, z) =>
          (indexed 0 z).map (fun (j, z) => (gradient v x (v.vbase + 64 * (s.reg a).toNat + j) z).1))
        s.reg b = 1 → vpjCheck (ent i) (s.issuedAs i.shape) = .ok ((), s.issuedAs i.shape) → v.gout = 0 →
        v.grow0 + v.ghn ≤ 512 → v.nrows ≤ 64 → v.rows (ent i) (s.reg d) p = .ok (rows, p) →
        v.weights s.who (s.reg a).toNat p = .ok (ws, p) →
        Completes i s (fun t => SameMem s t ∧ ∀ k c, k < 512 → c < 64 → t.cc.accAt k c =
          if v.grow0 ≤ k ∧ k < v.grow0 + v.ghn ∧ c < v.nrows then
            let h := v.gh0 + (k - v.grow0)
            BitVec.ofNat 32 (mxElem fF32 false (v.scale p.cx) (s.cc.accAt k c).toNat
              ((List.range 64).map (fun j => fF32.decode ((gs.getD c []).getD j 0)))
              ((ws.getD (h / v.cls.k) []).map (fun col => col.getD (h % v.cls.k) .nan))).1
          else s.cc.accAt k c)))

/-! ### Contexts, pennants and the halyard network -/

/-- Of core `lead`, which wA names by `a`, no following begins: it is none of the cluster, it is the core itself or shares its physical
core, no part of the same queue and kernel runs on both, its control context is not live, or it follows a core itself (14 R290, 19
R369). -/
def CannotFollow (s : State) (a lead : Nat) : Prop :=
  192 ≤ a ∨ lead = s.cur.1 ∨ s.physOf lead = s.physOf s.cur.1 ∨ (s.ctx lead 0).life ≠ .live ∨ (s.ctx lead 0).follow ≠ none ∨
  ∀ p q, s.cc.running = some p → (s.core lead).running = some q → ¬(p.queue = q.queue ∧ p.kimg = q.kimg)

/-- R271 to R274, R290, R292: START gives the lowest-numbered idle helper its start state and waits while there is none; EXIT makes
a helper idle, restarts a control context with its next identifier or leaves it idle, strikes its held messages, and waits for the
helpers that it started; YIELD sets the first cycle in which its context may be selected again; FOLLOW gives 0 at a core that cannot
follow and waits for its leader at one that can; UNFOLLOW ends following, and WID gives a part of the work identifier, or the next
one, or all ones after the last.
That a word with a lookahead of 0 has its effect at its issue is the model's choice (DEDUCED, log entry 6). -/
def Obligations.ContextWords : Prop :=
  (∀ (s : State) (d a b g : Nat), s.quiet = true → s.guardOk g = true →
    let core := s.cur.1
    let wid := s.cx.spec.wid
    let hdr := s.cx.spec.widhdr
    let waits (i : Instr) : Prop := ∃ t, exec i s = .next t ∧ t.cx.life = s.cx.life ∧ t.cx.flow.inflight.map (·.instr) = [i] ∧ SameMem s t
    (s.cur.2 = 0 → s.cx.level = 0 → (s.reg a).toNat % 4 = 0 → d < 32 →
      (s.cc.idleHelper = none → waits (.start d a b g)) ∧
      ∀ k, s.Sent → s.cc.idleHelper = some k → Completes (.start d a b g) s (fun t =>
        let c := t.ctx core k
        let at_ : State := { t with cur := (core, k) }
        c.life = .live ∧ c.flow.pc = s.reg a ∧ c.started = true ∧ c.level = 0 ∧ c.spec.widhdr = hdr ∧
        c.spec.wid = BitVec.ofNat 64 (helperWid hdr.toNat wid.toNat k) ∧ c.flow.loops = [] ∧ c.rf.cwp = 0 ∧ c.rf.low = 0 ∧
        c.spec.fstat = 0 ∧ (∀ n, c.qOf n = .val true ∧ c.sOf n = 0x3F800000) ∧
        at_.reg 1 = (s.cc.part.map (·.kimg)).getD 0 ∧ at_.reg 8 = s.reg b ∧ (d ≠ 0 → t.reg d = BitVec.ofNat 64 k))) ∧
    (s.cur.2 ≠ 0 → s.Sent → ∃ t, exec (.exit g) s = .next t ∧ t.cx.life = .idle ∧ t.cx.held = [] ∧
      (∀ p, s.cx.pennant = some (p, true) → t.net.posts = s.net.posts ++ [(core, p, s.queueOf core, s.cc.domain)]) ∧
      ((∀ p, s.cx.pennant ≠ some (p, true)) → t.net.posts = s.net.posts) ∧ SameMem s t) ∧
    (s.cur.2 = 0 → s.cc.helpersLeft = true → waits (.exit g)) ∧
    (s.cur.2 = 0 → s.Sent → s.cc.helpersLeft = false →
      let c := s.cx.issue (Instr.exit g).shape
      let u := ((s.issuedAs (Instr.exit g).shape).countRun core).setCx { c with held := [], follow := none }
      (∀ id v, u.nextId core = some (id, v) → ∃ t, exec (.exit g) s = .next t ∧ t.cx.life = .live ∧
        t.cx.flow.pc = ((v.core core).part.map (·.kimg)).getD 0 ∧ t.cx.spec.wid = id ∧ t.cx.held = []) ∧
      (u.nextId core = none → ∃ t, exec (.exit g) s = .next t ∧ t.cx.life = .idle ∧ t.cx.held = []) ∧
      ∀ p, s.cc.part = some p → (p.exhausted = true → u.nextId core = none) ∧
        ∀ id rest, p.exhausted = false → p.run = id :: rest → ∃ v, u.nextId core = some (id, v) ∧
          (v.core core).part = some { p with run := rest }) ∧
    exec (.yield a g) s = .next (s.did (.yield a g)
      (fun u => u.setCx { u.cx with yielded := s.cc.cycle + 1 + (s.reg a).toNat % 2 ^ 16 })) ∧
    (s.cur.2 = 0 → s.cx.level = 0 → (s.reg a).toNat < 256 →
      let lead := core / 192 * 192 + (s.reg a).toNat
      (CannotFollow s (s.reg a).toNat lead → exec (.follow d a g) s = .next (s.result (.follow d a g) d 0)) ∧
      (¬CannotFollow s (s.reg a).toNat lead → ∃ t, exec (.follow d a g) s = .next t ∧
        t.cx.follow = some ⟨lead, s.cx.flow.pc + 4, false, []⟩ ∧ t.cx.flow.inflight.map (·.instr) = [.follow d a g] ∧
        SameMem s t)) ∧
    exec (.unfollow g) s = .next (s.after s.cx.stepped) ∧
    ((s.reg a).toNat < 8 → exec (.wid d a g) s = .next (s.result (.wid d a g) d
      (if s.cx.pennant.isSome then 0 else widSelect s.cx (s.reg a).toNat))) ∧
    (s.cur.2 = 0 → s.reg a = 8 → d < 32 →
      let u := s.issuedAs (Instr.wid d a g).shape
      let reads (t : State) (v : W64) : Prop := t.cx.spec.wid = v ∧ (d ≠ 0 → t.reg d = v) ∧ SameMem s t
      (∀ id v, u.nextId core = some (id, v) → Completes (.wid d a g) s (fun t => reads t id)) ∧
      (u.nextId core = none → Completes (.wid d a g) s (fun t => reads t (BitVec.allOnes 64) ∧
        t.cc.part = s.cc.part.map (fun p => { p with exhausted := true }))) ∧
      ∀ p id rest, s.cc.part = some p → p.exhausted = false → p.run = id :: rest → Completes (.wid d a g) s (fun t =>
        reads t id ∧ t.cc.part = some { p with run := rest }))) ∧
  (∀ (s : State) (d a g lead : Nat) (f : Follow), lead = s.cur.1 / 192 * 192 + (s.reg a).toNat → lead ≠ s.cur.1 →
    (s.ctx lead 0).follow = some f → f.leader ≠ s.cur.1 → (s.setCtx lead 0 { s.ctx lead 0 with follow := none }).quiet = true →
    s.guardOk g = true → s.cur.2 = 0 → s.cx.level = 0 → (s.reg a).toNat < 192 →
    exec (.follow d a g) s = .next (s.result (.follow d a g) d 0)) ∧
  ∀ (s : State) (g w : Nat) (e : Bool) (f : Follow) (r : List (W64 × Nat × Bool)), s.cx.follow = some f → f.on = true →
    f.leader ≠ s.cur.1 → f.queue = (s.cx.flow.pc, w, e) :: r → s.cur.2 = 0 → s.cx.level = 0 →
    (s.setCx { s.cx with follow := none }).quiet = true → s.guardOk g = true →
    exec (.unfollow g) s = .next (s.after { s.cx.stepped with follow := none })

/-- R279, R280: PNPUSH sets Q of a ready record and puts its address at the tail of the ready queue of its priority; JOIN
counts down, gives the new count, and at zero does what PNPUSH does; it gives all ones where the count was zero.
The post alignment and the popping of the ready queues follow the reading of log entry 27 (DEDUCED). -/
def Obligations.PennantWords : Prop :=
  ∀ (s : State) (d a g : Nat) (l : Loc), s.quiet = true → s.Sent → s.guardOk g = true → (s.reg a).toNat % 32 = 0 →
    s.access s.who (s.reg a) 32 .rmw .fe = .ok l → pnBad (s.peek l 32) = false →
    let r := s.peek l 32
    let n := pnCount r
    let k := 4 * (s.cur.1 / 192) + pnPrio r
    let push (u : State) : State := (u.poke l 32 (pnWith r 0 true)).pnPut k (s.reg a).toNat (s.queueOf s.cur.1)
    let out (f : State → State) (v : W64) : Prop := exec (.join d a g) s = .next (s.did (.join d a g) (fun u =>
      (f u).setCx ((f u).cx.finW (s.entryOf (.join d a g) 0 (Instr.join d a g).shape) d v)))
    (n = 0 → pnQ r = false → s.pnOn (s.cur.1 / 192) = true → s.pnRoom k = true →
      exec (.pnpush a g) s = .next (s.did (.pnpush a g) push)) ∧
    (n = 0 → out (fun u => u) (BitVec.allOnes 64)) ∧
    (1 < n → out (fun u => u.poke l 32 (pnWith r (n - 1) (pnQ r))) (BitVec.ofNat 64 (n - 1))) ∧
    (n = 1 → pnQ r = false → s.pnOn (s.cur.1 / 192) = true → s.pnRoom k = true → out push 0)

/-- The halyard word has issued and arrived: its entry waits for the episode. -/
def Arrived (i : Instr) (s : State) (op : Nat) (w v : W64) (q : State → Prop) : Prop :=
  ∃ t, exec i s = .next t ∧ t.episodes = arriveIn s.cur.1 s.cx.flow.seq v op w (s.queueOf s.cur.1)
      (halyPlace w.toNat s.cur.1) s.episodes ∧
    t.cx.flow.pc = s.cx.flow.pc + 4 ∧ t.cx.flow.inflight.map (fun e => (e.seq, e.await)) = [(s.cx.flow.seq, true)] ∧
    SameMem s t ∧ q t

/-- R285 to R289: a halyard word of the control context, which is a release, arrives and waits, the slot of VOTE pending from its issue; an
episode with all its members completes, once none waits for a partner of its physical core, and gives each arrived member the one result; the waiting word then completes, VOTE by writing its slot, HALY 0 and HSUM the sum
to wD.
That a word with a lookahead of 0 has its effect at its issue is the model's choice (DEDUCED, log entry 6). -/
def Obligations.HalyardWords : Prop :=
  (∀ (s : State) (d a b g : Nat), s.quiet = true → s.guardOk g = true → s.cur.2 = 0 → s.cx.level = 0 → s.cx.results = [] →
    0 < d → d < 8 → halyBad (s.reg a).toNat s.cur.1 2 = false →
    ∃ t, exec (.vote d a b g) s = .next t ∧ t.cx.qOf d = .pending s.cx.flow.seq ∧ t.cx.flow.pc = s.cx.flow.pc + 4) ∧
  (∀ (s : State) (d a b g : Nat), s.quiet = true → s.Sent → s.guardOk g = true → s.cur.2 = 0 → s.cx.level = 0 → s.cx.results = [] →
    let bad (n : Nat) : Bool := halyBad (s.reg a).toNat s.cur.1 n
    (bad 2 = false → 0 < d → d < 8 → Arrived (.vote d a b g) s 0 (s.reg a) (s.reg b)
      (fun t => t.cx.qOf d = .pending s.cx.flow.seq)) ∧
    (bad 1 = false → (s.reg b = 0 ∨ (s.cc.part.map (·.promise)).getD 0 = 0) →
      Arrived (.haly d a b g) s 1 (s.reg a) (s.reg b) (fun _ => True)) ∧
    (bad 3 = false → Arrived (.hsum d a b g) s 2 (s.reg a) (s.reg b) (fun _ => True))) ∧
  (∀ (s : State) (e : Episode) (core seq : Nat) (v : W64), s.episodeFull e = true →
    s.episodes.filter (fun x => x.op == e.op && x.word == e.word && x.launch == e.launch) = [e] →
    s.partnersReady (s.members e) = true → (core, seq, v) ∈ e.arrived → (s.ctx core 0).life ≠ .dead →
    ∃ t, exec (.halyardEpisodeComplete e.op e.word e.launch) s = .next t ∧ t.episodes = s.episodes.erase e ∧
      (seq, s.episodeResult e) ∈ (t.ctx core 0).results ∧ SameMem s t) ∧
  ∀ (s : State) (e : Entry) (d a b g core : Nat) (v f : W64) (p : Bool), core < 1536 → (s.ctx core 0).flow.inflight = [e] →
    e.atEnd = false → d < 32 →
    let z : State := { s with cur := (core, 0) }
    (e.instr = .vote d a b g → d ≠ 0 → d < 8 → (s.ctx core 0).qOf d = .pending e.seq → Tbl.find (s.ctx core 0).results e.seq = some (.q p) →
      ∃ t, exec (.instructionComplete core 0 0) s = .next t ∧ (t.ctx core 0).qOf d = .val p ∧ (t.ctx core 0).flow.inflight = []) ∧
    (e.instr = .haly d a b g → Tbl.find (s.ctx core 0).results e.seq = some (.w v) →
      ∃ t, exec (.instructionComplete core 0 0) s = .next t ∧
        (d ≠ 0 → ({ t with cur := (core, 0) } : State).reg d = v) ∧
        (∀ n, n ≠ d → ({ t with cur := (core, 0) } : State).reg n = z.reg n) ∧ (t.ctx core 0).flow.inflight = []) ∧
    (e.instr = .hsum d a b g → Tbl.find (s.ctx core 0).results e.seq = some (.w2 v f) →
      ∃ t, exec (.instructionComplete core 0 0) s = .next t ∧ (d ≠ 0 → ({ t with cur := (core, 0) } : State).reg d = v) ∧
        (t.ctx core 0).flags = (s.ctx core 0).flags ||| BitVec.ofNat 5 f.toNat ∧
        (t.ctx core 0).flow.inflight = [])

/-! ### Control registers, traps and HINTs -/

/-- The state after the issue of a word with no result of its own, before its effect. -/
def passed (s : State) : State := s.setCx s.cx.stepped

/-- R133, R134, R345: MFC reads an assigned control register, MTC writes it, MSC sets bits of it and MCC clears bits of it;
in a W1C register MTC and MCC clear the ones written and MSC writes nothing; a number that no map assigns is ILLEGAL, and a
privileged register raises PROT code 0x11 in an unprivileged context. -/
def Stated.ControlRegisterWords : Prop :=
  ∀ (s : State) (d n : Nat), s.quiet = true →
    let core := s.cur.1
    let k := s.cur.2
    let x := s.reg d
    (∀ v, s.ctl core k n = some v → (ctlPriv n = false ∨ s.privOf core k = true) →
      exec (.mfc d n) s = .next (s.wrote d v false) ∧
      (ctlW1c n = false →
        exec (.mtc d n) s = .next ((passed s).ctlPut core k n x).stamp ∧
        exec (.msc d n) s = .next ((passed s).ctlPut core k n (v ||| x)).stamp ∧
        exec (.mcc d n) s = .next ((passed s).ctlPut core k n (v &&& ~~~x)).stamp) ∧
      (ctlW1c n = true →
        exec (.mtc d n) s = .next ((passed s).ctlClear core n x).stamp ∧
        exec (.msc d n) s = .next (passed s).stamp ∧
        exec (.mcc d n) s = .next ((passed s).ctlClear core n x).stamp)) ∧
    let stops (c : Cause) (code : Nat) (aux : Nat → W64) : Prop :=
      exec (.mfc d n) s = .next (s.trapHere c code (aux 0)).stamp ∧ exec (.mtc d n) s = .next (s.trapHere c code (aux 1)).stamp ∧
      exec (.msc d n) s = .next (s.trapHere c code (aux 2)).stamp ∧ exec (.mcc d n) s = .next (s.trapHere c code (aux 3)).stamp
    (s.ctl core k n = none → stops .illegal 0 (fun op => BitVec.ofNat 64 (encSys 0x3C op d n 0))) ∧
    ((s.ctl core k n).isSome = true → ctlPriv n = true → s.privOf core k = false → stops .prot 0x11 (fun _ => BitVec.ofNat 64 n)) ∧
    encodeNat (.mfc d n) = some (encSys 0x3C 0 d n 0) ∧ encodeNat (.mtc d n) = some (encSys 0x3C 1 d n 0) ∧
    encodeNat (.msc d n) = some (encSys 0x3C 2 d n 0) ∧ encodeNat (.mcc d n) = some (encSys 0x3C 3 d n 0)

/-- R134 and the maps of the other chapters: what a write of a control register leaves in it. FSTAT keeps five bits, a
descriptor register its assigned fields, a scale register and XLFMT 32 bits, PIVTHR and PIVREG all; a read-only register
ignores a write, and no write of one of these changes memory or a w register. -/
def Stated.ControlRegisterValues : Prop :=
  ∀ (s : State) (core k : Nat) (v : W64),
    let u (n : Nat) : Option W64 := (s.ctlPut core k n v).ctl core k n
    u 0x010 = some (v &&& 0x1F) ∧ u 0x071 = some (v &&& 0xFFFFFFFF) ∧ u 0x0D8 = some v ∧ u 0x0D9 = some v ∧
    (∀ j, j < 16 → u (0x0C0 + j) = some (v &&& 0xF0FF1FF8)) ∧
    (∀ j, j < 8 → u (0x0D0 + j) = some (v &&& 0xFFFFFFFF)) ∧
    (∀ n, n ∈ [0x000, 0x001, 0x008, 0x009, 0x012, 0x013, 0x014, 0x015, 0x030, 0x038, 0x060, 0x063, 0x070, 0x072, 0x0DA, 0x0DB] →
      s.ctlPut core k n v = s) ∧
    (∀ n, n ≠ 0x041 → SameMem s (s.ctlPut core k n v) ∧ ((s.ctlPut core k n v).ctx core k).rf = (s.ctx core k).rf)

/-- R133, R134: the words on control registers, and what the registers keep.
The masks of FDESC and ENS are inferred (DEDUCED, log entry 39). -/
def Obligations.ControlRegisters : Prop := Stated.ControlRegisterWords ∧ Stated.ControlRegisterValues

/-- R344: a trap at level 0 or 1 whose image can be written and whose entry address is valid raises the level by one and goes on
at the entry address with no HINT, no unfinished instruction and no loop level, with the image's address in w1, its frame's in
w8, the cause word in w9, the auxiliary word in w10 and the saved PC in w11; its stores on their way in this package have landed and a
projection command of it stands at its tile boundary. R346: a trap at level 2 kills the context.
Where w1-w31 and the slots of the handler lie in the area of 512 bytes is the model's choice (DESIGN CHOICE, log entry
7). That LOOKAHEAD makes a load that completed in its open window an entry again is read from R130 (DEDUCED, log entry
6). -/
def Obligations.TrapEntry : Prop :=
  ∀ (s : State) (core k : Nat) (q : TrapReq),
    let s1 := (s.landStores core k).stopTiles core k
    let c0 := s1.ctx core k
    let c := c0.settle (c0.lookedAt q)
    let f := c.flow.reopened q
    let p := (s1.setCtx core k { c with
      flow := { f with chain := [] }, follow := none
      postFail := if q.cause = .memfault ∧ q.code = 0x24 then none else c.postFail }).unpark core k
    let h := (p.ctx core k).frameHdr q.pc q.npc q.cause q.code q.aux q.n f.inflight.length
    let es := f.inflight.map (fun e => (e, decide (q.trapped = some e.seq)))
    let img := p.cimg core k
    let w := p.hwWho core
    (c.level < 2 → ∀ u hvec st area z, p.saveLevel core k h es = .ok u → u.vread w img 8 = .ok hvec →
      u.vread w (img + 0x10) 8 = .ok st → u.vread w (img + 0x13600 + 512 * c.level) 512 = .ok area →
      let entry : W64 := q.sysv.getD (BitVec.ofNat 64 hvec)
      entry ≠ 0 → entry.toNat % 4 = 0 → u.vwrite w (img + 0x10) 8 (st / 4 * 4 + (c.level + 1)) = .ok z →
      let t := s.takeTrap core k q
      let x := t.ctx core k
      let r (n : Nat) : W64 := ({ t with cur := (core, k) } : State).reg n
      SameMem z t ∧ x.level = c.level + 1 ∧ x.life = c.life ∧ x.flow.pc = entry ∧ x.flow.chain = [] ∧ x.flow.inflight = [] ∧
      x.flow.loops = [] ∧ (∀ n, x.qOf n = .val true) ∧ x.hpriv = (if q.cause = .sysc then q.sysv.isSome || (c.level != 0 && c.hpriv) else bit st 2) ∧
      r 1 = BitVec.ofNat 64 img ∧ r 8 = BitVec.ofNat 64 (img + frameOff c.level) ∧
      r 9 = BitVec.ofNat 64 (slice h.num 0x10 8) ∧ r 10 = q.aux ∧ r 11 = q.pc ∧
      (∀ n, 1 < n → n < 32 → ¬(8 ≤ n ∧ n ≤ 11) → r n = BitVec.ofNat 64 (slice area (8 * (n - 1)) 8)) ∧
      x.rf = c.rf ∧ x.vec = c.vec ∧ x.spec = c.spec) ∧
    (2 ≤ c.level → ((s.takeTrap core k q).ctx core k).life = .dead)

/-- R349: TRAP and SYSC trap at the next address with their number and wD, BRK with its number, BRK stopping for the debugger where DBGBRK says so;
SYSC enters at SYSV of the domain where that is not 0. With no debugger attached HALT kills its context, whose frame has the next address. -/
def Stated.TrapWords : Prop :=
  ∀ (s : State) (d n : Nat), s.quiet = true →
    let x := s.reg d
    let pc := s.cx.flow.pc
    let take (c : Cause) (aux : W64) (sysv : Option W64) : Host.Outcome State Fault Refusal :=
      .next ((passed s).takeTrap s.cur.1 s.cur.2 ⟨c, 0, aux, pc, pc + 4, n, none, sysv⟩).stamp
    let sysv := s.dreg! (0x260008 + 16 * s.cc.domain)
    exec (.trap d n) s = take .trap x none ∧
    exec (.sysc d n) s = take .sysc x (if sysv = 0 then none else some sysv) ∧
    (s.dbgBrk 0 = false → exec (.brk n) s = take .brk 0 none) ∧
    (s.dbgBrk 0 = true → s.otherHalt = false → exec (.brk n) s = .next ((passed s).stopHere 2 0).stamp) ∧
    (s.dbgBrk 1 = false →
      exec (.halt d) s = .next ((passed s).kill s.cur.1 s.cur.2 ((passed s).cx.frameHdr (pc + 4) (pc + 4) .debug 3 x 0 0) []).stamp ∧
      ∃ t, exec (.halt d) s = .next t ∧ t.cx.life = .dead ∧ t.cx.held = []) ∧
    (s.dbgBrk 1 = true → s.otherHalt = false → exec (.halt d) s = .next ((passed s).stopHere 3 x).stamp)

/-- R348: TRET takes up the state that the image and frame of the level below hold; outside handler mode it raises PROT code
0x3E, and with a frame that it refuses PROT code 0x3F; where the image faults, the context dies. -/
def Stated.TrapReturn : Prop :=
  ∀ (s : State), s.quiet = true →
    (s.cx.level = 0 → exec .tret s = .next (s.trapHere .prot 0x3E 0).stamp) ∧
    (∀ l, s.cx.level = l + 1 →
      (∀ u, s.restoreLevel s.cur.1 s.cur.2 l = .ok u → exec .tret s = .next (u.recapture s.cur.1 s.cur.2).stamp ∧
        u.cx.level = l ∧ u.cx.life = .live ∧ u.cx.flow.chain = []) ∧
      (s.restoreLevel s.cur.1 s.cur.2 l = .error .refused → exec .tret s = .next (s.trapHere .prot 0x3F 0).stamp) ∧
      ∀ f aux, s.restoreLevel s.cur.1 s.cur.2 l = .error (.fault f aux) → ∃ t, exec .tret s = .next t ∧ t.cx.life = .dead)

/-- R348, R349: the words that trap, stop or return.
The layout of the handler's area is the model's choice (DESIGN CHOICE, log entry 7), and so is that the entries of a
frame take the tags, descriptors and elements that stand at the return (DESIGN CHOICE, log entry 69); which frames TRET
refuses for their entries is inferred (DEDUCED, log entry 24). -/
def Obligations.TrapAndReturnWords : Prop := Stated.TrapWords ∧ Stated.TrapReturn

/-- The context after LOW of the trapped context became `low`. -/
def lowSet (u : State) (low : Nat) : State := u.setCx { u.cx with rf := { u.cx.rf with low := low } }

/-- The context with no register of frame `low` marked stale in what it saved of level 0. -/
def unstale (u : State) (low : Nat) : State :=
  u.setCx { u.cx with saved := u.cx.saved.map (fun y =>
    if y.level = 0 then { y with stale := y.stale.filter (fun r => !inFrame low r.1) } else y) }

/-- R124, R125: SPILLW in a handler takes the frame at LOW out of the register file, and its registers are stale no more: with wD[63]
clear it leaves it in its image slot and writes 0 to wD; with it set and an entry of the spill map free, it parks it in the half-row
and writes the entry to wD, or, the half-row being marked, does as with it clear. FILLW brings back the frame below LOW, from its
half-row, which then holds zeros, or from its image slot. Outside a handler both raise PROT code 0x11. -/
def Obligations.SpillAndFill : Prop :=
  ∀ (s : State) (d : Nat), s.quiet = true →
    let core := s.cur.1
    let p := passed s
    let a := s.cimg core s.cur.2 + frameOff 0 + 0x20
    let w := (s.reg d).toNat
    let row := bits w 10 2
    let half := bits w 1 1
    (s.cx.level = 0 → exec (.spillw d) s = .next (s.trapHere .prot 0x11 0).stamp ∧
      exec .fillw s = .next (s.trapHere .prot 0x11 0).stamp) ∧
    (∀ win slot v u, s.cx.level ≠ 0 → p.vread (p.hwWho core) a 8 = .ok win →
      let cwp := win % 2 ^ 32
      let low := win / 2 ^ 32
      low + 1 < cwp → bits w 62 11 = 0 → bit w 0 = false → p.frameSlot core s.cur.2 low = .ok slot →
      p.vread (p.hwWho core) slot 128 = .ok v → p.vwrite (p.hwWho core) a 8 (cwp + (low + 1) * 2 ^ 32) = .ok u →
      let q := unstale (lowSet u (low + 1)) low
      let left := exec (.spillw d) s = .next (q.setCx (q.cx.writeW d 0 false)).stamp
      (bit w 63 = false → left) ∧
      (∀ n, bit w 63 = true → (List.range 32).find? (fun n => !bit (Tbl.get 0 s.cc.spmap n).toNat 63) = some n →
        s.cc.spFind (fun y => bits y 10 2 == row && bits y 1 1 == half) = none →
        (Tbl.get false s.cc.marks (2 * row + half) = true → left) ∧
        (Tbl.get false s.cc.marks (2 * row + half) = false →
          let e := BitVec.ofNat 64 (2 ^ 63 + s.cur.2 * 2 ^ 59 + low % 2 ^ 32 * 2 ^ 24 + row * 4 + half * 2)
          let z := q.setCc { q.cc.parkFrame row half v with spmap := Tbl.set 0 q.cc.spmap n e }
          exec (.spillw d) s = .next (z.setCx (z.cx.writeW d e false)).stamp))) ∧
    (∀ win slot, s.cx.level ≠ 0 → p.vread (p.hwWho core) a 8 = .ok win →
      let cwp := win % 2 ^ 32
      let low := win / 2 ^ 32
      let found := s.cc.spFind (fun y => bits y 62 59 == s.cur.2 && bits y 55 24 == low - 1)
      low ≠ 0 → cwp - low ≠ 5 → p.frameSlot core s.cur.2 (low - 1) = .ok slot →
      (∀ v u, found = none → p.vread (p.hwWho core) slot 128 = .ok v →
        p.vwrite (p.hwWho core) a 8 (cwp + (low - 1) * 2 ^ 32) = .ok u → exec .fillw s = .next (lowSet u (low - 1)).stamp) ∧
      ∀ n t u, found = some n →
        let y := (Tbl.get 0 s.cc.spmap n).toNat
        p.vwrite (p.hwWho core) slot 128 (s.cc.parkedFrame (bits y 10 2) (bits y 1 1)) = .ok t →
        let z := t.setCc { t.cc.parkFrame (bits y 10 2) (bits y 1 1) 0 with spmap := Tbl.set 0 t.cc.spmap n 0 }
        z.vwrite (z.hwWho core) a 8 (cwp + (low - 1) * 2 ^ 32) = .ok u → exec .fillw s = .next (lowSet u (low - 1)).stamp)

/-- R23, R25: a HINT joins the chain before its consumer and moves to the next address; a fourth HINT, or one at the end
address of a loop level, is ILLEGAL, once no instruction with a closed window is unfinished. R20: so is a word that is no instruction,
with the word as auxiliary value; where its major is that of the HINTs, the trap's address is its own, not that of the chain.
What stands as pc and npc of an illegal HINT is inferred (DEDUCED, log entry 23). -/
def Obligations.HintWords : Prop :=
  (∀ (s : State) (n : Nat), s.cx.follow = none → s.alone →
    let c := s.cx
    let f := c.flow
    (f.chain.length < 3 → c.atEnd f.pc = false →
      let joined (h : Hint) : Host.Outcome State Fault Refusal := .next (s.setCx { c with
        flow := { f with chain := f.chain ++ [h], chainPc := if f.chain = [] then f.pc else f.chainPc, pc := f.pc + 4 } })
      exec (.hintImm n) s = joined (.imm n) ∧ exec (.hintHome n) s = joined (.home n) ∧ exec (.hintMod n) s = joined (.mod n)) ∧
    (3 ≤ f.chain.length ∨ c.atEnd f.pc = true →
      let trapped (w : Nat) : Host.Outcome State Fault Refusal := if f.closed then .next s else
        .next (s.takeTrap s.cur.1 s.cur.2 ⟨.illegal, 0, BitVec.ofNat 64 w, f.pc, f.pc, 0, none, none⟩).stamp
      exec (.hintImm n) s = trapped (encH 61 0 n) ∧ exec (.hintHome n) s = trapped (encH 61 1 n) ∧
      exec (.hintMod n) s = trapped (encH 61 2 n))) ∧
  ∀ (s : State) (w : Nat), s.cx.flow.closed = false →
    exec (.illegalWord w) s = .next (if bits w 31 26 = 61 then
      (s.takeTrap s.cur.1 s.cur.2 ⟨.illegal, 0, BitVec.ofNat 64 w, s.cx.flow.pc, s.cx.flow.pc, 0, none, none⟩).stamp
    else s.trapHere .illegal 0 (BitVec.ofNat 64 w))

/-! ### Events: what happens to the package between instructions -/

/-- An event takes place and the next state has the property. -/
def Happens (i : Instr) (s : State) (q : State → Prop) : Prop := ∃ t, exec i s = .next t ∧ q t

/-- Register `n` of a context, in the group that its level reads. -/
def regAt (s : State) (core k n : Nat) : W64 := ({ s with cur := (core, k) } : State).reg n

/-- R54, R65, R88, R129, R290: an instruction whose effect may complete leaves its context's unfinished instructions; a parked
LDS is served, in any of the three ways, once its word is full; a page walk loads its leaf and a posted store that
is acknowledged has taken its place, and one that fails leaves its address and a record; a core that waits to follow begins with wD 1.
The moments at which these events fall are free (DESIGN CHOICE, log entry 2), as are table walks' (DEDUCED, log entry
35). -/
def Obligations.CompletionEvents : Prop :=
  ∀ (s : State) (core k : Nat), core < 1536 → k < 11 →
    let c := s.ctx core k
    (∀ (e : Entry) d a ord scope la key l, c.flow.inflight = [e] → e.instr = .lds d a ord scope la → e.atEnd = false →
      c.stores = [] → ({ s with cur := (core, k) } : State).Sent → c.postFail = none → d < 32 → e.opa.toNat % 8 = 0 →
      s.access ⟨(s.core core).domain, e.priv, core⟩ e.opa 8 .rmw .fe = .ok l → l.key? = some key → s.isEmpty key = false →
      s.net.parked = [(core, k, e.seq, key)] →
      let served (t : State) : Prop := (t.ctx core k).flow.inflight = [] ∧ t.net.parked = [] ∧ SameMem s t ∧
        (d ≠ 0 → regAt t core k d = BitVec.ofNat 64 (s.peek l 8)) ∧ ∀ n, n ≠ d → regAt t core k n = regAt s core k n
      Happens (.instructionComplete core k 0) s served ∧ Happens (.ldsParkRetry core k) s served ∧
      Happens (.parkedRequestServe key) s served) ∧
    (∀ i x, (indexed 0 c.stores).find? (fun p => p.2.posted) = some (i, x) →
      (x.landed = true ∨ (s.storeHeld core x = false ∧ ∀ y ∈ c.stores.take i, y.landed = true ∨ y.meets x = false)) →
      Happens (.postedStoreAck core k) s (fun t => (t.ctx core k).unacked + 1 = c.unacked ∧
        (x.landed = true ∨ x.key = none → SameMem s t) ∧
        ∀ key, x.landed = false → x.key = some key → t.mem = (s.poke (.ofKey key x.mat) x.n x.v).mem)) ∧
    (∀ pa x, c.stores.find? (fun y => y.posted && !y.landed && y.pa == pa) = some x →
      Happens (.postedStoreFail core k pa) s (fun t => (t.ctx core k).unacked + 1 = c.unacked ∧
        (t.ctx core k).postFail = some (c.postFail.getD pa) ∧ SameMem s t ∧
        t.net.frecs = s.net.frecs ++ [(core / 384, ⟨0x05, Cause.memfault.num, 0x24, k, core, 0, BitVec.ofNat 64 pa, 0⟩)])) ∧
    (∀ dom va leaf log, dom < 256 → s.leafOf core dom (va % 2 ^ 52) = .ok (leaf, log) →
      Happens (.pageWalkComplete core dom va) s (fun t =>
        (t.core core).micro.head? = some ⟨dom, va % 2 ^ 52 / 2 ^ log, log, leaf⟩ ∧ SameMem s t)) ∧
    (∀ (e : Entry) f d a g, (s.ctx core 0).flow.inflight = [e] → e.instr = .follow d a g → e.atEnd = false → d < 32 →
      (s.ctx core 0).level = 0 → e.opa.toNat < 2 ^ 8 → (s.ctx core 0).follow = some f → f.on = true →
      Happens (.followEngage core) s (fun t => (t.ctx core 0).flow.inflight = [] ∧ (d ≠ 0 → regAt t core 0 d = 1)))

/-- R63, R71, R74, R91, R280: a message takes the next slot of its ring, or is dropped with a record; a message that cannot leave
fails with a record to its sender; a remote command that an entry of the ensign table admits joins the buffer, and another is
refused with a record; during a debug halt of its core's domain a message is held (R355, R369); an event record takes a place in the queue of its core; a hardware post joins the pennant.
The moments at which arrivals fall are free (DESIGN CHOICE, log entries 1 and 2); the overflow area follows the reading
of log entry 33 (DEDUCED). The network interface leaves full-empty bits alone (DESIGN CHOICE, log entry 53); that
messages wait whole in a halt (DEDUCED, log entry 28) and that a misaligned hardware post gives PNFAIL (DEDUCED, log
entry 27) are read from the rules. -/
def Obligations.ArrivalEvents : Prop :=
  ∀ (s : State), let recd (t : State) (core : Nat) (r : EvRec) : Prop := (core, r) ∈ t.net.recs
    (∀ (m : Msg), m.dest < 1536 → m.ring < 8 → m.score < 1536 →
      let u := s.unsend m
      let n := m.payload.length
      let halts := s.admin.halting = some (s.core m.dest).domain
      (m.fab = true → s.devnum = none → exec (.messageArrival m) s = .next s) ∧
      Happens (.messageFail m) s (fun t => recd t m.score ⟨0x04, 0, 0, m.sctx, 0, m.destWord &&& 0xFFFFFFFFFFFFF#64, false, 0⟩ ∧ SameMem s t) ∧
      ((m.fab = false ∨ s.devnum ≠ none) →
      (halts → s.admin.heldBytes (m.dest / 384) + (n + 8) ≤ 2 ^ 20 → exec (.messageArrival m) s =
        .next { u with admin := { u.admin with held := s.admin.held ++ [.msg m] } }) ∧
      (halts → 2 ^ 20 < s.admin.heldBytes (m.dest / 384) + (n + 8) → exec (.messageArrival m) s = .next s) ∧
      (∀ r : RxRing, ¬halts → Tbl.find (s.core m.dest).rx m.ring = some r → (r.dom = 0 ∨ r.dom = m.sdom) → n + 8 ≤ 2 ^ r.slotLog →
        (r.tail - r.head).toNat < 2 ^ r.cntLog → r.ovfTail = r.ovfHead → m.eos = false →
        exec (.messageArrival m) s = .next
          ((u.poke (.ls m.dest (r.base + r.tail.toNat % 2 ^ r.cntLog * 2 ^ r.slotLog)) (n + 8)
            (msgHeader m + 2 ^ 64 * ofBytes m.payload)).setRx m.dest m.ring { r with tail := r.tail + 1 })) ∧
      (Tbl.find (s.core m.dest).rx m.ring = none → ¬halts → Happens (.messageArrival m) s (fun t =>
        recd t m.dest (hwRec 0x03 0 m.ring (BitVec.ofNat 64 (m.sdev * 2 ^ 32 + m.score))) ∧
        Tbl.get 0 (t.core m.dest).creg 0x043 = Tbl.get 0 (s.core m.dest).creg 0x043 + 1 ∧ SameMem s t)))) ∧
    (∀ (c : RemoteCmd), c.target < 1536 → c.score < 1536 →
      ((s.core c.target).admits c = false → Happens (.remoteCommandArrival c) s (fun t =>
        recd t c.score ⟨0x07, 0, 0, c.sctx, 0, c.destWord, false, 0⟩ ∧ (t.core c.target).rcbuf = (s.core c.target).rcbuf)) ∧
      (∀ i, (s.core c.target).admits c = true → rcInstr c = some i → i.shape.g = 0 → (s.core c.target).rcbuf.length < 4 →
        Happens (.remoteCommandArrival c) s (fun t => (t.core c.target).rcbuf = (s.core c.target).rcbuf ++ [c]))) ∧
    (∀ core r, core < 1536 → (s.core core).evq.length < 64 → (s.core core).evhead = (s.core core).evtail →
      Happens (.eventRecordArrival core r) s (fun t => (t.core core).evq = (s.core core).evq ++ [{ r with held := false }] ∧
        SameMem s t)) ∧
    (∀ core a, core < 1536 →
      let dom := ((s.net.posts.find? (fun p => p.1 == core && p.2.1 == a)).map (·.2.2.2)).getD (s.core core).domain
      (a.toNat % 32 ≠ 0 → Happens (.hardwarePost core a) s (fun t => recd t core (hwRec 0x0F 0 0 a))) ∧
      (∀ l, a.toNat % 32 = 0 → s.access (s.pnWho core dom) a 32 .rmw .fe = .ok l → pnBad (s.peek l 32) = false →
        let n := pnCount (s.peek l 32)
        (n = 0 → Happens (.hardwarePost core a) s (fun t => recd t core (hwRec 0x0F 1 0 a) ∧ SameMem s t)) ∧
        (1 < n → Happens (.hardwarePost core a) s (fun t =>
          t.mem = (s.poke l 32 (pnWith (s.peek l 32) (n - 1) (pnQ (s.peek l 32)))).mem))))

/-- R78, R85, R191, R204, R205, R222: copy commands leave the copy queue for a bulk engine, start and end with their record;
the head of a matrix queue is admitted, starts, a projection tile by tile, and completes: its tile is written and its instruction
learns of it; the array level moves by one
and a BURST hold ends; a ring's task completes and an empty ring comes to rest.
The moments at which engines move are free (DESIGN CHOICE, log entries 2 and 19). -/
def Obligations.EngineEvents : Prop :=
  ∀ (s : State) (core : Nat), core < 1536 →
    let x := s.core core
    (∀ c, x.copyq.find? (fun c => c.bulk && decide ((s.atEngine c false).length < 32)) = some c →
      Happens (.bulkQueueAdmit core) s (fun t => (t.core core).copyRun = x.copyRun ++ [{ c with id := s.copyId }] ∧
        (t.core core).copyq = x.copyq.filter (fun y => y.id != c.id) ∧ SameMem s t)) ∧
    (∀ id c, x.copyWaiting.find? (fun c => c.id == id) = some c → s.copyMayStart c = true →
      Happens (.copyCommandStart core id) s (fun t => SameMem s t ∧ ∃ y, y.id = id ∧ y.started = true ∧
        (t.core core).copyRun = x.copyRun.filter (fun z => z.id != id) ++ [y])) ∧
    (∀ id c, x.copyRun.find? (fun c => c.started && c.id == id) = some c → s.admin.halting ≠ some c.domain →
      let z := s.copyAll c
      let u := z.1.core core
      let ended := (z.1.setCore core { u with copyRun := u.copyRun.filter (fun y => y.id != id) }).recArrive core (z.2.record z.2.total)
      (u.evRoom = true → z.2.err = none → exec (.copyCommandComplete core id) s = .next ended) ∧
      (u.evRoom = true → z.2.err ≠ none → exec (.copyCommandFault core id) s = .next ended) ∧
      (u.evRoom = false → c.done = true → exec (.copyCommandComplete core id) s = .next s)) ∧
    (∀ e, x.mq = [] → x.ring = none → x.rcbuf = [] → s.mxReady core = [e] →
      Happens (.matrixQueueAdmit core) s (fun t => (t.core core).mq = [⟨.ctx e.1 e.2.seq, false, 0#5, .none, some e.2⟩] ∧
        ∀ y ∈ (t.ctx core e.1).flow.inflight, y.seq = e.2.seq → y.await = true)) ∧
    (∀ q l k n e m r fl u, x.mq = q :: l → q.started = false → q.src = .ctx k n → q.entry = some e → mxOf e.instr = some m →
      (x.midway = false ∨ s.formedFor core = []) →
      (∀ d a b g la, e.instr ≠ .accld d a b g la) →
      (s.setCore core (x.mxWork (arrayWord e.instr))).runAs core k (m.run e) = .ok ((r, fl), u) →
      exec (.matrixCommandStart core) s = .next (if tiled e.instr ∧ 1 < e.opb.toNat then (u.joinFlags core k fl).mxGoesOn core k q e.nextTile
        else u.mxHead core { q with started := true, flags := fl, res := r })) ∧
    (∀ q l k n e d a b g la w u, x.mq = q :: l → q.started = false → q.src = .ctx k n → q.entry = some e → e.instr = .accld d a b g la →
      (x.midway = false ∨ s.formedFor core = []) → (s.setCore core (x.mxWork false)).runAs core k (accldStep e false) = .ok (w, u) →
      exec (.matrixCommandStart core) s = .next (match w with
        | some ext => (u.joinFlags core k 0).mxGoesOn core k q { e with ext := ext }
        | none => u.mxHead core { q with started := true, flags := 0, res := .none })) ∧
    (∀ q l k n, x.mq = q :: l → q.started = true → q.src = .ctx k n → x.mxAccepted q k = true →
      let c := s.ctx core k
      let here := c.flow.inflight.any (fun e => e.seq == n && e.left == 0)
      let ends (r : Res) (t : State) : Prop := (t.core core).mq = l ∧ (t.ctx core k).results = c.results ++ [(n, r)] ∧
        (c.life = .live → (t.ctx core k).flags = c.flags ||| q.flags) ∧
        (c.life = .stopped → c.level = 0 → (t.ctx core k).hflags = c.hflags ||| q.flags)
      (q.res.isFault = false → here = true → Happens (.matrixCommandComplete core) s (fun t => ends .none t ∧
        ∀ j v side tag, q.res = .tile j v side tag → Tbl.get 0 (t.ctx core k).vec.x j = v ∧ Tbl.get 0 (t.ctx core k).vec.side j = side ∧
          (t.ctx core k).xtagOf j = tag)) ∧
      ((q.res.isFault = true ∨ here = false) → c.owns n = true → Happens (.matrixCommandComplete core) s (ends q.res))) ∧
    (x.mxBusy = true → x.mxlevel < s.admin.arrayCap →
      exec (.arrayLevelRise core) s = .next (s.setCore core { x with mxlevel := x.mxlevel + 1 })) ∧
    (x.mxBusy = false → exec (.arrayLevelFall core) s = .next (s.setCore core { x with mxlevel := x.mxlevel - 1 })) ∧
    exec (.burstHoldExpire core) s = .next (s.setCore core { x with burst := 0 }) ∧
    (∀ q l n w i t sc ta tb, x.mq = q :: l → q.src = .ring n w i t sc ta tb → q.started = true →
      exec (.ringTaskComplete core) s = .next (s.ringEnd core q n w.toNat i)) ∧
    (∀ g, Tbl.find s.rings core = some g →
      (s.beatOver core g = true → s.partnersReady (ringMembers g.cfg.toNat core) = true → exec (.ringBeatEnd core) s = .next (s.ringBoundary core)) ∧
      (g.running = true → g.flying = [] →
        exec (.ringIdle core) s = .next ((s.setRing core { g with running := false }).ringDone core)))

/-- R232, R238, R252, R330 to R334: an auction command is admitted and a running one makes a further round; a VPJ takes its next
tile; an adder takes a chunk, writes a complete step and drops one that is late; a work entry with nothing left to send or to
hear of ends.
The moments at which engines move are free (DESIGN CHOICE, log entry 2); chunks follow the reading of log entry 32
(DEDUCED). -/
def Obligations.AuctionAndCollectiveEvents : Prop :=
  ∀ (s : State) (die : Nat), die < 4 →
    (∀ c r, s.auBusy (s.auEng die) = false → (s.au die).queue = c :: r →
      (s.ctx c.core c.ctx).flow.inflight.any (fun e => e.seq == c.seq) = true →
      exec (.auctionCommandAdmit die) s =
        .next (((s.setAu die { s.au die with queue := c :: r }).setAwait c.core c.ctx c.seq).auStart die c)) ∧
    (∀ c, (s.au die).queue.find? (·.running) = some c →
      let u := s.auRoundOf (s.auEng die)
      exec (.auctionRound die) s = .next
        (if (u.au (s.auEng die)).state = 3 then u.auEnd die c (.w (u.au (s.auEng die)).status) else u) ∧
      (u.au (s.auEng die)).rounds = (s.au (s.auEng die)).rounds + 1) ∧
    (∀ core k e q l m r fl u, core < 1536 → k < 11 → (s.ctx core k).flow.inflight = [e] → (s.core core).mq = q :: l →
      q.src = .ctx k e.seq → q.started = false → q.entry = some e → mxOf e.instr = some m → tiled e.instr = true →
      1 < e.opb.toNat → ((s.core core).midway = false ∨ s.formedFor core = []) →
      (s.setCore core ((s.core core).mxWork true)).runAs core k (m.run e) = .ok ((r, fl), u) →
      exec (.vpjTileBoundary core k 0) s = .next ((u.joinFlags core k fl).mxGoesOn core k q e.nextTile)) ∧
    (∀ t, s.admitChunk die = some t → exec (.collectiveChunkAdmit die) s = .next t ∧
      t.net.chunks.length ≤ s.net.chunks.length + 1) ∧
    (∀ (ch : Chunk) t, ch.comm < 64 → ch.target < 1536 → (ch.fab = false ∨ s.devnum ≠ none) → s.chunkArrive ch = some t → exec (.chunkArrival ch) s = .next t) ∧
    (∀ (q : StepKey) t, s.stepOf q.comm q.seq q.dst = some t →
      (t.complete = true → Happens (.stepResultWrite q) s (fun u => u.coll.steps = s.coll.steps.filter (fun x => x != t))) ∧
      (s.stepLate t = false → exec (.stepAbandon q) s = .next s) ∧
      (s.stepLate t = true → Happens (.stepAbandon q) s (fun u =>
        u.coll.steps = s.coll.steps.filter (fun x => x != t) ∧ SameMem s u ∧
        ∀ c ∈ t.contribs, c.fab = false →
          (c.core, ⟨0x0C, c.tag, 0, c.ctx, t.seq, BitVec.ofNat 64 (t.comm * 2 ^ 32 + t.whole.length), false, 0⟩) ∈ u.net.recs))) ∧
    (∀ idx w, idx < 4096 → Tbl.find s.coll.work (4096 * die + idx) = some w → w.state = 3 → w.outstanding = 0 →
      bits (w.field 0 8) 31 0 ≤ w.sent → bit (w.field 0 8) 46 = true →
      Happens (.entryComplete die idx) s (fun t => (Tbl.find t.coll.work (4096 * die + idx)).map (·.state) = some 4 ∧
        (∀ c a, w.err = some (c, a) → (w.core, ⟨0x11, bits (w.field 0 8) 39 32, c, w.ctx, 4096 * die + idx,
          BitVec.ofNat 64 (a.toNat % 2 ^ 52), false, 0⟩) ∈ t.net.recs)))

/-! ### Events of the launch unit -/

/-- 14 R271, R272, R276 to R278, R286, 15 R304 to R308, R313: a queue without work loses its slot at a quantum boundary; a packet
that is accepted gives its queue a launch; a free core takes an identifier and its control context starts at KIMG; a finished
launch ends; a waiting EXIT restarts its control context and a waiting START receives a helper; an idle helper pops a pennant
and a pennant moves to the next queue. -/
def Stated.LaunchEvents : Prop :=
  ∀ (s : State) (q core : Nat), q < 4096 → core < 1536 →
    ((∀ n ∈ s.launch.waiting, s.qWork n = true) → (s.launch.slots.map (·.1)).Nodup → (∀ y ∈ s.launch.slots, y.1 < 128) →
      Happens .quantumBoundary s (fun t => (t.launch.slots.map (·.1)).Nodup ∧ ∀ y ∈ t.launch.slots, y.1 < 128 ∧ s.qWork y.2.1 = true)) ∧
    (∀ y, s.launch.stopped.find? (fun y => y.core == core && s.launch.mapped y.part.queue) = some y → s.coreFree core = true →
      s.admin.halting ≠ some y.part.domain → Happens (.preemptResume core) s (fun t =>
        (t.core core).part.map (·.queue) = some y.part.queue ∧
        ∀ z ∈ t.launch.stopped, ¬(z.core = core ∧ z.part.queue = y.part.queue))) ∧
    (∀ l, s.qWork q = true → s.launch.mapped q = true → Tbl.find s.launch.active q = none → s.readPacket q = .ok l →
      Happens (.launchPacketRead q) s (fun t => Tbl.find t.launch.active q = some l ∧ SameMem s t)) ∧
    (∀ l o, s.coreFree core = true → s.canDeal q core = true → Tbl.find s.launch.active q = some l → l.begun = true →
      s.mayStart q core = true → s.firstFor q core = true → bit (l.field 34 1) 1 = false → l.nextFor core = some o →
      Happens (.dealIdentifier q core) s (fun t =>
        let c := t.ctx core 0
        c.life = .live ∧ c.flow.pc = BitVec.ofNat 64 (l.field 0 8) ∧ c.spec.wid = BitVec.ofNat 64 (l.idOf o) ∧
        c.spec.widhdr = BitVec.ofNat 64 (l.field 8 8) ∧ c.level = 0 ∧ regAt t core 0 1 = BitVec.ofNat 64 (l.field 0 8) ∧
        (t.core core).part.map (·.queue) = some q ∧ Tbl.find t.launch.active q = some (l.deal core o))) ∧
    (s.launchDone q = false → exec (.launchComplete q) s = .next s) ∧
    (∀ l, Tbl.find s.launch.active q = some l → s.launchDone q = true → Happens (.launchComplete q) s (fun t =>
      ∀ c, (t.core c).part.map (·.queue) ≠ some q)) ∧
    (∀ (e : Entry) p id rest g, (s.ctx core 0).flow.inflight = [e] → e.instr = .exit g → (s.core core).helpersLeft = false →
      (s.ctx core 0).stores = [] → ({ s with cur := (core, 0) } : State).Sent → (s.core core).part = some p → p.exhausted = false → p.run = id :: rest →
      Happens (.controlContextRestart core) s (fun t => (t.ctx core 0).life = .live ∧ (t.ctx core 0).flow.pc = p.kimg ∧
        (t.ctx core 0).spec.wid = id)) ∧
    (∀ (e : Entry) k d a b g, (s.ctx core 0).flow.inflight = [e] → e.instr = .start d a b g → e.atEnd = false →
      (s.ctx core 0).stores = [] → ({ s with cur := (core, 0) } : State).Sent → d < 32 → (s.ctx core 0).level = 0 → e.opa.toNat % 4 = 0 → (s.core core).idleHelper = some k →
      Happens (.startHelperAssign core) s (fun t => (t.ctx core k).life = .live ∧ (t.ctx core k).flow.pc = e.opa ∧
        regAt t core k 8 = e.opb ∧ (d ≠ 0 → regAt t core 0 d = BitVec.ofNat 64 k) ∧ (t.ctx core 0).flow.inflight = [])) ∧
    (∀ p n k l, s.hostedPart core = some p → (s.core core).startWaits = false →
      (List.range 11).filter (fun i => i != 0 && ((s.core core).ctx i).life == .idle) = [k] →
      s.launch.taking.all (fun t => t.1 != core) = true → s.admin.halting ≠ some p.domain →
      s.pnFind (core / 192) p.queue = some n → s.access (s.pnWho core p.domain) (BitVec.ofNat 64 (s.pnSlot n.1 n.2).2) 32 .read .ls = .ok l →
      let r := s.peek l 32
      Happens (.pennantPop core) s (fun t => (t.ctx core k).life = .live ∧
        (t.ctx core k).flow.pc = BitVec.ofNat 64 (pnCode r) ∧ (t.ctx core k).spec.wid = 0 ∧
        regAt t core k 8 = BitVec.ofNat 64 (slice r 8 8) ∧ regAt t core k 9 = BitVec.ofNat 64 (s.pnSlot n.1 n.2).2 ∧
        n.2 ∉ Tbl.get [] t.launch.pennants n.1)) ∧
    (∀ cl prio i n, cl < 8 → 1 ≤ prio → prio ≤ 3 → let k := 4 * cl + prio
      (Tbl.get [] s.launch.pennants k)[i]? = some n → s.pnRoom (k - 1) = true →
      exec (.pennantAgePromote cl prio i) s = .next ((s.pnTake k n).pnPut (k - 1) (s.pnSlot k n).2 (s.pnSlot k n).1))

/-- The one unfinished instruction of a context waits with no answer. -/
def Waits (c : Ctx) (e : Entry) : Prop := c.flow.inflight = [e] ∧ c.results = []

/-- 04 R72, 05 R93, 11 R228, 14 R273, R286: a limit that passes answers its waiting instruction: RBWAIT with 0, EVWAIT with no
record, RGWAIT with nothing and a barrier, which withdraws, with 1; a yielded context comes back; a physical core goes over
to the partner of the logical core that it runs, where that one has gone as far as it goes alone (19 R360). -/
def Stated.LimitEvents : Prop :=
  ∀ (s : State) (core k : Nat), core < 1536 → k < 11 →
    let c := s.ctx core k
    let c0 := s.ctx core 0
    let answered (j seq : Nat) (r : Res) : State := s.setCtx core j { s.ctx core j with results := [(seq, r)] }
    (∀ e d a b g la, Waits c e → e.opb ≠ 0 → e.instr = .rbwait d a b g la →
      exec (.rbwaitTimeout core k) s = .next (answered k e.seq (.w 0))) ∧
    (∀ e d a b g la, Waits c0 e → e.opb ≠ 0 → e.instr = .evwait d a b g la →
      exec (.evwaitTimeout core) s = .next (answered 0 e.seq (.w2 0 0))) ∧
    (∀ e d a g la, Waits c e → e.opa ≠ 0 → e.instr = .rgwait d a g la →
      exec (.rgwaitTimeout core k) s = .next (answered k e.seq .none)) ∧
    (∀ e p d a b g v, Waits c0 e → e.opb ≠ 0 → e.await = true → e.instr = .haly d a b g → s.episodes = [p] → p.op = 1 →
      p.arrived = [(core, e.seq, v)] →
      Happens (.halyLimitExpire core) s (fun t => t.episodes = [] ∧ (t.ctx core 0).results = [(e.seq, .w 1)])) ∧
    exec (.yieldExpire core k) s = .next (s.setCtx core k { c with yielded := 0 }) ∧
    (∀ j, s.partnerOf core = some j → s.onTurn core = true → s.yieldsTurn core = true →
      exec (.partnerSwitch core) s = .next { s with admin := { s.admin with shared := Tbl.put s.admin.shared (s.physOf core) j } }) ∧
    (s.partnerOf core = none ∨ s.onTurn core = false ∨ s.yieldsTurn core = false → exec (.partnerSwitch core) s = .next s)

/-- 14 R271 to R286, 15 R304 to R313: what the launch unit does, and limits that pass.
The moments at which limits pass are free (DESIGN CHOICE, log entries 2 and 3). Which part pops a pennant, and what it
finds there, follows the reading of log entry 27 (DEDUCED). -/
def Obligations.LaunchAndLimitEvents : Prop := Stated.LaunchEvents ∧ Stated.LimitEvents

/-! ### Events of the host port, the fabric and the power loop -/

/-- The accesses of the host are taken: the package is not in the state FWFAIL, and the link is up. -/
def HostOpen (s : State) : Prop := bit (s.dregN 0x2B0000) 4 = false ∧ s.admin.linkWidth ≠ 0

/-- The physical function writes a register, with the effect `f`. -/
def Writes (i : Instr) (s : State) (f : State → State) : Prop := exec i s = .next (f s)

/-- A function's write of a plain register leaves the assigned bits in it, and changes nothing else. -/
def Keeps (off : Nat) (v : W64) (s : State) : State := s.setDreg off (BitVec.ofNat 64 (v.toNat &&& rwMask off))

/-- 03 R58, 04 R64, 14 R277, 15 R302, 17 R327, 18 R354, 19 R367, 20 R372, R373, R377, R378: what the writes of the physical
function to the registers of the package do, in a state that is not FWFAIL.
Which registers belong to the physical function alone follows the reading of log entry 20 (DEDUCED), and that a key
command takes effect at its start that of log entry 21 (DEDUCED). That a queued invalidation of a page keeps the address
that stood at GO is the model's choice (DESIGN CHOICE, log entry 59), and so is that a request for a clock outside its
range asks for none (DESIGN CHOICE, log entry 74). -/
def Obligations.HostRegisterEvents : Prop :=
  ∀ (s : State) (v : W64) (n : Nat), HostOpen s →
    let inv (kind dom : Nat) (t : State) : Prop := t.admin.xlinv = s.admin.xlinv ++ [(kind, dom, s.dreg! 0x101000)] ∧ SameMem s t
    (n < 256 → Happens (.xlinvPage n) s (inv 0 n) ∧ Happens (.xlinvDomain n) s (inv 1 n)) ∧
    Happens .xlinvAllDomains s (inv 2 0) ∧
    exec .xlinvReserved s = .next (s.setDreg 0x101010 (s.dreg! 0x101010 ||| 2)) ∧
    (bit (s.dregN 0x2D0000) 63 = false → Writes (.devnumWrite 0 v) s (Keeps 0x2D0000 v)) ∧
    (bit (s.dregN 0x2D0000) 63 = true → exec (.devnumWrite 0 v) s = .next s) ∧
    (n < 8 → s.clusterRuns n = false → Writes (.pnqbaseWrite 0 n v) s (Keeps (0x2C0000 + 8 * n) v)) ∧
    (n < 256 → exec (.domctlWrite 0 n v) s = .next (s.domWrite n v)) ∧
    (∀ fn, 1 ≤ fn → fn < 65 → n < 256 → exec (.domctlWrite fn n v) s = .next s) ∧
    (∀ d, n < 4096 → d = bits v.toNat 15 8 → s.reaches (.fn 0) d = true →
      (bits (s.dregN (0x200008 + 32 * n)) 15 8 = 0 ∨ s.reaches (.fn 0) (bits (s.dregN (0x200008 + 32 * n)) 15 8) = true) →
      exec (.qctlWrite 0 n v) s = .next ((Keeps (qReg n 8) v s).qUpdate n)) ∧
    (n < 4096 → s.reaches (.fn 0) (s.qDom n) = true →
      exec (.qtailWrite 0 n v) s = .next ((Keeps (qReg n 0x10) v s).qUpdate n)) ∧
    exec (.fqheadWrite v) s = .next (Keeps 0x270010 v s).drainLatches ∧
    exec (.fqctlWrite v) s = .next (Keeps 0x270008 v s).drainLatches ∧
    (∀ d, n < 64 → d = bits v.toNat 15 8 → d = bits (s.dregN (0x240000 + 64 * n)) 15 8 → s.reaches (.fn 0) d = true →
      exec (.cctlWrite 0 n v) s = .next (Keeps (0x240000 + 64 * n) v s)) ∧
    (n < 256 → bit (s.dregN (rngReg n 0x38)) 63 = false → Happens (.rngFill n) s (fun t =>
      t.admin.fills = s.admin.fills ++ [n] ∧ bit (t.dregN (rngReg n 0x38)) 63 = true ∧ SameMem s t)) ∧
    (n < 4 → exec (.registerWrite 0 (0x220000 + 32 * n) 8 v) s = .next (Keeps (0x220000 + 32 * n) v s)) ∧
    (s.dregN 0x2A1000 % 2 ^ 14 ≠ 0 → s.admin.keyBusy = 0 →
      let slot := s.dregN 0x2A1000 % 2 ^ 14
      let mat := ofBytes ((List.range 8).flatMap (fun i => toBytes 8 (s.dregN (0x2A1010 + 8 * i))))
      let put (v : Nat × Nat) (n : Nat) : State :=
        { s with admin := { s.admin with keys := Tbl.put s.admin.keys slot v, keyBusy := n } }
      exec .keyInstall s = .next (put (s.dregN 0x2A1008 % 2 ^ 8, mat) 1) ∧ exec .keyErase s = .next (put (0, 0) 2)) ∧
    Happens (.linkWidthRequest v) s (fun t => t.dregN 0x2B0010 = v.toNat % 4 ∧
      t.admin.linkPending = decide (v.toNat % 4 = 1 ∨ v.toNat % 4 = 2)) ∧
    (n < 4 → Happens (.dieClockRequest n v) s (fun t => t.dregN (0x2B0018 + 8 * n) = v.toNat % 2 ^ 16 ∧
      (800 ≤ v.toNat % 2 ^ 16 → v.toNat % 2 ^ 16 ≤ 1700 → n ∈ t.admin.diePending) ∧
      (s.admin.diePending.Nodup → v.toNat % 2 ^ 16 < 800 ∨ 1700 < v.toNat % 2 ^ 16 → n ∉ t.admin.diePending) ∧ SameMem s t))

/-- The limits of a receive ring's descriptor, its 64 bytes being `v` (04 R69, R70): the slot size and the counts, the base, the ring within
the local store, the overflow area where it has one, and no more messages than slots. -/
def RingFits (v : Nat) : Prop :=
  let slotLog := slice v 4 1
  let cntLog := slice v 5 1
  6 ≤ slotLog ∧ slotLog ≤ 12 ∧ 1 ≤ cntLog ∧ cntLog ≤ 12 ∧ slice v 7 1 ≤ 16 ∧ slice v 0 4 % 2 ^ slotLog = 0 ∧
  beyondLs (slice v 0 4 + 2 ^ (slotLog + cntLog) - 1) = false ∧ (slice v 7 1 ≠ 0 → slice v 16 8 % 4096 = 0) ∧
  (BitVec.ofNat 32 (slice v 12 4) - BitVec.ofNat 32 (slice v 8 4)).toNat ≤ 2 ^ cntLog

/-- The ring holds what its descriptor says, with the domain that enabled it (04 R69 to R71). -/
def RingRead (v owner : Nat) (r : RxRing) : Prop :=
  r.base = slice v 0 4 ∧ r.slotLog = slice v 4 1 ∧ r.cntLog = slice v 5 1 ∧ r.dom = slice v 6 1 ∧ r.ovfLog = slice v 7 1 ∧
  r.head = BitVec.ofNat 32 (slice v 8 4) ∧ r.tail = BitVec.ofNat 32 (slice v 12 4) ∧ r.ovfBase = BitVec.ofNat 64 (slice v 16 8) ∧
  r.ovfHead = BitVec.ofNat 32 (slice v 24 4) ∧ r.ovfTail = BitVec.ofNat 32 (slice v 28 4) ∧ r.drops = BitVec.ofNat 32 (slice v 32 4) ∧
  r.owner = owner

/-- 03 R56, 18 R353, R354, 19 R367, 20 R370, R372, R373, R377, R378, 04 R63, R69, R70: what the engines behind the registers do in their own
time: the oldest invalidation removes the entries that it reaches once what was translated through them is complete, a key command's BUSY clears, a fill ends,
a domain that no launch uses is disabled, the oldest fault record of a die is queued, links train, fail and retrain, clocks change and the power
loop sets the cap of the array level.
What the power loop sets is a free value, and link training is a choice of the model (DESIGN CHOICE, log entry 40); unit
counts are inferred (DEDUCED, log entry 34). That an invalidation waits for every access of its domain is the model's
choice (DESIGN CHOICE, log entry 48), and so are a ring record at or beyond LSCAP (DESIGN CHOICE, log entry 61) and the
parts of a record that are not checked (DESIGN CHOICE, log entry 62). -/
def Obligations.AdminEvents : Prop :=
  ∀ (s : State) (n : Nat),
    (∀ q r, s.admin.xlinv = q :: r → s.settledFor (fun d => q.1 == 2 || d == q.2.1) = false → exec .xlinvComplete s = .next s) ∧
    (∀ q r, s.admin.xlinv = q :: r → s.settledFor (fun d => q.1 == 2 || d == q.2.1) = true → Happens .xlinvComplete s (fun t => t.admin.xlinv = r ∧ SameMem s t ∧
      (∀ c, ∀ e ∈ (t.core c).micro, e ∈ (s.core c).micro ∧ e.reached q.1 q.2.1 q.2.2 = false) ∧
      (∀ c, ∀ e ∈ Tbl.get [] t.ctlb c, e.reached q.1 q.2.1 q.2.2 = false))) ∧
    (s.admin.xlinv = [] → exec .xlinvComplete s = .next s) ∧
    exec .keyCommandComplete s = .next { s with admin := { s.admin with keyBusy := 0 } } ∧
    (n < 256 → n ∈ s.admin.fills → s.admin.fills.Nodup → Happens (.rngFillComplete n) s (fun t => n ∉ t.admin.fills ∧
      bit (t.dregN (rngReg n 0x38)) 63 = false)) ∧
    (n < 256 → n ∈ s.admin.disabling → s.domainRuns n = false → s.admin.disabling.Nodup →
      Happens (.domainDisable n) s (fun t => bit (t.dregN (0x2A0000 + 8 * n)) 63 = false ∧ n ∉ t.admin.disabling)) ∧
    (∀ r : FaultRec, n < 4 → (s.net.frecs.filter (fun x => x.1 == n)).head? = some (n, r) →
      let u : State := { s with net := { s.net with frecs := dropFrec s.net.frecs (n, r) } }
      (s.latch n = [] → s.fqFull = false → exec (.faultRecordAppend n r) s = .next (u.fqPut n r)) ∧
      (s.fqFull = true → (s.latch n).length < 16 →
        Happens (.faultRecordAppend n r) s (fun t => t.latch n = s.latch n ++ [r] ∧ SameMem s t)) ∧
      (s.fqFull = true → 16 ≤ (s.latch n).length → Happens (.faultRecordAppend n r) s (fun t =>
        t.dregN (0x270040 + 8 * n) = (s.dregN (0x270040 + 8 * n) + 1) % 2 ^ 32 ∧ t.latch n = s.latch n))) ∧
    (n < 32 → Happens (.fabricLinkLoss n) s (fun t => n ∈ t.admin.failedPorts ∧ SameMem s t)) ∧
    (∀ m, n < 32 → s.admin.failedPorts.Nodup → Happens (.linkTraining n m) s (fun t =>
      (n ∈ t.admin.failedPorts ↔ (s.devnum = some m ∨ HwUnit.port n ∈ s.admin.retiredUnits)) ∧
      (s.devnum = some m → ∃ r, t.net.frecs = s.net.frecs ++ [r]))) ∧
    (s.admin.linkPending = true → Happens .linkRetrainComplete s (fun t => t.admin.linkPending = false ∧
      (t.admin.linkWidth = (if s.dregN 0x2B0010 % 4 = 1 then 8 else 16) ∨ t.admin.linkWidth = 0))) ∧
    (s.admin.linkPending = false → s.admin.linkWidth = 0 →
      Happens .linkRetrainComplete s (fun t => t.admin.linkWidth ∈ [0, 8, 16] ∧ SameMem s t)) ∧
    (s.admin.linkPending = false → s.admin.linkWidth ≠ 0 → exec .linkRetrainComplete s = .next s) ∧
    (n < 4 → n ∈ s.admin.diePending → s.admin.linkPending = false → s.admin.diePending.Nodup →
      Happens (.dieClockChange n) s (fun t => Tbl.find t.admin.dieClock n = some (s.dregN (0x2B0018 + 8 * n)) ∧
        n ∉ t.admin.diePending)) ∧
    Happens .powerCapWindow s (fun t => 1 ≤ t.admin.arrayCap ∧ t.admin.arrayCap ≤ 4 ∧ SameMem s t) ∧
    exec .powerDown s = .next s ∧
    (∀ core k w, core < 1536 → k < 11 → Happens (.rbenWrite core k w) s (fun t => SameMem s t ∧ ∀ m, m < 8 →
      let d := (s.core core).rxDesc m
      let v := s.peek (.ls core d) 64
      (bit w.toNat m = false → Tbl.find (t.core core).rx m = none) ∧
      (bit w.toNat m = true → ∀ r, Tbl.find (s.core core).rx m = some r → Tbl.find (t.core core).rx m = some r) ∧
      (bit w.toNat m = true → Tbl.find (s.core core).rx m = none →
        (beyondLs (d + 63) = false ∧ RingFits v → ∃ r, Tbl.find (t.core core).rx m = some r ∧ RingRead v (s.core core).domain r) ∧
        (beyondLs (d + 63) = true ∨ ¬RingFits v → Tbl.find (t.core core).rx m = none))))

/-- 18 R353, R355 to R357, 20 R370, R371, R374 to R376, 03 R44, 16 R314: errors, debug halts, resets, and the accesses of the host's
functions to memory, device registers and the capability list and of another device to memory.
Firmware, fuses and self-tests are opaque (DESIGN CHOICE, log entry 15), and the signature is that of FIPS 205
(PRESUMED, log entry 73). What a reset restores (DEDUCED, log entries 11 and 12), the debug unit's moments (DEDUCED, log
entry 28), accesses outside the window (DEDUCED, log entry 41) and READY after a warm reset with a failed stack
(DEDUCED, log entry 50) are inferred. Where configuration space and its list lie (DESIGN CHOICE, log entry 46) and how
another device's accesses arrive (DESIGN CHOICE, log entry 65) are the model's choice; secured sessions follow SPDM and
TDISP (PRESUMED, log entry 71). -/
def Obligations.DebugResetAndHostAccess : Prop :=
  ∀ (s : State) (d core : Nat), HostOpen s → d < 256 → core < 1536 →
    (∀ k, k < 11 → (s.ctx core k).life = .live → Happens (.uncorrectableError (.regFile core k)) s (fun t =>
      (t.ctx core k).life = .dead)) ∧
    (∀ a, a < lsKey 1536 0 → Happens (.uncorrectableError (.line a)) s (fun t => t.isLost a 1 = true ∧ SameMem s t)) ∧
    Happens (.correctedError (.core core)) s (fun t =>
      (t.core core).errs = ((s.core core).errs ++ [s.time]).drop (((s.core core).errs ++ [s.time]).length - 16) ∧ SameMem s t) ∧
    (∀ c, c < 384 → HwUnit.channel c ∈ s.admin.lastingUnits → HwUnit.channel c ∉ s.admin.retiredUnits →
      s.unitQuiet (.channel c) = true → Happens (.unitRetire (.channel c)) s (fun t =>
        t.admin.retiredUnits = s.admin.retiredUnits ++ [.channel c])) ∧
    (s.admin.halting = none → Happens (.dbgHalt d) s (fun t => t.admin.halting = some d ∧ t.admin.halted = false)) ∧
    (∀ p, s.admin.halting = some d → s.admin.halted = false → s.allStopped d = true → s.holdCopies d = p →
      Happens .debugHaltComplete s (fun t => t.admin.halted = true ∧ t.mem = p.mem)) ∧
    (s.admin.halted = true → s.admin.halting = some d →
      Happens (.dbgResume d) s (fun t => t.admin.halting = none ∧ t.admin.halted = false) ∧
      (∀ one, Happens (.dbgStep d one core) s (fun t => t.admin.stepping = true ∧ t.admin.super = false ∧ t.admin.held = [])) ∧
      (∀ one, Happens (.dbgSuperstep d one core) s (fun t => t.admin.stepping = true ∧ t.admin.super = true))) ∧
    Happens .coldReset s (fun t => t.mem = [] ∧ t.cores = [] ∧ t.admin.keys = [] ∧ t.dregN 0x2B0000 = 1 ∧ t.admin.boot = 1 ∧ t.agenda = s.agenda) ∧
    (s.firmwareRan = true → Happens .warmReset s (fun t => t.cores = [] ∧ t.admin.keys = s.admin.keys ∧ t.dregN 0x2B0000 = 3 ∧
      t.admin.boot = 3 ∧ t.agenda = s.agenda ∧ ∀ x, x < lsKey 0 0 → Mem.byte t.mem x = Mem.byte s.mem x)) ∧
    (s.firmwareRan = false → exec .warmReset s = .next s) ∧
    (∀ fn, 1 ≤ fn → fn < 65 → bit (s.dregN (0x2A0000 + 8 * d)) 63 = true → s.dregN (0x2A0000 + 8 * d) % 2 ^ 7 = fn →
      s.domainRuns d = false → Happens (.functionLevelReset fn) s (fun t =>
        bit (t.dregN (0x2A0000 + 8 * d)) 63 = false ∧ SameMem s t)) ∧
    (∀ fn, fn = 0 ∨ 65 ≤ fn → exec (.functionLevelReset fn) s = .fault .noSuchUnit) ∧
    (∀ pa bytes l, bytes.length ≤ 512 → s.barPlace 0 pa bytes.length = some l →
      exec (.hostWrite 0 pa bytes) s = .next (s.poke l bytes.length (ofBytes bytes))) ∧
    (∀ pa n l k, s.barPlace 0 pa n = some l → l.key? = some k → s.isLost k n = false →
      exec (.hostRead 0 pa n) s = .next (s.reply false (toBytes n (s.peek l n)))) ∧
    (∀ fn pa n, 1 ≤ fn → fn < 65 → pa < 2 ^ 52 → barReg fn pa n = none → exec (.hostRead fn pa n) s = .next s) ∧
    (∀ fn pa n off, barReg fn pa n = some off →
      exec (.hostRead fn pa n) s = .next (s.reply false (toBytes n (s.devLoad (.fn fn) off n)))) ∧
    (∀ fn pa off (bytes : List Byte), barReg fn pa bytes.length = some off →
      exec (.hostWrite fn pa bytes) s = .next (s.hostPut fn off bytes.length (ofBytes bytes))) ∧
    (∀ fn off n, fn < 65 → 0x400 ≤ off → off + n ≤ 0x460 →
      exec (.hostRead fn (2 ^ 52 + off) n) s = .next (s.reply false (toBytes n (slice capList (off - 0x400) n)))) ∧
    (∀ dev pa (bytes : List Byte) l, dev < 2 ^ 16 → s.admin.halting = none → s.barPlace (2 ^ 16 + dev) pa bytes.length = some l →
      exec (.hostWrite (2 ^ 16 + dev) pa bytes) s = .next
        ((s.reply false (toBytes bytes.length (s.peek l bytes.length))).poke l bytes.length (ofBytes bytes))) ∧
    (∀ nonce : List Byte, nonce.length = 32 → Happens (.attestationReport nonce) s (fun t => SameMem s t ∧ ∃ r : List Byte, r.length = 32 ∧
      t.admin.replies = (false, measurements ++ nonce ++ slh256s.sign identityKey (measurements ++ nonce) r) :: s.admin.replies)) ∧
    (∀ key, exec (.ideKmKeyProgram key) s =
      .next (if s.admin.sessions = 0 then s else { s with admin := { s.admin with ideKey := key } })) ∧
    (∀ nonce, Happens (.spdmSession nonce) s (fun t => t.admin.sessions = s.admin.sessions + 1 ∧ SameMem s t ∧
      ∃ r : List Byte, r.length = 32 ∧ t.admin.replies = (false, slh256s.sign identityKey nonce r) :: s.admin.replies))

/-! ### The machine as a whole -/

/-- One instruction, none of the vector queue, is unfinished and nothing else is under way. -/
structure OneLeft (s : State) (e : Entry) : Prop where
  unqueued : e.instr.shape.vword = false
  only : s.cx.flow.inflight = [e]
  rest : (s.setCx { s.cx with flow := { s.cx.flow with inflight := [] } }).quiet = true
  alone : s.alone

/-- One instruction, none of the vector queue, is finished with its window open and nothing else is under way. -/
structure OneGone (s : State) (e : Entry) : Prop where
  unqueued : e.instr.shape.vword = false
  only : s.cx.flow.gone = [e]
  rest : (s.setCx { s.cx with flow := { s.cx.flow with gone := [] } }).quiet = true
  alone : s.alone

/-- R129, R130: a load with a window of instructions issues without its effect and waits with its window; each later issue that
does not depend on it takes one from the window; with none left nothing issues before it completes; an instruction inside the
window that depends on it raises LOOKAHEAD with its address, also where it is complete already.
When the effect falls, in the window, at its end or later, is a free choice of the model (DEDUCED, log entry 6). -/
def Obligations.LookaheadWindow : Prop :=
  (∀ (s : State) (d a off sz home la : Nat) (l : Loc), s.quiet = true → home ≠ 3 → off < 2 ^ 8 → sz < 4 → 0 < la →
    let n := 2 ^ sz
    let ea := s.reg a + (BitVec.ofNat 8 off).signExtend 64 * BitVec.ofNat 64 n
    ea.toNat < 2 ^ 52 → ea.toNat % n = 0 → s.access s.who ea n .read .ls = .ok l → l.key?.isSome = true →
    ∃ t, exec (.ld d a off sz home la) s = .next t ∧ t.cx.flow.pc = s.cx.flow.pc + 4 ∧
      t.cx.flow.inflight.map (fun e => (e.seq, e.pc, e.left)) = [(s.cx.flow.seq, s.cx.flow.pc, la)] ∧
      (∀ r, t.reg r = s.reg r) ∧ SameMem s t) ∧
  (∀ (s : State) (e : Entry) (d a b : Nat), OneGone s e → 0 < e.left →
    s.cx.dependsOn (Instr.add d a b false 0).shape e.instr.shape = true →
    exec (.add d a b false 0) s = .next (s.trapHere .lookahead 0 e.pc).stamp) ∧
  ∀ (s : State) (e : Entry) (d a b : Nat), OneLeft s e →
    let i := Instr.add d a b false 0
    let dep := s.cx.dependsOn i.shape e.instr.shape
    (∀ n, e.left = n + 1 → dep = false → ∃ t, exec i s = .next t ∧ t.cx.flow.pc = s.cx.flow.pc + 4 ∧
      t.cx.flow.inflight = [{ e with left := n }] ∧ (d ≠ 0 → t.reg d = s.reg a + s.reg b)) ∧
    (e.left = 0 → exec i s = .next s) ∧
    (0 < e.left → dep = true → exec i s = .next (s.trapHere .lookahead 0 e.pc).stamp)

/-- R20 and 02 R33: words written out from the layouts of 02 R15 decode to the instructions that they stand for, and a word of an
unassigned major is rejected. -/
def Obligations.WordsDecode : Prop :=
  decodeNat 0x052A5808 = .ok (.add 9 10 11 true 0) ∧
  decodeNat 0x0C63FFFA = .ok (.addi 3 3 0x1FFF 2) ∧
  decodeNat 0xF40091A2 = .ok (.hintImm 0x91A2) ∧
  decodeNat 0x28E0B3C0 = .ok (.movi 7 0x1678 0) ∧
  decodeNat 0x41840483 = .ok (.ld 12 4 4 2 0 3) ∧
  decodeNat 0xF00C0120 = .ok (.mfc 6 0x012) ∧
  decodeNat 0xF8000000 = .ok .nop ∧
  decodeNat 0 = .error .major ∧
  decodeNat 0xFFFFFFFF = .error .major

/-- The encodings of 02 R15 to R18: the word of a well-formed instruction decodes to it, with every operand. -/
def Obligations.WordsRoundTrip : Prop :=
  ∀ (i : Instr) (w : Nat), i.wellFormed = true → encodeNat i = some w → w < 2 ^ 32 ∧ decodeNat w = .ok i

/-- 15 R312 and 02 R12, R20: when no store is overdue and the one move of the package is the issue of a core, whose one context that may issue begins a cycle
or has a HINT chain to go on with, and no unfinished instruction before raises a condition, a step runs the instruction that the next
word of the context decodes to; a word that decodes to none is ILLEGAL, and a fetch that faults traps. The next word is the one at
the program counter, or for a core that follows the one that its leader issued there, for which it waits; where that is UNFOLLOW, following ends (14 R292). The next event of
the outside world is executed where no move is there, and else by a free choice between the two.
The order of moves, the free choice of one and the field that says whom a step acts for are the model's own (DESIGN
CHOICE, log entries 1 to 3), and so is the bound on the time that a store is on its way (DESIGN CHOICE, log entry 70). -/
def Obligations.StepRuns : Prop :=
  ∀ (s : State) (core k : Nat),
    let u := s.passTime
    let runs (z : State) : Prop := z.earlierTrap Instr.fin z.cx.flow.seq = none →
      (z.cx.follow = none → z.unfollowed = none ∧ z.nextWord = some z.fetch) ∧
      (∀ y, z.unfollowed = some y → step s = .next y) ∧ (z.unfollowed = none →
      (z.nextWord = none → step s = .next z) ∧
      (∀ w i, z.nextWord = some (.ok w) → decodeNat w = .ok i → step s = exec i z) ∧
      (∀ w r, z.nextWord = some (.ok w) → decodeNat w = .error r → step s = exec (.illegalWord w) z) ∧
      (∀ f, z.nextWord = some (.error f) → z.cx.flow.closed = false → step s = .next (z.trapHere f.1 f.2 z.cx.flow.pc)))
    (s.agenda = [] → u.overdue = none → u.moves = [.issue core] →
      (u.chained core = none → ((u.nextCycle core).core core).candidates = [k] → ((u.nextCycle core).ctx core k).stepping = false →
        runs { u.nextCycle core with cur := (core, k) }) ∧
      (u.chained core = some k → (u.ctx core k).stepping = false → runs { u with cur := (core, k) })) ∧
    (∀ i rest, s.agenda = i :: rest →
      let happens (z : State) : Host.Outcome State Fault Refusal :=
        if Instr.isEvent i = true then exec i { z with agenda := rest } else .next { z with agenda := rest }
      (u.moves = [] → step s = happens u) ∧
      (u.moves ≠ [] → step s = if (u.choose 2).1 = 0 then happens (u.choose 2).2 else (u.choose 2).2.move))

/-- The state at power-on, before bring-up (20 R376 and the reset values of the register maps): no context is live, memory and queues are empty,
the time base is 0 and every device register has its reset value; a register that the manual gives no value is 0 (log entry
5), and an unlisted byte of memory is 0x00 (log entry 4).
That reset lies before bring-up is inferred (DEDUCED, log entry 12), and that the time base starts at 0 is the model's
choice (DESIGN CHOICE, log entry 3). -/
def Obligations.ResetState : Prop :=
  let s := State.reset
  MemOk s ∧ s.quiet = true ∧ s.moves = [] ∧ s.time = 0 ∧ s.rings = [] ∧ s.launch.slots = [] ∧ s.admin.keys = [] ∧
  (∀ core k, (s.ctx core k).life = .idle ∧ (s.ctx core k).level = 0 ∧ (s.ctx core k).flags = 0 ∧ (s.core core).evq = []) ∧
  (∀ core k n, (s.ctx core k).sOf n = 0x3F800000 ∧ (s.ctx core k).fOf n = 0x70348 ∧ (s.ctx core k).qOf n = .val true) ∧
  (∀ n, s.reg n = 0 ∧ s.vreg n = 0) ∧ (∀ n, 0 < n → s.mreg n = 0) ∧ s.mreg 0 = BitVec.allOnes 64 ∧
  (∀ off, s.dreg! off = dregReset off) ∧ (∀ x, Mem.byte s.mem x = 0)

/-- 00 R1: the memory of the model keeps its canonical form over every step, whatever it runs: no byte has two values, and equal
memories are equal data.
The canonical form is the model's own (log entry 4). -/
def Obligations.StepKeepsMemory : Prop := ∀ (s t : State), MemOk s → step s = .next t → MemOk t
end

