-- ==== Sys2Proof/Laws/Table.lean ====
section
/-! SUPPORT. Tables and memory: a read after a write, and that every memory operation keeps the canonical form. -/

namespace Sys2Proof

/-! ### Tables -/

@[simp] theorem Tbl.get_put_same {α : Type} (d : α) (t : Tbl α) (n : Nat) (x : α) : Tbl.get d (Tbl.put t n x) n = x := by
  induction t with
  | nil => simp [Tbl.put, Tbl.get]
  | cons p r ih =>
    obtain ⟨k, v⟩ := p
    simp only [Tbl.put]
    split
    · simp [Tbl.get]
    · split
      · simp [Tbl.get]
      · simp [Tbl.get, *]

theorem Tbl.get_put_ne {α : Type} (d : α) (t : Tbl α) (n m : Nat) (x : α) (h : m ≠ n) :
    Tbl.get d (Tbl.put t n x) m = Tbl.get d t m := by
  have h' : n ≠ m := fun e => h e.symm
  induction t with
  | nil => simp [Tbl.put, Tbl.get, h']
  | cons p r ih =>
    obtain ⟨k, v⟩ := p
    simp only [Tbl.put]
    split
    · rename_i hk
      subst hk
      simp [Tbl.get, h']
    · split
      · simp [Tbl.get, h']
      · simp [Tbl.get, ih]

theorem Tbl.put_put {α : Type} (t : Tbl α) (n : Nat) (x y : α) : Tbl.put (Tbl.put t n x) n y = Tbl.put t n y := by
  induction t with
  | nil => simp [Tbl.put]
  | cons p r ih =>
    obtain ⟨k, v⟩ := p
    by_cases h1 : k = n
    · simp [Tbl.put, h1]
    · by_cases h2 : n < k
      · simp [Tbl.put, h1, h2]
      · simp [Tbl.put, h1, h2, ih]

theorem Tbl.find_put_same {α : Type} (t : Tbl α) (n : Nat) (x : α) : Tbl.find (Tbl.put t n x) n = some x := by
  induction t with
  | nil => simp [Tbl.put, Tbl.find]
  | cons p r ih =>
    obtain ⟨k, v⟩ := p
    simp only [Tbl.put]
    split
    · simp [Tbl.find]
    · split
      · simp [Tbl.find]
      · simp [Tbl.find, *]

/-- The rising keys as a pairwise relation. -/
theorem Tbl.sorted_iff {α : Type} (t : Tbl α) : Tbl.sorted t = true ↔ t.Pairwise (fun p q => p.1 < q.1) := by
  induction t with
  | nil => simp [Tbl.sorted]
  | cons p r ih =>
    cases r with
    | nil => simp [Tbl.sorted]
    | cons q r =>
      obtain ⟨k, v⟩ := p
      obtain ⟨k', v'⟩ := q
      simp only [Tbl.sorted, Bool.and_eq_true, decide_eq_true_eq, ih]
      constructor
      · rintro ⟨h, hr⟩
        refine List.pairwise_cons.2 ⟨?_, hr⟩
        intro a ha
        rcases List.mem_cons.1 ha with rfl | ha
        · exact h
        · exact Nat.lt_trans h ((List.pairwise_cons.1 hr).1 a ha)
      · intro h
        obtain ⟨h1, h2⟩ := List.pairwise_cons.1 h
        exact ⟨h1 (k', v') (by simp), h2⟩

theorem Tbl.mem_put {α : Type} (t : Tbl α) (n : Nat) (x : α) (p : Nat × α) (h : p ∈ Tbl.put t n x) : p = (n, x) ∨ p ∈ t := by
  induction t with
  | nil => simpa [Tbl.put] using h
  | cons q r ih =>
    obtain ⟨k, v⟩ := q
    simp only [Tbl.put] at h
    split at h
    · rcases List.mem_cons.1 h with h | h
      · exact .inl h
      · exact .inr (List.mem_cons_of_mem _ h)
    · split at h
      · rcases List.mem_cons.1 h with h | h
        · exact .inl h
        · exact .inr h
      · rcases List.mem_cons.1 h with h | h
        · exact .inr (h ▸ List.mem_cons_self)
        · exact (ih h).imp id (List.mem_cons_of_mem _)

theorem Tbl.put_sorted {α : Type} (t : Tbl α) (n : Nat) (x : α) (h : t.Pairwise (fun p q => p.1 < q.1)) :
    (Tbl.put t n x).Pairwise (fun p q => p.1 < q.1) := by
  induction t with
  | nil => simp [Tbl.put]
  | cons q r ih =>
    obtain ⟨k, v⟩ := q
    obtain ⟨h1, h2⟩ := List.pairwise_cons.1 h
    simp only [Tbl.put]
    split
    · rename_i hk
      subst hk
      exact List.pairwise_cons.2 ⟨h1, h2⟩
    · split
      · rename_i hk hlt
        refine List.pairwise_cons.2 ⟨?_, h⟩
        intro a ha
        rcases List.mem_cons.1 ha with rfl | ha
        · exact hlt
        · exact Nat.lt_trans hlt (h1 a ha)
      · rename_i hk hlt
        refine List.pairwise_cons.2 ⟨?_, ih h2⟩
        intro a ha
        rcases Tbl.mem_put r n x a ha with rfl | ha
        · show k < n
          omega
        · exact h1 a ha

theorem Tbl.erase_sublist {α : Type} (t : Tbl α) (n : Nat) : (Tbl.erase t n).Sublist t := by
  induction t with
  | nil => simp [Tbl.erase]
  | cons q r ih =>
    obtain ⟨k, v⟩ := q
    simp only [Tbl.erase]
    split
    · exact ih.trans (List.sublist_cons_self _ _)
    · exact ih.cons_cons _

theorem Tbl.get_of_lt {α : Type} (d : α) (t : Tbl α) (n : Nat) (h : ∀ p ∈ t, n < p.1) : Tbl.get d t n = d := by
  induction t with
  | nil => rfl
  | cons q r ih =>
    obtain ⟨k, v⟩ := q
    have hk : n < k := h (k, v) (by simp)
    have hn : k ≠ n := by omega
    simp only [Tbl.get, if_neg hn]
    exact ih (fun p hp => h p (List.mem_cons_of_mem _ hp))

theorem Tbl.get_erase_same {α : Type} (d : α) (t : Tbl α) (n : Nat) : Tbl.get d (Tbl.erase t n) n = d := by
  induction t with
  | nil => rfl
  | cons q r ih =>
    obtain ⟨k, v⟩ := q
    simp only [Tbl.erase]
    split
    · exact ih
    · rename_i hk
      simp only [Tbl.get, if_neg hk]
      exact ih

theorem Tbl.get_erase_ne {α : Type} (d : α) (t : Tbl α) (n m : Nat) (h : m ≠ n) :
    Tbl.get d (Tbl.erase t n) m = Tbl.get d t m := by
  induction t with
  | nil => rfl
  | cons q r ih =>
    obtain ⟨k, v⟩ := q
    simp only [Tbl.erase]
    split
    · rename_i hk
      subst hk
      have : k ≠ m := fun e => h e.symm
      simp [Tbl.get, this, ih]
    · simp [Tbl.get, ih]

@[simp] theorem Tbl.get_set_same {α : Type} [DecidableEq α] (d : α) (t : Tbl α) (n : Nat) (x : α) :
    Tbl.get d (Tbl.set d t n x) n = x := by
  unfold Tbl.set
  split
  · rename_i hx
    rw [hx]
    exact Tbl.get_erase_same d t n
  · exact Tbl.get_put_same d t n x

theorem Tbl.get_set_ne {α : Type} [DecidableEq α] (d d' : α) (t : Tbl α) (n m : Nat) (x : α) (h : m ≠ n) :
    Tbl.get d' (Tbl.set d t n x) m = Tbl.get d' t m := by
  unfold Tbl.set
  split
  · exact Tbl.get_erase_ne d' t n m h
  · exact Tbl.get_put_ne d' t n m x h

/-! ### Memory -/

/-- The canonical form in words. -/
theorem Memory.wf_iff (m : Mem) :
    Memory.wf m = true ↔ m.Pairwise (fun p q => p.1 < q.1) ∧ ∀ c ∈ m, c.2 ≠ Mem.unlisted := by
  simp [Memory.wf, Tbl.sorted_iff]

theorem Memory.wf_nil : Memory.wf [] = true := rfl

theorem Memory.wf_filter (m : Mem) (p : Host.Cell → Bool) (h : Memory.wf m = true) : Memory.wf (m.filter p) = true := by
  rw [Memory.wf_iff] at *
  exact ⟨h.1.filter _, fun c hc => h.2 c (List.mem_filter.1 hc).1⟩

theorem Memory.wf_clear (m : Mem) (a n : Nat) (h : Memory.wf m = true) : Memory.wf (Mem.clear m a n) = true :=
  Memory.wf_filter m _ h

theorem Memory.wf_setByte (m : Mem) (a : Nat) (b : Byte) (h : Memory.wf m = true) : Memory.wf (Mem.setByte m a b) = true := by
  rw [Memory.wf_iff] at *
  unfold Mem.setByte Tbl.set
  split
  · exact ⟨h.1.sublist (Tbl.erase_sublist m a), fun c hc => h.2 c ((Tbl.erase_sublist m a).subset hc)⟩
  · rename_i hb
    refine ⟨Tbl.put_sorted m a b h.1, fun c hc => ?_⟩
    rcases Tbl.mem_put m a b c hc with rfl | hc
    · exact hb
    · exact h.2 c hc

/-- What the cells of a number hold: keys from `a` below `a + n`, non-zero bytes, rising. -/
theorem Mem.cells_spec (l : Nat) : ∀ (a v : Nat), v < 2 ^ (8 * 2 ^ l) →
    (Mem.cells l a v).Pairwise (fun p q => p.1 < q.1) ∧
    ∀ c ∈ Mem.cells l a v, a ≤ c.1 ∧ c.1 < a + 2 ^ l ∧ c.2 ≠ Mem.unlisted ∧ 2 ^ (8 * (c.1 - a)) ≤ v := by
  induction l with
  | zero =>
    intro a v hv
    simp only [Mem.cells]
    split
    · simp
    · rename_i h
      refine ⟨by simp, ?_⟩
      intro c hc
      rw [List.mem_singleton] at hc
      subst hc
      refine ⟨Nat.le_refl _, by simp, ?_, ?_⟩
      · intro e
        have e' : BitVec.ofNat 8 v = (0 : Byte) := e
        have : (BitVec.ofNat 8 v).toNat = (0 : Byte).toNat := by rw [e']
        simp at this
        omega
      · simp
        omega
  | succ l ih =>
    intro a v hv
    simp only [Mem.cells]
    split
    · simp
    · have hp : 0 < 2 ^ (8 * 2 ^ l) := Nat.two_pow_pos _
      have hlo : v % 2 ^ (8 * 2 ^ l) < 2 ^ (8 * 2 ^ l) := Nat.mod_lt _ hp
      have hhi : v / 2 ^ (8 * 2 ^ l) < 2 ^ (8 * 2 ^ l) := by
        apply Nat.div_lt_of_lt_mul
        rw [← Nat.pow_add]
        have : 8 * 2 ^ l + 8 * 2 ^ l = 8 * 2 ^ (l + 1) := by rw [Nat.pow_succ]; omega
        rw [this]
        exact hv
      obtain ⟨p1, q1⟩ := ih a _ hlo
      obtain ⟨p2, q2⟩ := ih (a + 2 ^ l) _ hhi
      have hs : 2 ^ (l + 1) = 2 ^ l + 2 ^ l := by rw [Nat.pow_succ]; omega
      refine ⟨List.pairwise_append.2 ⟨p1, p2, ?_⟩, ?_⟩
      · intro x hx y hy
        have := (q1 x hx).2.1
        have := (q2 y hy).1
        omega
      · intro c hc
        rcases List.mem_append.1 hc with hc | hc
        · obtain ⟨c1, c2, c3, c4⟩ := q1 c hc
          exact ⟨c1, by omega, c3, Nat.le_trans c4 (Nat.mod_le _ _)⟩
        · obtain ⟨c1, c2, c3, c4⟩ := q2 c hc
          refine ⟨by omega, by omega, c3, ?_⟩
          have hk : 8 * (c.1 - a) = 8 * 2 ^ l + 8 * (c.1 - (a + 2 ^ l)) := by omega
          rw [hk, Nat.pow_add]
          calc 2 ^ (8 * 2 ^ l) * 2 ^ (8 * (c.1 - (a + 2 ^ l))) ≤ 2 ^ (8 * 2 ^ l) * (v / 2 ^ (8 * 2 ^ l)) :=
                Nat.mul_le_mul_left _ c4
            _ ≤ v := Nat.mul_div_le _ _

theorem log2Up_spec (n : Nat) : n ≤ 2 ^ log2Up n := by
  unfold log2Up
  split
  · simpa using ‹n ≤ 1›
  · rename_i h
    have := Nat.lt_log2_self (n := n - 1)
    omega

/-- A written number as its cells: inside the range, rising and non-zero. -/
theorem Mem.cells_write (a n v : Nat) :
    (Mem.cells (log2Up n) a (v % 2 ^ (8 * n))).Pairwise (fun p q => p.1 < q.1) ∧
    ∀ c ∈ Mem.cells (log2Up n) a (v % 2 ^ (8 * n)), a ≤ c.1 ∧ c.1 < a + n ∧ c.2 ≠ Mem.unlisted := by
  have hv : v % 2 ^ (8 * n) < 2 ^ (8 * n) := Nat.mod_lt _ (Nat.two_pow_pos _)
  have hw : v % 2 ^ (8 * n) < 2 ^ (8 * 2 ^ log2Up n) :=
    Nat.lt_of_lt_of_le hv (Nat.pow_le_pow_right (by omega) (by have := log2Up_spec n; omega))
  obtain ⟨p, q⟩ := Mem.cells_spec (log2Up n) a _ hw
  refine ⟨p, fun c hc => ?_⟩
  obtain ⟨c1, _, c3, c4⟩ := q c hc
  refine ⟨c1, ?_, c3⟩
  have := (Nat.pow_lt_pow_iff_right (a := 2) (by omega)).1 (Nat.lt_of_le_of_lt c4 hv)
  omega

theorem Memory.wf_write (m : Mem) (a n v : Nat) (h : Memory.wf m = true) : Memory.wf (Mem.write m a n v) = true := by
  rw [Memory.wf_iff] at *
  obtain ⟨p, q⟩ := Mem.cells_write a n v
  unfold Mem.write
  refine ⟨List.pairwise_append.2 ⟨List.pairwise_append.2 ⟨h.1.filter _, p, ?_⟩, h.1.filter _, ?_⟩, ?_⟩
  · intro x hx y hy
    have h1 := (List.mem_filter.1 hx).2
    have h2 := (q y hy).1
    simp at h1
    omega
  · intro x hx y hy
    have h2 := (List.mem_filter.1 hy).2
    simp at h2
    rcases List.mem_append.1 hx with hx | hx
    · have h1 := (List.mem_filter.1 hx).2
      simp at h1
      omega
    · have h1 := (q x hx).2.1
      omega
  · intro c hc
    rcases List.mem_append.1 hc with hc | hc
    · rcases List.mem_append.1 hc with hc | hc
      · exact h.2 c (List.mem_filter.1 hc).1
      · exact (q c hc).2.2
    · exact h.2 c (List.mem_filter.1 hc).1

theorem Memory.wf_writeBytes (m : Mem) (a : Nat) (l : List Byte) (h : Memory.wf m = true) :
    Memory.wf (Mem.writeBytes m a l) = true := Memory.wf_write m a _ _ h

theorem Mem.byte_setByte_same (m : Mem) (a : Nat) (b : Byte) : Mem.byte (Mem.setByte m a b) a = b :=
  Tbl.get_set_same _ m a b

theorem Mem.byte_setByte_ne (m : Mem) (a x : Nat) (b : Byte) (h : x ≠ a) : Mem.byte (Mem.setByte m a b) x = Mem.byte m x :=
  Tbl.get_set_ne _ _ m a x b h

theorem Mem.byte_append (m m' : Mem) (x : Nat) :
    Mem.byte (m ++ m') x = if m.any (fun c => c.1 == x) then Mem.byte m x else Mem.byte m' x := by
  induction m with
  | nil => simp [Mem.byte]
  | cons c r ih =>
    obtain ⟨k, v⟩ := c
    simp only [Mem.byte, List.cons_append, Tbl.get, List.any_cons] at *
    by_cases hk : k = x
    · simp [hk]
    · simp [hk, ih]

theorem Mem.byte_none (m : Mem) (x : Nat) (h : ∀ c ∈ m, c.1 ≠ x) : Mem.byte m x = Mem.unlisted := by
  induction m with
  | nil => rfl
  | cons c r ih =>
    obtain ⟨k, v⟩ := c
    have hk : k ≠ x := h (k, v) (by simp)
    simp only [Mem.byte, Tbl.get, if_neg hk] at *
    exact ih (fun c hc => h c (List.mem_cons_of_mem _ hc))

theorem Mem.byte_filter (m : Mem) (p : Nat → Bool) (x : Nat) (h : p x = true) :
    Mem.byte (m.filter (fun c => p c.1)) x = Mem.byte m x := by
  induction m with
  | nil => rfl
  | cons c r ih =>
    obtain ⟨k, v⟩ := c
    simp only [Mem.byte, Tbl.get, List.filter_cons] at *
    by_cases hk : k = x
    · subst hk
      simp [h, Tbl.get]
    · by_cases hp : p k = true
      · simp [hp, Tbl.get, hk, ih]
      · simp [hp, hk, ih]

/-- A write leaves every byte outside its range alone. -/
theorem Mem.byte_write_out (m : Mem) (a n v x : Nat) (h : x < a ∨ a + n ≤ x) :
    Mem.byte (Mem.write m a n v) x = Mem.byte m x := by
  obtain ⟨-, q⟩ := Mem.cells_write a n v
  unfold Mem.write
  rw [Mem.byte_append, Mem.byte_append]
  have hc : ∀ c ∈ Mem.cells (log2Up n) a (v % 2 ^ (8 * n)), c.1 ≠ x := by
    intro c hc e
    have := q c hc
    omega
  rcases h with h | h
  · have h3 := Mem.byte_filter m (fun k => decide (k < a)) x (by simp [h])
    have h4 : Mem.byte (m.filter (fun c => decide (a + n ≤ c.1))) x = Mem.unlisted := by
      apply Mem.byte_none
      intro c hc e
      have := (List.mem_filter.1 hc).2
      simp at this
      omega
    by_cases h1 : (m.filter (fun c => decide (c.1 < a))).any (fun c => c.1 == x) = true
    · simp [h1, h3]
    · have h5 : Mem.byte m x = Mem.unlisted := by
        rw [← h3]
        apply Mem.byte_none
        intro c hc e
        apply h1
        simp only [List.any_eq_true]
        exact ⟨c, hc, by simp [e]⟩
      simp only [h1, h4, h5, Mem.byte_none _ _ hc]
      simp
  · have h3 := Mem.byte_filter m (fun k => decide (a + n ≤ k)) x (by simp [h])
    have h1 : (m.filter (fun c => decide (c.1 < a)) ++ Mem.cells (log2Up n) a (v % 2 ^ (8 * n))).any (fun c => c.1 == x)
        = false := by
      rw [List.any_eq_false]
      intro c hc
      rcases List.mem_append.1 hc with hc | hc
      · have := (List.mem_filter.1 hc).2
        simp at this
        simp
        omega
      · have := (q c hc).2.1
        simp
        omega
    simp [h1, h3]

theorem Mem.byte_append_left (m m' : Mem) (x : Nat) (h : ∀ c ∈ m', c.1 ≠ x) : Mem.byte (m ++ m') x = Mem.byte m x := by
  rw [Mem.byte_append]
  split
  · rfl
  · rename_i h1
    rw [Mem.byte_none _ _ h, Mem.byte_none m x]
    intro c hc e
    apply h1
    simp only [List.any_eq_true]
    exact ⟨c, hc, by simp [e]⟩

theorem Mem.byte_append_right (m m' : Mem) (x : Nat) (h : ∀ c ∈ m, c.1 ≠ x) : Mem.byte (m ++ m') x = Mem.byte m' x := by
  rw [Mem.byte_append]
  split
  · rename_i h1
    simp only [List.any_eq_true] at h1
    obtain ⟨c, hc, e⟩ := h1
    simp at e
    exact absurd e (h c hc)
  · rfl

/-- The cells of a number read as its bytes. -/
theorem Mem.byte_cells (l : Nat) : ∀ (a v x : Nat), v < 2 ^ (8 * 2 ^ l) → a ≤ x →
    Mem.byte (Mem.cells l a v) x = BitVec.ofNat 8 (v / 2 ^ (8 * (x - a))) := by
  induction l with
  | zero =>
    intro a v x hv hx
    simp only [Mem.cells]
    have hv' : v < 256 := by simpa using hv
    rcases Nat.eq_or_lt_of_le hx with rfl | hlt
    · split
      · rename_i h
        have : v = 0 := by omega
        subst this
        simp [Mem.byte, Tbl.get, Mem.unlisted]
      · simp [Mem.byte, Tbl.get]
    · have h0 : v / 2 ^ (8 * (x - a)) = 0 := by
        apply Nat.div_eq_of_lt
        exact Nat.lt_of_lt_of_le hv' (by
          calc (256 : Nat) = 2 ^ 8 := rfl
            _ ≤ 2 ^ (8 * (x - a)) := Nat.pow_le_pow_right (by omega) (by omega))
      have hne : a ≠ x := by omega
      rw [h0]
      split <;> simp [Mem.byte, Tbl.get, Mem.unlisted, hne]
  | succ l ih =>
    intro a v x hv hx
    simp only [Mem.cells]
    split
    · rename_i h
      subst h
      simp [Mem.byte, Tbl.get, Mem.unlisted]
    · have hp : 0 < 2 ^ (8 * 2 ^ l) := Nat.two_pow_pos _
      have hlo : v % 2 ^ (8 * 2 ^ l) < 2 ^ (8 * 2 ^ l) := Nat.mod_lt _ hp
      have hs : 2 ^ (l + 1) = 2 ^ l + 2 ^ l := by rw [Nat.pow_succ]; omega
      have hhi : v / 2 ^ (8 * 2 ^ l) < 2 ^ (8 * 2 ^ l) := by
        apply Nat.div_lt_of_lt_mul
        rw [← Nat.pow_add]
        have : 8 * 2 ^ l + 8 * 2 ^ l = 8 * 2 ^ (l + 1) := by omega
        rw [this]
        exact hv
      by_cases hx2 : x < a + 2 ^ l
      · rw [Mem.byte_append_left, ih a _ x hlo hx]
        · have hsplit : 2 ^ (8 * 2 ^ l) = 2 ^ (8 * (x - a)) * 2 ^ (8 * 2 ^ l - 8 * (x - a)) := by
            rw [← Nat.pow_add]
            congr 1
            omega
          rw [hsplit, Nat.mod_mul_right_div_self]
          apply BitVec.eq_of_toNat_eq
          simp only [BitVec.toNat_ofNat]
          apply Nat.mod_mod_of_dvd
          exact Nat.pow_dvd_pow 2 (by omega)
        · intro c hc
          have := ((Mem.cells_spec l (a + 2 ^ l) _ hhi).2 c hc).1
          omega
      · rw [Mem.byte_append_right, ih (a + 2 ^ l) _ x hhi (by omega)]
        · rw [Nat.div_div_eq_div_mul, ← Nat.pow_add]
          congr 3
          omega
        · intro c hc
          have := ((Mem.cells_spec l a _ hlo).2 c hc).2.1
          omega

/-- A write reads back as the bytes of its value. -/
theorem Mem.byte_write_in (m : Mem) (a n v x : Nat) (h : a ≤ x) (h' : x < a + n) :
    Mem.byte (Mem.write m a n v) x = BitVec.ofNat 8 (v / 2 ^ (8 * (x - a))) := by
  have hv : v % 2 ^ (8 * n) < 2 ^ (8 * n) := Nat.mod_lt _ (Nat.two_pow_pos _)
  have hw : v % 2 ^ (8 * n) < 2 ^ (8 * 2 ^ log2Up n) :=
    Nat.lt_of_lt_of_le hv (Nat.pow_le_pow_right (by omega) (by have := log2Up_spec n; omega))
  unfold Mem.write
  rw [Mem.byte_append_left, Mem.byte_append_right, Mem.byte_cells _ _ _ _ hw h]
  · have hsplit : 2 ^ (8 * n) = 2 ^ (8 * (x - a)) * 2 ^ (8 * n - 8 * (x - a)) := by
      rw [← Nat.pow_add]
      congr 1
      omega
    rw [hsplit, Nat.mod_mul_right_div_self]
    apply BitVec.eq_of_toNat_eq
    simp only [BitVec.toNat_ofNat]
    apply Nat.mod_mod_of_dvd
    exact Nat.pow_dvd_pow 2 (by omega)
  · intro c hc
    have := (List.mem_filter.1 hc).2
    simp at this
    omega
  · intro c hc
    have := (List.mem_filter.1 hc).2
    simp at this
    omega

end Sys2Proof
end

