-- ==== Sys2Proof/Laws/State.lean ====
section
/-! SUPPORT. The fields of the state under each plain update, and reads of registers, cores and contexts after writes. -/

namespace Sys2Proof.Machine

@[simp] theorem State.setCore_mem (s : State) (c : Nat) (x : Core) : (s.setCore c x).mem = s.mem := rfl
@[simp] theorem State.setCore_fe (s : State) (c : Nat) (x : Core) : (s.setCore c x).fe = s.fe := rfl
@[simp] theorem State.setCore_lost (s : State) (c : Nat) (x : Core) : (s.setCore c x).lost = s.lost := rfl
@[simp] theorem State.setCore_lineKey (s : State) (c : Nat) (x : Core) : (s.setCore c x).lineKey = s.lineKey := rfl
@[simp] theorem State.setCore_dreg (s : State) (c : Nat) (x : Core) : (s.setCore c x).dreg = s.dreg := rfl
@[simp] theorem State.setCore_ctlb (s : State) (c : Nat) (x : Core) : (s.setCore c x).ctlb = s.ctlb := rfl
@[simp] theorem State.setCore_net (s : State) (c : Nat) (x : Core) : (s.setCore c x).net = s.net := rfl
@[simp] theorem State.setCore_rings (s : State) (c : Nat) (x : Core) : (s.setCore c x).rings = s.rings := rfl
@[simp] theorem State.setCore_auction (s : State) (c : Nat) (x : Core) : (s.setCore c x).auction = s.auction := rfl
@[simp] theorem State.setCore_coll (s : State) (c : Nat) (x : Core) : (s.setCore c x).coll = s.coll := rfl
@[simp] theorem State.setCore_launch (s : State) (c : Nat) (x : Core) : (s.setCore c x).launch = s.launch := rfl
@[simp] theorem State.setCore_episodes (s : State) (c : Nat) (x : Core) : (s.setCore c x).episodes = s.episodes := rfl
@[simp] theorem State.setCore_admin (s : State) (c : Nat) (x : Core) : (s.setCore c x).admin = s.admin := rfl
@[simp] theorem State.setCore_time (s : State) (c : Nat) (x : Core) : (s.setCore c x).time = s.time := rfl
@[simp] theorem State.setCore_fresh (s : State) (c : Nat) (x : Core) : (s.setCore c x).fresh = s.fresh := rfl
@[simp] theorem State.setCore_cur (s : State) (c : Nat) (x : Core) : (s.setCore c x).cur = s.cur := rfl
@[simp] theorem State.setCore_agenda (s : State) (c : Nat) (x : Core) : (s.setCore c x).agenda = s.agenda := rfl

@[simp] theorem State.setCtx_mem (s : State) (c k : Nat) (x : Ctx) : (s.setCtx c k x).mem = s.mem := rfl
@[simp] theorem State.setCtx_fe (s : State) (c k : Nat) (x : Ctx) : (s.setCtx c k x).fe = s.fe := rfl
@[simp] theorem State.setCtx_lost (s : State) (c k : Nat) (x : Ctx) : (s.setCtx c k x).lost = s.lost := rfl
@[simp] theorem State.setCtx_lineKey (s : State) (c k : Nat) (x : Ctx) : (s.setCtx c k x).lineKey = s.lineKey := rfl
@[simp] theorem State.setCtx_dreg (s : State) (c k : Nat) (x : Ctx) : (s.setCtx c k x).dreg = s.dreg := rfl
@[simp] theorem State.setCtx_ctlb (s : State) (c k : Nat) (x : Ctx) : (s.setCtx c k x).ctlb = s.ctlb := rfl
@[simp] theorem State.setCtx_net (s : State) (c k : Nat) (x : Ctx) : (s.setCtx c k x).net = s.net := rfl
@[simp] theorem State.setCtx_rings (s : State) (c k : Nat) (x : Ctx) : (s.setCtx c k x).rings = s.rings := rfl
@[simp] theorem State.setCtx_auction (s : State) (c k : Nat) (x : Ctx) : (s.setCtx c k x).auction = s.auction := rfl
@[simp] theorem State.setCtx_coll (s : State) (c k : Nat) (x : Ctx) : (s.setCtx c k x).coll = s.coll := rfl
@[simp] theorem State.setCtx_launch (s : State) (c k : Nat) (x : Ctx) : (s.setCtx c k x).launch = s.launch := rfl
@[simp] theorem State.setCtx_episodes (s : State) (c k : Nat) (x : Ctx) : (s.setCtx c k x).episodes = s.episodes := rfl
@[simp] theorem State.setCtx_admin (s : State) (c k : Nat) (x : Ctx) : (s.setCtx c k x).admin = s.admin := rfl
@[simp] theorem State.setCtx_time (s : State) (c k : Nat) (x : Ctx) : (s.setCtx c k x).time = s.time := rfl
@[simp] theorem State.setCtx_fresh (s : State) (c k : Nat) (x : Ctx) : (s.setCtx c k x).fresh = s.fresh := rfl
@[simp] theorem State.setCtx_cur (s : State) (c k : Nat) (x : Ctx) : (s.setCtx c k x).cur = s.cur := rfl
@[simp] theorem State.setCtx_agenda (s : State) (c k : Nat) (x : Ctx) : (s.setCtx c k x).agenda = s.agenda := rfl

@[simp] theorem State.setCx_mem (s : State) (x : Ctx) : (s.setCx x).mem = s.mem := rfl
@[simp] theorem State.setCx_fe (s : State) (x : Ctx) : (s.setCx x).fe = s.fe := rfl
@[simp] theorem State.setCx_lost (s : State) (x : Ctx) : (s.setCx x).lost = s.lost := rfl
@[simp] theorem State.setCx_lineKey (s : State) (x : Ctx) : (s.setCx x).lineKey = s.lineKey := rfl
@[simp] theorem State.setCx_dreg (s : State) (x : Ctx) : (s.setCx x).dreg = s.dreg := rfl
@[simp] theorem State.setCx_ctlb (s : State) (x : Ctx) : (s.setCx x).ctlb = s.ctlb := rfl
@[simp] theorem State.setCx_net (s : State) (x : Ctx) : (s.setCx x).net = s.net := rfl
@[simp] theorem State.setCx_rings (s : State) (x : Ctx) : (s.setCx x).rings = s.rings := rfl
@[simp] theorem State.setCx_auction (s : State) (x : Ctx) : (s.setCx x).auction = s.auction := rfl
@[simp] theorem State.setCx_coll (s : State) (x : Ctx) : (s.setCx x).coll = s.coll := rfl
@[simp] theorem State.setCx_launch (s : State) (x : Ctx) : (s.setCx x).launch = s.launch := rfl
@[simp] theorem State.setCx_episodes (s : State) (x : Ctx) : (s.setCx x).episodes = s.episodes := rfl
@[simp] theorem State.setCx_admin (s : State) (x : Ctx) : (s.setCx x).admin = s.admin := rfl
@[simp] theorem State.setCx_time (s : State) (x : Ctx) : (s.setCx x).time = s.time := rfl
@[simp] theorem State.setCx_fresh (s : State) (x : Ctx) : (s.setCx x).fresh = s.fresh := rfl
@[simp] theorem State.setCx_cur (s : State) (x : Ctx) : (s.setCx x).cur = s.cur := rfl
@[simp] theorem State.setCx_agenda (s : State) (x : Ctx) : (s.setCx x).agenda = s.agenda := rfl

@[simp] theorem State.setCc_mem (s : State) (x : Core) : (s.setCc x).mem = s.mem := rfl
@[simp] theorem State.setCc_fe (s : State) (x : Core) : (s.setCc x).fe = s.fe := rfl
@[simp] theorem State.setCc_lost (s : State) (x : Core) : (s.setCc x).lost = s.lost := rfl
@[simp] theorem State.setCc_lineKey (s : State) (x : Core) : (s.setCc x).lineKey = s.lineKey := rfl
@[simp] theorem State.setCc_dreg (s : State) (x : Core) : (s.setCc x).dreg = s.dreg := rfl
@[simp] theorem State.setCc_ctlb (s : State) (x : Core) : (s.setCc x).ctlb = s.ctlb := rfl
@[simp] theorem State.setCc_net (s : State) (x : Core) : (s.setCc x).net = s.net := rfl
@[simp] theorem State.setCc_rings (s : State) (x : Core) : (s.setCc x).rings = s.rings := rfl
@[simp] theorem State.setCc_auction (s : State) (x : Core) : (s.setCc x).auction = s.auction := rfl
@[simp] theorem State.setCc_coll (s : State) (x : Core) : (s.setCc x).coll = s.coll := rfl
@[simp] theorem State.setCc_launch (s : State) (x : Core) : (s.setCc x).launch = s.launch := rfl
@[simp] theorem State.setCc_episodes (s : State) (x : Core) : (s.setCc x).episodes = s.episodes := rfl
@[simp] theorem State.setCc_admin (s : State) (x : Core) : (s.setCc x).admin = s.admin := rfl
@[simp] theorem State.setCc_time (s : State) (x : Core) : (s.setCc x).time = s.time := rfl
@[simp] theorem State.setCc_fresh (s : State) (x : Core) : (s.setCc x).fresh = s.fresh := rfl
@[simp] theorem State.setCc_cur (s : State) (x : Core) : (s.setCc x).cur = s.cur := rfl
@[simp] theorem State.setCc_agenda (s : State) (x : Core) : (s.setCc x).agenda = s.agenda := rfl

@[simp] theorem State.setDreg_cores (s : State) (off : Nat) (v : W64) : (s.setDreg off v).cores = s.cores := rfl
@[simp] theorem State.setDreg_mem (s : State) (off : Nat) (v : W64) : (s.setDreg off v).mem = s.mem := rfl
@[simp] theorem State.setDreg_fe (s : State) (off : Nat) (v : W64) : (s.setDreg off v).fe = s.fe := rfl
@[simp] theorem State.setDreg_lost (s : State) (off : Nat) (v : W64) : (s.setDreg off v).lost = s.lost := rfl
@[simp] theorem State.setDreg_lineKey (s : State) (off : Nat) (v : W64) : (s.setDreg off v).lineKey = s.lineKey := rfl
@[simp] theorem State.setDreg_ctlb (s : State) (off : Nat) (v : W64) : (s.setDreg off v).ctlb = s.ctlb := rfl
@[simp] theorem State.setDreg_net (s : State) (off : Nat) (v : W64) : (s.setDreg off v).net = s.net := rfl
@[simp] theorem State.setDreg_rings (s : State) (off : Nat) (v : W64) : (s.setDreg off v).rings = s.rings := rfl
@[simp] theorem State.setDreg_auction (s : State) (off : Nat) (v : W64) : (s.setDreg off v).auction = s.auction := rfl
@[simp] theorem State.setDreg_coll (s : State) (off : Nat) (v : W64) : (s.setDreg off v).coll = s.coll := rfl
@[simp] theorem State.setDreg_launch (s : State) (off : Nat) (v : W64) : (s.setDreg off v).launch = s.launch := rfl
@[simp] theorem State.setDreg_episodes (s : State) (off : Nat) (v : W64) : (s.setDreg off v).episodes = s.episodes := rfl
@[simp] theorem State.setDreg_admin (s : State) (off : Nat) (v : W64) : (s.setDreg off v).admin = s.admin := rfl
@[simp] theorem State.setDreg_time (s : State) (off : Nat) (v : W64) : (s.setDreg off v).time = s.time := rfl
@[simp] theorem State.setDreg_fresh (s : State) (off : Nat) (v : W64) : (s.setDreg off v).fresh = s.fresh := rfl
@[simp] theorem State.setDreg_cur (s : State) (off : Nat) (v : W64) : (s.setDreg off v).cur = s.cur := rfl
@[simp] theorem State.setDreg_agenda (s : State) (off : Nat) (v : W64) : (s.setDreg off v).agenda = s.agenda := rfl

@[simp] theorem State.post_cores (s : State) (c : Nat) (r : EvRec) : (s.post c r).cores = s.cores := rfl
@[simp] theorem State.post_mem (s : State) (c : Nat) (r : EvRec) : (s.post c r).mem = s.mem := rfl
@[simp] theorem State.post_fe (s : State) (c : Nat) (r : EvRec) : (s.post c r).fe = s.fe := rfl
@[simp] theorem State.post_lost (s : State) (c : Nat) (r : EvRec) : (s.post c r).lost = s.lost := rfl
@[simp] theorem State.post_lineKey (s : State) (c : Nat) (r : EvRec) : (s.post c r).lineKey = s.lineKey := rfl
@[simp] theorem State.post_dreg (s : State) (c : Nat) (r : EvRec) : (s.post c r).dreg = s.dreg := rfl
@[simp] theorem State.post_ctlb (s : State) (c : Nat) (r : EvRec) : (s.post c r).ctlb = s.ctlb := rfl
@[simp] theorem State.post_rings (s : State) (c : Nat) (r : EvRec) : (s.post c r).rings = s.rings := rfl
@[simp] theorem State.post_auction (s : State) (c : Nat) (r : EvRec) : (s.post c r).auction = s.auction := rfl
@[simp] theorem State.post_coll (s : State) (c : Nat) (r : EvRec) : (s.post c r).coll = s.coll := rfl
@[simp] theorem State.post_launch (s : State) (c : Nat) (r : EvRec) : (s.post c r).launch = s.launch := rfl
@[simp] theorem State.post_episodes (s : State) (c : Nat) (r : EvRec) : (s.post c r).episodes = s.episodes := rfl
@[simp] theorem State.post_admin (s : State) (c : Nat) (r : EvRec) : (s.post c r).admin = s.admin := rfl
@[simp] theorem State.post_time (s : State) (c : Nat) (r : EvRec) : (s.post c r).time = s.time := rfl
@[simp] theorem State.post_fresh (s : State) (c : Nat) (r : EvRec) : (s.post c r).fresh = s.fresh := rfl
@[simp] theorem State.post_cur (s : State) (c : Nat) (r : EvRec) : (s.post c r).cur = s.cur := rfl
@[simp] theorem State.post_agenda (s : State) (c : Nat) (r : EvRec) : (s.post c r).agenda = s.agenda := rfl

@[simp] theorem State.postFault_cores (s : State) (d : Nat) (r : FaultRec) : (s.postFault d r).cores = s.cores := rfl
@[simp] theorem State.postFault_mem (s : State) (d : Nat) (r : FaultRec) : (s.postFault d r).mem = s.mem := rfl
@[simp] theorem State.postFault_fe (s : State) (d : Nat) (r : FaultRec) : (s.postFault d r).fe = s.fe := rfl
@[simp] theorem State.postFault_lost (s : State) (d : Nat) (r : FaultRec) : (s.postFault d r).lost = s.lost := rfl
@[simp] theorem State.postFault_lineKey (s : State) (d : Nat) (r : FaultRec) : (s.postFault d r).lineKey = s.lineKey := rfl
@[simp] theorem State.postFault_dreg (s : State) (d : Nat) (r : FaultRec) : (s.postFault d r).dreg = s.dreg := rfl
@[simp] theorem State.postFault_ctlb (s : State) (d : Nat) (r : FaultRec) : (s.postFault d r).ctlb = s.ctlb := rfl
@[simp] theorem State.postFault_rings (s : State) (d : Nat) (r : FaultRec) : (s.postFault d r).rings = s.rings := rfl
@[simp] theorem State.postFault_auction (s : State) (d : Nat) (r : FaultRec) : (s.postFault d r).auction = s.auction := rfl
@[simp] theorem State.postFault_coll (s : State) (d : Nat) (r : FaultRec) : (s.postFault d r).coll = s.coll := rfl
@[simp] theorem State.postFault_launch (s : State) (d : Nat) (r : FaultRec) : (s.postFault d r).launch = s.launch := rfl
@[simp] theorem State.postFault_episodes (s : State) (d : Nat) (r : FaultRec) : (s.postFault d r).episodes = s.episodes := rfl
@[simp] theorem State.postFault_admin (s : State) (d : Nat) (r : FaultRec) : (s.postFault d r).admin = s.admin := rfl
@[simp] theorem State.postFault_time (s : State) (d : Nat) (r : FaultRec) : (s.postFault d r).time = s.time := rfl
@[simp] theorem State.postFault_fresh (s : State) (d : Nat) (r : FaultRec) : (s.postFault d r).fresh = s.fresh := rfl
@[simp] theorem State.postFault_cur (s : State) (d : Nat) (r : FaultRec) : (s.postFault d r).cur = s.cur := rfl
@[simp] theorem State.postFault_agenda (s : State) (d : Nat) (r : FaultRec) : (s.postFault d r).agenda = s.agenda := rfl

@[simp] theorem State.setFe_cores (s : State) (k : Nat) (e : Bool) : (s.setFe k e).cores = s.cores := rfl
@[simp] theorem State.setFe_mem (s : State) (k : Nat) (e : Bool) : (s.setFe k e).mem = s.mem := rfl
@[simp] theorem State.setFe_lost (s : State) (k : Nat) (e : Bool) : (s.setFe k e).lost = s.lost := rfl
@[simp] theorem State.setFe_lineKey (s : State) (k : Nat) (e : Bool) : (s.setFe k e).lineKey = s.lineKey := rfl
@[simp] theorem State.setFe_dreg (s : State) (k : Nat) (e : Bool) : (s.setFe k e).dreg = s.dreg := rfl
@[simp] theorem State.setFe_ctlb (s : State) (k : Nat) (e : Bool) : (s.setFe k e).ctlb = s.ctlb := rfl
@[simp] theorem State.setFe_net (s : State) (k : Nat) (e : Bool) : (s.setFe k e).net = s.net := rfl
@[simp] theorem State.setFe_rings (s : State) (k : Nat) (e : Bool) : (s.setFe k e).rings = s.rings := rfl
@[simp] theorem State.setFe_auction (s : State) (k : Nat) (e : Bool) : (s.setFe k e).auction = s.auction := rfl
@[simp] theorem State.setFe_coll (s : State) (k : Nat) (e : Bool) : (s.setFe k e).coll = s.coll := rfl
@[simp] theorem State.setFe_launch (s : State) (k : Nat) (e : Bool) : (s.setFe k e).launch = s.launch := rfl
@[simp] theorem State.setFe_episodes (s : State) (k : Nat) (e : Bool) : (s.setFe k e).episodes = s.episodes := rfl
@[simp] theorem State.setFe_admin (s : State) (k : Nat) (e : Bool) : (s.setFe k e).admin = s.admin := rfl
@[simp] theorem State.setFe_time (s : State) (k : Nat) (e : Bool) : (s.setFe k e).time = s.time := rfl
@[simp] theorem State.setFe_fresh (s : State) (k : Nat) (e : Bool) : (s.setFe k e).fresh = s.fresh := rfl
@[simp] theorem State.setFe_cur (s : State) (k : Nat) (e : Bool) : (s.setFe k e).cur = s.cur := rfl
@[simp] theorem State.setFe_agenda (s : State) (k : Nat) (e : Bool) : (s.setFe k e).agenda = s.agenda := rfl

@[simp] theorem State.setRing_cores (s : State) (r : Nat) (g : Ring) : (s.setRing r g).cores = s.cores := rfl
@[simp] theorem State.setRing_mem (s : State) (r : Nat) (g : Ring) : (s.setRing r g).mem = s.mem := rfl
@[simp] theorem State.setRing_fe (s : State) (r : Nat) (g : Ring) : (s.setRing r g).fe = s.fe := rfl
@[simp] theorem State.setRing_lost (s : State) (r : Nat) (g : Ring) : (s.setRing r g).lost = s.lost := rfl
@[simp] theorem State.setRing_lineKey (s : State) (r : Nat) (g : Ring) : (s.setRing r g).lineKey = s.lineKey := rfl
@[simp] theorem State.setRing_dreg (s : State) (r : Nat) (g : Ring) : (s.setRing r g).dreg = s.dreg := rfl
@[simp] theorem State.setRing_ctlb (s : State) (r : Nat) (g : Ring) : (s.setRing r g).ctlb = s.ctlb := rfl
@[simp] theorem State.setRing_net (s : State) (r : Nat) (g : Ring) : (s.setRing r g).net = s.net := rfl
@[simp] theorem State.setRing_auction (s : State) (r : Nat) (g : Ring) : (s.setRing r g).auction = s.auction := rfl
@[simp] theorem State.setRing_coll (s : State) (r : Nat) (g : Ring) : (s.setRing r g).coll = s.coll := rfl
@[simp] theorem State.setRing_launch (s : State) (r : Nat) (g : Ring) : (s.setRing r g).launch = s.launch := rfl
@[simp] theorem State.setRing_episodes (s : State) (r : Nat) (g : Ring) : (s.setRing r g).episodes = s.episodes := rfl
@[simp] theorem State.setRing_admin (s : State) (r : Nat) (g : Ring) : (s.setRing r g).admin = s.admin := rfl
@[simp] theorem State.setRing_time (s : State) (r : Nat) (g : Ring) : (s.setRing r g).time = s.time := rfl
@[simp] theorem State.setRing_fresh (s : State) (r : Nat) (g : Ring) : (s.setRing r g).fresh = s.fresh := rfl
@[simp] theorem State.setRing_cur (s : State) (r : Nat) (g : Ring) : (s.setRing r g).cur = s.cur := rfl
@[simp] theorem State.setRing_agenda (s : State) (r : Nat) (g : Ring) : (s.setRing r g).agenda = s.agenda := rfl

@[simp] theorem State.setWork_cores (s : State) (k : Nat) (w : Work) : (s.setWork k w).cores = s.cores := rfl
@[simp] theorem State.setWork_mem (s : State) (k : Nat) (w : Work) : (s.setWork k w).mem = s.mem := rfl
@[simp] theorem State.setWork_fe (s : State) (k : Nat) (w : Work) : (s.setWork k w).fe = s.fe := rfl
@[simp] theorem State.setWork_lost (s : State) (k : Nat) (w : Work) : (s.setWork k w).lost = s.lost := rfl
@[simp] theorem State.setWork_lineKey (s : State) (k : Nat) (w : Work) : (s.setWork k w).lineKey = s.lineKey := rfl
@[simp] theorem State.setWork_dreg (s : State) (k : Nat) (w : Work) : (s.setWork k w).dreg = s.dreg := rfl
@[simp] theorem State.setWork_ctlb (s : State) (k : Nat) (w : Work) : (s.setWork k w).ctlb = s.ctlb := rfl
@[simp] theorem State.setWork_net (s : State) (k : Nat) (w : Work) : (s.setWork k w).net = s.net := rfl
@[simp] theorem State.setWork_rings (s : State) (k : Nat) (w : Work) : (s.setWork k w).rings = s.rings := rfl
@[simp] theorem State.setWork_auction (s : State) (k : Nat) (w : Work) : (s.setWork k w).auction = s.auction := rfl
@[simp] theorem State.setWork_launch (s : State) (k : Nat) (w : Work) : (s.setWork k w).launch = s.launch := rfl
@[simp] theorem State.setWork_episodes (s : State) (k : Nat) (w : Work) : (s.setWork k w).episodes = s.episodes := rfl
@[simp] theorem State.setWork_admin (s : State) (k : Nat) (w : Work) : (s.setWork k w).admin = s.admin := rfl
@[simp] theorem State.setWork_time (s : State) (k : Nat) (w : Work) : (s.setWork k w).time = s.time := rfl
@[simp] theorem State.setWork_fresh (s : State) (k : Nat) (w : Work) : (s.setWork k w).fresh = s.fresh := rfl
@[simp] theorem State.setWork_cur (s : State) (k : Nat) (w : Work) : (s.setWork k w).cur = s.cur := rfl
@[simp] theorem State.setWork_agenda (s : State) (k : Nat) (w : Work) : (s.setWork k w).agenda = s.agenda := rfl

@[simp] theorem State.stamp_mem (s : State) : (s.stamp).mem = s.mem := rfl
@[simp] theorem State.stamp_fe (s : State) : (s.stamp).fe = s.fe := rfl
@[simp] theorem State.stamp_lost (s : State) : (s.stamp).lost = s.lost := rfl
@[simp] theorem State.stamp_lineKey (s : State) : (s.stamp).lineKey = s.lineKey := rfl
@[simp] theorem State.stamp_dreg (s : State) : (s.stamp).dreg = s.dreg := rfl
@[simp] theorem State.stamp_ctlb (s : State) : (s.stamp).ctlb = s.ctlb := rfl
@[simp] theorem State.stamp_net (s : State) : (s.stamp).net = s.net := rfl
@[simp] theorem State.stamp_rings (s : State) : (s.stamp).rings = s.rings := rfl
@[simp] theorem State.stamp_auction (s : State) : (s.stamp).auction = s.auction := rfl
@[simp] theorem State.stamp_coll (s : State) : (s.stamp).coll = s.coll := rfl
@[simp] theorem State.stamp_launch (s : State) : (s.stamp).launch = s.launch := rfl
@[simp] theorem State.stamp_episodes (s : State) : (s.stamp).episodes = s.episodes := rfl
@[simp] theorem State.stamp_admin (s : State) : (s.stamp).admin = s.admin := rfl
@[simp] theorem State.stamp_time (s : State) : (s.stamp).time = s.time := rfl
@[simp] theorem State.stamp_fresh (s : State) : (s.stamp).fresh = s.fresh := rfl
@[simp] theorem State.stamp_cur (s : State) : (s.stamp).cur = s.cur := rfl
@[simp] theorem State.stamp_agenda (s : State) : (s.stamp).agenda = s.agenda := rfl

@[simp] theorem State.nextCycle_mem (s : State) (c : Nat) : (s.nextCycle c).mem = s.mem := rfl
@[simp] theorem State.nextCycle_fe (s : State) (c : Nat) : (s.nextCycle c).fe = s.fe := rfl
@[simp] theorem State.nextCycle_lost (s : State) (c : Nat) : (s.nextCycle c).lost = s.lost := rfl
@[simp] theorem State.nextCycle_lineKey (s : State) (c : Nat) : (s.nextCycle c).lineKey = s.lineKey := rfl
@[simp] theorem State.nextCycle_dreg (s : State) (c : Nat) : (s.nextCycle c).dreg = s.dreg := rfl
@[simp] theorem State.nextCycle_ctlb (s : State) (c : Nat) : (s.nextCycle c).ctlb = s.ctlb := rfl
@[simp] theorem State.nextCycle_net (s : State) (c : Nat) : (s.nextCycle c).net = s.net := rfl
@[simp] theorem State.nextCycle_rings (s : State) (c : Nat) : (s.nextCycle c).rings = s.rings := rfl
@[simp] theorem State.nextCycle_auction (s : State) (c : Nat) : (s.nextCycle c).auction = s.auction := rfl
@[simp] theorem State.nextCycle_coll (s : State) (c : Nat) : (s.nextCycle c).coll = s.coll := rfl
@[simp] theorem State.nextCycle_launch (s : State) (c : Nat) : (s.nextCycle c).launch = s.launch := rfl
@[simp] theorem State.nextCycle_episodes (s : State) (c : Nat) : (s.nextCycle c).episodes = s.episodes := rfl
@[simp] theorem State.nextCycle_admin (s : State) (c : Nat) : (s.nextCycle c).admin = s.admin := rfl
@[simp] theorem State.nextCycle_time (s : State) (c : Nat) : (s.nextCycle c).time = s.time := rfl
@[simp] theorem State.nextCycle_fresh (s : State) (c : Nat) : (s.nextCycle c).fresh = s.fresh := rfl
@[simp] theorem State.nextCycle_cur (s : State) (c : Nat) : (s.nextCycle c).cur = s.cur := rfl
@[simp] theorem State.nextCycle_agenda (s : State) (c : Nat) : (s.nextCycle c).agenda = s.agenda := rfl

@[simp] theorem State.tick_cores (s : State) : (s.tick).cores = s.cores := rfl
@[simp] theorem State.tick_mem (s : State) : (s.tick).mem = s.mem := rfl
@[simp] theorem State.tick_fe (s : State) : (s.tick).fe = s.fe := rfl
@[simp] theorem State.tick_lost (s : State) : (s.tick).lost = s.lost := rfl
@[simp] theorem State.tick_lineKey (s : State) : (s.tick).lineKey = s.lineKey := rfl
@[simp] theorem State.tick_dreg (s : State) : (s.tick).dreg = s.dreg := rfl
@[simp] theorem State.tick_ctlb (s : State) : (s.tick).ctlb = s.ctlb := rfl
@[simp] theorem State.tick_net (s : State) : (s.tick).net = s.net := rfl
@[simp] theorem State.tick_rings (s : State) : (s.tick).rings = s.rings := rfl
@[simp] theorem State.tick_auction (s : State) : (s.tick).auction = s.auction := rfl
@[simp] theorem State.tick_coll (s : State) : (s.tick).coll = s.coll := rfl
@[simp] theorem State.tick_launch (s : State) : (s.tick).launch = s.launch := rfl
@[simp] theorem State.tick_episodes (s : State) : (s.tick).episodes = s.episodes := rfl
@[simp] theorem State.tick_admin (s : State) : (s.tick).admin = s.admin := rfl
@[simp] theorem State.tick_cur (s : State) : (s.tick).cur = s.cur := rfl
@[simp] theorem State.tick_agenda (s : State) : (s.tick).agenda = s.agenda := rfl

theorem State.passTime_of_noSteps (s : State) (h : s.coll.steps = []) : s.passTime = s.tick := by
  simp [State.passTime, State.dropLate, h]

@[simp] theorem State.choose_cores (s : State) (n : Nat) : (s.choose n).2.cores = s.cores := rfl
@[simp] theorem State.choose_mem (s : State) (n : Nat) : (s.choose n).2.mem = s.mem := rfl
@[simp] theorem State.choose_fe (s : State) (n : Nat) : (s.choose n).2.fe = s.fe := rfl
@[simp] theorem State.choose_lost (s : State) (n : Nat) : (s.choose n).2.lost = s.lost := rfl
@[simp] theorem State.choose_lineKey (s : State) (n : Nat) : (s.choose n).2.lineKey = s.lineKey := rfl
@[simp] theorem State.choose_dreg (s : State) (n : Nat) : (s.choose n).2.dreg = s.dreg := rfl
@[simp] theorem State.choose_ctlb (s : State) (n : Nat) : (s.choose n).2.ctlb = s.ctlb := rfl
@[simp] theorem State.choose_net (s : State) (n : Nat) : (s.choose n).2.net = s.net := rfl
@[simp] theorem State.choose_rings (s : State) (n : Nat) : (s.choose n).2.rings = s.rings := rfl
@[simp] theorem State.choose_auction (s : State) (n : Nat) : (s.choose n).2.auction = s.auction := rfl
@[simp] theorem State.choose_coll (s : State) (n : Nat) : (s.choose n).2.coll = s.coll := rfl
@[simp] theorem State.choose_launch (s : State) (n : Nat) : (s.choose n).2.launch = s.launch := rfl
@[simp] theorem State.choose_episodes (s : State) (n : Nat) : (s.choose n).2.episodes = s.episodes := rfl
@[simp] theorem State.choose_admin (s : State) (n : Nat) : (s.choose n).2.admin = s.admin := rfl
@[simp] theorem State.choose_time (s : State) (n : Nat) : (s.choose n).2.time = s.time := rfl
@[simp] theorem State.choose_cur (s : State) (n : Nat) : (s.choose n).2.cur = s.cur := rfl
@[simp] theorem State.choose_agenda (s : State) (n : Nat) : (s.choose n).2.agenda = s.agenda := rfl
@[simp] theorem State.freeWord_cores (s : State) : s.freeWord.2.cores = s.cores := rfl
@[simp] theorem State.freeWord_mem (s : State) : s.freeWord.2.mem = s.mem := rfl
@[simp] theorem State.freeWord_fe (s : State) : s.freeWord.2.fe = s.fe := rfl
@[simp] theorem State.freeWord_lost (s : State) : s.freeWord.2.lost = s.lost := rfl
@[simp] theorem State.freeWord_lineKey (s : State) : s.freeWord.2.lineKey = s.lineKey := rfl
@[simp] theorem State.freeWord_dreg (s : State) : s.freeWord.2.dreg = s.dreg := rfl
@[simp] theorem State.freeWord_ctlb (s : State) : s.freeWord.2.ctlb = s.ctlb := rfl
@[simp] theorem State.freeWord_net (s : State) : s.freeWord.2.net = s.net := rfl
@[simp] theorem State.freeWord_rings (s : State) : s.freeWord.2.rings = s.rings := rfl
@[simp] theorem State.freeWord_auction (s : State) : s.freeWord.2.auction = s.auction := rfl
@[simp] theorem State.freeWord_coll (s : State) : s.freeWord.2.coll = s.coll := rfl
@[simp] theorem State.freeWord_launch (s : State) : s.freeWord.2.launch = s.launch := rfl
@[simp] theorem State.freeWord_episodes (s : State) : s.freeWord.2.episodes = s.episodes := rfl
@[simp] theorem State.freeWord_admin (s : State) : s.freeWord.2.admin = s.admin := rfl
@[simp] theorem State.freeWord_time (s : State) : s.freeWord.2.time = s.time := rfl
@[simp] theorem State.freeWord_cur (s : State) : s.freeWord.2.cur = s.cur := rfl
@[simp] theorem State.freeWord_agenda (s : State) : s.freeWord.2.agenda = s.agenda := rfl

@[simp] theorem State.core_setCore_same (s : State) (c : Nat) (x : Core) : (s.setCore c x).core c = x := by
  simp [State.core, State.setCore]

theorem State.core_setCore_ne (s : State) (c c' : Nat) (x : Core) (h : c' ≠ c) : (s.setCore c x).core c' = s.core c' := by
  simp [State.core, State.setCore, Tbl.get_put_ne _ _ _ _ _ h]

@[simp] theorem Core.ctx_setCtx_same (x : Core) (k : Nat) (c : Ctx) : (x.setCtx k c).ctx k = c := by
  simp [Core.ctx, Core.setCtx]

theorem Core.ctx_setCtx_ne (x : Core) (k k' : Nat) (c : Ctx) (h : k' ≠ k) : (x.setCtx k c).ctx k' = x.ctx k' := by
  simp [Core.ctx, Core.setCtx, Tbl.get_put_ne _ _ _ _ _ h]

@[simp] theorem State.ctx_setCtx_same (s : State) (c k : Nat) (x : Ctx) : (s.setCtx c k x).ctx c k = x := by
  simp [State.ctx, State.setCtx]

theorem State.ctx_setCtx_ne (s : State) (c k c' k' : Nat) (x : Ctx) (h : c' ≠ c ∨ k' ≠ k) :
    (s.setCtx c k x).ctx c' k' = s.ctx c' k' := by
  by_cases hc : c' = c
  · subst hc
    have hk : k' ≠ k := h.resolve_left (fun e => e rfl)
    simp [State.ctx, State.setCtx, Core.ctx_setCtx_ne _ _ _ _ hk]
  · simp [State.ctx, State.setCtx, State.core_setCore_ne _ _ _ _ hc]

@[simp] theorem State.cx_setCx (s : State) (x : Ctx) : (s.setCx x).cx = x := by
  simp [State.cx, State.setCx]

@[simp] theorem State.cc_setCc (s : State) (x : Core) : (s.setCc x).cc = x := by
  simp [State.cc, State.setCc]

@[simp] theorem State.setCx_setCx (s : State) (x y : Ctx) : (s.setCx x).setCx y = s.setCx y := by
  simp [State.setCx, State.setCtx, State.setCore, State.core, Core.setCtx, Tbl.put_put]

@[simp] theorem State.dreg_setDreg_ne (s : State) (o o' : Nat) (v : W64) (h : o' ≠ o) : (s.setDreg o v).dreg! o' = s.dreg! o' := by
  simp [State.dreg!, State.setDreg, Tbl.get_set_ne _ _ _ _ _ _ h]

end Sys2Proof.Machine
end

