-- ==== Sys2Proof/Laws/Access.lean ====
section
/-! SUPPORT. Translation, memory and accesses do not depend on what a context holds. -/

namespace Sys2Proof.Machine

theorem State.core_setCtx_micro (s : State) (c k : Nat) (x : Ctx) (n : Nat) :
    ((s.setCtx c k x).core n).micro = (s.core n).micro := by
  by_cases h : n = c
  · subst h
    simp [State.setCtx, Core.setCtx]
  · simp [State.setCtx, State.setCore, State.core, Tbl.get_put_ne _ _ _ _ _ h]

theorem State.core_setCtx_part (s : State) (c k : Nat) (x : Ctx) (n : Nat) :
    ((s.setCtx c k x).core n).part = (s.core n).part := by
  by_cases h : n = c
  · subst h
    simp [State.setCtx, Core.setCtx]
  · simp [State.setCtx, State.setCore, State.core, Tbl.get_put_ne _ _ _ _ _ h]

theorem State.core_setCtx_lastDom (s : State) (c k : Nat) (x : Ctx) (n : Nat) :
    ((s.setCtx c k x).core n).lastDom = (s.core n).lastDom := by
  by_cases h : n = c
  · subst h
    simp [State.setCtx, Core.setCtx]
  · simp [State.setCtx, State.setCore, State.core, Tbl.get_put_ne _ _ _ _ _ h]

theorem State.core_setCtx_domain (s : State) (c k : Nat) (x : Ctx) (n : Nat) :
    ((s.setCtx c k x).core n).domain = (s.core n).domain := by
  simp [Core.domain, State.core_setCtx_part, State.core_setCtx_lastDom]

theorem State.readPa_setCtx (s : State) (c k : Nat) (x : Ctx) (a n m : Nat) :
    (s.setCtx c k x).readPa a n m = s.readPa a n m := rfl

@[simp] theorem State.peek_setCtx (s : State) (c k : Nat) (x : Ctx) (l : Loc) (n : Nat) :
    (s.setCtx c k x).peek l n = s.peek l n := rfl

@[simp] theorem State.isLost_setCtx (s : State) (c k : Nat) (x : Ctx) (a n : Nat) :
    (s.setCtx c k x).isLost a n = s.isLost a n := rfl

@[simp] theorem State.isEmpty_setCtx (s : State) (c k : Nat) (x : Ctx) (a : Nat) :
    (s.setCtx c k x).isEmpty a = s.isEmpty a := rfl

theorem State.walkFrom_setCtx (s : State) (c k : Nat) (x : Ctx) (va : Nat) (l : List (Nat × Nat × Nat)) (t : Nat) :
    (s.setCtx c k x).walkFrom va l t = s.walkFrom va l t := by
  induction l generalizing t with
  | nil => rfl
  | cons p r ih =>
    obtain ⟨level, lo, width⟩ := p
    simp only [State.walkFrom, ih]
    rfl

theorem State.walk_setCtx (s : State) (c k : Nat) (x : Ctx) (dom va : Nat) :
    (s.setCtx c k x).walk dom va = s.walk dom va := by
  unfold State.walk
  simp only [State.walkFrom_setCtx]
  rfl

@[simp] theorem State.leafOf_setCtx (s : State) (c k : Nat) (x : Ctx) (core dom va : Nat) :
    (s.setCtx c k x).leafOf core dom va = s.leafOf core dom va := by
  unfold State.leafOf
  simp only [State.core_setCtx_micro, State.walk_setCtx, State.setCtx_ctlb]

theorem State.window_setCtx (s : State) (c k : Nat) (x : Ctx) (w : Who) (va : Nat) :
    (s.setCtx c k x).window w va = s.window w va := by
  unfold State.window
  simp only [Core.running, State.core_setCtx_part]
  rfl

theorem State.keyMat_setCtx (s : State) (c k : Nat) (x : Ctx) (n : Nat) : (s.setCtx c k x).keyMat n = s.keyMat n := by
  simp only [State.keyMat, State.setCtx_admin]

theorem State.place_setCtx (s : State) (c k : Nat) (x : Ctx) (n p m : Nat) : (s.setCtx c k x).place n p m = s.place n p m := rfl

@[simp] theorem State.xlate_setCtx (s : State) (c k : Nat) (x : Ctx) (w : Who) (va : W64) (a : Acc) :
    (s.setCtx c k x).xlate w va a = s.xlate w va a := by
  simp only [State.xlate, State.leafOf_setCtx, State.window_setCtx, State.place_setCtx]
  rfl

theorem State.atPlace_setCtx (s : State) (c k : Nat) (x : Ctx) (l : Loc) (n : Nat) (a : Acc) (cl : ACls) :
    (s.setCtx c k x).atPlace l n a cl = s.atPlace l n a cl := rfl

@[simp] theorem State.access_setCtx (s : State) (c k : Nat) (x : Ctx) (w : Who) (va : W64) (n : Nat) (a : Acc) (cl : ACls) :
    (s.setCtx c k x).access w va n a cl = s.access w va n a cl := by
  simp only [State.access, State.xlate_setCtx, State.atPlace_setCtx]

@[simp] theorem State.access_setCx (s : State) (x : Ctx) (w : Who) (va : W64) (n : Nat) (a : Acc) (cl : ACls) :
    (s.setCx x).access w va n a cl = s.access w va n a cl := State.access_setCtx ..

@[simp] theorem State.peek_setCx (s : State) (x : Ctx) (l : Loc) (n : Nat) : (s.setCx x).peek l n = s.peek l n := rfl

@[simp] theorem State.isEmpty_setCx (s : State) (x : Ctx) (a : Nat) : (s.setCx x).isEmpty a = s.isEmpty a := rfl

@[simp] theorem Ctx.inWay_nil (c : Ctx) (l : Loc) (n : Nat) (h : c.stores = []) : c.inWay l n = [] := by
  unfold Ctx.inWay
  split <;> simp [h]

/-- A place in memory or local store is its own home. -/
theorem State.home_key (s : State) (l : Loc) (h : l.key?.isSome = true) : s.home l = l := by
  cases l <;> simp_all [State.home, Loc.key?]

/-- A place in memory or local store is reached in memory. -/
theorem State.tgt_key (s : State) (l : Loc) (h : l.key?.isSome = true) : s.tgt l = .mem l := by
  rw [State.tgt, State.home_key s l h]
  cases l <;> first | rfl | cases h

/-- A context with no store on its way sees what stands in memory. -/
theorem State.view_nil (s : State) (l : Loc) (n : Nat) (hs : s.cx.stores = []) : s.view l n = s.peek l n := by
  rw [State.view, Ctx.inWay_nil _ _ _ hs]
  rfl

/-- A context with no store on its way reads a place in memory or local store without any other effect. -/
theorem loadAt_key (s : State) (w : Who) (l : Loc) (n : Nat) (h : l.key?.isSome = true) (hs : s.cx.stores = []) :
    loadAt w l n s = .ok (s.peek l n, s) := by
  simp only [loadAt, State.loadLoc, State.tgt_key s l h, State.view_nil s l n hs]

/-- A context with no store on its way writes a place in memory or local store, where the memory path is not busy, without any other
effect. -/
theorem storeAt_key (s : State) (w : Who) (va : W64) (l : Loc) (n v : Nat) (h : l.key?.isSome = true) (hs : s.cx.stores = [])
    (hm : s.cc.mbusy = false) : storeAt w va l n v s = .ok ((), s.poke l n v) := by
  cases l <;> simp_all [storeAt, Loc.key?]

theorem accessM_ok (s : State) (w : Who) (va : W64) (n : Nat) (a : Acc) (c : ACls) (l : Loc)
    (h : s.access w va n a c = .ok l) : accessM w va n a c s = .ok (l, s) := by
  simp [accessM, h]

/-- On whose behalf the captured entry of a context accesses memory. -/
theorem entry_who (s t : State) (e : Entry) (h : e.priv = s.privOf s.cur.1 s.cur.2) (hc : t.cur = s.cur)
    (hd : t.cc.domain = s.cc.domain) : e.who t = .ok (s.who, t) := by
  simp [Entry.who, State.who, h, hc, hd]

theorem heal_mem (s : State) (a n : Nat) : (s.heal a n).mem = s.mem ∧ (s.heal a n).cores = s.cores ∧
    (s.heal a n).fe = s.fe ∧ (s.heal a n).lineKey = s.lineKey ∧ (s.heal a n).cur = s.cur ∧ (s.heal a n).dreg = s.dreg ∧
    (s.heal a n).net = s.net := by
  unfold State.heal
  split
  · simp
  · generalize linesOf a n = ls
    have : ∀ (l : List Nat) (s : State),
        let t := l.foldl (fun s l =>
          match Tbl.find s.lost l with
          | none => s
          | some ws =>
            let ws' := ((List.range 64).filter (fun i => ws.contains i || decide (a ≤ 64 * l + i ∧ 64 * l + i < a + n)))
            { s with lost := if ws'.length = 64 then Tbl.erase s.lost l else Tbl.put s.lost l ws' }) s
        t.mem = s.mem ∧ t.cores = s.cores ∧ t.fe = s.fe ∧ t.lineKey = s.lineKey ∧ t.cur = s.cur ∧ t.dreg = s.dreg ∧
          t.net = s.net := by
      intro l
      induction l with
      | nil => simp
      | cons x r ih =>
        intro s
        simp only [List.foldl_cons]
        cases hx : Tbl.find s.lost x with
        | none => exact ih s
        | some ws =>
          have := ih { s with lost := if ((List.range 64).filter (fun i => ws.contains i || decide (a ≤ 64 * x + i ∧ 64 * x + i < a + n))).length = 64 then Tbl.erase s.lost x else Tbl.put s.lost x ((List.range 64).filter (fun i => ws.contains i || decide (a ≤ 64 * x + i ∧ 64 * x + i < a + n))) }
          simpa using this
    exact this ls s

theorem rekeys_same (s : State) (m : Nat) (l : List Nat) (h : ∀ ln ∈ l, Tbl.get 0 s.lineKey ln = m) :
    l.foldl (fun s ln => s.rekey ln m) s = s := by
  induction l with
  | nil => rfl
  | cons x r ih =>
    simp only [List.foldl_cons]
    have : s.rekey x m = s := by simp [State.rekey, h x List.mem_cons_self]
    rw [this]
    exact ih (fun ln hl => h ln (List.mem_cons_of_mem _ hl))

/-- A write under the key material that the lines have. -/
theorem poke_eq (s : State) (l : Loc) (k n v : Nat) (hk : l.key? = some k)
    (hm : ∀ ln ∈ linesOf k n, Tbl.get 0 s.lineKey ln = s.keyMat l.mat) :
    s.poke l n v = State.heal { s with mem := Mem.write s.mem k n v } k n := by
  simp only [State.poke, hk]
  rw [rekeys_same s (s.keyMat l.mat) _ hm]

theorem poke_mem (s : State) (l : Loc) (k n v : Nat) (hk : l.key? = some k)
    (hm : ∀ ln ∈ linesOf k n, Tbl.get 0 s.lineKey ln = s.keyMat l.mat) :
    (s.poke l n v).mem = Mem.write s.mem k n v ∧ (s.poke l n v).cores = s.cores ∧ (s.poke l n v).fe = s.fe ∧
    (s.poke l n v).lineKey = s.lineKey ∧ (s.poke l n v).cur = s.cur ∧ (s.poke l n v).dreg = s.dreg ∧
    (s.poke l n v).net = s.net := by
  rw [poke_eq s l k n v hk hm]
  exact heal_mem _ _ _

end Sys2Proof.Machine
end

