-- ==== Sys2Proof/Laws/Issue.lean ====
section
/-! SUPPORT. What issue does in a quiet context: one lemma for each shared operation, which claims about instructions cite. -/

namespace Sys2Proof.Machine

theorem State.quiet_iff (s : State) : s.quiet = true ↔
    s.cx.flow.chain = [] ∧ s.cx.flow.inflight = [] ∧ s.cx.flow.loops = [] ∧ s.cx.flow.stale = [] ∧ s.cx.follow = none ∧
      s.cx.stream = none ∧ (∀ p ∈ s.cores, (Core.ctx p.2 0).follow = none) ∧ s.cx.flow.gone = [] ∧
      s.cx.stores = [] ∧ s.cc.vbusy = false ∧ s.cc.mbusy = false ∧ s.cc.vqueue = 0 := by
  simp only [State.quiet, Bool.and_eq_true, List.isEmpty_iff, Option.isNone_iff_eq_none, List.all_eq_true, and_assoc,
    Bool.not_eq_true', beq_iff_eq]
  exact ⟨fun ⟨a, b, g, c, d, e, f, i, j, k, l, h⟩ => ⟨a, b, c, d, e, f, h, g, i, j, k, l⟩,
    fun ⟨a, b, c, d, e, f, h, g, i, j, k, l⟩ => ⟨a, b, g, c, d, e, f, i, j, k, l, h⟩⟩

theorem State.quiet_gone (s : State) (hq : s.quiet = true) : s.cx.flow.gone = [] :=
  ((State.quiet_iff s).1 hq).2.2.2.2.2.2.2.1

theorem State.quiet_stores (s : State) (hq : s.quiet = true) : s.cx.stores = [] :=
  ((State.quiet_iff s).1 hq).2.2.2.2.2.2.2.2.1

theorem State.quiet_mbusy (s : State) (hq : s.quiet = true) : s.cc.mbusy = false :=
  ((State.quiet_iff s).1 hq).2.2.2.2.2.2.2.2.2.2.1

theorem Flow.drained_none (f : Flow) (h : Shape) (hg : f.gone = []) : f.drained h = f := by
  unfold Flow.drained
  split
  · rw [← hg]
  · rfl

theorem rW_quiet (s : State) (n : Nat) (h : s.cx.flow.stale = []) : rW n s = .ok (s.reg n, s) := by
  unfold rW State.reg
  cases hw : s.cx.wloc n with
  | none => rfl
  | some r => simp [Flow.staleTag, h]

theorem rM_quiet (s : State) (n : Nat) (h : s.cx.flow.stale = []) : rM n s = .ok (s.mreg n, s) := by
  unfold rM State.mreg
  split
  · rfl
  · simp [Flow.staleTag, h]

theorem rV_quiet (s : State) (n : Nat) (h : s.cx.flow.stale = []) : rV n s = .ok (s.vreg n, s) := by
  simp [rV, State.vreg, Flow.staleTag, h]

theorem rWo_quiet (s : State) (o : Option Nat) (h : s.cx.flow.stale = []) : rWo o s = .ok ((o.map s.reg).getD 0, s) := by
  cases o with
  | none => rfl
  | some n => exact rW_quiet s n h

theorem vtagOf_quiet (s : State) (n : Nat) (h : s.cx.flow.stale = []) : s.cx.vtagOf n = s.vtag n := by
  simp [Ctx.vtagOf, State.vtag, Flow.staleTag, h]

theorem rVec_quiet (s : State) (dry : Bool) (o : Option RegName) (h : s.cx.flow.stale = []) (hs : s.cx.stream = none) :
    rVec dry o s = .ok (s.vcap o, s) := by
  cases o with
  | none => rfl
  | some r =>
    cases r <;>
      simp [rVec, State.vcap, bind, StateT.bind, Except.bind, rV_quiet s _ h, getCx, pure, StateT.pure, Except.pure, hs,
        vtagOf_quiet s _ h]

theorem touch_quiet (s : State) (r : RegName) (h : s.cx.flow.stale = []) : touch r s = .ok ((), s) := by
  cases r <;>
    simp [touch, bind, StateT.bind, Except.bind, rV_quiet s _ h, rW_quiet s _ h, rM_quiet s _ h, pure, StateT.pure, Except.pure]

theorem touches_quiet (s : State) (l : List RegName) (h : s.cx.flow.stale = []) : l.forM touch s = .ok ((), s) := by
  induction l with
  | nil => rfl
  | cons r l ih => simp [List.forM, bind, StateT.bind, Except.bind, touch_quiet s r h, ih]

theorem State.captured_cx (s : State) (h : Shape) (ta tb : Nat) : s.captured s.cur.1 s.cur.2 h ta tb =
    [ta, tb] ++ s.cx.vdestNow h.vdest ++ s.captureEx s.cur.1 s.cur.2 h.ex := rfl

theorem capture_quiet (s : State) (i : Instr) (word : Nat) (h : Shape) (dry : Bool) (hq : s.quiet = true) :
    capture i word h dry s = .ok ((s.entryOf i word h).withLeft 0, s) := by
  obtain ⟨h1, h2, h3, h4, h5, h6, h7, h8, -⟩ := (State.quiet_iff s).1 hq
  have hm : rMo h.mask s = .ok ((h.mask.map s.mreg).getD 0, s) := by
    cases h.mask with
    | none => rfl
    | some n => exact rM_quiet s n h4
  unfold capture
  simp only [bind, StateT.bind, Except.bind, rWo_quiet s _ h4, hm, touches_quiet s _ h4, rVec_quiet s _ _ h4 h6]
  simp [getCx, getCur, get, getThe, MonadStateOf.get, StateT.get, pure, StateT.pure, Except.pure, State.entryOf, State.captured_cx, Entry.withLeft, h1, h3,
    Flow.start, hintsNum, Ctx.atEnd, Shape.gathered]
  cases h.imm <;> simp

/-- The checks before issue in a quiet context (02 R23, 07 R129-R132). -/
theorem gate_quiet (s : State) (word : Nat) (h : Shape) (hq : s.quiet = true) (hg : s.guardOk h.g = true)
    (hh : h.home ≠ some 3) (hb : s.cx.level = 0 ∨ h.barred = false) : gate word h s = .ok (true, s) := by
  obtain ⟨h1, h2, h3, h4, h5, h6, h7, h8, -⟩ := (State.quiet_iff s).1 hq
  have hgath : h.unfit [] = false := by
    unfold Shape.unfit Shape.gathered
    cases h.imm <;> simp
  have hacc : h.accepts [] = true := by simp [Shape.accepts, hh, b2n]
  have hr : guard h.g s = .ok (true, s) := by
    unfold guard
    split
    · rfl
    · rename_i hn
      simp [State.guardOk, hn] at hg
      simp [rQ, hg]
  have hlb : ¬(¬s.cx.level = 0 ∧ h.barred = true) := by
    rcases hb with hb | hb <;> simp [hb]
  have hloops : s.cx.atEnd s.cx.flow.pc = false := by simp [Ctx.atEnd, h3]
  unfold gate
  simp only [bind, StateT.bind, Except.bind, getCx, h1, hacc, hgath, Flow.closed, Flow.drains, Ctx.notProduced, h2]
  simp [pure, StateT.pure, Except.pure, StateT.bind, bind, Except.bind, hr, hlb, hloops, Flow.inWindow, h2, h8]

theorem State.following_none (s : State) (h : s.cx.follow = none) : s.following = some s := by
  simp [State.following, h]

theorem State.heldByFollower_none (s : State) (h : ∀ p ∈ s.cores, (Core.ctx p.2 0).follow = none) :
    s.heldByFollower = false := by
  unfold State.heldByFollower
  cases hc : (s.cur.2 == 0)
  · rfl
  · simp only [Bool.true_and]
    rw [List.any_eq_false]
    intro p hp
    simp [h p hp]

theorem State.stream_none (s : State) (own : W64) (word : Nat) (ends : Bool)
    (h : ∀ p ∈ s.cores, (Core.ctx p.2 0).follow = none) : s.stream own word ends = s := by
  unfold State.stream
  split
  · rfl
  · have : s.cores.filter (fun p => s.followsIt p.2 s.cur.1) = [] := by
      rw [List.filter_eq_nil_iff]
      intro p hp
      simp [State.followsIt, Core.follows, h p hp]
    rw [this]
    rfl

theorem Ctx.evalEnd_none (c : Ctx) (own : W64) (h : c.flow.loops = []) : c.evalEnd own = c := by
  simp [Ctx.evalEnd, h]

theorem vqTrap_none (s : State) (h : Shape) (i : Instr) (word : Nat) (eff : Eff) (hs : s.cx.stream = none) :
    vqTrap s h i word eff = none := by
  simp [vqTrap, Ctx.readsVq, hs]

/-- A word of a quiet context whose effect completes at once (07 R129): the next state is that of its effect. -/
theorem issue_quiet (s t : State) (i : Instr) (eff : Eff) (hq : s.quiet = true) (hg : s.guardOk i.shape.g = true)
    (hh : i.shape.home ≠ some 3) (hb : s.cx.level = 0 ∨ i.shape.barred = false) (hla : i.shape.la = 0)
    (he : eff (s.entryOf i ((encodeNat i).getD 0) i.shape) (s.issuedAs i.shape) = .ok (.done, t))
    (hl : t.cx.flow.loops = []) (hf : ∀ p ∈ (t.setCx t.cx).cores, (Core.ctx p.2 0).follow = none) :
    issue i eff s = .next (t.setCx t.cx).stamp := by
  obtain ⟨h1, h2, h3, h4, h5, h6, h7, h8, h9, h10, h11, h12⟩ := (State.quiet_iff s).1 hq
  have hc := capture_quiet s i ((encodeNat i).getD 0) i.shape false hq
  have hent : (s.entryOf i ((encodeNat i).getD 0) i.shape).withLeft 0 = s.entryOf i ((encodeNat i).getD 0) i.shape := by
    simp [State.entryOf, Entry.withLeft, hla]
  have hae : (s.entryOf i ((encodeNat i).getD 0) i.shape).atEnd = false := rfl
  have hr : runEff s i.shape i ((encodeNat i).getD 0) eff = .next (t.setCx t.cx) := by
    generalize s.entryOf i ((encodeNat i).getD 0) i.shape = e at *
    rw [hent] at hc
    simp only [State.issuedAs] at he
    simp [runEff, vqTrap_none s _ _ _ _ h6, h10, h12, hc, hae, hla, hent, he, Ctx.evalEnd_none _ _ hl]
  unfold issue tryIssue issueWord
  simp only [State.following_none _ h5, State.heldByFollower_none _ h7]
  rw [gate_quiet s _ _ hq hg hh hb]
  simp [hr, Issued.outcome, State.stream_none _ _ _ _ hf]

theorem Tbl_get_mem {α : Type} (d : α) (t : Tbl α) (n : Nat) : Tbl.get d t n = d ∨ (n, Tbl.get d t n) ∈ t := by
  induction t with
  | nil => exact .inl rfl
  | cons p r ih =>
    obtain ⟨k, v⟩ := p
    simp only [Tbl.get]
    split
    · rename_i hk
      subst hk
      exact .inr List.mem_cons_self
    · exact ih.imp id (List.mem_cons_of_mem _)

theorem State.alone_setCx (s : State) (c : Ctx) (h : s.alone) (hc : c.follow = none) : (s.setCx c).alone := by
  intro p hp
  rcases Tbl.mem_put s.cores s.cur.1 _ p hp with rfl | hp
  · by_cases hk : s.cur.2 = 0
    · simp [hk, hc]
    · have h0 : (0 : Nat) ≠ s.cur.2 := fun e => hk e.symm
      simp only [Core.ctx_setCtx_ne _ _ _ _ h0]
      rcases Tbl_get_mem Core.reset s.cores s.cur.1 with e | e
      · simp only [State.core, e]
        rfl
      · exact h _ e
  · exact h p hp

theorem State.cc_setCx_cycle (s : State) (c : Ctx) : (s.setCx c).cc.cycle = s.cc.cycle := by
  simp [State.cc, State.setCx, State.setCtx, Core.setCtx]

theorem State.stamp_setCx (s : State) (c : Ctx) : (s.setCx c).stamp = s.after c := by
  unfold State.stamp State.after
  rw [State.cc_setCx_cycle, State.setCx_setCx, State.cx_setCx]

/-- A word of a quiet context that changes only that context. -/
theorem issue_cx (s : State) (c : Ctx) (i : Instr) (eff : Eff) (hq : s.quiet = true) (hg : s.guardOk i.shape.g = true)
    (hh : i.shape.home ≠ some 3) (hb : s.cx.level = 0 ∨ i.shape.barred = false) (hla : i.shape.la = 0)
    (he : eff (s.entryOf i ((encodeNat i).getD 0) i.shape) (s.issuedAs i.shape) = .ok (.done, (s.issuedAs i.shape).setCx c))
    (hl : c.flow.loops = []) (hf : c.follow = none) : issue i eff s = .next (s.after c) := by
  obtain ⟨h1, h2, h3, h4, h5, h6, h7, h8, -⟩ := (State.quiet_iff s).1 hq
  have e1 : ((s.issuedAs i.shape).setCx c).setCx ((s.issuedAs i.shape).setCx c).cx = s.setCx c := by
    simp [State.issuedAs]
  rw [issue_quiet s _ i eff hq hg hh hb hla he (by simpa using hl) (by
    rw [e1]
    exact State.alone_setCx s c h7 hf), e1, State.stamp_setCx]

end Sys2Proof.Machine
end

