-- ==== Sys2Proof/Laws/PerInstr.lean ====
section
/-! SUPPORT. One lemma per row of the table of operations: a row that has an encoding is an instruction word. -/

namespace Sys2Proof.Laws.HasWord

/-- A row with an encoding is an instruction word and no event. -/
def Statement (i : Instr) : Prop := (encodeNat i).isSome = true → Sys2Proof.Machine.Instr.isEvent i = false

theorem add (d : Nat) (a : Nat) (b : Nat) (t : Bool) (g : Nat) : Statement (.add d a b t g) := fun _ => rfl

theorem sub (d : Nat) (a : Nat) (b : Nat) (t : Bool) (g : Nat) : Statement (.sub d a b t g) := fun _ => rfl

theorem and (d : Nat) (a : Nat) (b : Nat) (t : Bool) (g : Nat) : Statement (.and d a b t g) := fun _ => rfl

theorem or (d : Nat) (a : Nat) (b : Nat) (t : Bool) (g : Nat) : Statement (.or d a b t g) := fun _ => rfl

theorem xor (d : Nat) (a : Nat) (b : Nat) (t : Bool) (g : Nat) : Statement (.xor d a b t g) := fun _ => rfl

theorem andn (d : Nat) (a : Nat) (b : Nat) (t : Bool) (g : Nat) : Statement (.andn d a b t g) := fun _ => rfl

theorem sll (d : Nat) (a : Nat) (b : Nat) (t : Bool) (g : Nat) : Statement (.sll d a b t g) := fun _ => rfl

theorem srl (d : Nat) (a : Nat) (b : Nat) (t : Bool) (g : Nat) : Statement (.srl d a b t g) := fun _ => rfl

theorem sra (d : Nat) (a : Nat) (b : Nat) (t : Bool) (g : Nat) : Statement (.sra d a b t g) := fun _ => rfl

theorem ror (d : Nat) (a : Nat) (b : Nat) (t : Bool) (g : Nat) : Statement (.ror d a b t g) := fun _ => rfl

theorem slt (d : Nat) (a : Nat) (b : Nat) (t : Bool) (g : Nat) : Statement (.slt d a b t g) := fun _ => rfl

theorem sltu (d : Nat) (a : Nat) (b : Nat) (t : Bool) (g : Nat) : Statement (.sltu d a b t g) := fun _ => rfl

theorem min (d : Nat) (a : Nat) (b : Nat) (t : Bool) (g : Nat) : Statement (.min d a b t g) := fun _ => rfl

theorem max (d : Nat) (a : Nat) (b : Nat) (t : Bool) (g : Nat) : Statement (.max d a b t g) := fun _ => rfl

theorem minu (d : Nat) (a : Nat) (b : Nat) (t : Bool) (g : Nat) : Statement (.minu d a b t g) := fun _ => rfl

theorem maxu (d : Nat) (a : Nat) (b : Nat) (t : Bool) (g : Nat) : Statement (.maxu d a b t g) := fun _ => rfl

theorem mul (d : Nat) (a : Nat) (b : Nat) (t : Bool) (g : Nat) : Statement (.mul d a b t g) := fun _ => rfl

theorem mulh (d : Nat) (a : Nat) (b : Nat) (t : Bool) (g : Nat) : Statement (.mulh d a b t g) := fun _ => rfl

theorem mulhu (d : Nat) (a : Nat) (b : Nat) (t : Bool) (g : Nat) : Statement (.mulhu d a b t g) := fun _ => rfl

theorem clz (d : Nat) (a : Nat) (t : Bool) (g : Nat) : Statement (.clz d a t g) := fun _ => rfl

theorem ctz (d : Nat) (a : Nat) (t : Bool) (g : Nat) : Statement (.ctz d a t g) := fun _ => rfl

theorem popc (d : Nat) (a : Nat) (t : Bool) (g : Nat) : Statement (.popc d a t g) := fun _ => rfl

theorem sextb (d : Nat) (a : Nat) (t : Bool) (g : Nat) : Statement (.sextb d a t g) := fun _ => rfl

theorem sexth (d : Nat) (a : Nat) (t : Bool) (g : Nat) : Statement (.sexth d a t g) := fun _ => rfl

theorem sextw (d : Nat) (a : Nat) (t : Bool) (g : Nat) : Statement (.sextw d a t g) := fun _ => rfl

theorem zextw (d : Nat) (a : Nat) (t : Bool) (g : Nat) : Statement (.zextw d a t g) := fun _ => rfl

theorem shadd1 (d : Nat) (a : Nat) (b : Nat) (t : Bool) (g : Nat) : Statement (.shadd1 d a b t g) := fun _ => rfl

theorem shadd2 (d : Nat) (a : Nat) (b : Nat) (t : Bool) (g : Nat) : Statement (.shadd2 d a b t g) := fun _ => rfl

theorem shadd3 (d : Nat) (a : Nat) (b : Nat) (t : Bool) (g : Nat) : Statement (.shadd3 d a b t g) := fun _ => rfl

theorem div (d : Nat) (a : Nat) (b : Nat) (la : Nat) : Statement (.div d a b la) := fun _ => rfl

theorem divu (d : Nat) (a : Nat) (b : Nat) (la : Nat) : Statement (.divu d a b la) := fun _ => rfl

theorem rem (d : Nat) (a : Nat) (b : Nat) (la : Nat) : Statement (.rem d a b la) := fun _ => rfl

theorem remu (d : Nat) (a : Nat) (b : Nat) (la : Nat) : Statement (.remu d a b la) := fun _ => rfl

theorem addi (d : Nat) (a : Nat) (imm : Nat) (g : Nat) : Statement (.addi d a imm g) := fun _ => rfl

theorem andi (d : Nat) (a : Nat) (imm : Nat) (g : Nat) : Statement (.andi d a imm g) := fun _ => rfl

theorem ori (d : Nat) (a : Nat) (imm : Nat) (g : Nat) : Statement (.ori d a imm g) := fun _ => rfl

theorem xori (d : Nat) (a : Nat) (imm : Nat) (g : Nat) : Statement (.xori d a imm g) := fun _ => rfl

theorem slti (d : Nat) (a : Nat) (imm : Nat) (g : Nat) : Statement (.slti d a imm g) := fun _ => rfl

theorem sltiu (d : Nat) (a : Nat) (imm : Nat) (g : Nat) : Statement (.sltiu d a imm g) := fun _ => rfl

theorem slli (d : Nat) (a : Nat) (sh : Nat) (g : Nat) : Statement (.slli d a sh g) := fun _ => rfl

theorem srli (d : Nat) (a : Nat) (sh : Nat) (g : Nat) : Statement (.srli d a sh g) := fun _ => rfl

theorem srai (d : Nat) (a : Nat) (sh : Nat) (g : Nat) : Statement (.srai d a sh g) := fun _ => rfl

theorem rori (d : Nat) (a : Nat) (sh : Nat) (g : Nat) : Statement (.rori d a sh g) := fun _ => rfl

theorem movi (d : Nat) (imm : Nat) (g : Nat) : Statement (.movi d imm g) := fun _ => rfl

theorem qsetEq (d : Nat) (a : Nat) (b : Nat) (g : Nat) : Statement (.qsetEq d a b g) := fun _ => rfl

theorem qsetNe (d : Nat) (a : Nat) (b : Nat) (g : Nat) : Statement (.qsetNe d a b g) := fun _ => rfl

theorem qsetLt (d : Nat) (a : Nat) (b : Nat) (g : Nat) : Statement (.qsetLt d a b g) := fun _ => rfl

theorem qsetGe (d : Nat) (a : Nat) (b : Nat) (g : Nat) : Statement (.qsetGe d a b g) := fun _ => rfl

theorem qsetLtu (d : Nat) (a : Nat) (b : Nat) (g : Nat) : Statement (.qsetLtu d a b g) := fun _ => rfl

theorem qsetGeu (d : Nat) (a : Nat) (b : Nat) (g : Nat) : Statement (.qsetGeu d a b g) := fun _ => rfl

theorem qand (d : Nat) (a : Nat) (b : Nat) (g : Nat) : Statement (.qand d a b g) := fun _ => rfl

theorem qor (d : Nat) (a : Nat) (b : Nat) (g : Nat) : Statement (.qor d a b g) := fun _ => rfl

theorem qxor (d : Nat) (a : Nat) (b : Nat) (g : Nat) : Statement (.qxor d a b g) := fun _ => rfl

theorem qandn (d : Nat) (a : Nat) (b : Nat) (g : Nat) : Statement (.qandn d a b g) := fun _ => rfl

theorem qnot (d : Nat) (a : Nat) (g : Nat) : Statement (.qnot d a g) := fun _ => rfl

theorem qtrue (d : Nat) (g : Nat) : Statement (.qtrue d g) := fun _ => rfl

theorem qfalse (d : Nat) (g : Nat) : Statement (.qfalse d g) := fun _ => rfl

theorem qunres (d : Nat) (g : Nat) : Statement (.qunres d g) := fun _ => rfl

theorem beq (a : Nat) (b : Nat) (disp : Nat) : Statement (.beq a b disp) := fun _ => rfl

theorem bne (a : Nat) (b : Nat) (disp : Nat) : Statement (.bne a b disp) := fun _ => rfl

theorem blt (a : Nat) (b : Nat) (disp : Nat) : Statement (.blt a b disp) := fun _ => rfl

theorem bge (a : Nat) (b : Nat) (disp : Nat) : Statement (.bge a b disp) := fun _ => rfl

theorem bltu (a : Nat) (b : Nat) (disp : Nat) : Statement (.bltu a b disp) := fun _ => rfl

theorem bgeu (a : Nat) (b : Nat) (disp : Nat) : Statement (.bgeu a b disp) := fun _ => rfl

theorem bqt (a : Nat) (disp : Nat) : Statement (.bqt a disp) := fun _ => rfl

theorem bqf (a : Nat) (disp : Nat) : Statement (.bqf a disp) := fun _ => rfl

theorem j (disp : Nat) : Statement (.j disp) := fun _ => rfl

theorem call (disp : Nat) : Statement (.call disp) := fun _ => rfl

theorem jr (a : Nat) (g : Nat) : Statement (.jr a g) := fun _ => rfl

theorem callr (a : Nat) (g : Nat) : Statement (.callr a g) := fun _ => rfl

theorem ret (g : Nat) : Statement (.ret g) := fun _ => rfl

theorem ld (d : Nat) (a : Nat) (off : Nat) (sz : Nat) (home : Nat) (la : Nat) : Statement (.ld d a off sz home la) := fun _ => rfl

theorem ldn (d : Nat) (a : Nat) (off : Nat) (sz : Nat) (home : Nat) (la : Nat) : Statement (.ldn d a off sz home la) := fun _ => rfl

theorem st (d : Nat) (a : Nat) (off : Nat) (sz : Nat) (home : Nat) (la : Nat) : Statement (.st d a off sz home la) := fun _ => rfl

theorem ldv (d : Nat) (a : Nat) (m : Nat) (cls : Nat) (la : Nat) : Statement (.ldv d a m cls la) := fun _ => rfl

theorem stv (d : Nat) (a : Nat) (m : Nat) (la : Nat) : Statement (.stv d a m la) := fun _ => rfl

theorem ldx (d : Nat) (a : Nat) (la : Nat) : Statement (.ldx d a la) := fun _ => rfl

theorem ldxSc (d : Nat) (a : Nat) (la : Nat) : Statement (.ldxSc d a la) := fun _ => rfl

theorem stx (d : Nat) (a : Nat) (la : Nat) : Statement (.stx d a la) := fun _ => rfl

theorem stxSc (d : Nat) (a : Nat) (la : Nat) : Statement (.stxSc d a la) := fun _ => rfl

theorem gather (d : Nat) (a : Nat) (vi : Nat) (m : Nat) (cls : Nat) (la : Nat) : Statement (.gather d a vi m cls la) := fun _ => rfl

theorem scatter (d : Nat) (a : Nat) (vi : Nat) (m : Nat) (la : Nat) : Statement (.scatter d a vi m la) := fun _ => rfl

theorem lds (d : Nat) (a : Nat) (ord : Nat) (scope : Nat) (la : Nat) : Statement (.lds d a ord scope la) := fun _ => rfl

theorem ldsE (d : Nat) (a : Nat) (ord : Nat) (scope : Nat) (la : Nat) : Statement (.ldsE d a ord scope la) := fun _ => rfl

theorem stf (d : Nat) (a : Nat) (ord : Nat) (scope : Nat) (la : Nat) : Statement (.stf d a ord scope la) := fun _ => rfl

theorem sete (a : Nat) (ord : Nat) (scope : Nat) (la : Nat) : Statement (.sete a ord scope la) := fun _ => rfl

theorem amoSwap (d : Nat) (a : Nat) (sz : Nat) (ord : Nat) (scope : Nat) (la : Nat) : Statement (.amoSwap d a sz ord scope la) := fun _ => rfl

theorem amoAdd (d : Nat) (a : Nat) (sz : Nat) (ord : Nat) (scope : Nat) (la : Nat) : Statement (.amoAdd d a sz ord scope la) := fun _ => rfl

theorem amoAnd (d : Nat) (a : Nat) (sz : Nat) (ord : Nat) (scope : Nat) (la : Nat) : Statement (.amoAnd d a sz ord scope la) := fun _ => rfl

theorem amoOr (d : Nat) (a : Nat) (sz : Nat) (ord : Nat) (scope : Nat) (la : Nat) : Statement (.amoOr d a sz ord scope la) := fun _ => rfl

theorem amoXor (d : Nat) (a : Nat) (sz : Nat) (ord : Nat) (scope : Nat) (la : Nat) : Statement (.amoXor d a sz ord scope la) := fun _ => rfl

theorem amoMin (d : Nat) (a : Nat) (sz : Nat) (ord : Nat) (scope : Nat) (la : Nat) : Statement (.amoMin d a sz ord scope la) := fun _ => rfl

theorem amoMax (d : Nat) (a : Nat) (sz : Nat) (ord : Nat) (scope : Nat) (la : Nat) : Statement (.amoMax d a sz ord scope la) := fun _ => rfl

theorem amoMinu (d : Nat) (a : Nat) (sz : Nat) (ord : Nat) (scope : Nat) (la : Nat) : Statement (.amoMinu d a sz ord scope la) := fun _ => rfl

theorem amoMaxu (d : Nat) (a : Nat) (sz : Nat) (ord : Nat) (scope : Nat) (la : Nat) : Statement (.amoMaxu d a sz ord scope la) := fun _ => rfl

theorem amoFadd (d : Nat) (a : Nat) (sz : Nat) (ord : Nat) (scope : Nat) (la : Nat) : Statement (.amoFadd d a sz ord scope la) := fun _ => rfl

theorem amoFaddX (d : Nat) (a : Nat) (ord : Nat) (scope : Nat) (la : Nat) : Statement (.amoFaddX d a ord scope la) := fun _ => rfl

theorem amoFmin (d : Nat) (a : Nat) (sz : Nat) (ord : Nat) (scope : Nat) (la : Nat) : Statement (.amoFmin d a sz ord scope la) := fun _ => rfl

theorem amoFmax (d : Nat) (a : Nat) (sz : Nat) (ord : Nat) (scope : Nat) (la : Nat) : Statement (.amoFmax d a sz ord scope la) := fun _ => rfl

theorem ldo (d : Nat) (a : Nat) (sz : Nat) (acq : Nat) (scope : Nat) (la : Nat) : Statement (.ldo d a sz acq scope la) := fun _ => rfl

theorem sto (d : Nat) (a : Nat) (sz : Nat) (rel : Nat) (scope : Nat) (la : Nat) : Statement (.sto d a sz rel scope la) := fun _ => rfl

theorem cas (d : Nat) (a : Nat) (sz : Nat) (ord : Nat) (scope : Nat) (la : Nat) : Statement (.cas d a sz ord scope la) := fun _ => rfl

theorem fence (ord : Nat) (scope : Nat) : Statement (.fence ord scope) := fun _ => rfl

theorem prefTlb (a : Nat) (off : Nat) (home : Nat) : Statement (.prefTlb a off home) := fun _ => rfl

theorem prefMsc (a : Nat) (off : Nat) (home : Nat) : Statement (.prefMsc a off home) := fun _ => rfl

theorem send (d : Nat) (a : Nat) (b : Nat) (g : Nat) (la : Nat) : Statement (.send d a b g la) := fun _ => rfl

theorem sends (d : Nat) (a : Nat) (b : Nat) (g : Nat) (la : Nat) : Statement (.sends d a b g la) := fun _ => rfl

theorem hoist (g : Nat) : Statement (.hoist g) := fun _ => rfl

theorem strike (g : Nat) : Statement (.strike g) := fun _ => rfl

theorem mcmd (d : Nat) (a : Nat) (b : Nat) (g : Nat) (la : Nat) : Statement (.mcmd d a b g la) := fun _ => rfl

theorem rbwait (d : Nat) (a : Nat) (b : Nat) (g : Nat) (la : Nat) : Statement (.rbwait d a b g la) := fun _ => rfl

theorem rbadv (a : Nat) (g : Nat) : Statement (.rbadv a g) := fun _ => rfl

theorem stbind (d : Nat) (a : Nat) (b : Nat) (g : Nat) : Statement (.stbind d a b g) := fun _ => rfl

theorem stunbind (g : Nat) : Statement (.stunbind g) := fun _ => rfl

theorem cp (d : Nat) (a : Nat) (b : Nat) (g : Nat) (la : Nat) : Statement (.cp d a b g la) := fun _ => rfl

theorem cp2d (d : Nat) (a : Nat) (b : Nat) (g : Nat) (la : Nat) : Statement (.cp2d d a b g la) := fun _ => rfl

theorem cpidx (d : Nat) (a : Nat) (b : Nat) (g : Nat) (la : Nat) : Statement (.cpidx d a b g la) := fun _ => rfl

theorem cpwait (a : Nat) (g : Nat) (la : Nat) : Statement (.cpwait a g la) := fun _ => rfl

theorem cpredO (d : Nat) (a : Nat) (b : Nat) (g : Nat) (la : Nat) : Statement (.cpredO d a b g la) := fun _ => rfl

theorem cpredU (d : Nat) (a : Nat) (b : Nat) (g : Nat) (la : Nat) : Statement (.cpredU d a b g la) := fun _ => rfl

theorem evpop (d : Nat) (a : Nat) (g : Nat) : Statement (.evpop d a g) := fun _ => rfl

theorem evwait (d : Nat) (a : Nat) (b : Nat) (g : Nat) (la : Nat) : Statement (.evwait d a b g la) := fun _ => rfl

theorem evpost (d : Nat) (a : Nat) (b : Nat) (g : Nat) : Statement (.evpost d a b g) := fun _ => rfl

theorem qpost (d : Nat) (a : Nat) (b : Nat) (g : Nat) (la : Nat) : Statement (.qpost d a b g la) := fun _ => rfl

theorem qarm (a : Nat) (b : Nat) (g : Nat) : Statement (.qarm a b g) := fun _ => rfl

theorem ctradd (d : Nat) (a : Nat) (b : Nat) (g : Nat) (la : Nat) : Statement (.ctradd d a b g la) := fun _ => rfl

theorem ctrwait (d : Nat) (a : Nat) (b : Nat) (g : Nat) (la : Nat) : Statement (.ctrwait d a b g la) := fun _ => rfl

theorem ctrset (a : Nat) (b : Nat) (g : Nat) : Statement (.ctrset a b g) := fun _ => rfl

theorem vadd (d : Nat) (a : Nat) (b : Nat) (m : Nat) (t : Bool) : Statement (.vadd d a b m t) := fun _ => rfl

theorem vsub (d : Nat) (a : Nat) (b : Nat) (m : Nat) (t : Bool) : Statement (.vsub d a b m t) := fun _ => rfl

theorem vmul (d : Nat) (a : Nat) (b : Nat) (m : Nat) (t : Bool) : Statement (.vmul d a b m t) := fun _ => rfl

theorem vmin (d : Nat) (a : Nat) (b : Nat) (m : Nat) (t : Bool) : Statement (.vmin d a b m t) := fun _ => rfl

theorem vmax (d : Nat) (a : Nat) (b : Nat) (m : Nat) (t : Bool) : Statement (.vmax d a b m t) := fun _ => rfl

theorem vabs (d : Nat) (a : Nat) (m : Nat) (t : Bool) : Statement (.vabs d a m t) := fun _ => rfl

theorem vneg (d : Nat) (a : Nat) (m : Nat) (t : Bool) : Statement (.vneg d a m t) := fun _ => rfl

theorem viadd (d : Nat) (a : Nat) (b : Nat) (m : Nat) (t : Bool) : Statement (.viadd d a b m t) := fun _ => rfl

theorem visub (d : Nat) (a : Nat) (b : Nat) (m : Nat) (t : Bool) : Statement (.visub d a b m t) := fun _ => rfl

theorem vimul (d : Nat) (a : Nat) (b : Nat) (m : Nat) (t : Bool) : Statement (.vimul d a b m t) := fun _ => rfl

theorem vimin (d : Nat) (a : Nat) (b : Nat) (m : Nat) (t : Bool) : Statement (.vimin d a b m t) := fun _ => rfl

theorem vimax (d : Nat) (a : Nat) (b : Nat) (m : Nat) (t : Bool) : Statement (.vimax d a b m t) := fun _ => rfl

theorem viminu (d : Nat) (a : Nat) (b : Nat) (m : Nat) (t : Bool) : Statement (.viminu d a b m t) := fun _ => rfl

theorem vimaxu (d : Nat) (a : Nat) (b : Nat) (m : Nat) (t : Bool) : Statement (.vimaxu d a b m t) := fun _ => rfl

theorem viadds (d : Nat) (a : Nat) (b : Nat) (m : Nat) (t : Bool) : Statement (.viadds d a b m t) := fun _ => rfl

theorem visubs (d : Nat) (a : Nat) (b : Nat) (m : Nat) (t : Bool) : Statement (.visubs d a b m t) := fun _ => rfl

theorem vand (d : Nat) (a : Nat) (b : Nat) (m : Nat) (t : Bool) : Statement (.vand d a b m t) := fun _ => rfl

theorem vor (d : Nat) (a : Nat) (b : Nat) (m : Nat) (t : Bool) : Statement (.vor d a b m t) := fun _ => rfl

theorem vxor (d : Nat) (a : Nat) (b : Nat) (m : Nat) (t : Bool) : Statement (.vxor d a b m t) := fun _ => rfl

theorem vsll (d : Nat) (a : Nat) (b : Nat) (m : Nat) (t : Bool) : Statement (.vsll d a b m t) := fun _ => rfl

theorem vsrl (d : Nat) (a : Nat) (b : Nat) (m : Nat) (t : Bool) : Statement (.vsrl d a b m t) := fun _ => rfl

theorem vsra (d : Nat) (a : Nat) (b : Nat) (m : Nat) (t : Bool) : Statement (.vsra d a b m t) := fun _ => rfl

theorem vfcmpEq (d : Nat) (a : Nat) (b : Nat) (m : Nat) (t : Bool) : Statement (.vfcmpEq d a b m t) := fun _ => rfl

theorem vfcmpLt (d : Nat) (a : Nat) (b : Nat) (m : Nat) (t : Bool) : Statement (.vfcmpLt d a b m t) := fun _ => rfl

theorem vfcmpLe (d : Nat) (a : Nat) (b : Nat) (m : Nat) (t : Bool) : Statement (.vfcmpLe d a b m t) := fun _ => rfl

theorem vfcmpUn (d : Nat) (a : Nat) (b : Nat) (m : Nat) (t : Bool) : Statement (.vfcmpUn d a b m t) := fun _ => rfl

theorem vicmpEq (d : Nat) (a : Nat) (b : Nat) (m : Nat) (t : Bool) : Statement (.vicmpEq d a b m t) := fun _ => rfl

theorem vicmpLt (d : Nat) (a : Nat) (b : Nat) (m : Nat) (t : Bool) : Statement (.vicmpLt d a b m t) := fun _ => rfl

theorem vicmpLtu (d : Nat) (a : Nat) (b : Nat) (m : Nat) (t : Bool) : Statement (.vicmpLtu d a b m t) := fun _ => rfl

theorem vmov (d : Nat) (a : Nat) (m : Nat) (t : Bool) : Statement (.vmov d a m t) := fun _ => rfl

theorem vsplat (d : Nat) (a : Nat) (m : Nat) (t : Bool) : Statement (.vsplat d a m t) := fun _ => rfl

theorem vext (d : Nat) (a : Nat) (b : Nat) (m : Nat) (t : Bool) : Statement (.vext d a b m t) := fun _ => rfl

theorem vins (d : Nat) (a : Nat) (b : Nat) (m : Nat) (t : Bool) : Statement (.vins d a b m t) := fun _ => rfl

theorem vsel (d : Nat) (a : Nat) (b : Nat) (m : Nat) (t : Bool) : Statement (.vsel d a b m t) := fun _ => rfl

theorem vperm (d : Nat) (a : Nat) (b : Nat) (m : Nat) (t : Bool) : Statement (.vperm d a b m t) := fun _ => rfl

theorem vdiv (d : Nat) (a : Nat) (b : Nat) (m : Nat) (p : Nat) (la : Nat) : Statement (.vdiv d a b m p la) := fun _ => rfl

theorem vsqrt (d : Nat) (a : Nat) (m : Nat) (p : Nat) (la : Nat) : Statement (.vsqrt d a m p la) := fun _ => rfl

theorem vrcp (d : Nat) (a : Nat) (m : Nat) (p : Nat) (la : Nat) : Statement (.vrcp d a m p la) := fun _ => rfl

theorem vexp2 (d : Nat) (a : Nat) (m : Nat) (la : Nat) : Statement (.vexp2 d a m la) := fun _ => rfl

theorem vlog2 (d : Nat) (a : Nat) (m : Nat) (la : Nat) : Statement (.vlog2 d a m la) := fun _ => rfl

theorem vraddO (d : Nat) (a : Nat) (m : Nat) (t : Bool) : Statement (.vraddO d a m t) := fun _ => rfl

theorem vraddU (d : Nat) (a : Nat) (m : Nat) (t : Bool) : Statement (.vraddU d a m t) := fun _ => rfl

theorem vrmin (d : Nat) (a : Nat) (m : Nat) (t : Bool) : Statement (.vrmin d a m t) := fun _ => rfl

theorem vrmax (d : Nat) (a : Nat) (m : Nat) (t : Bool) : Statement (.vrmax d a m t) := fun _ => rfl

theorem vscanO (d : Nat) (a : Nat) (b : Nat) (m : Nat) (t : Bool) : Statement (.vscanO d a b m t) := fun _ => rfl

theorem vscanU (d : Nat) (a : Nat) (b : Nat) (m : Nat) (t : Bool) : Statement (.vscanU d a b m t) := fun _ => rfl

theorem viradd (d : Nat) (a : Nat) (m : Nat) (t : Bool) : Statement (.viradd d a m t) := fun _ => rfl

theorem vcvtRne (d : Nat) (a : Nat) (b : Nat) (m : Nat) (t : Bool) : Statement (.vcvtRne d a b m t) := fun _ => rfl

theorem vcvtRtz (d : Nat) (a : Nat) (b : Nat) (m : Nat) (t : Bool) : Statement (.vcvtRtz d a b m t) := fun _ => rfl

theorem vcvtRdn (d : Nat) (a : Nat) (b : Nat) (m : Nat) (t : Bool) : Statement (.vcvtRdn d a b m t) := fun _ => rfl

theorem vcvtRup (d : Nat) (a : Nat) (b : Nat) (m : Nat) (t : Bool) : Statement (.vcvtRup d a b m t) := fun _ => rfl

theorem vcvtSr (d : Nat) (a : Nat) (b : Nat) (f : Nat) (t : Bool) : Statement (.vcvtSr d a b f t) := fun _ => rfl

theorem vpackb (d : Nat) (a : Nat) (b : Nat) (m : Nat) (t : Bool) : Statement (.vpackb d a b m t) := fun _ => rfl

theorem vunpackb (d : Nat) (a : Nat) (b : Nat) (m : Nat) (t : Bool) : Statement (.vunpackb d a b m t) := fun _ => rfl

theorem vftoi (d : Nat) (a : Nat) (m : Nat) (t : Bool) : Statement (.vftoi d a m t) := fun _ => rfl

theorem vitof (d : Nat) (a : Nat) (m : Nat) (t : Bool) : Statement (.vitof d a m t) := fun _ => rfl

theorem vfma (d : Nat) (a : Nat) (b : Nat) (m : Nat) (t : Bool) : Statement (.vfma d a b m t) := fun _ => rfl

theorem vfms (d : Nat) (a : Nat) (b : Nat) (m : Nat) (t : Bool) : Statement (.vfms d a b m t) := fun _ => rfl

theorem vfnma (d : Nat) (a : Nat) (b : Nat) (m : Nat) (t : Bool) : Statement (.vfnma d a b m t) := fun _ => rfl

theorem vfnms (d : Nat) (a : Nat) (b : Nat) (m : Nat) (t : Bool) : Statement (.vfnms d a b m t) := fun _ => rfl

theorem mand (d : Nat) (a : Nat) (b : Nat) (t : Bool) : Statement (.mand d a b t) := fun _ => rfl

theorem mor (d : Nat) (a : Nat) (b : Nat) (t : Bool) : Statement (.mor d a b t) := fun _ => rfl

theorem mxor (d : Nat) (a : Nat) (b : Nat) (t : Bool) : Statement (.mxor d a b t) := fun _ => rfl

theorem mandn (d : Nat) (a : Nat) (b : Nat) (t : Bool) : Statement (.mandn d a b t) := fun _ => rfl

theorem mnot (d : Nat) (a : Nat) (t : Bool) : Statement (.mnot d a t) := fun _ => rfl

theorem mpopc (d : Nat) (a : Nat) (t : Bool) : Statement (.mpopc d a t) := fun _ => rfl

theorem mma (a : Nat) (b : Nat) (row : Nat) (col : Nat) (s : Nat) (g : Nat) (la : Nat) : Statement (.mma a b row col s g la) := fun _ => rfl

theorem mmac (a : Nat) (b : Nat) (row : Nat) (col : Nat) (s : Nat) (g : Nat) (la : Nat) : Statement (.mmac a b row col s g la) := fun _ => rfl

theorem accz (d : Nat) (g : Nat) (la : Nat) : Statement (.accz d g la) := fun _ => rfl

theorem accld (d : Nat) (a : Nat) (b : Nat) (g : Nat) (la : Nat) : Statement (.accld d a b g la) := fun _ => rfl

theorem accst (d : Nat) (a : Nat) (b : Nat) (g : Nat) (la : Nat) : Statement (.accst d a b g la) := fun _ => rfl

theorem acccvt (d : Nat) (a : Nat) (b : Nat) (g : Nat) (la : Nat) : Statement (.acccvt d a b g la) := fun _ => rfl

theorem accmov (d : Nat) (a : Nat) (g : Nat) (la : Nat) : Statement (.accmov d a g la) := fun _ => rfl

theorem xmov (d : Nat) (a : Nat) (g : Nat) (la : Nat) : Statement (.xmov d a g la) := fun _ => rfl

theorem xtr (d : Nat) (a : Nat) (g : Nat) (la : Nat) : Statement (.xtr d a g la) := fun _ => rfl

theorem xzero (d : Nat) (g : Nat) (la : Nat) : Statement (.xzero d g la) := fun _ => rfl

theorem xcvt (d : Nat) (a : Nat) (b : Nat) (g : Nat) (la : Nat) : Statement (.xcvt d a b g la) := fun _ => rfl

theorem tfact (d : Nat) (a : Nat) (b : Nat) (g : Nat) (la : Nat) : Statement (.tfact d a b g la) := fun _ => rfl

theorem tsolve (d : Nat) (a : Nat) (b : Nat) (g : Nat) (la : Nat) : Statement (.tsolve d a b g la) := fun _ => rfl

theorem burst (d : Nat) (g : Nat) : Statement (.burst d g) := fun _ => rfl

theorem mwait (g : Nat) : Statement (.mwait g) := fun _ => rfl

theorem rgcfg (d : Nat) (g : Nat) : Statement (.rgcfg d g) := fun _ => rfl

theorem rgmt (d : Nat) (a : Nat) (b : Nat) (g : Nat) (la : Nat) : Statement (.rgmt d a b g la) := fun _ => rfl

theorem rgmtu (d : Nat) (a : Nat) (g : Nat) (la : Nat) : Statement (.rgmtu d a g la) := fun _ => rfl

theorem rginj (d : Nat) (a : Nat) (b : Nat) (g : Nat) (la : Nat) : Statement (.rginj d a b g la) := fun _ => rfl

theorem rgstart (d : Nat) (g : Nat) : Statement (.rgstart d g) := fun _ => rfl

theorem rgwait (d : Nat) (a : Nat) (g : Nat) (la : Nat) : Statement (.rgwait d a g la) := fun _ => rfl

theorem rgstat (d : Nat) (g : Nat) : Statement (.rgstat d g) := fun _ => rfl

theorem rgreinj (d : Nat) (g : Nat) (la : Nat) : Statement (.rgreinj d g la) := fun _ => rfl

theorem rgret (g : Nat) : Statement (.rgret g) := fun _ => rfl

theorem aucfg (d : Nat) (a : Nat) (g : Nat) (la : Nat) : Statement (.aucfg d a g la) := fun _ => rfl

theorem prld (d : Nat) (a : Nat) (b : Nat) (g : Nat) (la : Nat) : Statement (.prld d a b g la) := fun _ => rfl

theorem prst (d : Nat) (a : Nat) (b : Nat) (g : Nat) (la : Nat) : Statement (.prst d a b g la) := fun _ => rfl

theorem aubid (d : Nat) (g : Nat) (la : Nat) : Statement (.aubid d g la) := fun _ => rfl

theorem austep (d : Nat) (g : Nat) (la : Nat) : Statement (.austep d g la) := fun _ => rfl

theorem aures (d : Nat) (a : Nat) (g : Nat) (la : Nat) : Statement (.aures d a g la) := fun _ => rfl

theorem austat (d : Nat) (a : Nat) (g : Nat) : Statement (.austat d a g) := fun _ => rfl

theorem vpjCfg (d : Nat) (g : Nat) : Statement (.vpjCfg d g) := fun _ => rfl

theorem vpj (d : Nat) (a : Nat) (b : Nat) (g : Nat) (la : Nat) : Statement (.vpj d a b g la) := fun _ => rfl

theorem vpjMrg (d : Nat) (a : Nat) (b : Nat) (g : Nat) (la : Nat) : Statement (.vpjMrg d a b g la) := fun _ => rfl

theorem vpjRd (d : Nat) (a : Nat) (b : Nat) (g : Nat) (la : Nat) : Statement (.vpjRd d a b g la) := fun _ => rfl

theorem vpjRegen (d : Nat) (a : Nat) (b : Nat) (g : Nat) (la : Nat) : Statement (.vpjRegen d a b g la) := fun _ => rfl

theorem vpjInit (d : Nat) (g : Nat) (la : Nat) : Statement (.vpjInit d g la) := fun _ => rfl

theorem start (d : Nat) (a : Nat) (b : Nat) (g : Nat) : Statement (.start d a b g) := fun _ => rfl

theorem exit (g : Nat) : Statement (.exit g) := fun _ => rfl

theorem yield (a : Nat) (g : Nat) : Statement (.yield a g) := fun _ => rfl

theorem follow (d : Nat) (a : Nat) (g : Nat) : Statement (.follow d a g) := fun _ => rfl

theorem unfollow (g : Nat) : Statement (.unfollow g) := fun _ => rfl

theorem wid (d : Nat) (a : Nat) (g : Nat) : Statement (.wid d a g) := fun _ => rfl

theorem pnpush (a : Nat) (g : Nat) : Statement (.pnpush a g) := fun _ => rfl

theorem join (d : Nat) (a : Nat) (g : Nat) : Statement (.join d a g) := fun _ => rfl

theorem vote (d : Nat) (a : Nat) (b : Nat) (g : Nat) : Statement (.vote d a b g) := fun _ => rfl

theorem haly (d : Nat) (a : Nat) (b : Nat) (g : Nat) : Statement (.haly d a b g) := fun _ => rfl

theorem hsum (d : Nat) (a : Nat) (b : Nat) (g : Nat) : Statement (.hsum d a b g) := fun _ => rfl

theorem lpset (a : Nat) (endOff : Nat) : Statement (.lpset a endOff) := fun _ => rfl

theorem lppop : Statement (.lppop) := fun _ => rfl

theorem mfc (d : Nat) (n : Nat) : Statement (.mfc d n) := fun _ => rfl

theorem mtc (d : Nat) (n : Nat) : Statement (.mtc d n) := fun _ => rfl

theorem msc (d : Nat) (n : Nat) : Statement (.msc d n) := fun _ => rfl

theorem mcc (d : Nat) (n : Nat) : Statement (.mcc d n) := fun _ => rfl

theorem trap (d : Nat) (n : Nat) : Statement (.trap d n) := fun _ => rfl

theorem tret : Statement (.tret) := fun _ => rfl

theorem sysc (d : Nat) (n : Nat) : Statement (.sysc d n) := fun _ => rfl

theorem brk (n : Nat) : Statement (.brk n) := fun _ => rfl

theorem halt (d : Nat) : Statement (.halt d) := fun _ => rfl

theorem spillw (d : Nat) : Statement (.spillw d) := fun _ => rfl

theorem fillw : Statement (.fillw) := fun _ => rfl

theorem hintImm (payload : Nat) : Statement (.hintImm payload) := fun _ => rfl

theorem hintHome (payload : Nat) : Statement (.hintHome payload) := fun _ => rfl

theorem hintMod (payload : Nat) : Statement (.hintMod payload) := fun _ => rfl

theorem nop : Statement (.nop) := fun _ => rfl

theorem illegalWord (w : Nat) : Statement (.illegalWord w) := fun h => Bool.noConfusion h

theorem instructionComplete (core : Nat) (ctx : Nat) (idx : Nat) : Statement (.instructionComplete core ctx idx) := fun h => Bool.noConfusion h

theorem followEngage (core : Nat) : Statement (.followEngage core) := fun h => Bool.noConfusion h

theorem pageWalkComplete (core : Nat) (domain : Nat) (va : Nat) : Statement (.pageWalkComplete core domain va) := fun h => Bool.noConfusion h

theorem postedStoreAck (core : Nat) (ctx : Nat) : Statement (.postedStoreAck core ctx) := fun h => Bool.noConfusion h

theorem postedStoreFail (core : Nat) (ctx : Nat) (pa : Nat) : Statement (.postedStoreFail core ctx pa) := fun h => Bool.noConfusion h

theorem uncorrectableError (site : ErrSite) : Statement (.uncorrectableError site) := fun h => Bool.noConfusion h

theorem correctedError (unit : HwUnit) : Statement (.correctedError unit) := fun h => Bool.noConfusion h

theorem unitRetire (unit : HwUnit) : Statement (.unitRetire unit) := fun h => Bool.noConfusion h

theorem parkedRequestServe (addr : Nat) : Statement (.parkedRequestServe addr) := fun h => Bool.noConfusion h

theorem ldsParkRetry (core : Nat) (ctx : Nat) : Statement (.ldsParkRetry core ctx) := fun h => Bool.noConfusion h

theorem messageArrival (msg : Msg) : Statement (.messageArrival msg) := fun h => Bool.noConfusion h

theorem messageFail (msg : Msg) : Statement (.messageFail msg) := fun h => Bool.noConfusion h

theorem remoteCommandArrival (cmd : RemoteCmd) : Statement (.remoteCommandArrival cmd) := fun h => Bool.noConfusion h

theorem eventRecordArrival (core : Nat) (rec : EvRec) : Statement (.eventRecordArrival core rec) := fun h => Bool.noConfusion h

theorem hardwarePost (core : Nat) (addr : W64) : Statement (.hardwarePost core addr) := fun h => Bool.noConfusion h

theorem bulkQueueAdmit (core : Nat) : Statement (.bulkQueueAdmit core) := fun h => Bool.noConfusion h

theorem copyCommandStart (core : Nat) (id : Nat) : Statement (.copyCommandStart core id) := fun h => Bool.noConfusion h

theorem copyCommandComplete (core : Nat) (id : Nat) : Statement (.copyCommandComplete core id) := fun h => Bool.noConfusion h

theorem copyCommandFault (core : Nat) (id : Nat) : Statement (.copyCommandFault core id) := fun h => Bool.noConfusion h

theorem matrixQueueAdmit (core : Nat) : Statement (.matrixQueueAdmit core) := fun h => Bool.noConfusion h

theorem matrixCommandStart (core : Nat) : Statement (.matrixCommandStart core) := fun h => Bool.noConfusion h

theorem matrixCommandComplete (core : Nat) : Statement (.matrixCommandComplete core) := fun h => Bool.noConfusion h

theorem arrayLevelRise (core : Nat) : Statement (.arrayLevelRise core) := fun h => Bool.noConfusion h

theorem arrayLevelFall (core : Nat) : Statement (.arrayLevelFall core) := fun h => Bool.noConfusion h

theorem burstHoldExpire (core : Nat) : Statement (.burstHoldExpire core) := fun h => Bool.noConfusion h

theorem ringBeatEnd (ring : Nat) : Statement (.ringBeatEnd ring) := fun h => Bool.noConfusion h

theorem ringTaskComplete (core : Nat) : Statement (.ringTaskComplete core) := fun h => Bool.noConfusion h

theorem ringIdle (ring : Nat) : Statement (.ringIdle ring) := fun h => Bool.noConfusion h

theorem auctionCommandAdmit (die : Nat) : Statement (.auctionCommandAdmit die) := fun h => Bool.noConfusion h

theorem auctionRound (die : Nat) : Statement (.auctionRound die) := fun h => Bool.noConfusion h

theorem vpjTileBoundary (core : Nat) (ctx : Nat) (idx : Nat) : Statement (.vpjTileBoundary core ctx idx) := fun h => Bool.noConfusion h

theorem collectiveChunkAdmit (die : Nat) : Statement (.collectiveChunkAdmit die) := fun h => Bool.noConfusion h

theorem chunkArrival (chunk : Chunk) : Statement (.chunkArrival chunk) := fun h => Bool.noConfusion h

theorem stepResultWrite (key : StepKey) : Statement (.stepResultWrite key) := fun h => Bool.noConfusion h

theorem stepAbandon (key : StepKey) : Statement (.stepAbandon key) := fun h => Bool.noConfusion h

theorem entryComplete (die : Nat) (idx : Nat) : Statement (.entryComplete die idx) := fun h => Bool.noConfusion h

theorem quantumBoundary : Statement (.quantumBoundary) := fun h => Bool.noConfusion h

theorem preemptResume (core : Nat) : Statement (.preemptResume core) := fun h => Bool.noConfusion h

theorem qtailWrite (fn : Nat) (q : Nat) (v : W64) : Statement (.qtailWrite fn q v) := fun h => Bool.noConfusion h

theorem launchPacketRead (q : Nat) : Statement (.launchPacketRead q) := fun h => Bool.noConfusion h

theorem dealIdentifier (q : Nat) (core : Nat) : Statement (.dealIdentifier q core) := fun h => Bool.noConfusion h

theorem launchComplete (q : Nat) : Statement (.launchComplete q) := fun h => Bool.noConfusion h

theorem controlContextRestart (core : Nat) : Statement (.controlContextRestart core) := fun h => Bool.noConfusion h

theorem startHelperAssign (core : Nat) : Statement (.startHelperAssign core) := fun h => Bool.noConfusion h

theorem pennantPop (core : Nat) : Statement (.pennantPop core) := fun h => Bool.noConfusion h

theorem pennantAgePromote (cluster : Nat) (prio : Nat) (idx : Nat) : Statement (.pennantAgePromote cluster prio idx) := fun h => Bool.noConfusion h

theorem halyardEpisodeComplete (op : Nat) (word : W64) (launch : Nat) : Statement (.halyardEpisodeComplete op word launch) := fun h => Bool.noConfusion h

theorem halyLimitExpire (core : Nat) : Statement (.halyLimitExpire core) := fun h => Bool.noConfusion h

theorem rbwaitTimeout (core : Nat) (ctx : Nat) : Statement (.rbwaitTimeout core ctx) := fun h => Bool.noConfusion h

theorem evwaitTimeout (core : Nat) : Statement (.evwaitTimeout core) := fun h => Bool.noConfusion h

theorem rgwaitTimeout (core : Nat) (ctx : Nat) : Statement (.rgwaitTimeout core ctx) := fun h => Bool.noConfusion h

theorem yieldExpire (core : Nat) (ctx : Nat) : Statement (.yieldExpire core ctx) := fun h => Bool.noConfusion h

theorem partnerSwitch (core : Nat) : Statement (.partnerSwitch core) := fun h => Bool.noConfusion h

theorem faultRecordAppend (die : Nat) (rec : FaultRec) : Statement (.faultRecordAppend die rec) := fun h => Bool.noConfusion h

theorem fqheadWrite (v : W64) : Statement (.fqheadWrite v) := fun h => Bool.noConfusion h

theorem xlinvPage (domain : Nat) : Statement (.xlinvPage domain) := fun h => Bool.noConfusion h

theorem xlinvDomain (domain : Nat) : Statement (.xlinvDomain domain) := fun h => Bool.noConfusion h

theorem xlinvAllDomains : Statement (.xlinvAllDomains) := fun h => Bool.noConfusion h

theorem xlinvReserved : Statement (.xlinvReserved) := fun h => Bool.noConfusion h

theorem xlinvComplete : Statement (.xlinvComplete) := fun h => Bool.noConfusion h

theorem keyInstall : Statement (.keyInstall) := fun h => Bool.noConfusion h

theorem keyErase : Statement (.keyErase) := fun h => Bool.noConfusion h

theorem keyCommandComplete : Statement (.keyCommandComplete) := fun h => Bool.noConfusion h

theorem rngFill (stream : Nat) : Statement (.rngFill stream) := fun h => Bool.noConfusion h

theorem rngFillComplete (stream : Nat) : Statement (.rngFillComplete stream) := fun h => Bool.noConfusion h

theorem devnumWrite (fn : Nat) (v : W64) : Statement (.devnumWrite fn v) := fun h => Bool.noConfusion h

theorem linkTraining (port : Nat) (neighbour : Nat) : Statement (.linkTraining port neighbour) := fun h => Bool.noConfusion h

theorem pnqbaseWrite (fn : Nat) (n : Nat) (v : W64) : Statement (.pnqbaseWrite fn n v) := fun h => Bool.noConfusion h

theorem rbenWrite (core : Nat) (ctx : Nat) (v : W64) : Statement (.rbenWrite core ctx v) := fun h => Bool.noConfusion h

theorem domctlWrite (fn : Nat) (n : Nat) (v : W64) : Statement (.domctlWrite fn n v) := fun h => Bool.noConfusion h

theorem domainDisable (n : Nat) : Statement (.domainDisable n) := fun h => Bool.noConfusion h

theorem cctlWrite (fn : Nat) (c : Nat) (v : W64) : Statement (.cctlWrite fn c v) := fun h => Bool.noConfusion h

theorem dbgHalt (domain : Nat) : Statement (.dbgHalt domain) := fun h => Bool.noConfusion h

theorem dbgResume (domain : Nat) : Statement (.dbgResume domain) := fun h => Bool.noConfusion h

theorem dbgStep (domain : Nat) (one : Bool) (core : Nat) : Statement (.dbgStep domain one core) := fun h => Bool.noConfusion h

theorem dbgSuperstep (domain : Nat) (one : Bool) (core : Nat) : Statement (.dbgSuperstep domain one core) := fun h => Bool.noConfusion h

theorem debugHaltComplete : Statement (.debugHaltComplete) := fun h => Bool.noConfusion h

theorem coldReset : Statement (.coldReset) := fun h => Bool.noConfusion h

theorem warmReset : Statement (.warmReset) := fun h => Bool.noConfusion h

theorem functionLevelReset (fn : Nat) : Statement (.functionLevelReset fn) := fun h => Bool.noConfusion h

theorem linkWidthRequest (v : W64) : Statement (.linkWidthRequest v) := fun h => Bool.noConfusion h

theorem linkRetrainComplete : Statement (.linkRetrainComplete) := fun h => Bool.noConfusion h

theorem dieClockRequest (die : Nat) (v : W64) : Statement (.dieClockRequest die v) := fun h => Bool.noConfusion h

theorem dieClockChange (die : Nat) : Statement (.dieClockChange die) := fun h => Bool.noConfusion h

theorem powerCapWindow : Statement (.powerCapWindow) := fun h => Bool.noConfusion h

theorem attestationReport (nonce : List Byte) : Statement (.attestationReport nonce) := fun h => Bool.noConfusion h

theorem hostWrite (fn : Nat) (pa : Nat) (bytes : List Byte) : Statement (.hostWrite fn pa bytes) := fun h => Bool.noConfusion h

theorem hostRead (fn : Nat) (pa : Nat) (n : Nat) : Statement (.hostRead fn pa n) := fun h => Bool.noConfusion h

theorem registerWrite (fn : Nat) (off : Nat) (size : Nat) (v : W64) : Statement (.registerWrite fn off size v) := fun h => Bool.noConfusion h

theorem powerDown : Statement (.powerDown) := fun h => Bool.noConfusion h

theorem fabricLinkLoss (port : Nat) : Statement (.fabricLinkLoss port) := fun h => Bool.noConfusion h

theorem qctlWrite (fn : Nat) (q : Nat) (v : W64) : Statement (.qctlWrite fn q v) := fun h => Bool.noConfusion h

theorem fqctlWrite (v : W64) : Statement (.fqctlWrite v) := fun h => Bool.noConfusion h

theorem ideKmKeyProgram (key : List Byte) : Statement (.ideKmKeyProgram key) := fun h => Bool.noConfusion h

theorem spdmSession (nonce : List Byte) : Statement (.spdmSession nonce) := fun h => Bool.noConfusion h

end Sys2Proof.Laws.HasWord
end

