-- ==== Sys2Proof/Laws/Rows.lean ====
section
/-! SUPPORT. The rows of the table of operations: what each instruction's meaning calls, and the operands of its word. -/

namespace Sys2Proof.Machine

theorem exec_add (d : Nat) (a : Nat) (b : Nat) (t : Bool) (g : Nat) (s : State) : exec (.add d a b t g) s = issue (.add d a b t g) (finAdd d t) s := rfl
@[simp] theorem shape_add (d : Nat) (a : Nat) (b : Nat) (_x3 : Bool) (g : Nat) : Instr.shape (.add d a b _x3 g) = { g := g, opa := some a, opb := some b, wr := [.w d] } := rfl
theorem exec_sub (d : Nat) (a : Nat) (b : Nat) (t : Bool) (g : Nat) (s : State) : exec (.sub d a b t g) s = issue (.sub d a b t g) (finSub d t) s := rfl
@[simp] theorem shape_sub (d : Nat) (a : Nat) (b : Nat) (_x3 : Bool) (g : Nat) : Instr.shape (.sub d a b _x3 g) = { g := g, opa := some a, opb := some b, wr := [.w d] } := rfl
theorem exec_and (d : Nat) (a : Nat) (b : Nat) (t : Bool) (g : Nat) (s : State) : exec (.and d a b t g) s = issue (.and d a b t g) (finAnd d t) s := rfl
@[simp] theorem shape_and (d : Nat) (a : Nat) (b : Nat) (_x3 : Bool) (g : Nat) : Instr.shape (.and d a b _x3 g) = { g := g, opa := some a, opb := some b, wr := [.w d] } := rfl
theorem exec_or (d : Nat) (a : Nat) (b : Nat) (t : Bool) (g : Nat) (s : State) : exec (.or d a b t g) s = issue (.or d a b t g) (finOr d t) s := rfl
@[simp] theorem shape_or (d : Nat) (a : Nat) (b : Nat) (_x3 : Bool) (g : Nat) : Instr.shape (.or d a b _x3 g) = { g := g, opa := some a, opb := some b, wr := [.w d] } := rfl
theorem exec_xor (d : Nat) (a : Nat) (b : Nat) (t : Bool) (g : Nat) (s : State) : exec (.xor d a b t g) s = issue (.xor d a b t g) (finXor d t) s := rfl
@[simp] theorem shape_xor (d : Nat) (a : Nat) (b : Nat) (_x3 : Bool) (g : Nat) : Instr.shape (.xor d a b _x3 g) = { g := g, opa := some a, opb := some b, wr := [.w d] } := rfl
theorem exec_andn (d : Nat) (a : Nat) (b : Nat) (t : Bool) (g : Nat) (s : State) : exec (.andn d a b t g) s = issue (.andn d a b t g) (finAndn d t) s := rfl
@[simp] theorem shape_andn (d : Nat) (a : Nat) (b : Nat) (_x3 : Bool) (g : Nat) : Instr.shape (.andn d a b _x3 g) = { g := g, opa := some a, opb := some b, wr := [.w d] } := rfl
theorem exec_sll (d : Nat) (a : Nat) (b : Nat) (t : Bool) (g : Nat) (s : State) : exec (.sll d a b t g) s = issue (.sll d a b t g) (finSll d t) s := rfl
@[simp] theorem shape_sll (d : Nat) (a : Nat) (b : Nat) (_x3 : Bool) (g : Nat) : Instr.shape (.sll d a b _x3 g) = { g := g, opa := some a, opb := some b, wr := [.w d] } := rfl
theorem exec_srl (d : Nat) (a : Nat) (b : Nat) (t : Bool) (g : Nat) (s : State) : exec (.srl d a b t g) s = issue (.srl d a b t g) (finSrl d t) s := rfl
@[simp] theorem shape_srl (d : Nat) (a : Nat) (b : Nat) (_x3 : Bool) (g : Nat) : Instr.shape (.srl d a b _x3 g) = { g := g, opa := some a, opb := some b, wr := [.w d] } := rfl
theorem exec_sra (d : Nat) (a : Nat) (b : Nat) (t : Bool) (g : Nat) (s : State) : exec (.sra d a b t g) s = issue (.sra d a b t g) (finSra d t) s := rfl
@[simp] theorem shape_sra (d : Nat) (a : Nat) (b : Nat) (_x3 : Bool) (g : Nat) : Instr.shape (.sra d a b _x3 g) = { g := g, opa := some a, opb := some b, wr := [.w d] } := rfl
theorem exec_ror (d : Nat) (a : Nat) (b : Nat) (t : Bool) (g : Nat) (s : State) : exec (.ror d a b t g) s = issue (.ror d a b t g) (finRor d t) s := rfl
@[simp] theorem shape_ror (d : Nat) (a : Nat) (b : Nat) (_x3 : Bool) (g : Nat) : Instr.shape (.ror d a b _x3 g) = { g := g, opa := some a, opb := some b, wr := [.w d] } := rfl
theorem exec_slt (d : Nat) (a : Nat) (b : Nat) (t : Bool) (g : Nat) (s : State) : exec (.slt d a b t g) s = issue (.slt d a b t g) (finSlt d t) s := rfl
@[simp] theorem shape_slt (d : Nat) (a : Nat) (b : Nat) (_x3 : Bool) (g : Nat) : Instr.shape (.slt d a b _x3 g) = { g := g, opa := some a, opb := some b, wr := [.w d] } := rfl
theorem exec_sltu (d : Nat) (a : Nat) (b : Nat) (t : Bool) (g : Nat) (s : State) : exec (.sltu d a b t g) s = issue (.sltu d a b t g) (finSltu d t) s := rfl
@[simp] theorem shape_sltu (d : Nat) (a : Nat) (b : Nat) (_x3 : Bool) (g : Nat) : Instr.shape (.sltu d a b _x3 g) = { g := g, opa := some a, opb := some b, wr := [.w d] } := rfl
theorem exec_min (d : Nat) (a : Nat) (b : Nat) (t : Bool) (g : Nat) (s : State) : exec (.min d a b t g) s = issue (.min d a b t g) (finMin d t) s := rfl
@[simp] theorem shape_min (d : Nat) (a : Nat) (b : Nat) (_x3 : Bool) (g : Nat) : Instr.shape (.min d a b _x3 g) = { g := g, opa := some a, opb := some b, wr := [.w d] } := rfl
theorem exec_max (d : Nat) (a : Nat) (b : Nat) (t : Bool) (g : Nat) (s : State) : exec (.max d a b t g) s = issue (.max d a b t g) (finMax d t) s := rfl
@[simp] theorem shape_max (d : Nat) (a : Nat) (b : Nat) (_x3 : Bool) (g : Nat) : Instr.shape (.max d a b _x3 g) = { g := g, opa := some a, opb := some b, wr := [.w d] } := rfl
theorem exec_minu (d : Nat) (a : Nat) (b : Nat) (t : Bool) (g : Nat) (s : State) : exec (.minu d a b t g) s = issue (.minu d a b t g) (finMinu d t) s := rfl
@[simp] theorem shape_minu (d : Nat) (a : Nat) (b : Nat) (_x3 : Bool) (g : Nat) : Instr.shape (.minu d a b _x3 g) = { g := g, opa := some a, opb := some b, wr := [.w d] } := rfl
theorem exec_maxu (d : Nat) (a : Nat) (b : Nat) (t : Bool) (g : Nat) (s : State) : exec (.maxu d a b t g) s = issue (.maxu d a b t g) (finMaxu d t) s := rfl
@[simp] theorem shape_maxu (d : Nat) (a : Nat) (b : Nat) (_x3 : Bool) (g : Nat) : Instr.shape (.maxu d a b _x3 g) = { g := g, opa := some a, opb := some b, wr := [.w d] } := rfl
theorem exec_mul (d : Nat) (a : Nat) (b : Nat) (t : Bool) (g : Nat) (s : State) : exec (.mul d a b t g) s = issue (.mul d a b t g) (finMul d t) s := rfl
@[simp] theorem shape_mul (d : Nat) (a : Nat) (b : Nat) (_x3 : Bool) (g : Nat) : Instr.shape (.mul d a b _x3 g) = { g := g, opa := some a, opb := some b, wr := [.w d] } := rfl
theorem exec_mulh (d : Nat) (a : Nat) (b : Nat) (t : Bool) (g : Nat) (s : State) : exec (.mulh d a b t g) s = issue (.mulh d a b t g) (finMulh d t) s := rfl
@[simp] theorem shape_mulh (d : Nat) (a : Nat) (b : Nat) (_x3 : Bool) (g : Nat) : Instr.shape (.mulh d a b _x3 g) = { g := g, opa := some a, opb := some b, wr := [.w d] } := rfl
theorem exec_mulhu (d : Nat) (a : Nat) (b : Nat) (t : Bool) (g : Nat) (s : State) : exec (.mulhu d a b t g) s = issue (.mulhu d a b t g) (finMulhu d t) s := rfl
@[simp] theorem shape_mulhu (d : Nat) (a : Nat) (b : Nat) (_x3 : Bool) (g : Nat) : Instr.shape (.mulhu d a b _x3 g) = { g := g, opa := some a, opb := some b, wr := [.w d] } := rfl
theorem exec_clz (d : Nat) (a : Nat) (t : Bool) (g : Nat) (s : State) : exec (.clz d a t g) s = issue (.clz d a t g) (finClz d t) s := rfl
@[simp] theorem shape_clz (d : Nat) (a : Nat) (_x2 : Bool) (g : Nat) : Instr.shape (.clz d a _x2 g) = { g := g, opa := some a, wr := [.w d] } := rfl
theorem exec_ctz (d : Nat) (a : Nat) (t : Bool) (g : Nat) (s : State) : exec (.ctz d a t g) s = issue (.ctz d a t g) (finCtz d t) s := rfl
@[simp] theorem shape_ctz (d : Nat) (a : Nat) (_x2 : Bool) (g : Nat) : Instr.shape (.ctz d a _x2 g) = { g := g, opa := some a, wr := [.w d] } := rfl
theorem exec_popc (d : Nat) (a : Nat) (t : Bool) (g : Nat) (s : State) : exec (.popc d a t g) s = issue (.popc d a t g) (finPopc d t) s := rfl
@[simp] theorem shape_popc (d : Nat) (a : Nat) (_x2 : Bool) (g : Nat) : Instr.shape (.popc d a _x2 g) = { g := g, opa := some a, wr := [.w d] } := rfl
theorem exec_sextb (d : Nat) (a : Nat) (t : Bool) (g : Nat) (s : State) : exec (.sextb d a t g) s = issue (.sextb d a t g) (finSextb d t) s := rfl
@[simp] theorem shape_sextb (d : Nat) (a : Nat) (_x2 : Bool) (g : Nat) : Instr.shape (.sextb d a _x2 g) = { g := g, opa := some a, wr := [.w d] } := rfl
theorem exec_sexth (d : Nat) (a : Nat) (t : Bool) (g : Nat) (s : State) : exec (.sexth d a t g) s = issue (.sexth d a t g) (finSexth d t) s := rfl
@[simp] theorem shape_sexth (d : Nat) (a : Nat) (_x2 : Bool) (g : Nat) : Instr.shape (.sexth d a _x2 g) = { g := g, opa := some a, wr := [.w d] } := rfl
theorem exec_sextw (d : Nat) (a : Nat) (t : Bool) (g : Nat) (s : State) : exec (.sextw d a t g) s = issue (.sextw d a t g) (finSextw d t) s := rfl
@[simp] theorem shape_sextw (d : Nat) (a : Nat) (_x2 : Bool) (g : Nat) : Instr.shape (.sextw d a _x2 g) = { g := g, opa := some a, wr := [.w d] } := rfl
theorem exec_zextw (d : Nat) (a : Nat) (t : Bool) (g : Nat) (s : State) : exec (.zextw d a t g) s = issue (.zextw d a t g) (finZextw d t) s := rfl
@[simp] theorem shape_zextw (d : Nat) (a : Nat) (_x2 : Bool) (g : Nat) : Instr.shape (.zextw d a _x2 g) = { g := g, opa := some a, wr := [.w d] } := rfl
theorem exec_shadd1 (d : Nat) (a : Nat) (b : Nat) (t : Bool) (g : Nat) (s : State) : exec (.shadd1 d a b t g) s = issue (.shadd1 d a b t g) (finShadd1 d t) s := rfl
@[simp] theorem shape_shadd1 (d : Nat) (a : Nat) (b : Nat) (_x3 : Bool) (g : Nat) : Instr.shape (.shadd1 d a b _x3 g) = { g := g, opa := some a, opb := some b, wr := [.w d] } := rfl
theorem exec_shadd2 (d : Nat) (a : Nat) (b : Nat) (t : Bool) (g : Nat) (s : State) : exec (.shadd2 d a b t g) s = issue (.shadd2 d a b t g) (finShadd2 d t) s := rfl
@[simp] theorem shape_shadd2 (d : Nat) (a : Nat) (b : Nat) (_x3 : Bool) (g : Nat) : Instr.shape (.shadd2 d a b _x3 g) = { g := g, opa := some a, opb := some b, wr := [.w d] } := rfl
theorem exec_shadd3 (d : Nat) (a : Nat) (b : Nat) (t : Bool) (g : Nat) (s : State) : exec (.shadd3 d a b t g) s = issue (.shadd3 d a b t g) (finShadd3 d t) s := rfl
@[simp] theorem shape_shadd3 (d : Nat) (a : Nat) (b : Nat) (_x3 : Bool) (g : Nat) : Instr.shape (.shadd3 d a b _x3 g) = { g := g, opa := some a, opb := some b, wr := [.w d] } := rfl
theorem exec_div (d : Nat) (a : Nat) (b : Nat) (la : Nat) (s : State) : exec (.div d a b la) s = issue (.div d a b la) (finDiv d) s := rfl
@[simp] theorem shape_div (d : Nat) (a : Nat) (b : Nat) (la : Nat) : Instr.shape (.div d a b la) = { long := true, la := la, opa := some a, opb := some b, wr := [.w d] } := rfl
theorem exec_divu (d : Nat) (a : Nat) (b : Nat) (la : Nat) (s : State) : exec (.divu d a b la) s = issue (.divu d a b la) (finDivu d) s := rfl
@[simp] theorem shape_divu (d : Nat) (a : Nat) (b : Nat) (la : Nat) : Instr.shape (.divu d a b la) = { long := true, la := la, opa := some a, opb := some b, wr := [.w d] } := rfl
theorem exec_rem (d : Nat) (a : Nat) (b : Nat) (la : Nat) (s : State) : exec (.rem d a b la) s = issue (.rem d a b la) (finRem d) s := rfl
@[simp] theorem shape_rem (d : Nat) (a : Nat) (b : Nat) (la : Nat) : Instr.shape (.rem d a b la) = { long := true, la := la, opa := some a, opb := some b, wr := [.w d] } := rfl
theorem exec_remu (d : Nat) (a : Nat) (b : Nat) (la : Nat) (s : State) : exec (.remu d a b la) s = issue (.remu d a b la) (finRemu d) s := rfl
@[simp] theorem shape_remu (d : Nat) (a : Nat) (b : Nat) (la : Nat) : Instr.shape (.remu d a b la) = { long := true, la := la, opa := some a, opb := some b, wr := [.w d] } := rfl
theorem exec_addi (d : Nat) (a : Nat) (imm : Nat) (g : Nat) (s : State) : exec (.addi d a imm g) s = issue (.addi d a imm g) (finAddi d imm) s := rfl
@[simp] theorem shape_addi (d : Nat) (a : Nat) (imm : Nat) (g : Nat) : Instr.shape (.addi d a imm g) = { g := g, opa := some a, imm := some (13, imm), wr := [.w d] } := rfl
theorem exec_andi (d : Nat) (a : Nat) (imm : Nat) (g : Nat) (s : State) : exec (.andi d a imm g) s = issue (.andi d a imm g) (finAndi d imm) s := rfl
@[simp] theorem shape_andi (d : Nat) (a : Nat) (imm : Nat) (g : Nat) : Instr.shape (.andi d a imm g) = { g := g, opa := some a, imm := some (13, imm), wr := [.w d] } := rfl
theorem exec_ori (d : Nat) (a : Nat) (imm : Nat) (g : Nat) (s : State) : exec (.ori d a imm g) s = issue (.ori d a imm g) (finOri d imm) s := rfl
@[simp] theorem shape_ori (d : Nat) (a : Nat) (imm : Nat) (g : Nat) : Instr.shape (.ori d a imm g) = { g := g, opa := some a, imm := some (13, imm), wr := [.w d] } := rfl
theorem exec_xori (d : Nat) (a : Nat) (imm : Nat) (g : Nat) (s : State) : exec (.xori d a imm g) s = issue (.xori d a imm g) (finXori d imm) s := rfl
@[simp] theorem shape_xori (d : Nat) (a : Nat) (imm : Nat) (g : Nat) : Instr.shape (.xori d a imm g) = { g := g, opa := some a, imm := some (13, imm), wr := [.w d] } := rfl
theorem exec_slti (d : Nat) (a : Nat) (imm : Nat) (g : Nat) (s : State) : exec (.slti d a imm g) s = issue (.slti d a imm g) (finSlti d imm) s := rfl
@[simp] theorem shape_slti (d : Nat) (a : Nat) (imm : Nat) (g : Nat) : Instr.shape (.slti d a imm g) = { g := g, opa := some a, imm := some (13, imm), wr := [.w d] } := rfl
theorem exec_sltiu (d : Nat) (a : Nat) (imm : Nat) (g : Nat) (s : State) : exec (.sltiu d a imm g) s = issue (.sltiu d a imm g) (finSltiu d imm) s := rfl
@[simp] theorem shape_sltiu (d : Nat) (a : Nat) (imm : Nat) (g : Nat) : Instr.shape (.sltiu d a imm g) = { g := g, opa := some a, imm := some (13, imm), wr := [.w d] } := rfl
theorem exec_slli (d : Nat) (a : Nat) (sh : Nat) (g : Nat) (s : State) : exec (.slli d a sh g) s = issue (.slli d a sh g) (finSlli d sh) s := rfl
@[simp] theorem shape_slli (d : Nat) (a : Nat) (_x2 : Nat) (g : Nat) : Instr.shape (.slli d a _x2 g) = { g := g, opa := some a, wr := [.w d] } := rfl
theorem exec_srli (d : Nat) (a : Nat) (sh : Nat) (g : Nat) (s : State) : exec (.srli d a sh g) s = issue (.srli d a sh g) (finSrli d sh) s := rfl
@[simp] theorem shape_srli (d : Nat) (a : Nat) (_x2 : Nat) (g : Nat) : Instr.shape (.srli d a _x2 g) = { g := g, opa := some a, wr := [.w d] } := rfl
theorem exec_srai (d : Nat) (a : Nat) (sh : Nat) (g : Nat) (s : State) : exec (.srai d a sh g) s = issue (.srai d a sh g) (finSrai d sh) s := rfl
@[simp] theorem shape_srai (d : Nat) (a : Nat) (_x2 : Nat) (g : Nat) : Instr.shape (.srai d a _x2 g) = { g := g, opa := some a, wr := [.w d] } := rfl
theorem exec_rori (d : Nat) (a : Nat) (sh : Nat) (g : Nat) (s : State) : exec (.rori d a sh g) s = issue (.rori d a sh g) (finRori d sh) s := rfl
@[simp] theorem shape_rori (d : Nat) (a : Nat) (_x2 : Nat) (g : Nat) : Instr.shape (.rori d a _x2 g) = { g := g, opa := some a, wr := [.w d] } := rfl
theorem exec_movi (d : Nat) (imm : Nat) (g : Nat) (s : State) : exec (.movi d imm g) s = issue (.movi d imm g) (finMovi d imm) s := rfl
@[simp] theorem shape_movi (d : Nat) (imm : Nat) (g : Nat) : Instr.shape (.movi d imm g) = { g := g, imm := some (13, imm), wr := [.w d] } := rfl
theorem exec_qsetEq (d : Nat) (a : Nat) (b : Nat) (g : Nat) (s : State) : exec (.qsetEq d a b g) s = issue (.qsetEq d a b g) (finQsetEq d) s := rfl
@[simp] theorem shape_qsetEq (_x0 : Nat) (a : Nat) (b : Nat) (g : Nat) : Instr.shape (.qsetEq _x0 a b g) = { g := g, opa := some a, opb := some b } := rfl
theorem exec_qsetNe (d : Nat) (a : Nat) (b : Nat) (g : Nat) (s : State) : exec (.qsetNe d a b g) s = issue (.qsetNe d a b g) (finQsetNe d) s := rfl
@[simp] theorem shape_qsetNe (_x0 : Nat) (a : Nat) (b : Nat) (g : Nat) : Instr.shape (.qsetNe _x0 a b g) = { g := g, opa := some a, opb := some b } := rfl
theorem exec_qsetLt (d : Nat) (a : Nat) (b : Nat) (g : Nat) (s : State) : exec (.qsetLt d a b g) s = issue (.qsetLt d a b g) (finQsetLt d) s := rfl
@[simp] theorem shape_qsetLt (_x0 : Nat) (a : Nat) (b : Nat) (g : Nat) : Instr.shape (.qsetLt _x0 a b g) = { g := g, opa := some a, opb := some b } := rfl
theorem exec_qsetGe (d : Nat) (a : Nat) (b : Nat) (g : Nat) (s : State) : exec (.qsetGe d a b g) s = issue (.qsetGe d a b g) (finQsetGe d) s := rfl
@[simp] theorem shape_qsetGe (_x0 : Nat) (a : Nat) (b : Nat) (g : Nat) : Instr.shape (.qsetGe _x0 a b g) = { g := g, opa := some a, opb := some b } := rfl
theorem exec_qsetLtu (d : Nat) (a : Nat) (b : Nat) (g : Nat) (s : State) : exec (.qsetLtu d a b g) s = issue (.qsetLtu d a b g) (finQsetLtu d) s := rfl
@[simp] theorem shape_qsetLtu (_x0 : Nat) (a : Nat) (b : Nat) (g : Nat) : Instr.shape (.qsetLtu _x0 a b g) = { g := g, opa := some a, opb := some b } := rfl
theorem exec_qsetGeu (d : Nat) (a : Nat) (b : Nat) (g : Nat) (s : State) : exec (.qsetGeu d a b g) s = issue (.qsetGeu d a b g) (finQsetGeu d) s := rfl
@[simp] theorem shape_qsetGeu (_x0 : Nat) (a : Nat) (b : Nat) (g : Nat) : Instr.shape (.qsetGeu _x0 a b g) = { g := g, opa := some a, opb := some b } := rfl
theorem exec_qand (d : Nat) (a : Nat) (b : Nat) (g : Nat) (s : State) : exec (.qand d a b g) s = issue (.qand d a b g) (finQand d a b) s := rfl
@[simp] theorem shape_qand (_x0 : Nat) (_x1 : Nat) (_x2 : Nat) (g : Nat) : Instr.shape (.qand _x0 _x1 _x2 g) = { g := g } := rfl
theorem exec_qor (d : Nat) (a : Nat) (b : Nat) (g : Nat) (s : State) : exec (.qor d a b g) s = issue (.qor d a b g) (finQor d a b) s := rfl
@[simp] theorem shape_qor (_x0 : Nat) (_x1 : Nat) (_x2 : Nat) (g : Nat) : Instr.shape (.qor _x0 _x1 _x2 g) = { g := g } := rfl
theorem exec_qxor (d : Nat) (a : Nat) (b : Nat) (g : Nat) (s : State) : exec (.qxor d a b g) s = issue (.qxor d a b g) (finQxor d a b) s := rfl
@[simp] theorem shape_qxor (_x0 : Nat) (_x1 : Nat) (_x2 : Nat) (g : Nat) : Instr.shape (.qxor _x0 _x1 _x2 g) = { g := g } := rfl
theorem exec_qandn (d : Nat) (a : Nat) (b : Nat) (g : Nat) (s : State) : exec (.qandn d a b g) s = issue (.qandn d a b g) (finQandn d a b) s := rfl
@[simp] theorem shape_qandn (_x0 : Nat) (_x1 : Nat) (_x2 : Nat) (g : Nat) : Instr.shape (.qandn _x0 _x1 _x2 g) = { g := g } := rfl
theorem exec_qnot (d : Nat) (a : Nat) (g : Nat) (s : State) : exec (.qnot d a g) s = issue (.qnot d a g) (finQnot d a) s := rfl
@[simp] theorem shape_qnot (_x0 : Nat) (_x1 : Nat) (g : Nat) : Instr.shape (.qnot _x0 _x1 g) = { g := g } := rfl
theorem exec_qtrue (d : Nat) (g : Nat) (s : State) : exec (.qtrue d g) s = issue (.qtrue d g) (finQtrue d) s := rfl
@[simp] theorem shape_qtrue (_x0 : Nat) (g : Nat) : Instr.shape (.qtrue _x0 g) = { g := g } := rfl
theorem exec_qfalse (d : Nat) (g : Nat) (s : State) : exec (.qfalse d g) s = issue (.qfalse d g) (finQfalse d) s := rfl
@[simp] theorem shape_qfalse (_x0 : Nat) (g : Nat) : Instr.shape (.qfalse _x0 g) = { g := g } := rfl
theorem exec_qunres (d : Nat) (g : Nat) (s : State) : exec (.qunres d g) s = issue (.qunres d g) (finQunres d) s := rfl
@[simp] theorem shape_qunres (_x0 : Nat) (g : Nat) : Instr.shape (.qunres _x0 g) = { g := g } := rfl
theorem exec_beq (a : Nat) (b : Nat) (disp : Nat) (s : State) : exec (.beq a b disp) s = jump (.beq a b disp) (jumpBeq disp) s := rfl
@[simp] theorem shape_beq (a : Nat) (b : Nat) (_x2 : Nat) : Instr.shape (.beq a b _x2) = { opa := some a, opb := some b, transfer := true } := rfl
theorem exec_bne (a : Nat) (b : Nat) (disp : Nat) (s : State) : exec (.bne a b disp) s = jump (.bne a b disp) (jumpBne disp) s := rfl
@[simp] theorem shape_bne (a : Nat) (b : Nat) (_x2 : Nat) : Instr.shape (.bne a b _x2) = { opa := some a, opb := some b, transfer := true } := rfl
theorem exec_blt (a : Nat) (b : Nat) (disp : Nat) (s : State) : exec (.blt a b disp) s = jump (.blt a b disp) (jumpBlt disp) s := rfl
@[simp] theorem shape_blt (a : Nat) (b : Nat) (_x2 : Nat) : Instr.shape (.blt a b _x2) = { opa := some a, opb := some b, transfer := true } := rfl
theorem exec_bge (a : Nat) (b : Nat) (disp : Nat) (s : State) : exec (.bge a b disp) s = jump (.bge a b disp) (jumpBge disp) s := rfl
@[simp] theorem shape_bge (a : Nat) (b : Nat) (_x2 : Nat) : Instr.shape (.bge a b _x2) = { opa := some a, opb := some b, transfer := true } := rfl
theorem exec_bltu (a : Nat) (b : Nat) (disp : Nat) (s : State) : exec (.bltu a b disp) s = jump (.bltu a b disp) (jumpBltu disp) s := rfl
@[simp] theorem shape_bltu (a : Nat) (b : Nat) (_x2 : Nat) : Instr.shape (.bltu a b _x2) = { opa := some a, opb := some b, transfer := true } := rfl
theorem exec_bgeu (a : Nat) (b : Nat) (disp : Nat) (s : State) : exec (.bgeu a b disp) s = jump (.bgeu a b disp) (jumpBgeu disp) s := rfl
@[simp] theorem shape_bgeu (a : Nat) (b : Nat) (_x2 : Nat) : Instr.shape (.bgeu a b _x2) = { opa := some a, opb := some b, transfer := true } := rfl
theorem exec_bqt (a : Nat) (disp : Nat) (s : State) : exec (.bqt a disp) s = jump (.bqt a disp) (jumpBqt a disp) s := rfl
@[simp] theorem shape_bqt (_x0 : Nat) (_x1 : Nat) : Instr.shape (.bqt _x0 _x1) = { transfer := true } := rfl
theorem exec_bqf (a : Nat) (disp : Nat) (s : State) : exec (.bqf a disp) s = jump (.bqf a disp) (jumpBqf a disp) s := rfl
@[simp] theorem shape_bqf (_x0 : Nat) (_x1 : Nat) : Instr.shape (.bqf _x0 _x1) = { transfer := true } := rfl
theorem exec_j (disp : Nat) (s : State) : exec (.j disp) s = jump (.j disp) (jumpJ disp) s := rfl
@[simp] theorem shape_j (_x0 : Nat) : Instr.shape (.j _x0) = { transfer := true } := rfl
theorem exec_call (disp : Nat) (s : State) : exec (.call disp) s = jump (.call disp) (jumpCall disp) s := rfl
@[simp] theorem shape_call (_x0 : Nat) : Instr.shape (.call _x0) = { transfer := true, drain := true, call := true, wr := [.w 31] } := rfl
theorem exec_jr (a : Nat) (g : Nat) (s : State) : exec (.jr a g) s = jump (.jr a g) jumpJr s := rfl
@[simp] theorem shape_jr (a : Nat) (g : Nat) : Instr.shape (.jr a g) = { g := g, opa := some a, transfer := true } := rfl
theorem exec_callr (a : Nat) (g : Nat) (s : State) : exec (.callr a g) s = jump (.callr a g) jumpCallr s := rfl
@[simp] theorem shape_callr (a : Nat) (g : Nat) : Instr.shape (.callr a g) = { g := g, opa := some a, transfer := true, drain := true, call := true, wr := [.w 31] } := rfl
theorem exec_ret (g : Nat) (s : State) : exec (.ret g) s = jumpAfter retCheck (.ret g) jumpRet s := rfl
@[simp] theorem shape_ret (g : Nat) : Instr.shape (.ret g) = { g := g, opa := some 15, transfer := true, drain := true, call := true } := rfl
theorem exec_ld (d : Nat) (a : Nat) (off : Nat) (sz : Nat) (home : Nat) (la : Nat) (s : State) : exec (.ld d a off sz home la) s = issue (.ld d a off sz home la) (finLd d off sz) s := rfl
@[simp] theorem shape_ld (d : Nat) (a : Nat) (off : Nat) (_x3 : Nat) (home : Nat) (la : Nat) : Instr.shape (.ld d a off _x3 home la) = { long := true, la := la, opa := some a, imm := some (8, off), home := some home, nt := true, wr := [.w d] } := rfl
theorem exec_ldn (d : Nat) (a : Nat) (off : Nat) (sz : Nat) (home : Nat) (la : Nat) (s : State) : exec (.ldn d a off sz home la) s = issue (.ldn d a off sz home la) (finLdn d off sz) s := rfl
@[simp] theorem shape_ldn (d : Nat) (a : Nat) (off : Nat) (_x3 : Nat) (home : Nat) (la : Nat) : Instr.shape (.ldn d a off _x3 home la) = { long := true, la := la, opa := some a, imm := some (8, off), home := some home, nt := true, wr := [.w d] } := rfl
theorem exec_st (d : Nat) (a : Nat) (off : Nat) (sz : Nat) (home : Nat) (la : Nat) (s : State) : exec (.st d a off sz home la) s = issue (.st d a off sz home la) (finSt off sz) s := rfl
@[simp] theorem shape_st (d : Nat) (a : Nat) (off : Nat) (_x3 : Nat) (home : Nat) (la : Nat) : Instr.shape (.st d a off _x3 home la) = { long := true, la := la, opd := some d, opa := some a, imm := some (8, off), home := some home, nt := true } := rfl
theorem exec_ldv (d : Nat) (a : Nat) (m : Nat) (cls : Nat) (la : Nat) (s : State) : exec (.ldv d a m cls la) s = issue (.ldv d a m cls la) (finLdv d m cls) s := rfl
@[simp] theorem shape_ldv (d : Nat) (a : Nat) (m : Nat) (_x3 : Nat) (la : Nat) : Instr.shape (.ldv d a m _x3 la) = { long := true, la := la, opa := some a, mask := some m, nt := true, wr := [.v d] } := rfl
theorem exec_stv (d : Nat) (a : Nat) (m : Nat) (la : Nat) (s : State) : exec (.stv d a m la) s = issue (.stv d a m la) finStv s := rfl
@[simp] theorem shape_stv (d : Nat) (a : Nat) (m : Nat) (la : Nat) : Instr.shape (.stv d a m la) = { long := true, la := la, opa := some a, mask := some m, va := some (.v d), nt := true } := rfl
theorem exec_ldx (d : Nat) (a : Nat) (la : Nat) (s : State) : exec (.ldx d a la) s = issue (.ldx d a la) (finLdx d) s := rfl
@[simp] theorem shape_ldx (d : Nat) (a : Nat) (la : Nat) : Instr.shape (.ldx d a la) = { long := true, la := la, opa := some a, nt := true, wr := [.x d] } := rfl
theorem exec_ldxSc (d : Nat) (a : Nat) (la : Nat) (s : State) : exec (.ldxSc d a la) s = issue (.ldxSc d a la) (finLdxSc d) s := rfl
@[simp] theorem shape_ldxSc (d : Nat) (a : Nat) (la : Nat) : Instr.shape (.ldxSc d a la) = { long := true, la := la, opa := some a, nt := true, wr := [.x d] } := rfl
theorem exec_stx (d : Nat) (a : Nat) (la : Nat) (s : State) : exec (.stx d a la) s = issue (.stx d a la) (finStx d) s := rfl
@[simp] theorem shape_stx (d : Nat) (a : Nat) (la : Nat) : Instr.shape (.stx d a la) = { long := true, la := la, opa := some a, nt := true, rd := [.x d], ex := [.tile d] } := rfl
theorem exec_stxSc (d : Nat) (a : Nat) (la : Nat) (s : State) : exec (.stxSc d a la) s = issue (.stxSc d a la) (finStxSc d) s := rfl
@[simp] theorem shape_stxSc (d : Nat) (a : Nat) (la : Nat) : Instr.shape (.stxSc d a la) = { long := true, la := la, opa := some a, nt := true, rd := [.x d], ex := [.tile d] } := rfl
theorem exec_gather (d : Nat) (a : Nat) (vi : Nat) (m : Nat) (cls : Nat) (la : Nat) (s : State) : exec (.gather d a vi m cls la) s = issue (.gather d a vi m cls la) (finGather d vi m cls) s := rfl
@[simp] theorem shape_gather (d : Nat) (a : Nat) (vi : Nat) (m : Nat) (_x4 : Nat) (la : Nat) : Instr.shape (.gather d a vi m _x4 la) = { long := true, la := la, opa := some a, mask := some m, va := some (.v vi), nt := true, wr := [.v d] } := rfl
theorem exec_scatter (d : Nat) (a : Nat) (vi : Nat) (m : Nat) (la : Nat) (s : State) : exec (.scatter d a vi m la) s = issue (.scatter d a vi m la) (finScatter vi) s := rfl
@[simp] theorem shape_scatter (d : Nat) (a : Nat) (vi : Nat) (m : Nat) (la : Nat) : Instr.shape (.scatter d a vi m la) = { long := true, la := la, opa := some a, mask := some m, va := some (.v d), vb := some (.v vi), nt := true } := rfl
theorem exec_lds (d : Nat) (a : Nat) (ord : Nat) (scope : Nat) (la : Nat) (s : State) : exec (.lds d a ord scope la) s = issue (.lds d a ord scope la) (finLds d ord scope) s := rfl
@[simp] theorem shape_lds (d : Nat) (a : Nat) (_x2 : Nat) (_x3 : Nat) (la : Nat) : Instr.shape (.lds d a _x2 _x3 la) = { long := true, la := la, opa := some a, wr := [.w d] } := rfl
theorem exec_ldsE (d : Nat) (a : Nat) (ord : Nat) (scope : Nat) (la : Nat) (s : State) : exec (.ldsE d a ord scope la) s = issue (.ldsE d a ord scope la) (finLdsE d ord scope) s := rfl
@[simp] theorem shape_ldsE (d : Nat) (a : Nat) (_x2 : Nat) (_x3 : Nat) (la : Nat) : Instr.shape (.ldsE d a _x2 _x3 la) = { long := true, la := la, opa := some a, wr := [.w d] } := rfl
theorem exec_stf (d : Nat) (a : Nat) (ord : Nat) (scope : Nat) (la : Nat) (s : State) : exec (.stf d a ord scope la) s = issue (.stf d a ord scope la) (finStf ord scope) s := rfl
@[simp] theorem shape_stf (d : Nat) (a : Nat) (_x2 : Nat) (_x3 : Nat) (la : Nat) : Instr.shape (.stf d a _x2 _x3 la) = { long := true, la := la, opd := some d, opa := some a } := rfl
theorem exec_sete (a : Nat) (ord : Nat) (scope : Nat) (la : Nat) (s : State) : exec (.sete a ord scope la) s = issue (.sete a ord scope la) (finSete ord scope) s := rfl
@[simp] theorem shape_sete (a : Nat) (_x1 : Nat) (_x2 : Nat) (la : Nat) : Instr.shape (.sete a _x1 _x2 la) = { long := true, la := la, opa := some a } := rfl
theorem exec_amoSwap (d : Nat) (a : Nat) (sz : Nat) (ord : Nat) (scope : Nat) (la : Nat) (s : State) : exec (.amoSwap d a sz ord scope la) s = issue (.amoSwap d a sz ord scope la) (finAmoSwap d sz ord scope) s := rfl
@[simp] theorem shape_amoSwap (d : Nat) (a : Nat) (_x2 : Nat) (_x3 : Nat) (_x4 : Nat) (la : Nat) : Instr.shape (.amoSwap d a _x2 _x3 _x4 la) = { long := true, la := la, opd := some d, opa := some a, wr := [.w d] } := rfl
theorem exec_amoAdd (d : Nat) (a : Nat) (sz : Nat) (ord : Nat) (scope : Nat) (la : Nat) (s : State) : exec (.amoAdd d a sz ord scope la) s = issue (.amoAdd d a sz ord scope la) (finAmoAdd d sz ord scope) s := rfl
@[simp] theorem shape_amoAdd (d : Nat) (a : Nat) (_x2 : Nat) (_x3 : Nat) (_x4 : Nat) (la : Nat) : Instr.shape (.amoAdd d a _x2 _x3 _x4 la) = { long := true, la := la, opd := some d, opa := some a, wr := [.w d] } := rfl
theorem exec_amoAnd (d : Nat) (a : Nat) (sz : Nat) (ord : Nat) (scope : Nat) (la : Nat) (s : State) : exec (.amoAnd d a sz ord scope la) s = issue (.amoAnd d a sz ord scope la) (finAmoAnd d sz ord scope) s := rfl
@[simp] theorem shape_amoAnd (d : Nat) (a : Nat) (_x2 : Nat) (_x3 : Nat) (_x4 : Nat) (la : Nat) : Instr.shape (.amoAnd d a _x2 _x3 _x4 la) = { long := true, la := la, opd := some d, opa := some a, wr := [.w d] } := rfl
theorem exec_amoOr (d : Nat) (a : Nat) (sz : Nat) (ord : Nat) (scope : Nat) (la : Nat) (s : State) : exec (.amoOr d a sz ord scope la) s = issue (.amoOr d a sz ord scope la) (finAmoOr d sz ord scope) s := rfl
@[simp] theorem shape_amoOr (d : Nat) (a : Nat) (_x2 : Nat) (_x3 : Nat) (_x4 : Nat) (la : Nat) : Instr.shape (.amoOr d a _x2 _x3 _x4 la) = { long := true, la := la, opd := some d, opa := some a, wr := [.w d] } := rfl
theorem exec_amoXor (d : Nat) (a : Nat) (sz : Nat) (ord : Nat) (scope : Nat) (la : Nat) (s : State) : exec (.amoXor d a sz ord scope la) s = issue (.amoXor d a sz ord scope la) (finAmoXor d sz ord scope) s := rfl
@[simp] theorem shape_amoXor (d : Nat) (a : Nat) (_x2 : Nat) (_x3 : Nat) (_x4 : Nat) (la : Nat) : Instr.shape (.amoXor d a _x2 _x3 _x4 la) = { long := true, la := la, opd := some d, opa := some a, wr := [.w d] } := rfl
theorem exec_amoMin (d : Nat) (a : Nat) (sz : Nat) (ord : Nat) (scope : Nat) (la : Nat) (s : State) : exec (.amoMin d a sz ord scope la) s = issue (.amoMin d a sz ord scope la) (finAmoMin d sz ord scope) s := rfl
@[simp] theorem shape_amoMin (d : Nat) (a : Nat) (_x2 : Nat) (_x3 : Nat) (_x4 : Nat) (la : Nat) : Instr.shape (.amoMin d a _x2 _x3 _x4 la) = { long := true, la := la, opd := some d, opa := some a, wr := [.w d] } := rfl
theorem exec_amoMax (d : Nat) (a : Nat) (sz : Nat) (ord : Nat) (scope : Nat) (la : Nat) (s : State) : exec (.amoMax d a sz ord scope la) s = issue (.amoMax d a sz ord scope la) (finAmoMax d sz ord scope) s := rfl
@[simp] theorem shape_amoMax (d : Nat) (a : Nat) (_x2 : Nat) (_x3 : Nat) (_x4 : Nat) (la : Nat) : Instr.shape (.amoMax d a _x2 _x3 _x4 la) = { long := true, la := la, opd := some d, opa := some a, wr := [.w d] } := rfl
theorem exec_amoMinu (d : Nat) (a : Nat) (sz : Nat) (ord : Nat) (scope : Nat) (la : Nat) (s : State) : exec (.amoMinu d a sz ord scope la) s = issue (.amoMinu d a sz ord scope la) (finAmoMinu d sz ord scope) s := rfl
@[simp] theorem shape_amoMinu (d : Nat) (a : Nat) (_x2 : Nat) (_x3 : Nat) (_x4 : Nat) (la : Nat) : Instr.shape (.amoMinu d a _x2 _x3 _x4 la) = { long := true, la := la, opd := some d, opa := some a, wr := [.w d] } := rfl
theorem exec_amoMaxu (d : Nat) (a : Nat) (sz : Nat) (ord : Nat) (scope : Nat) (la : Nat) (s : State) : exec (.amoMaxu d a sz ord scope la) s = issue (.amoMaxu d a sz ord scope la) (finAmoMaxu d sz ord scope) s := rfl
@[simp] theorem shape_amoMaxu (d : Nat) (a : Nat) (_x2 : Nat) (_x3 : Nat) (_x4 : Nat) (la : Nat) : Instr.shape (.amoMaxu d a _x2 _x3 _x4 la) = { long := true, la := la, opd := some d, opa := some a, wr := [.w d] } := rfl
theorem exec_amoFadd (d : Nat) (a : Nat) (sz : Nat) (ord : Nat) (scope : Nat) (la : Nat) (s : State) : exec (.amoFadd d a sz ord scope la) s = issue (.amoFadd d a sz ord scope la) (finAmoFadd d sz ord scope) s := rfl
@[simp] theorem shape_amoFadd (d : Nat) (a : Nat) (_x2 : Nat) (_x3 : Nat) (_x4 : Nat) (la : Nat) : Instr.shape (.amoFadd d a _x2 _x3 _x4 la) = { long := true, la := la, opd := some d, opa := some a, wr := [.w d] } := rfl
theorem exec_amoFaddX (d : Nat) (a : Nat) (ord : Nat) (scope : Nat) (la : Nat) (s : State) : exec (.amoFaddX d a ord scope la) s = issue (.amoFaddX d a ord scope la) (finAmoFaddX ord scope) s := rfl
@[simp] theorem shape_amoFaddX (d : Nat) (a : Nat) (_x2 : Nat) (_x3 : Nat) (la : Nat) : Instr.shape (.amoFaddX d a _x2 _x3 la) = { long := true, la := la, opd := some d, opa := some a } := rfl
theorem exec_amoFmin (d : Nat) (a : Nat) (sz : Nat) (ord : Nat) (scope : Nat) (la : Nat) (s : State) : exec (.amoFmin d a sz ord scope la) s = issue (.amoFmin d a sz ord scope la) (finAmoFmin d sz ord scope) s := rfl
@[simp] theorem shape_amoFmin (d : Nat) (a : Nat) (_x2 : Nat) (_x3 : Nat) (_x4 : Nat) (la : Nat) : Instr.shape (.amoFmin d a _x2 _x3 _x4 la) = { long := true, la := la, opd := some d, opa := some a, wr := [.w d] } := rfl
theorem exec_amoFmax (d : Nat) (a : Nat) (sz : Nat) (ord : Nat) (scope : Nat) (la : Nat) (s : State) : exec (.amoFmax d a sz ord scope la) s = issue (.amoFmax d a sz ord scope la) (finAmoFmax d sz ord scope) s := rfl
@[simp] theorem shape_amoFmax (d : Nat) (a : Nat) (_x2 : Nat) (_x3 : Nat) (_x4 : Nat) (la : Nat) : Instr.shape (.amoFmax d a _x2 _x3 _x4 la) = { long := true, la := la, opd := some d, opa := some a, wr := [.w d] } := rfl
theorem exec_ldo (d : Nat) (a : Nat) (sz : Nat) (acq : Nat) (scope : Nat) (la : Nat) (s : State) : exec (.ldo d a sz acq scope la) s = issue (.ldo d a sz acq scope la) (finLdo d sz) s := rfl
@[simp] theorem shape_ldo (d : Nat) (a : Nat) (_x2 : Nat) (_x3 : Nat) (_x4 : Nat) (la : Nat) : Instr.shape (.ldo d a _x2 _x3 _x4 la) = { long := true, la := la, opa := some a, wr := [.w d] } := rfl
theorem exec_sto (d : Nat) (a : Nat) (sz : Nat) (rel : Nat) (scope : Nat) (la : Nat) (s : State) : exec (.sto d a sz rel scope la) s = issue (.sto d a sz rel scope la) (finSto sz rel scope) s := rfl
@[simp] theorem shape_sto (d : Nat) (a : Nat) (_x2 : Nat) (_x3 : Nat) (_x4 : Nat) (la : Nat) : Instr.shape (.sto d a _x2 _x3 _x4 la) = { long := true, la := la, opd := some d, opa := some a } := rfl
theorem exec_cas (d : Nat) (a : Nat) (sz : Nat) (ord : Nat) (scope : Nat) (la : Nat) (s : State) : exec (.cas d a sz ord scope la) s = issue (.cas d a sz ord scope la) (finCas d sz ord scope) s := rfl
@[simp] theorem shape_cas (d : Nat) (a : Nat) (_x2 : Nat) (_x3 : Nat) (_x4 : Nat) (la : Nat) : Instr.shape (.cas d a _x2 _x3 _x4 la) = { long := true, la := la, opd := some d, opa := some a, opb := some (d + 1), wr := [.w d] } := rfl
theorem exec_fence (ord : Nat) (scope : Nat) (s : State) : exec (.fence ord scope) s = issue (.fence ord scope) (finFence ord scope) s := rfl
@[simp] theorem shape_fence (_x0 : Nat) (_x1 : Nat) : Instr.shape (.fence _x0 _x1) = { long := true, drain := true } := rfl
theorem exec_prefTlb (a : Nat) (off : Nat) (home : Nat) (s : State) : exec (.prefTlb a off home) s = issue (.prefTlb a off home) (finPrefTlb off) s := rfl
@[simp] theorem shape_prefTlb (a : Nat) (_x1 : Nat) (home : Nat) : Instr.shape (.prefTlb a _x1 home) = { long := true, opa := some a, home := some home } := rfl
theorem exec_prefMsc (a : Nat) (off : Nat) (home : Nat) (s : State) : exec (.prefMsc a off home) s = issue (.prefMsc a off home) (finPrefMsc off) s := rfl
@[simp] theorem shape_prefMsc (a : Nat) (_x1 : Nat) (home : Nat) : Instr.shape (.prefMsc a _x1 home) = { long := true, opa := some a, home := some home } := rfl
theorem exec_send (d : Nat) (a : Nat) (b : Nat) (g : Nat) (la : Nat) (s : State) : exec (.send d a b g la) s = issue (.send d a b g la) finSend s := rfl
@[simp] theorem shape_send (d : Nat) (a : Nat) (b : Nat) (g : Nat) (la : Nat) : Instr.shape (.send d a b g la) = { g := g, long := true, la := la, opd := some d, opa := some a, opb := some b } := rfl
theorem exec_sends (d : Nat) (a : Nat) (b : Nat) (g : Nat) (la : Nat) (s : State) : exec (.sends d a b g la) s = issue (.sends d a b g la) finSends s := rfl
@[simp] theorem shape_sends (d : Nat) (a : Nat) (b : Nat) (g : Nat) (la : Nat) : Instr.shape (.sends d a b g la) = { g := g, long := true, la := la, opd := some d, opa := some a, opb := some b } := rfl
theorem exec_hoist (g : Nat) (s : State) : exec (.hoist g) s = issue (.hoist g) finHoist s := rfl
@[simp] theorem shape_hoist (g : Nat) : Instr.shape (.hoist g) = { g := g, long := true } := rfl
theorem exec_strike (g : Nat) (s : State) : exec (.strike g) s = issue (.strike g) finStrike s := rfl
@[simp] theorem shape_strike (g : Nat) : Instr.shape (.strike g) = { g := g, long := true } := rfl
theorem exec_mcmd (d : Nat) (a : Nat) (b : Nat) (g : Nat) (la : Nat) (s : State) : exec (.mcmd d a b g la) s = issue (.mcmd d a b g la) finMcmd s := rfl
@[simp] theorem shape_mcmd (d : Nat) (a : Nat) (b : Nat) (g : Nat) (la : Nat) : Instr.shape (.mcmd d a b g la) = { g := g, long := true, la := la, opd := some d, opa := some a, opb := some b } := rfl
theorem exec_rbwait (d : Nat) (a : Nat) (b : Nat) (g : Nat) (la : Nat) (s : State) : exec (.rbwait d a b g la) s = issue (.rbwait d a b g la) (finRbwait d) s := rfl
@[simp] theorem shape_rbwait (d : Nat) (a : Nat) (b : Nat) (g : Nat) (la : Nat) : Instr.shape (.rbwait d a b g la) = { g := g, long := true, la := la, opa := some a, opb := some b, wr := [.w d] } := rfl
theorem exec_rbadv (a : Nat) (g : Nat) (s : State) : exec (.rbadv a g) s = issue (.rbadv a g) finRbadv s := rfl
@[simp] theorem shape_rbadv (a : Nat) (g : Nat) : Instr.shape (.rbadv a g) = { g := g, long := true, opa := some a } := rfl
theorem exec_stbind (d : Nat) (a : Nat) (b : Nat) (g : Nat) (s : State) : exec (.stbind d a b g) s = issue (.stbind d a b g) finStbind s := rfl
@[simp] theorem shape_stbind (d : Nat) (a : Nat) (b : Nat) (g : Nat) : Instr.shape (.stbind d a b g) = { g := g, long := true, opd := some d, opa := some a, opb := some b } := rfl
theorem exec_stunbind (g : Nat) (s : State) : exec (.stunbind g) s = issue (.stunbind g) finStunbind s := rfl
@[simp] theorem shape_stunbind (g : Nat) : Instr.shape (.stunbind g) = { g := g, long := true } := rfl
theorem exec_cp (d : Nat) (a : Nat) (b : Nat) (g : Nat) (la : Nat) (s : State) : exec (.cp d a b g la) s = issue (.cp d a b g la) finCp s := rfl
@[simp] theorem shape_cp (d : Nat) (a : Nat) (b : Nat) (g : Nat) (la : Nat) : Instr.shape (.cp d a b g la) = { g := g, long := true, la := la, opd := some d, opa := some a, opb := some b, nt := true } := rfl
theorem exec_cp2d (d : Nat) (a : Nat) (b : Nat) (g : Nat) (la : Nat) (s : State) : exec (.cp2d d a b g la) s = issue (.cp2d d a b g la) finCp2d s := rfl
@[simp] theorem shape_cp2d (d : Nat) (a : Nat) (b : Nat) (g : Nat) (la : Nat) : Instr.shape (.cp2d d a b g la) = { g := g, long := true, la := la, opd := some d, opa := some a, opb := some b, nt := true, now := true } := rfl
theorem exec_cpidx (d : Nat) (a : Nat) (b : Nat) (g : Nat) (la : Nat) (s : State) : exec (.cpidx d a b g la) s = issue (.cpidx d a b g la) finCpidx s := rfl
@[simp] theorem shape_cpidx (d : Nat) (a : Nat) (b : Nat) (g : Nat) (la : Nat) : Instr.shape (.cpidx d a b g la) = { g := g, long := true, la := la, opd := some d, opa := some a, opb := some b, nt := true, now := true } := rfl
theorem exec_cpwait (a : Nat) (g : Nat) (la : Nat) (s : State) : exec (.cpwait a g la) s = issue (.cpwait a g la) finCpwait s := rfl
@[simp] theorem shape_cpwait (a : Nat) (g : Nat) (la : Nat) : Instr.shape (.cpwait a g la) = { g := g, long := true, la := la, opa := some a } := rfl
theorem exec_cpredO (d : Nat) (a : Nat) (b : Nat) (g : Nat) (la : Nat) (s : State) : exec (.cpredO d a b g la) s = issue (.cpredO d a b g la) finCpredO s := rfl
@[simp] theorem shape_cpredO (d : Nat) (a : Nat) (b : Nat) (g : Nat) (la : Nat) : Instr.shape (.cpredO d a b g la) = { g := g, long := true, la := la, opd := some d, opa := some a, opb := some b, nt := true } := rfl
theorem exec_cpredU (d : Nat) (a : Nat) (b : Nat) (g : Nat) (la : Nat) (s : State) : exec (.cpredU d a b g la) s = issue (.cpredU d a b g la) finCpredU s := rfl
@[simp] theorem shape_cpredU (d : Nat) (a : Nat) (b : Nat) (g : Nat) (la : Nat) : Instr.shape (.cpredU d a b g la) = { g := g, long := true, la := la, opd := some d, opa := some a, opb := some b, nt := true } := rfl
theorem exec_evpop (d : Nat) (a : Nat) (g : Nat) (s : State) : exec (.evpop d a g) s = issue (.evpop d a g) (finEvpop d a) s := rfl
@[simp] theorem shape_evpop (d : Nat) (a : Nat) (g : Nat) : Instr.shape (.evpop d a g) = { g := g, long := true, wr := [.w d, .w a] } := rfl
theorem exec_evwait (d : Nat) (a : Nat) (b : Nat) (g : Nat) (la : Nat) (s : State) : exec (.evwait d a b g la) s = issue (.evwait d a b g la) (finEvwait d a) s := rfl
@[simp] theorem shape_evwait (d : Nat) (a : Nat) (b : Nat) (g : Nat) (la : Nat) : Instr.shape (.evwait d a b g la) = { g := g, long := true, la := la, opb := some b, wr := [.w d, .w a] } := rfl
theorem exec_evpost (d : Nat) (a : Nat) (b : Nat) (g : Nat) (s : State) : exec (.evpost d a b g) s = issue (.evpost d a b g) finEvpost s := rfl
@[simp] theorem shape_evpost (d : Nat) (a : Nat) (b : Nat) (g : Nat) : Instr.shape (.evpost d a b g) = { g := g, long := true, opd := some d, opa := some a, opb := some b } := rfl
theorem exec_qpost (d : Nat) (a : Nat) (b : Nat) (g : Nat) (la : Nat) (s : State) : exec (.qpost d a b g la) s = issue (.qpost d a b g la) (finQpost d) s := rfl
@[simp] theorem shape_qpost (d : Nat) (a : Nat) (b : Nat) (g : Nat) (la : Nat) : Instr.shape (.qpost d a b g la) = { g := g, long := true, la := la, opa := some a, opb := some b, wr := [.w d], now := true } := rfl
theorem exec_qarm (a : Nat) (b : Nat) (g : Nat) (s : State) : exec (.qarm a b g) s = issue (.qarm a b g) finQarm s := rfl
@[simp] theorem shape_qarm (a : Nat) (b : Nat) (g : Nat) : Instr.shape (.qarm a b g) = { g := g, long := true, opa := some a, opb := some b } := rfl
theorem exec_ctradd (d : Nat) (a : Nat) (b : Nat) (g : Nat) (la : Nat) (s : State) : exec (.ctradd d a b g la) s = issue (.ctradd d a b g la) (finCtradd d) s := rfl
@[simp] theorem shape_ctradd (d : Nat) (a : Nat) (b : Nat) (g : Nat) (la : Nat) : Instr.shape (.ctradd d a b g la) = { g := g, long := true, la := la, opa := some a, opb := some b, wr := [.w d] } := rfl
theorem exec_ctrwait (d : Nat) (a : Nat) (b : Nat) (g : Nat) (la : Nat) (s : State) : exec (.ctrwait d a b g la) s = issue (.ctrwait d a b g la) (finCtrwait d) s := rfl
@[simp] theorem shape_ctrwait (d : Nat) (a : Nat) (b : Nat) (g : Nat) (la : Nat) : Instr.shape (.ctrwait d a b g la) = { g := g, long := true, la := la, opa := some a, opb := some b, wr := [.w d] } := rfl
theorem exec_ctrset (a : Nat) (b : Nat) (g : Nat) (s : State) : exec (.ctrset a b g) s = issue (.ctrset a b g) finCtrset s := rfl
@[simp] theorem shape_ctrset (a : Nat) (b : Nat) (g : Nat) : Instr.shape (.ctrset a b g) = { g := g, long := true, opa := some a, opb := some b } := rfl
theorem exec_vadd (d : Nat) (a : Nat) (b : Nat) (m : Nat) (t : Bool) (s : State) : exec (.vadd d a b m t) s = issue (.vadd d a b m t) (finVadd d a b m t) s := rfl
@[simp] theorem shape_vadd (d : Nat) (a : Nat) (b : Nat) (m : Nat) (_x4 : Bool) : Instr.shape (.vadd d a b m _x4) = { engine := true, va := some (.src a), vb := some (.v b), mask := some m, wr := [.v d] } := rfl
theorem exec_vsub (d : Nat) (a : Nat) (b : Nat) (m : Nat) (t : Bool) (s : State) : exec (.vsub d a b m t) s = issue (.vsub d a b m t) (finVsub d a b m t) s := rfl
@[simp] theorem shape_vsub (d : Nat) (a : Nat) (b : Nat) (m : Nat) (_x4 : Bool) : Instr.shape (.vsub d a b m _x4) = { engine := true, va := some (.src a), vb := some (.v b), mask := some m, wr := [.v d] } := rfl
theorem exec_vmul (d : Nat) (a : Nat) (b : Nat) (m : Nat) (t : Bool) (s : State) : exec (.vmul d a b m t) s = issue (.vmul d a b m t) (finVmul d a b m t) s := rfl
@[simp] theorem shape_vmul (d : Nat) (a : Nat) (b : Nat) (m : Nat) (_x4 : Bool) : Instr.shape (.vmul d a b m _x4) = { engine := true, va := some (.src a), vb := some (.v b), mask := some m, wr := [.v d] } := rfl
theorem exec_vmin (d : Nat) (a : Nat) (b : Nat) (m : Nat) (t : Bool) (s : State) : exec (.vmin d a b m t) s = issue (.vmin d a b m t) (finVmin d a b m t) s := rfl
@[simp] theorem shape_vmin (d : Nat) (a : Nat) (b : Nat) (m : Nat) (_x4 : Bool) : Instr.shape (.vmin d a b m _x4) = { engine := true, va := some (.src a), vb := some (.v b), mask := some m, wr := [.v d] } := rfl
theorem exec_vmax (d : Nat) (a : Nat) (b : Nat) (m : Nat) (t : Bool) (s : State) : exec (.vmax d a b m t) s = issue (.vmax d a b m t) (finVmax d a b m t) s := rfl
@[simp] theorem shape_vmax (d : Nat) (a : Nat) (b : Nat) (m : Nat) (_x4 : Bool) : Instr.shape (.vmax d a b m _x4) = { engine := true, va := some (.src a), vb := some (.v b), mask := some m, wr := [.v d] } := rfl
theorem exec_vabs (d : Nat) (a : Nat) (m : Nat) (t : Bool) (s : State) : exec (.vabs d a m t) s = issue (.vabs d a m t) (finVabs d a m t) s := rfl
@[simp] theorem shape_vabs (d : Nat) (a : Nat) (m : Nat) (_x3 : Bool) : Instr.shape (.vabs d a m _x3) = { engine := true, va := some (.src a), mask := some m, wr := [.v d] } := rfl
theorem exec_vneg (d : Nat) (a : Nat) (m : Nat) (t : Bool) (s : State) : exec (.vneg d a m t) s = issue (.vneg d a m t) (finVneg d a m t) s := rfl
@[simp] theorem shape_vneg (d : Nat) (a : Nat) (m : Nat) (_x3 : Bool) : Instr.shape (.vneg d a m _x3) = { engine := true, va := some (.src a), mask := some m, wr := [.v d] } := rfl
theorem exec_viadd (d : Nat) (a : Nat) (b : Nat) (m : Nat) (t : Bool) (s : State) : exec (.viadd d a b m t) s = issue (.viadd d a b m t) (finViadd d a b m t) s := rfl
@[simp] theorem shape_viadd (d : Nat) (a : Nat) (b : Nat) (m : Nat) (_x4 : Bool) : Instr.shape (.viadd d a b m _x4) = { engine := true, va := some (.src a), vb := some (.v b), mask := some m, wr := [.v d] } := rfl
theorem exec_visub (d : Nat) (a : Nat) (b : Nat) (m : Nat) (t : Bool) (s : State) : exec (.visub d a b m t) s = issue (.visub d a b m t) (finVisub d a b m t) s := rfl
@[simp] theorem shape_visub (d : Nat) (a : Nat) (b : Nat) (m : Nat) (_x4 : Bool) : Instr.shape (.visub d a b m _x4) = { engine := true, va := some (.src a), vb := some (.v b), mask := some m, wr := [.v d] } := rfl
theorem exec_vimul (d : Nat) (a : Nat) (b : Nat) (m : Nat) (t : Bool) (s : State) : exec (.vimul d a b m t) s = issue (.vimul d a b m t) (finVimul d a b m t) s := rfl
@[simp] theorem shape_vimul (d : Nat) (a : Nat) (b : Nat) (m : Nat) (_x4 : Bool) : Instr.shape (.vimul d a b m _x4) = { engine := true, va := some (.src a), vb := some (.v b), mask := some m, wr := [.v d] } := rfl
theorem exec_vimin (d : Nat) (a : Nat) (b : Nat) (m : Nat) (t : Bool) (s : State) : exec (.vimin d a b m t) s = issue (.vimin d a b m t) (finVimin d a b m t) s := rfl
@[simp] theorem shape_vimin (d : Nat) (a : Nat) (b : Nat) (m : Nat) (_x4 : Bool) : Instr.shape (.vimin d a b m _x4) = { engine := true, va := some (.src a), vb := some (.v b), mask := some m, wr := [.v d] } := rfl
theorem exec_vimax (d : Nat) (a : Nat) (b : Nat) (m : Nat) (t : Bool) (s : State) : exec (.vimax d a b m t) s = issue (.vimax d a b m t) (finVimax d a b m t) s := rfl
@[simp] theorem shape_vimax (d : Nat) (a : Nat) (b : Nat) (m : Nat) (_x4 : Bool) : Instr.shape (.vimax d a b m _x4) = { engine := true, va := some (.src a), vb := some (.v b), mask := some m, wr := [.v d] } := rfl
theorem exec_viminu (d : Nat) (a : Nat) (b : Nat) (m : Nat) (t : Bool) (s : State) : exec (.viminu d a b m t) s = issue (.viminu d a b m t) (finViminu d a b m t) s := rfl
@[simp] theorem shape_viminu (d : Nat) (a : Nat) (b : Nat) (m : Nat) (_x4 : Bool) : Instr.shape (.viminu d a b m _x4) = { engine := true, va := some (.src a), vb := some (.v b), mask := some m, wr := [.v d] } := rfl
theorem exec_vimaxu (d : Nat) (a : Nat) (b : Nat) (m : Nat) (t : Bool) (s : State) : exec (.vimaxu d a b m t) s = issue (.vimaxu d a b m t) (finVimaxu d a b m t) s := rfl
@[simp] theorem shape_vimaxu (d : Nat) (a : Nat) (b : Nat) (m : Nat) (_x4 : Bool) : Instr.shape (.vimaxu d a b m _x4) = { engine := true, va := some (.src a), vb := some (.v b), mask := some m, wr := [.v d] } := rfl
theorem exec_viadds (d : Nat) (a : Nat) (b : Nat) (m : Nat) (t : Bool) (s : State) : exec (.viadds d a b m t) s = issue (.viadds d a b m t) (finViadds d a b m t) s := rfl
@[simp] theorem shape_viadds (d : Nat) (a : Nat) (b : Nat) (m : Nat) (_x4 : Bool) : Instr.shape (.viadds d a b m _x4) = { engine := true, va := some (.src a), vb := some (.v b), mask := some m, wr := [.v d] } := rfl
theorem exec_visubs (d : Nat) (a : Nat) (b : Nat) (m : Nat) (t : Bool) (s : State) : exec (.visubs d a b m t) s = issue (.visubs d a b m t) (finVisubs d a b m t) s := rfl
@[simp] theorem shape_visubs (d : Nat) (a : Nat) (b : Nat) (m : Nat) (_x4 : Bool) : Instr.shape (.visubs d a b m _x4) = { engine := true, va := some (.src a), vb := some (.v b), mask := some m, wr := [.v d] } := rfl
theorem exec_vand (d : Nat) (a : Nat) (b : Nat) (m : Nat) (t : Bool) (s : State) : exec (.vand d a b m t) s = issue (.vand d a b m t) (finVand d a m t) s := rfl
@[simp] theorem shape_vand (d : Nat) (a : Nat) (b : Nat) (m : Nat) (_x4 : Bool) : Instr.shape (.vand d a b m _x4) = { engine := true, va := some (.src a), vb := some (.v b), mask := some m, wr := [.v d] } := rfl
theorem exec_vor (d : Nat) (a : Nat) (b : Nat) (m : Nat) (t : Bool) (s : State) : exec (.vor d a b m t) s = issue (.vor d a b m t) (finVor d a m t) s := rfl
@[simp] theorem shape_vor (d : Nat) (a : Nat) (b : Nat) (m : Nat) (_x4 : Bool) : Instr.shape (.vor d a b m _x4) = { engine := true, va := some (.src a), vb := some (.v b), mask := some m, wr := [.v d] } := rfl
theorem exec_vxor (d : Nat) (a : Nat) (b : Nat) (m : Nat) (t : Bool) (s : State) : exec (.vxor d a b m t) s = issue (.vxor d a b m t) (finVxor d a m t) s := rfl
@[simp] theorem shape_vxor (d : Nat) (a : Nat) (b : Nat) (m : Nat) (_x4 : Bool) : Instr.shape (.vxor d a b m _x4) = { engine := true, va := some (.src a), vb := some (.v b), mask := some m, wr := [.v d] } := rfl
theorem exec_vsll (d : Nat) (a : Nat) (b : Nat) (m : Nat) (t : Bool) (s : State) : exec (.vsll d a b m t) s = issue (.vsll d a b m t) (finVsll d a m t) s := rfl
@[simp] theorem shape_vsll (d : Nat) (a : Nat) (b : Nat) (m : Nat) (_x4 : Bool) : Instr.shape (.vsll d a b m _x4) = { engine := true, va := some (.src a), vb := some (.v b), mask := some m, wr := [.v d] } := rfl
theorem exec_vsrl (d : Nat) (a : Nat) (b : Nat) (m : Nat) (t : Bool) (s : State) : exec (.vsrl d a b m t) s = issue (.vsrl d a b m t) (finVsrl d a m t) s := rfl
@[simp] theorem shape_vsrl (d : Nat) (a : Nat) (b : Nat) (m : Nat) (_x4 : Bool) : Instr.shape (.vsrl d a b m _x4) = { engine := true, va := some (.src a), vb := some (.v b), mask := some m, wr := [.v d] } := rfl
theorem exec_vsra (d : Nat) (a : Nat) (b : Nat) (m : Nat) (t : Bool) (s : State) : exec (.vsra d a b m t) s = issue (.vsra d a b m t) (finVsra d a m t) s := rfl
@[simp] theorem shape_vsra (d : Nat) (a : Nat) (b : Nat) (m : Nat) (_x4 : Bool) : Instr.shape (.vsra d a b m _x4) = { engine := true, va := some (.src a), vb := some (.v b), mask := some m, wr := [.v d] } := rfl
theorem exec_vfcmpEq (d : Nat) (a : Nat) (b : Nat) (m : Nat) (t : Bool) (s : State) : exec (.vfcmpEq d a b m t) s = issue (.vfcmpEq d a b m t) (finVfcmpEq d a b t) s := rfl
@[simp] theorem shape_vfcmpEq (d : Nat) (a : Nat) (b : Nat) (m : Nat) (_x4 : Bool) : Instr.shape (.vfcmpEq d a b m _x4) = { engine := true, va := some (.src a), vb := some (.v b), mask := some m, wr := [.m d], ex := [.mask d] } := rfl
theorem exec_vfcmpLt (d : Nat) (a : Nat) (b : Nat) (m : Nat) (t : Bool) (s : State) : exec (.vfcmpLt d a b m t) s = issue (.vfcmpLt d a b m t) (finVfcmpLt d a b t) s := rfl
@[simp] theorem shape_vfcmpLt (d : Nat) (a : Nat) (b : Nat) (m : Nat) (_x4 : Bool) : Instr.shape (.vfcmpLt d a b m _x4) = { engine := true, va := some (.src a), vb := some (.v b), mask := some m, wr := [.m d], ex := [.mask d] } := rfl
theorem exec_vfcmpLe (d : Nat) (a : Nat) (b : Nat) (m : Nat) (t : Bool) (s : State) : exec (.vfcmpLe d a b m t) s = issue (.vfcmpLe d a b m t) (finVfcmpLe d a b t) s := rfl
@[simp] theorem shape_vfcmpLe (d : Nat) (a : Nat) (b : Nat) (m : Nat) (_x4 : Bool) : Instr.shape (.vfcmpLe d a b m _x4) = { engine := true, va := some (.src a), vb := some (.v b), mask := some m, wr := [.m d], ex := [.mask d] } := rfl
theorem exec_vfcmpUn (d : Nat) (a : Nat) (b : Nat) (m : Nat) (t : Bool) (s : State) : exec (.vfcmpUn d a b m t) s = issue (.vfcmpUn d a b m t) (finVfcmpUn d a b t) s := rfl
@[simp] theorem shape_vfcmpUn (d : Nat) (a : Nat) (b : Nat) (m : Nat) (_x4 : Bool) : Instr.shape (.vfcmpUn d a b m _x4) = { engine := true, va := some (.src a), vb := some (.v b), mask := some m, wr := [.m d], ex := [.mask d] } := rfl
theorem exec_vicmpEq (d : Nat) (a : Nat) (b : Nat) (m : Nat) (t : Bool) (s : State) : exec (.vicmpEq d a b m t) s = issue (.vicmpEq d a b m t) (finVicmpEq d a b t) s := rfl
@[simp] theorem shape_vicmpEq (d : Nat) (a : Nat) (b : Nat) (m : Nat) (_x4 : Bool) : Instr.shape (.vicmpEq d a b m _x4) = { engine := true, va := some (.src a), vb := some (.v b), mask := some m, wr := [.m d], ex := [.mask d] } := rfl
theorem exec_vicmpLt (d : Nat) (a : Nat) (b : Nat) (m : Nat) (t : Bool) (s : State) : exec (.vicmpLt d a b m t) s = issue (.vicmpLt d a b m t) (finVicmpLt d a b t) s := rfl
@[simp] theorem shape_vicmpLt (d : Nat) (a : Nat) (b : Nat) (m : Nat) (_x4 : Bool) : Instr.shape (.vicmpLt d a b m _x4) = { engine := true, va := some (.src a), vb := some (.v b), mask := some m, wr := [.m d], ex := [.mask d] } := rfl
theorem exec_vicmpLtu (d : Nat) (a : Nat) (b : Nat) (m : Nat) (t : Bool) (s : State) : exec (.vicmpLtu d a b m t) s = issue (.vicmpLtu d a b m t) (finVicmpLtu d a b t) s := rfl
@[simp] theorem shape_vicmpLtu (d : Nat) (a : Nat) (b : Nat) (m : Nat) (_x4 : Bool) : Instr.shape (.vicmpLtu d a b m _x4) = { engine := true, va := some (.src a), vb := some (.v b), mask := some m, wr := [.m d], ex := [.mask d] } := rfl
theorem exec_vmov (d : Nat) (a : Nat) (m : Nat) (t : Bool) (s : State) : exec (.vmov d a m t) s = issue (.vmov d a m t) (finVmov d a m t) s := rfl
@[simp] theorem shape_vmov (d : Nat) (a : Nat) (m : Nat) (_x3 : Bool) : Instr.shape (.vmov d a m _x3) = { engine := true, va := some (.src a), mask := some m, wr := [.v d] } := rfl
theorem exec_vsplat (d : Nat) (a : Nat) (m : Nat) (t : Bool) (s : State) : exec (.vsplat d a m t) s = issue (.vsplat d a m t) (finVsplat d t) s := rfl
@[simp] theorem shape_vsplat (d : Nat) (a : Nat) (m : Nat) (_x3 : Bool) : Instr.shape (.vsplat d a m _x3) = { engine := true, opa := some a, mask := some m, wr := [.v d] } := rfl
theorem exec_vext (d : Nat) (a : Nat) (b : Nat) (m : Nat) (t : Bool) (s : State) : exec (.vext d a b m t) s = issue (.vext d a b m t) (finVext d a t) s := rfl
@[simp] theorem shape_vext (d : Nat) (a : Nat) (b : Nat) (_x3 : Nat) (_x4 : Bool) : Instr.shape (.vext d a b _x3 _x4) = { engine := true, va := some (.src a), opb := some b, wr := [.w d] } := rfl
theorem exec_vins (d : Nat) (a : Nat) (b : Nat) (m : Nat) (t : Bool) (s : State) : exec (.vins d a b m t) s = issue (.vins d a b m t) (finVins d t) s := rfl
@[simp] theorem shape_vins (d : Nat) (a : Nat) (b : Nat) (m : Nat) (_x4 : Bool) : Instr.shape (.vins d a b m _x4) = { engine := true, opa := some a, opb := some b, mask := some m, rd := [.v d], wr := [.v d] } := rfl
theorem exec_vsel (d : Nat) (a : Nat) (b : Nat) (m : Nat) (t : Bool) (s : State) : exec (.vsel d a b m t) s = issue (.vsel d a b m t) (finVsel d a b t) s := rfl
@[simp] theorem shape_vsel (d : Nat) (a : Nat) (b : Nat) (m : Nat) (_x4 : Bool) : Instr.shape (.vsel d a b m _x4) = { engine := true, va := some (.src a), vb := some (.v b), rd := [.m m], wr := [.v d], ex := [.mask m] } := rfl
theorem exec_vperm (d : Nat) (a : Nat) (b : Nat) (m : Nat) (t : Bool) (s : State) : exec (.vperm d a b m t) s = issue (.vperm d a b m t) (finVperm d a b m t) s := rfl
@[simp] theorem shape_vperm (d : Nat) (a : Nat) (b : Nat) (m : Nat) (_x4 : Bool) : Instr.shape (.vperm d a b m _x4) = { engine := true, va := some (.src a), vb := some (.v b), mask := some m, wr := [.v d] } := rfl
theorem exec_vdiv (d : Nat) (a : Nat) (b : Nat) (m : Nat) (p : Nat) (la : Nat) (s : State) : exec (.vdiv d a b m p la) s = issue (.vdiv d a b m p la) (finVdiv d a b m p) s := rfl
@[simp] theorem shape_vdiv (d : Nat) (a : Nat) (b : Nat) (m : Nat) (_x4 : Nat) (la : Nat) : Instr.shape (.vdiv d a b m _x4 la) = { engine := true, long := true, la := la, va := some (.src a), vb := some (.v b), mask := some m, wr := [.v d] } := rfl
theorem exec_vsqrt (d : Nat) (a : Nat) (m : Nat) (p : Nat) (la : Nat) (s : State) : exec (.vsqrt d a m p la) s = issue (.vsqrt d a m p la) (finVsqrt d a m p) s := rfl
@[simp] theorem shape_vsqrt (d : Nat) (a : Nat) (m : Nat) (_x3 : Nat) (la : Nat) : Instr.shape (.vsqrt d a m _x3 la) = { engine := true, long := true, la := la, va := some (.src a), mask := some m, wr := [.v d] } := rfl
theorem exec_vrcp (d : Nat) (a : Nat) (m : Nat) (p : Nat) (la : Nat) (s : State) : exec (.vrcp d a m p la) s = issue (.vrcp d a m p la) (finVrcp d a m p) s := rfl
@[simp] theorem shape_vrcp (d : Nat) (a : Nat) (m : Nat) (_x3 : Nat) (la : Nat) : Instr.shape (.vrcp d a m _x3 la) = { engine := true, long := true, la := la, va := some (.src a), mask := some m, wr := [.v d] } := rfl
theorem exec_vexp2 (d : Nat) (a : Nat) (m : Nat) (la : Nat) (s : State) : exec (.vexp2 d a m la) s = issue (.vexp2 d a m la) (finVexp2 d a m) s := rfl
@[simp] theorem shape_vexp2 (d : Nat) (a : Nat) (m : Nat) (la : Nat) : Instr.shape (.vexp2 d a m la) = { engine := true, long := true, la := la, va := some (.src a), mask := some m, wr := [.v d] } := rfl
theorem exec_vlog2 (d : Nat) (a : Nat) (m : Nat) (la : Nat) (s : State) : exec (.vlog2 d a m la) s = issue (.vlog2 d a m la) (finVlog2 d a m) s := rfl
@[simp] theorem shape_vlog2 (d : Nat) (a : Nat) (m : Nat) (la : Nat) : Instr.shape (.vlog2 d a m la) = { engine := true, long := true, la := la, va := some (.src a), mask := some m, wr := [.v d] } := rfl
theorem exec_vraddO (d : Nat) (a : Nat) (m : Nat) (t : Bool) (s : State) : exec (.vraddO d a m t) s = issue (.vraddO d a m t) (finVraddO d a t) s := rfl
@[simp] theorem shape_vraddO (d : Nat) (a : Nat) (m : Nat) (_x3 : Bool) : Instr.shape (.vraddO d a m _x3) = { engine := true, va := some (.src a), mask := some m, wr := [.w d] } := rfl
theorem exec_vraddU (d : Nat) (a : Nat) (m : Nat) (t : Bool) (s : State) : exec (.vraddU d a m t) s = issue (.vraddU d a m t) (finVraddU d a t) s := rfl
@[simp] theorem shape_vraddU (d : Nat) (a : Nat) (m : Nat) (_x3 : Bool) : Instr.shape (.vraddU d a m _x3) = { engine := true, va := some (.src a), mask := some m, wr := [.w d] } := rfl
theorem exec_vrmin (d : Nat) (a : Nat) (m : Nat) (t : Bool) (s : State) : exec (.vrmin d a m t) s = issue (.vrmin d a m t) (finVrmin d a t) s := rfl
@[simp] theorem shape_vrmin (d : Nat) (a : Nat) (m : Nat) (_x3 : Bool) : Instr.shape (.vrmin d a m _x3) = { engine := true, va := some (.src a), mask := some m, wr := [.w d] } := rfl
theorem exec_vrmax (d : Nat) (a : Nat) (m : Nat) (t : Bool) (s : State) : exec (.vrmax d a m t) s = issue (.vrmax d a m t) (finVrmax d a t) s := rfl
@[simp] theorem shape_vrmax (d : Nat) (a : Nat) (m : Nat) (_x3 : Bool) : Instr.shape (.vrmax d a m _x3) = { engine := true, va := some (.src a), mask := some m, wr := [.w d] } := rfl
theorem exec_vscanO (d : Nat) (a : Nat) (b : Nat) (m : Nat) (t : Bool) (s : State) : exec (.vscanO d a b m t) s = issue (.vscanO d a b m t) (finVscanO d a m t) s := rfl
@[simp] theorem shape_vscanO (d : Nat) (a : Nat) (_x2 : Nat) (m : Nat) (_x4 : Bool) : Instr.shape (.vscanO d a _x2 m _x4) = { engine := true, va := some (.src a), mask := some m, wr := [.v d] } := rfl
theorem exec_vscanU (d : Nat) (a : Nat) (b : Nat) (m : Nat) (t : Bool) (s : State) : exec (.vscanU d a b m t) s = issue (.vscanU d a b m t) (finVscanU d a m t) s := rfl
@[simp] theorem shape_vscanU (d : Nat) (a : Nat) (_x2 : Nat) (m : Nat) (_x4 : Bool) : Instr.shape (.vscanU d a _x2 m _x4) = { engine := true, va := some (.src a), mask := some m, wr := [.v d] } := rfl
theorem exec_viradd (d : Nat) (a : Nat) (m : Nat) (t : Bool) (s : State) : exec (.viradd d a m t) s = issue (.viradd d a m t) (finViradd d a t) s := rfl
@[simp] theorem shape_viradd (d : Nat) (a : Nat) (m : Nat) (_x3 : Bool) : Instr.shape (.viradd d a m _x3) = { engine := true, va := some (.src a), mask := some m, wr := [.w d] } := rfl
theorem exec_vcvtRne (d : Nat) (a : Nat) (b : Nat) (m : Nat) (t : Bool) (s : State) : exec (.vcvtRne d a b m t) s = issue (.vcvtRne d a b m t) (finVcvtRne d a b m t) s := rfl
@[simp] theorem shape_vcvtRne (d : Nat) (a : Nat) (_x2 : Nat) (m : Nat) (_x4 : Bool) : Instr.shape (.vcvtRne d a _x2 m _x4) = { engine := true, va := some (.src a), mask := some m, wr := [.v d] } := rfl
theorem exec_vcvtRtz (d : Nat) (a : Nat) (b : Nat) (m : Nat) (t : Bool) (s : State) : exec (.vcvtRtz d a b m t) s = issue (.vcvtRtz d a b m t) (finVcvtRtz d a b m t) s := rfl
@[simp] theorem shape_vcvtRtz (d : Nat) (a : Nat) (_x2 : Nat) (m : Nat) (_x4 : Bool) : Instr.shape (.vcvtRtz d a _x2 m _x4) = { engine := true, va := some (.src a), mask := some m, wr := [.v d] } := rfl
theorem exec_vcvtRdn (d : Nat) (a : Nat) (b : Nat) (m : Nat) (t : Bool) (s : State) : exec (.vcvtRdn d a b m t) s = issue (.vcvtRdn d a b m t) (finVcvtRdn d a b m t) s := rfl
@[simp] theorem shape_vcvtRdn (d : Nat) (a : Nat) (_x2 : Nat) (m : Nat) (_x4 : Bool) : Instr.shape (.vcvtRdn d a _x2 m _x4) = { engine := true, va := some (.src a), mask := some m, wr := [.v d] } := rfl
theorem exec_vcvtRup (d : Nat) (a : Nat) (b : Nat) (m : Nat) (t : Bool) (s : State) : exec (.vcvtRup d a b m t) s = issue (.vcvtRup d a b m t) (finVcvtRup d a b m t) s := rfl
@[simp] theorem shape_vcvtRup (d : Nat) (a : Nat) (_x2 : Nat) (m : Nat) (_x4 : Bool) : Instr.shape (.vcvtRup d a _x2 m _x4) = { engine := true, va := some (.src a), mask := some m, wr := [.v d] } := rfl
theorem exec_vcvtSr (d : Nat) (a : Nat) (b : Nat) (f : Nat) (t : Bool) (s : State) : exec (.vcvtSr d a b f t) s = issue (.vcvtSr d a b f t) (finVcvtSr d a f t) s := rfl
@[simp] theorem shape_vcvtSr (d : Nat) (a : Nat) (b : Nat) (_x3 : Nat) (_x4 : Bool) : Instr.shape (.vcvtSr d a b _x3 _x4) = { engine := true, va := some (.src a), vb := some (.v b), wr := [.v d] } := rfl
theorem exec_vpackb (d : Nat) (a : Nat) (b : Nat) (m : Nat) (t : Bool) (s : State) : exec (.vpackb d a b m t) s = issue (.vpackb d a b m t) (finVpackb d a b t) s := rfl
@[simp] theorem shape_vpackb (d : Nat) (a : Nat) (_x2 : Nat) (m : Nat) (_x4 : Bool) : Instr.shape (.vpackb d a _x2 m _x4) = { engine := true, va := some (.src a), rd := [.m m], wr := [.v d], ex := [.mask m] } := rfl
theorem exec_vunpackb (d : Nat) (a : Nat) (b : Nat) (m : Nat) (t : Bool) (s : State) : exec (.vunpackb d a b m t) s = issue (.vunpackb d a b m t) (finVunpackb d a b m t) s := rfl
@[simp] theorem shape_vunpackb (d : Nat) (a : Nat) (_x2 : Nat) (m : Nat) (_x4 : Bool) : Instr.shape (.vunpackb d a _x2 m _x4) = { engine := true, va := some (.src a), mask := some m, wr := [.v d] } := rfl
theorem exec_vftoi (d : Nat) (a : Nat) (m : Nat) (t : Bool) (s : State) : exec (.vftoi d a m t) s = issue (.vftoi d a m t) (finVftoi d a m t) s := rfl
@[simp] theorem shape_vftoi (d : Nat) (a : Nat) (m : Nat) (_x3 : Bool) : Instr.shape (.vftoi d a m _x3) = { engine := true, va := some (.src a), mask := some m, wr := [.v d] } := rfl
theorem exec_vitof (d : Nat) (a : Nat) (m : Nat) (t : Bool) (s : State) : exec (.vitof d a m t) s = issue (.vitof d a m t) (finVitof d a m t) s := rfl
@[simp] theorem shape_vitof (d : Nat) (a : Nat) (m : Nat) (_x3 : Bool) : Instr.shape (.vitof d a m _x3) = { engine := true, va := some (.src a), mask := some m, wr := [.v d] } := rfl
theorem exec_vfma (d : Nat) (a : Nat) (b : Nat) (m : Nat) (t : Bool) (s : State) : exec (.vfma d a b m t) s = issue (.vfma d a b m t) (finVfma d a b m t) s := rfl
@[simp] theorem shape_vfma (d : Nat) (a : Nat) (b : Nat) (m : Nat) (_x4 : Bool) : Instr.shape (.vfma d a b m _x4) = { engine := true, va := some (.src a), vb := some (.v b), mask := some m, rd := [.v d], wr := [.v d] } := rfl
theorem exec_vfms (d : Nat) (a : Nat) (b : Nat) (m : Nat) (t : Bool) (s : State) : exec (.vfms d a b m t) s = issue (.vfms d a b m t) (finVfms d a b m t) s := rfl
@[simp] theorem shape_vfms (d : Nat) (a : Nat) (b : Nat) (m : Nat) (_x4 : Bool) : Instr.shape (.vfms d a b m _x4) = { engine := true, va := some (.src a), vb := some (.v b), mask := some m, rd := [.v d], wr := [.v d] } := rfl
theorem exec_vfnma (d : Nat) (a : Nat) (b : Nat) (m : Nat) (t : Bool) (s : State) : exec (.vfnma d a b m t) s = issue (.vfnma d a b m t) (finVfnma d a b m t) s := rfl
@[simp] theorem shape_vfnma (d : Nat) (a : Nat) (b : Nat) (m : Nat) (_x4 : Bool) : Instr.shape (.vfnma d a b m _x4) = { engine := true, va := some (.src a), vb := some (.v b), mask := some m, rd := [.v d], wr := [.v d] } := rfl
theorem exec_vfnms (d : Nat) (a : Nat) (b : Nat) (m : Nat) (t : Bool) (s : State) : exec (.vfnms d a b m t) s = issue (.vfnms d a b m t) (finVfnms d a b m t) s := rfl
@[simp] theorem shape_vfnms (d : Nat) (a : Nat) (b : Nat) (m : Nat) (_x4 : Bool) : Instr.shape (.vfnms d a b m _x4) = { engine := true, va := some (.src a), vb := some (.v b), mask := some m, rd := [.v d], wr := [.v d] } := rfl
theorem exec_mand (d : Nat) (a : Nat) (b : Nat) (t : Bool) (s : State) : exec (.mand d a b t) s = issue (.mand d a b t) (finMand d t) s := rfl
@[simp] theorem shape_mand (d : Nat) (a : Nat) (b : Nat) (_x3 : Bool) : Instr.shape (.mand d a b _x3) = { engine := true, rd := [.m a, .m b], wr := [.m d], ex := [.mask a, .mask b] } := rfl
theorem exec_mor (d : Nat) (a : Nat) (b : Nat) (t : Bool) (s : State) : exec (.mor d a b t) s = issue (.mor d a b t) (finMor d t) s := rfl
@[simp] theorem shape_mor (d : Nat) (a : Nat) (b : Nat) (_x3 : Bool) : Instr.shape (.mor d a b _x3) = { engine := true, rd := [.m a, .m b], wr := [.m d], ex := [.mask a, .mask b] } := rfl
theorem exec_mxor (d : Nat) (a : Nat) (b : Nat) (t : Bool) (s : State) : exec (.mxor d a b t) s = issue (.mxor d a b t) (finMxor d t) s := rfl
@[simp] theorem shape_mxor (d : Nat) (a : Nat) (b : Nat) (_x3 : Bool) : Instr.shape (.mxor d a b _x3) = { engine := true, rd := [.m a, .m b], wr := [.m d], ex := [.mask a, .mask b] } := rfl
theorem exec_mandn (d : Nat) (a : Nat) (b : Nat) (t : Bool) (s : State) : exec (.mandn d a b t) s = issue (.mandn d a b t) (finMandn d t) s := rfl
@[simp] theorem shape_mandn (d : Nat) (a : Nat) (b : Nat) (_x3 : Bool) : Instr.shape (.mandn d a b _x3) = { engine := true, rd := [.m a, .m b], wr := [.m d], ex := [.mask a, .mask b] } := rfl
theorem exec_mnot (d : Nat) (a : Nat) (t : Bool) (s : State) : exec (.mnot d a t) s = issue (.mnot d a t) (finMnot d t) s := rfl
@[simp] theorem shape_mnot (d : Nat) (a : Nat) (_x2 : Bool) : Instr.shape (.mnot d a _x2) = { engine := true, rd := [.m a], wr := [.m d], ex := [.mask a] } := rfl
theorem exec_mpopc (d : Nat) (a : Nat) (t : Bool) (s : State) : exec (.mpopc d a t) s = issue (.mpopc d a t) (finMpopc d t) s := rfl
@[simp] theorem shape_mpopc (d : Nat) (a : Nat) (_x2 : Bool) : Instr.shape (.mpopc d a _x2) = { engine := true, rd := [.m a], wr := [.w d], ex := [.mask a] } := rfl
theorem exec_mma (a : Nat) (b : Nat) (row : Nat) (col : Nat) (s : Nat) (g : Nat) (la : Nat) (st : State) : exec (.mma a b row col s g la) st = issue (.mma a b row col s g la) (finMma a b row col s) st := rfl
@[simp] theorem shape_mma (a : Nat) (b : Nat) (_x2 : Nat) (_x3 : Nat) (s : Nat) (g : Nat) (la : Nat) : Instr.shape (.mma a b _x2 _x3 s g la) = { g := g, long := true, la := la, engine := true, late := .x a :: mxLate b, ex := [.tag a, .tag b, .scale s], now := true } := rfl
theorem exec_mmac (a : Nat) (b : Nat) (row : Nat) (col : Nat) (s : Nat) (g : Nat) (la : Nat) (st : State) : exec (.mmac a b row col s g la) st = issue (.mmac a b row col s g la) (finMmac b row col s) st := rfl
@[simp] theorem shape_mmac (a : Nat) (b : Nat) (_x2 : Nat) (_x3 : Nat) (s : Nat) (g : Nat) (la : Nat) : Instr.shape (.mmac a b _x2 _x3 s g la) = { g := g, long := true, la := la, engine := true, opa := some a, late := mxLate b, ex := [.tag b, .scale s], now := true } := rfl
theorem exec_accz (d : Nat) (g : Nat) (la : Nat) (s : State) : exec (.accz d g la) s = issue (.accz d g la) finAccz s := rfl
@[simp] theorem shape_accz (d : Nat) (g : Nat) (la : Nat) : Instr.shape (.accz d g la) = { g := g, long := true, la := la, engine := true, opd := some d, now := true } := rfl
theorem exec_accld (d : Nat) (a : Nat) (b : Nat) (g : Nat) (la : Nat) (s : State) : exec (.accld d a b g la) s = issue (.accld d a b g la) finAccld s := rfl
@[simp] theorem shape_accld (d : Nat) (a : Nat) (b : Nat) (g : Nat) (la : Nat) : Instr.shape (.accld d a b g la) = { g := g, long := true, la := la, engine := true, opd := some d, opa := some a, opb := some b, now := true } := rfl
theorem exec_accst (d : Nat) (a : Nat) (b : Nat) (g : Nat) (la : Nat) (s : State) : exec (.accst d a b g la) s = issue (.accst d a b g la) finAccst s := rfl
@[simp] theorem shape_accst (d : Nat) (a : Nat) (b : Nat) (g : Nat) (la : Nat) : Instr.shape (.accst d a b g la) = { g := g, long := true, la := la, engine := true, opd := some d, opa := some a, opb := some b, now := true } := rfl
theorem exec_acccvt (d : Nat) (a : Nat) (b : Nat) (g : Nat) (la : Nat) (s : State) : exec (.acccvt d a b g la) s = issue (.acccvt d a b g la) (finAcccvt d b) s := rfl
@[simp] theorem shape_acccvt (d : Nat) (a : Nat) (b : Nat) (g : Nat) (la : Nat) : Instr.shape (.acccvt d a b g la) = { g := g, long := true, la := la, engine := true, opa := some a, wr := [.x d], ex := [.desc b], now := true } := rfl
theorem exec_accmov (d : Nat) (a : Nat) (g : Nat) (la : Nat) (s : State) : exec (.accmov d a g la) s = issue (.accmov d a g la) finAccmov s := rfl
@[simp] theorem shape_accmov (d : Nat) (a : Nat) (g : Nat) (la : Nat) : Instr.shape (.accmov d a g la) = { g := g, long := true, la := la, engine := true, opd := some d, opa := some a, now := true } := rfl
theorem exec_xmov (d : Nat) (a : Nat) (g : Nat) (la : Nat) (s : State) : exec (.xmov d a g la) s = issue (.xmov d a g la) (finXmov d a) s := rfl
@[simp] theorem shape_xmov (d : Nat) (a : Nat) (g : Nat) (la : Nat) : Instr.shape (.xmov d a g la) = { g := g, long := true, la := la, engine := true, late := [.x a], wr := [.x d], ex := [.tag a], now := true } := rfl
theorem exec_xtr (d : Nat) (a : Nat) (g : Nat) (la : Nat) (s : State) : exec (.xtr d a g la) s = issue (.xtr d a g la) (finXtr d a) s := rfl
@[simp] theorem shape_xtr (d : Nat) (a : Nat) (g : Nat) (la : Nat) : Instr.shape (.xtr d a g la) = { g := g, long := true, la := la, engine := true, late := [.x a], wr := [.x d], ex := [.tag a], now := true } := rfl
theorem exec_xzero (d : Nat) (g : Nat) (la : Nat) (s : State) : exec (.xzero d g la) s = issue (.xzero d g la) (finXzero d) s := rfl
@[simp] theorem shape_xzero (d : Nat) (g : Nat) (la : Nat) : Instr.shape (.xzero d g la) = { g := g, long := true, la := la, engine := true, wr := [.x d], ex := [.tag d], now := true } := rfl
theorem exec_xcvt (d : Nat) (a : Nat) (b : Nat) (g : Nat) (la : Nat) (s : State) : exec (.xcvt d a b g la) s = issue (.xcvt d a b g la) (finXcvt d a b) s := rfl
@[simp] theorem shape_xcvt (d : Nat) (a : Nat) (b : Nat) (g : Nat) (la : Nat) : Instr.shape (.xcvt d a b g la) = { g := g, long := true, la := la, engine := true, late := [.x a], wr := [.x d], ex := [.tag a, .desc b], now := true } := rfl
theorem exec_tfact (d : Nat) (a : Nat) (b : Nat) (g : Nat) (la : Nat) (s : State) : exec (.tfact d a b g la) s = issue (.tfact d a b g la) (finTfact d a) s := rfl
@[simp] theorem shape_tfact (d : Nat) (a : Nat) (b : Nat) (g : Nat) (la : Nat) : Instr.shape (.tfact d a b g la) = { g := g, long := true, la := la, engine := true, opb := some b, late := [.x a], wr := [.x d], ex := [.tag a, .piv], now := true } := rfl
theorem exec_tsolve (d : Nat) (a : Nat) (b : Nat) (g : Nat) (la : Nat) (s : State) : exec (.tsolve d a b g la) s = issue (.tsolve d a b g la) (finTsolve d a b) s := rfl
@[simp] theorem shape_tsolve (d : Nat) (a : Nat) (b : Nat) (g : Nat) (la : Nat) : Instr.shape (.tsolve d a b g la) = { g := g, long := true, la := la, engine := true, late := [.x a, .x b], wr := [.x d], ex := [.tag a, .tag b], now := true } := rfl
theorem exec_burst (d : Nat) (g : Nat) (s : State) : exec (.burst d g) s = issue (.burst d g) finBurst s := rfl
@[simp] theorem shape_burst (d : Nat) (g : Nat) : Instr.shape (.burst d g) = { g := g, long := true, engine := true, opd := some d } := rfl
theorem exec_mwait (g : Nat) (s : State) : exec (.mwait g) s = issue (.mwait g) finMwait s := rfl
@[simp] theorem shape_mwait (g : Nat) : Instr.shape (.mwait g) = { g := g, long := true, engine := true } := rfl
theorem exec_rgcfg (d : Nat) (g : Nat) (s : State) : exec (.rgcfg d g) s = issue (.rgcfg d g) finRgcfg s := rfl
@[simp] theorem shape_rgcfg (d : Nat) (g : Nat) : Instr.shape (.rgcfg d g) = { g := g, long := true, opd := some d } := rfl
theorem exec_rgmt (d : Nat) (a : Nat) (b : Nat) (g : Nat) (la : Nat) (s : State) : exec (.rgmt d a b g la) s = issue (.rgmt d a b g la) finRgmt s := rfl
@[simp] theorem shape_rgmt (d : Nat) (a : Nat) (b : Nat) (g : Nat) (la : Nat) : Instr.shape (.rgmt d a b g la) = { g := g, long := true, la := la, opd := some d, opa := some a, opb := some b, now := true } := rfl
theorem exec_rgmtu (d : Nat) (a : Nat) (g : Nat) (la : Nat) (s : State) : exec (.rgmtu d a g la) s = issue (.rgmtu d a g la) finRgmtu s := rfl
@[simp] theorem shape_rgmtu (d : Nat) (a : Nat) (g : Nat) (la : Nat) : Instr.shape (.rgmtu d a g la) = { g := g, long := true, la := la, opd := some d, opa := some a } := rfl
theorem exec_rginj (d : Nat) (a : Nat) (b : Nat) (g : Nat) (la : Nat) (s : State) : exec (.rginj d a b g la) s = issue (.rginj d a b g la) finRginj s := rfl
@[simp] theorem shape_rginj (d : Nat) (a : Nat) (b : Nat) (g : Nat) (la : Nat) : Instr.shape (.rginj d a b g la) = { g := g, long := true, la := la, opd := some d, opa := some a, opb := some b } := rfl
theorem exec_rgstart (d : Nat) (g : Nat) (s : State) : exec (.rgstart d g) s = issue (.rgstart d g) finRgstart s := rfl
@[simp] theorem shape_rgstart (d : Nat) (g : Nat) : Instr.shape (.rgstart d g) = { g := g, long := true, opd := some d } := rfl
theorem exec_rgwait (d : Nat) (a : Nat) (g : Nat) (la : Nat) (s : State) : exec (.rgwait d a g la) s = issue (.rgwait d a g la) (finRgwait d) s := rfl
@[simp] theorem shape_rgwait (d : Nat) (a : Nat) (g : Nat) (la : Nat) : Instr.shape (.rgwait d a g la) = { g := g, long := true, la := la, opa := some a, wr := [.w d] } := rfl
theorem exec_rgstat (d : Nat) (g : Nat) (s : State) : exec (.rgstat d g) s = issue (.rgstat d g) (finRgstat d) s := rfl
@[simp] theorem shape_rgstat (d : Nat) (g : Nat) : Instr.shape (.rgstat d g) = { g := g, long := true, wr := [.w d] } := rfl
theorem exec_rgreinj (d : Nat) (g : Nat) (la : Nat) (s : State) : exec (.rgreinj d g la) s = issue (.rgreinj d g la) finRgreinj s := rfl
@[simp] theorem shape_rgreinj (d : Nat) (g : Nat) (la : Nat) : Instr.shape (.rgreinj d g la) = { g := g, long := true, la := la, opd := some d } := rfl
theorem exec_rgret (g : Nat) (s : State) : exec (.rgret g) s = issue (.rgret g) finRgret s := rfl
@[simp] theorem shape_rgret (g : Nat) : Instr.shape (.rgret g) = { g := g, long := true } := rfl
theorem exec_aucfg (d : Nat) (a : Nat) (g : Nat) (la : Nat) (s : State) : exec (.aucfg d a g la) s = issue (.aucfg d a g la) finAucfg s := rfl
@[simp] theorem shape_aucfg (d : Nat) (a : Nat) (g : Nat) (la : Nat) : Instr.shape (.aucfg d a g la) = { g := g, long := true, la := la, opd := some d, opa := some a } := rfl
theorem exec_prld (d : Nat) (a : Nat) (b : Nat) (g : Nat) (la : Nat) (s : State) : exec (.prld d a b g la) s = issue (.prld d a b g la) finPrld s := rfl
@[simp] theorem shape_prld (d : Nat) (a : Nat) (b : Nat) (g : Nat) (la : Nat) : Instr.shape (.prld d a b g la) = { g := g, long := true, la := la, opd := some d, opa := some a, opb := some b } := rfl
theorem exec_prst (d : Nat) (a : Nat) (b : Nat) (g : Nat) (la : Nat) (s : State) : exec (.prst d a b g la) s = issue (.prst d a b g la) finPrst s := rfl
@[simp] theorem shape_prst (d : Nat) (a : Nat) (b : Nat) (g : Nat) (la : Nat) : Instr.shape (.prst d a b g la) = { g := g, long := true, la := la, opd := some d, opa := some a, opb := some b } := rfl
theorem exec_aubid (d : Nat) (g : Nat) (la : Nat) (s : State) : exec (.aubid d g la) s = issue (.aubid d g la) (finAubid d) s := rfl
@[simp] theorem shape_aubid (d : Nat) (g : Nat) (la : Nat) : Instr.shape (.aubid d g la) = { g := g, long := true, la := la, wr := [.w d] } := rfl
theorem exec_austep (d : Nat) (g : Nat) (la : Nat) (s : State) : exec (.austep d g la) s = issue (.austep d g la) (finAustep d) s := rfl
@[simp] theorem shape_austep (d : Nat) (g : Nat) (la : Nat) : Instr.shape (.austep d g la) = { g := g, long := true, la := la, wr := [.w d] } := rfl
theorem exec_aures (d : Nat) (a : Nat) (g : Nat) (la : Nat) (s : State) : exec (.aures d a g la) s = issue (.aures d a g la) finAures s := rfl
@[simp] theorem shape_aures (d : Nat) (a : Nat) (g : Nat) (la : Nat) : Instr.shape (.aures d a g la) = { g := g, long := true, la := la, opd := some d, opa := some a } := rfl
theorem exec_austat (d : Nat) (a : Nat) (g : Nat) (s : State) : exec (.austat d a g) s = issue (.austat d a g) (finAustat d) s := rfl
@[simp] theorem shape_austat (d : Nat) (a : Nat) (g : Nat) : Instr.shape (.austat d a g) = { g := g, long := true, opa := some a, wr := [.w d] } := rfl
theorem exec_vpjCfg (d : Nat) (g : Nat) (s : State) : exec (.vpjCfg d g) s = issue (.vpjCfg d g) finVpjCfg s := rfl
@[simp] theorem shape_vpjCfg (d : Nat) (g : Nat) : Instr.shape (.vpjCfg d g) = { g := g, long := true, opd := some d, now := true } := rfl
theorem exec_vpj (d : Nat) (a : Nat) (b : Nat) (g : Nat) (la : Nat) (s : State) : exec (.vpj d a b g la) s = issue (.vpj d a b g la) finVpj s := rfl
@[simp] theorem shape_vpj (d : Nat) (a : Nat) (b : Nat) (g : Nat) (la : Nat) : Instr.shape (.vpj d a b g la) = { g := g, long := true, la := la, opd := some d, opa := some a, opb := some b, now := true } := rfl
theorem exec_vpjMrg (d : Nat) (a : Nat) (b : Nat) (g : Nat) (la : Nat) (s : State) : exec (.vpjMrg d a b g la) s = issue (.vpjMrg d a b g la) finVpjMrg s := rfl
@[simp] theorem shape_vpjMrg (d : Nat) (a : Nat) (b : Nat) (g : Nat) (la : Nat) : Instr.shape (.vpjMrg d a b g la) = { g := g, long := true, la := la, opd := some d, opa := some a, opb := some b, now := true } := rfl
theorem exec_vpjRd (d : Nat) (a : Nat) (b : Nat) (g : Nat) (la : Nat) (s : State) : exec (.vpjRd d a b g la) s = issue (.vpjRd d a b g la) finVpjRd s := rfl
@[simp] theorem shape_vpjRd (d : Nat) (a : Nat) (b : Nat) (g : Nat) (la : Nat) : Instr.shape (.vpjRd d a b g la) = { g := g, long := true, la := la, opd := some d, opa := some a, opb := some b, now := true } := rfl
theorem exec_vpjRegen (d : Nat) (a : Nat) (b : Nat) (g : Nat) (la : Nat) (s : State) : exec (.vpjRegen d a b g la) s = issue (.vpjRegen d a b g la) finVpjRegen s := rfl
@[simp] theorem shape_vpjRegen (d : Nat) (a : Nat) (b : Nat) (g : Nat) (la : Nat) : Instr.shape (.vpjRegen d a b g la) = { g := g, long := true, la := la, opd := some d, opa := some a, opb := some b, now := true } := rfl
theorem exec_vpjInit (d : Nat) (g : Nat) (la : Nat) (s : State) : exec (.vpjInit d g la) s = issue (.vpjInit d g la) finVpjInit s := rfl
@[simp] theorem shape_vpjInit (d : Nat) (g : Nat) (la : Nat) : Instr.shape (.vpjInit d g la) = { g := g, long := true, la := la, opd := some d, now := true } := rfl
theorem exec_start (d : Nat) (a : Nat) (b : Nat) (g : Nat) (s : State) : exec (.start d a b g) s = issue (.start d a b g) (finStart d) s := rfl
@[simp] theorem shape_start (d : Nat) (a : Nat) (b : Nat) (g : Nat) : Instr.shape (.start d a b g) = { g := g, long := true, opa := some a, opb := some b, wr := [.w d] } := rfl
theorem exec_exit (g : Nat) (s : State) : exec (.exit g) s = issue (.exit g) finExit s := rfl
@[simp] theorem shape_exit (g : Nat) : Instr.shape (.exit g) = { g := g, long := true } := rfl
theorem exec_yield (a : Nat) (g : Nat) (s : State) : exec (.yield a g) s = issue (.yield a g) finYield s := rfl
@[simp] theorem shape_yield (a : Nat) (g : Nat) : Instr.shape (.yield a g) = { g := g, long := true, opa := some a } := rfl
theorem exec_follow (d : Nat) (a : Nat) (g : Nat) (s : State) : exec (.follow d a g) s = issue (.follow d a g) (finFollow d) s := rfl
@[simp] theorem shape_follow (d : Nat) (a : Nat) (g : Nat) : Instr.shape (.follow d a g) = { g := g, long := true, opa := some a, wr := [.w d] } := rfl
theorem exec_unfollow (g : Nat) (s : State) : exec (.unfollow g) s = issue (.unfollow g) finUnfollow s := rfl
@[simp] theorem shape_unfollow (g : Nat) : Instr.shape (.unfollow g) = { g := g, long := true } := rfl
theorem exec_wid (d : Nat) (a : Nat) (g : Nat) (s : State) : exec (.wid d a g) s = issue (.wid d a g) (finWid d) s := rfl
@[simp] theorem shape_wid (d : Nat) (a : Nat) (g : Nat) : Instr.shape (.wid d a g) = { g := g, long := true, opa := some a, wr := [.w d] } := rfl
theorem exec_pnpush (a : Nat) (g : Nat) (s : State) : exec (.pnpush a g) s = issue (.pnpush a g) finPnpush s := rfl
@[simp] theorem shape_pnpush (a : Nat) (g : Nat) : Instr.shape (.pnpush a g) = { g := g, long := true, opa := some a } := rfl
theorem exec_join (d : Nat) (a : Nat) (g : Nat) (s : State) : exec (.join d a g) s = issue (.join d a g) (finJoin d) s := rfl
@[simp] theorem shape_join (d : Nat) (a : Nat) (g : Nat) : Instr.shape (.join d a g) = { g := g, long := true, opa := some a, wr := [.w d] } := rfl
theorem exec_vote (d : Nat) (a : Nat) (b : Nat) (g : Nat) (s : State) : exec (.vote d a b g) s = issue (.vote d a b g) (finVote d) s := rfl
@[simp] theorem shape_vote (_x0 : Nat) (a : Nat) (b : Nat) (g : Nat) : Instr.shape (.vote _x0 a b g) = { g := g, long := true, drain := true, opa := some a, opb := some b } := rfl
theorem exec_haly (d : Nat) (a : Nat) (b : Nat) (g : Nat) (s : State) : exec (.haly d a b g) s = issue (.haly d a b g) (finHaly d) s := rfl
@[simp] theorem shape_haly (d : Nat) (a : Nat) (b : Nat) (g : Nat) : Instr.shape (.haly d a b g) = { g := g, long := true, drain := true, opa := some a, opb := some b, wr := [.w d] } := rfl
theorem exec_hsum (d : Nat) (a : Nat) (b : Nat) (g : Nat) (s : State) : exec (.hsum d a b g) s = issue (.hsum d a b g) (finHsum d) s := rfl
@[simp] theorem shape_hsum (d : Nat) (a : Nat) (b : Nat) (g : Nat) : Instr.shape (.hsum d a b g) = { g := g, long := true, drain := true, opa := some a, opb := some b, wr := [.w d] } := rfl
theorem exec_lpset (a : Nat) (endOff : Nat) (s : State) : exec (.lpset a endOff) s = jump (.lpset a endOff) (jumpLpset endOff) s := rfl
@[simp] theorem shape_lpset (a : Nat) (_x1 : Nat) : Instr.shape (.lpset a _x1) = { long := true, drain := true, transfer := true, opa := some a } := rfl
theorem exec_lppop (s : State) : exec (.lppop) s = jump (.lppop) jumpLppop s := rfl
@[simp] theorem shape_lppop : Instr.shape (.lppop) = { long := true, drain := true, transfer := true } := rfl
theorem exec_nop (s : State) : exec (.nop) s = issue (.nop) finNop s := rfl
@[simp] theorem shape_nop : Instr.shape (.nop) = {} := rfl

end Sys2Proof.Machine
end

