-- ==== Sys2Proof/Laws/Vector.lean ====
section
/-! SUPPORT. What the vector unit's shared operations write: the elements of a result and its flags. -/

namespace Sys2Proof.Machine

theorem ofLanes_lt (w : Nat) (l : List Nat) : ofLanes w l < 2 ^ (w * l.length) := by
  induction l with
  | nil => simp [ofLanes]
  | cons x r ih =>
    have hx : x % 2 ^ w < 2 ^ w := Nat.mod_lt _ (Nat.two_pow_pos w)
    have he : (2 : Nat) ^ (w * (r.length + 1)) = 2 ^ w * 2 ^ (w * r.length) := by rw [← Nat.pow_add, Nat.mul_add, Nat.mul_one, Nat.add_comm]
    rw [ofLanes, List.length_cons, he]
    calc x % 2 ^ w + 2 ^ w * ofLanes w r < 2 ^ w + 2 ^ w * ofLanes w r := Nat.add_lt_add_right hx _
      _ = 2 ^ w * (ofLanes w r + 1) := by rw [Nat.mul_add, Nat.mul_one, Nat.add_comm]
      _ ≤ 2 ^ w * 2 ^ (w * r.length) := Nat.mul_le_mul_left _ ih

/-- Element `i` of packed lanes. -/
theorem ofLanes_elem (w : Nat) (l : List Nat) (i : Nat) (h : i < l.length) :
    ofLanes w l / 2 ^ (w * i) % 2 ^ w = l[i] % 2 ^ w := by
  induction l generalizing i with
  | nil => simp at h
  | cons x r ih =>
    have hp := Nat.two_pow_pos w
    cases i with
    | zero => simp [ofLanes, Nat.add_mul_mod_self_left]
    | succ i =>
      have h1 : (2 : Nat) ^ (w * (i + 1)) = 2 ^ w * 2 ^ (w * i) := by rw [← Nat.pow_add, Nat.mul_add, Nat.mul_one, Nat.add_comm]
      have h2 : (x % 2 ^ w + 2 ^ w * ofLanes w r) / 2 ^ w = ofLanes w r := by
        rw [Nat.add_mul_div_left _ _ hp, Nat.div_eq_of_lt (Nat.mod_lt _ hp), Nat.zero_add]
      rw [ofLanes, h1, ← Nat.div_div_eq_div_mul, h2]
      simpa using ih i (by simpa using h)

/-- Bit `k` of flags gathered over a list. -/
theorem orFold_bit {α : Type} (f : α → Flags) (l : List α) (a : Flags) (k : Nat) :
    ((l.foldl (fun fl r => fl ||| f r) a).getLsbD k = true ↔ a.getLsbD k = true ∨ ∃ r ∈ l, (f r).getLsbD k = true) := by
  induction l generalizing a with
  | nil => simp
  | cons x r ih => simp [ih, or_assoc]

theorem mapElems_are (c : Nat) (m : W64) (old : Nat) (f : Nat → Nat × Flags) :
    ElemsAre c (elemOn c m) old f (mapElems c m old f).1 (mapElems c m old f).2 := by
  constructor
  · intro j hj
    have := ofLanes_elem (elemW c) (((List.range (elemN c)).map (fun i => if elemOn c m i then f i else (elemOf c old i, 0#5))).map
      (·.1)) j (by simpa using hj)
    simp only [mapElems, elemOf] at *
    rw [this]
    simp only [List.getElem_map, List.getElem_range]
    split
    · rfl
    · simp
  · intro k hk
    simp only [mapElems, orFold_bit, List.mem_map, List.mem_range]
    constructor
    · rintro (h | ⟨r, ⟨i, hi, rfl⟩, h⟩)
      · simp at h
      · split at h
        · exact ⟨i, hi, ‹_›, h⟩
        · simp at h
    · rintro ⟨j, hj, ho, h⟩
      exact .inr ⟨_, ⟨j, hj, rfl⟩, by simpa [ho] using h⟩

theorem ElemsAre.congr {c : Nat} {on : Nat → Bool} {old : Nat} {f g : Nat → Nat × Flags} {v : Nat} {fl : Flags}
    (h : ElemsAre c on old f v fl)
    (hg : ∀ j, j < elemN c → on j = true → (f j).1 % 2 ^ elemW c = (g j).1 % 2 ^ elemW c ∧ (f j).2 = (g j).2) :
    ElemsAre c on old g v fl := by
  constructor
  · intro j hj
    rw [h.1 j hj]
    cases ho : on j
    · simp
    · simp [(hg j hj ho).1]
  · intro k hk
    rw [h.2 k hk]
    constructor <;> rintro ⟨j, hj, ho, h⟩ <;> exact ⟨j, hj, ho, by simpa [(hg j hj ho).2] using h⟩

theorem orFlags_zero (c : Ctx) : c.orFlags 0 = c := by
  unfold Ctx.orFlags
  split <;> simp

@[simp] theorem orFlags_loops (c : Ctx) (f : Flags) : (c.orFlags f).flow = c.flow := by
  unfold Ctx.orFlags
  split <;> rfl

@[simp] theorem orFlags_follow (c : Ctx) (f : Flags) : (c.orFlags f).follow = c.follow := by
  unfold Ctx.orFlags
  split <;> rfl

@[simp] theorem orFlags_vec (c : Ctx) (f : Flags) : (c.orFlags f).vec = c.vec := by
  unfold Ctx.orFlags
  split <;> rfl

@[simp] theorem writeV_loops (c : Ctx) (n v tag : Nat) (t : Bool) : (c.writeV n v tag t).flow.loops = c.flow.loops := by
  cases t <;> rfl

@[simp] theorem writeV_follow (c : Ctx) (n v tag : Nat) (t : Bool) : (c.writeV n v tag t).follow = c.follow := by
  cases t <;> rfl

@[simp] theorem writeM_loops (c : Ctx) (n : Nat) (v : W64) (t : Bool) : (c.writeM n v t).flow.loops = c.flow.loops := by
  cases t <;> rfl

@[simp] theorem writeM_follow (c : Ctx) (n : Nat) (v : W64) (t : Bool) : (c.writeM n v t).follow = c.follow := by
  cases t <;> rfl

@[simp] theorem writeW_loops (c : Ctx) (d : Nat) (v : W64) (t : Bool) : (c.writeW d v t).flow.loops = c.flow.loops := by
  unfold Ctx.writeW
  cases c.wloc d with
  | none => rfl
  | some r =>
    cases t
    · cases r <;> rfl
    · rfl

@[simp] theorem writeW_follow (c : Ctx) (d : Nat) (v : W64) (t : Bool) : (c.writeW d v t).follow = c.follow := by
  unfold Ctx.writeW
  cases c.wloc d with
  | none => rfl
  | some r =>
    cases t
    · cases r <;> rfl
    · rfl

/-- A word that is not long-latency and changes only its context. -/
theorem issue_stepped (s : State) (c : Ctx) (i : Instr) (eff : Eff) (hq : s.quiet = true) (hg : s.guardOk i.shape.g = true)
    (hh : i.shape.home ≠ some 3) (hb : s.cx.level = 0 ∨ i.shape.barred = false) (hl : i.shape.long = false) (hla : i.shape.la = 0)
    (he : eff (s.entryOf i ((encodeNat i).getD 0) i.shape) (s.setCx s.cx.stepped) = .ok (.done, s.setCx c))
    (hlo : c.flow.loops = []) (hf : c.follow = none) : issue i eff s = .next (s.after c) := by
  have e : s.issuedAs i.shape = s.setCx s.cx.stepped := by
    simp [State.issuedAs, Ctx.issue, Ctx.stepped, hl, Flow.drained_none _ _ (s.quiet_gone hq)]
  refine issue_cx s c i eff hq hg hh hb hla ?_ hlo hf
  rw [e]; simpa using he

/-- What `vecOut` writes when its tag check passes. -/
theorem vecOut_run (e : Entry) (s : State) (d m tag : Nat) (t : Bool) (f : Nat → Nat × Flags) (c : Ctx)
   (ht : m = 0 ∨ e.ext.getD 2 (c.vtagOf d) = tag) :
   vecOut e d m tag t f (s.setCx c) = .ok ((), s.setCx (((c.orFlags (mapElems tag e.mask (e.dst c d) f).2)).writeV d (mapElems tag e.mask (e.dst c d) f).1 tag t)) := by
  have : maskedTag m d tag e (s.setCx c) = .ok ((), s.setCx c) := by
    simp only [maskedTag, bind, StateT.bind, Except.bind, getCx, State.cx_setCx]
    have hn : ¬(m ≠ 0 ∧ e.ext.getD 2 (c.vtagOf d) ≠ tag) := fun ⟨a, b⟩ => ht.elim a b
    rw [if_neg hn]
    rfl
  simp [vecOut, bind, StateT.bind, Except.bind, this, getCx, raiseFlags, modCx, wV]

theorem accept_run (e : Entry) (s : State) (a : Nat) (ok : List Nat) (h : ok.contains (e.ta (ok.headD 0)) = true) :
   accept e a ok s = .ok ((), s) := by
  unfold accept
  rw [if_pos h]
  rfl
theorem matchB_run (e : Entry) (s : State) (a w : Nat) (h : e.tb w = w) :
   matchB e a w s = .ok ((), s) := by
  unfold matchB
  rw [if_pos h]
  rfl

/-- The words of two floating operands. -/
theorem fop2_word (s : State) (i : Instr) (d a b m x : Nat) (t : Bool) (f : Fmt → Nat → Nat → Nat × Flags) (hq : s.quiet = true) (hl : s.cx.level = 0)
   (hx : x = 1 ∨ x = 2) (ha : s.vtag a = x) (hb : s.vtag b = x) (hm : m = 0 ∨ s.vtag d = x)
   (hi : i.shape = { engine := true, va := some (.src a), vb := some (.v b), mask := some m, wr := [.v d] }) :
   ∃ v fl, issue i (plain (fun e => fop2 e d a b m t f)) s = .next (s.wroteV d x v t fl) ∧
     ElemsAre x (elemOn x (s.mreg m)) (s.vreg d) (fun j => f (elemFmt x) (elemOf x (s.vreg a) j) (elemOf x (s.vreg b) j)) v fl := by
  obtain ⟨h1, h2, h3, h4, h5, h6, h7, h8⟩ := (State.quiet_iff s).1 hq
  refine ⟨_, _, issue_stepped s _ i _ hq (by simp [hi, State.guardOk]) (by simp [hi]) (.inl hl) (by simp [hi]) (by simp [hi]) ?_ ?_ ?_,
    mapElems_are x (s.mreg m) (s.vreg d) (fun j => f (elemFmt x) (elemOf x (s.vreg a) j) (elemOf x (s.vreg b) j))⟩
  rotate_left 1
  · simpa [Ctx.stepped, Flow.issued] using h3
  · simpa [Ctx.stepped] using h5
  · have hva : (s.entryOf i ((encodeNat i).getD 0) i.shape).ext = [s.vtag a, s.vtag b, s.vtag d, s.vreg d] := by
      simp [State.entryOf, hi, State.vcap, Shape.vdest, Ctx.vdestNow, vtagOf_quiet s _ h4, State.captureEx, h4, Flow.staleTag, State.vreg]
    have hta : ∀ y, (s.entryOf i ((encodeNat i).getD 0) i.shape).ta y = x := by intro y; simp [Entry.ta, hva, ha]
    have htb : ∀ y, (s.entryOf i ((encodeNat i).getD 0) i.shape).tb y = x := by intro y; simp [Entry.tb, hva, hb]
    have hmask : (s.entryOf i ((encodeNat i).getD 0) i.shape).mask = s.mreg m := by simp [State.entryOf, hi]
    have hvav : (s.entryOf i ((encodeNat i).getD 0) i.shape).va = s.vreg a := by simp [State.entryOf, hi, State.vcap]
    have hvbv : (s.entryOf i ((encodeNat i).getD 0) i.shape).vb = s.vreg b := by simp [State.entryOf, hi, State.vcap]
    generalize s.entryOf i ((encodeNat i).getD 0) i.shape = e at *
    have hd : ∀ c : Ctx, e.dst c d = s.vreg d := by intro c; simp [Entry.dst, hva]
    simp only [plain, fop2, bind, StateT.bind, Except.bind]
    rw [accept_run _ _ _ _ (by rcases hx with rfl | rfl <;> simp [hta, floatTag])]
    simp only [hta]
    rw [matchB_run _ _ _ _ (htb _)]
    simp only []
    rw [vecOut_run e s d m x t _ _ (by simpa [hva] using hm)]
    simp [hmask, hvav, hvbv, hd, pure, StateT.pure, Except.pure]

end Sys2Proof.Machine
end

