-- ==== Sys2Proof/Tests/Slice0.lean ====
section
/-! SUPPORT. Tests and witnesses. The expected results are the manual's own examples and encodings, or worked by hand from
its rules; each `wit_` theorem shows a state and operands that meet the hypotheses of a statement. -/

open Sys2Proof Sys2Proof.Machine

namespace Sys2Proof.Tests

set_option Elab.async false

/-! ### Small states -/

/-- Core 0 runs domain 1 at 0x40000, with the first GiB mapped to itself. -/
def demo : State := State.reset.placeWord 0

def cx (f : Ctx → Ctx) (s : State) : State := s.setCx (f s.cx)
def co (f : Core → Core) (s : State) : State := s.setCc (f s.cc)
def adm (f : Admin → Admin) (s : State) : State := { s with admin := f s.admin }

/-- The w registers 1 to 15 of the running context. -/
def rg (l : List (Nat × W64)) (s : State) : State :=
  cx (fun c => { c with rf := { c.rf with common := l.filter (·.1 < 8), base := l.filter (8 ≤ ·.1) } }) s

/-- `n` bytes of memory at a key. -/
def put (a n v : Nat) (s : State) : State := { s with mem := Mem.write s.mem a n v }

/-- An address in the local store of core 0. -/
def ls (o : Nat) : W64 := windowAddr 0 o

/-- The next state of an outcome. -/
def nxt (r : Host.Outcome State Fault Refusal) (s : State) : State :=
  match r with
  | .next t => t
  | _ => s

/-- An instruction answers a next state with a property. -/
def gives (i : Instr) (s : State) (p : State → Bool) : Bool :=
  match exec i s with
  | .next t => p t
  | _ => false

/-- A result is a given value. -/
def okEq {ε α : Type} [DecidableEq α] (e : Except ε α) (a : α) : Bool :=
  match e with
  | .ok b => decide (b = a)
  | .error _ => false

/-- An equation of a result is decided by its value. -/
theorem dok {ε α : Type} [DecidableEq α] {e : Except ε α} {a : α} (h : okEq e a = true) : e = .ok a := by
  cases e <;> simp_all [okEq]

/-- The vector registers of the running context: number, value, tag. -/
def vr (l : List (Nat × Nat × Nat)) (s : State) : State :=
  cx (fun c => { c with vec := { c.vec with v := l.map (fun p => (p.1, p.2.1)), vtag := l.map (fun p => (p.1, p.2.2)) } }) s


/-! ### Decoding: words that the manual writes out beside their fields -/

/-- A word decodes to an instruction, which encodes to it. -/
noncomputable def word (w : Nat) (i : Instr) : Bool :=
  encodeNat i == some w && i.wellFormed && match decodeNat w with
  | .ok j => decide (j = i)
  | .error _ => false

/-- 02 R15, 07 R136-R140. -/
theorem test_words_scalar :
    (word 0x052A5808 (.add 9 10 11 true 0) && word 0x052A5810 (.sub 9 10 11 false 0) &&
    word 0x06119129 (.mulhu 16 17 18 true 1) && word 0x04640130 (.clz 3 4 false 0) && word 0x04A639C0 (.shadd3 5 6 7 false 0) &&
    word 0x0C63FFFA (.addi 3 3 0x1FFF 2) && word 0x20850320 (.sltiu 4 5 100 0) && word 0x10C707F8 (.andi 6 7 0xFF 0) &&
    word 0x250905F8 (.srai 8 9 63 0) && word 0x25090640 (.rori 8 9 8 0) && word 0x28E0FFF0 (.movi 7 0x1FFE 0) &&
    word 0x094B6002 (.div 10 11 12 2) && word 0x09AB6180 (.remu 13 11 12 0) && word 0x2C642820 (.qsetLt 3 4 5 0) &&
    word 0x2C232080 (.qand 1 3 4 0) && word 0x2CC000F0 (.qunres 6 0)) = true := by decide +kernel

/-- 07 R141-R143, 14 R293. -/
theorem test_words_control :
    (word 0x30603FFB (.bne 3 0 0x1FFB) && word 0x30C78008 (.bltu 6 7 8) && word 0x30A0FFFD (.bqf 5 0x1FFD) &&
    word 0x37FFFFF0 (.j 0x3FFFFF0) && word 0x38000100 (.call 0x100) && word 0x3C050000 (.jr 5 0) &&
    word 0x3C140010 (.callr 20 0) && word 0x3C000022 (.ret 2) && word 0xEC028030 (.lpset 5 3) &&
    word 0xEC400000 .lppop && word 0xF8000000 .nop) = true := by decide +kernel

/-- 05 R88, 06 R109-R118. -/
theorem test_words_memory :
    (word 0x41840483 (.ld 12 4 4 2 0 3) && word 0x44690360 (.ldn 3 9 3 1 2 0) && word 0x48A6FFC0 (.st 5 6 0xFF 3 0 0) &&
    word 0x64244000 (.prefMsc 4 64 0) && word 0x4C850042 (.ldv 4 5 1 0 2) && word 0x4C850200 (.stv 4 5 0 0) &&
    word 0x4C670414 (.ldxSc 3 7 4) && word 0x51091483 (.gather 8 9 10 2 0 3) && word 0x51095400 (.scatter 8 9 10 0 0) &&
    word 0x58A614C0 (.amoAdd 5 6 1 1 1 0) && word 0x592AA980 (.amoFaddX 9 10 2 3 0) && word 0x5C640500 (.ldo 3 4 0 1 2 0) &&
    word 0x5C6418C0 (.sto 3 4 1 1 1 0) && word 0x5CC82E40 (.cas 6 8 1 3 4 0) && word 0x60000880 (.fence 2 1) &&
    word 0x60000E00 (.fence 3 4) && word 0x54E804C0 (.lds 7 8 1 1 0) && word 0x54E81540 (.ldsE 7 8 1 2 0) &&
    word 0x552A29C0 (.stf 9 10 2 3 0) && word 0x540A3040 (.sete 10 0 0 0)) = true := by decide +kernel

/-- 04 R67-R74, 05 R79-R93, 17 R328-R331. -/
theorem test_words_engines :
    (word 0x68052B60 (.send 20 21 22 0 0) && word 0x684633A2 (.sends 24 25 26 0 2) && word 0x68980000 (.hoist 3) &&
    word 0x68E00000 (.strike 4) && word 0x690212A0 (.mcmd 8 9 10 0 0) && word 0x6C031A00 (.rbwait 12 13 0 0 0) &&
    word 0x6C401A00 (.rbadv 13 0) && word 0x6C839F00 (.stbind 14 15 16 0) && word 0x6CC00000 (.stunbind 0) &&
    word 0x70052B62 (.cp 20 21 22 0 2) && word 0x701D2B60 (.cp 20 21 22 3 0) && word 0x704212A0 (.cp2d 8 9 10 0 0) &&
    word 0x708212A0 (.cpidx 8 9 10 0 0) && word 0x70C00A00 (.cpwait 5 0 0) && word 0x71031AE1 (.cpredO 12 13 14 0 1) &&
    word 0x71431AE0 (.cpredU 12 13 14 0 0) && word 0x74042200 (.evpop 16 17 0) && word 0x74442320 (.evwait 16 17 18 0 0) &&
    word 0x74810A60 (.evpost 4 5 6 0) && word 0x78010A60 (.qpost 4 5 6 0 0) && word 0x78110A60 (.qpost 4 5 6 2 0) &&
    word 0x78400E80 (.qarm 7 8 0) && word 0x788254B0 (.ctradd 9 10 11 0 0) && word 0x78C31AE0 (.ctrwait 12 13 14 0 0) &&
    word 0x79001F00 (.ctrset 15 16 0)) = true := by decide +kernel

/-- 09 R176-R189. -/
theorem test_words_vector :
    (word 0x80221800 (.vadd 1 2 3 0 false) && word 0x84E848EC (.viadds 7 8 9 3 false) && word 0x888428A0 (.vsra 4 4 5 0 false) &&
    word 0x8C4A5820 (.vfcmpLt 2 10 11 0 false) && word 0x90CC0020 (.vsplat 6 12 0 false) &&
    word 0x9283A842 (.vext 20 3 21 0 true) && word 0x902218A0 (.vperm 1 2 3 0 false) && word 0x95091454 (.vdiv 8 9 10 1 1 4) &&
    word 0x945F4402 (.vexp2 2 31 0 2) && word 0x98A60000 (.vraddO 5 6 0 false) && word 0x98A60020 (.vraddU 5 6 0 false) &&
    word 0x9C641800 (.vcvtRne 3 4 3 0 false) && word 0x9C642898 (.vcvtSr 3 4 5 6 false) && word 0x9D2A10A0 (.vpackb 9 10 2 0 false) &&
    word 0xA085300A (.vfma 4 5 6 2 true) && word 0xA18D7060 (.vfnms 12 13 14 0 false) && word 0xA4221860 (.mandn 1 2 3 false) &&
    word 0xA4C300A0 (.mpopc 6 3 false)) = true := by decide +kernel

/-- 10 R194-R205, 11 R223-R230. -/
theorem test_words_matrix :
    (word 0xC0003A20 (.mma 3 10 0 0 1 0 0) && word 0xC0481261 (.mma 1 2 2 0 3 2 1) && word 0xC11EC402 (.mmac 12 4 7 1 0 0 2) &&
    word 0xC4014000 (.accz 5 0 0) && word 0xC4418E83 (.accld 6 7 8 0 3) && word 0xC4898E80 (.accst 6 7 8 1 0) &&
    word 0xC4C09230 (.acccvt 2 9 3 0 0) && word 0xC5029600 (.accmov 10 11 0 0) && word 0xC8004400 (.xmov 1 2 0 0) &&
    word 0xC8414A01 (.xtr 5 5 0 1) && word 0xC881C000 (.xzero 7 0 0) && word 0xC8C00C50 (.xcvt 0 6 5 0 0) &&
    word 0xCC40C444 (.tsolve 3 2 4 0 4) && word 0xD0010000 (.burst 4 0) && word 0xD0400000 (.mwait 0) &&
    word 0xD4014000 (.rgcfg 5 0) && word 0xD4418E80 (.rgmt 6 7 8 0 0) && word 0xD4825401 (.rgmtu 9 10 0 1) &&
    word 0xD4D31AE0 (.rginj 12 13 14 2 0) && word 0xD5010000 (.rgstart 4 0) && word 0xD543E000 (.rgwait 15 16 0 0) &&
    word 0xD5844000 (.rgstat 17 0) && word 0xD5C48000 (.rgreinj 18 0 0) && word 0xD6000000 (.rgret 0)) = true := by
  decide +kernel

/-- 12 R234, 13 R252, 14 R272-R290. -/
theorem test_words_package :
    (word 0xD8014C00 (.aucfg 5 6 0 0) && word 0xD841D090 (.prld 7 8 9 0 0) && word 0xD881D092 (.prst 7 8 9 0 2) &&
    word 0xD8CA8000 (.aubid 10 1 0) && word 0xD902C000 (.austep 11 0 0) && word 0xD9431A01 (.aures 12 13 0 1) &&
    word 0xD9839E00 (.austat 14 15 0) && word 0xDC010000 (.vpjCfg 4 0) && word 0xDC414C70 (.vpj 5 6 7 0 0) &&
    word 0xDC514C73 (.vpj 5 6 7 2 3) && word 0xDC815090 (.vpjMrg 5 8 9 0 0) && word 0xDCC154B0 (.vpjRd 5 10 11 0 0) &&
    word 0xDD014C70 (.vpjRegen 5 6 7 0 0) && word 0xDD414000 (.vpjInit 5 0 0) && word 0xE0010A60 (.start 4 5 6 0) &&
    word 0xE0500000 (.exit 2) && word 0xE0800600 (.yield 3 0) && word 0xE0C18E00 (.follow 6 7 0) &&
    word 0xE1000000 (.unfollow 0) && word 0xE1429600 (.wid 10 11 0) && word 0xE4001800 (.pnpush 12 0) &&
    word 0xE4435C00 (.join 13 14 0) && word 0xE800C850 (.vote 3 4 5 0) && word 0xE8418E80 (.haly 6 7 8 0) &&
    word 0xE88254B0 (.hsum 9 10 11 0)) = true := by decide +kernel

/-- 02 R23, 07 R124, R133, 18 R348, R349. -/
theorem test_words_system :
    (word 0xF00C0120 (.mfc 6 0x012) && word 0xF04E0100 (.mtc 7 0x010) && word 0xF0D00100 (.mcc 8 0x010) &&
    word 0xF0920410 (.msc 9 0x041) && word 0xF10A1230 (.trap 5 0x123) && word 0xF1400000 .tret && word 0xF18C0010 (.sysc 6 1) &&
    word 0xF1C00070 (.brk 7) && word 0xF2120000 (.halt 9) && word 0xF2540000 (.spillw 10) && word 0xF2800000 .fillw &&
    word 0xF40091A2 (.hintImm 0x91A2)) = true := by decide +kernel

/-- A word that is no instruction is refused for the check it fails. -/
noncomputable def refusedFor (w : Nat) (r : Reject) : Bool :=
  match decodeNat w with
  | .ok _ => false
  | .error q => decide (q = r)

/-- Ill-formed terms, one for each check on fields (02 R16-R18, R23). -/
theorem test_wellFormed_refuses :
    ((Instr.add 32 0 0 false 0).fieldsFit || (Instr.qtrue 0 0).destOk || (Instr.vfcmpEq 0 1 2 0 false).destOk ||
    (Instr.add 0 1 2 true 0).transientOk || (Instr.fence 2 5).scopeOk || (Instr.ldn 1 2 0 3 0 0).constraintOk ||
    (Instr.gather 1 2 3 0 3 0).constraintOk || (Instr.cas 3 2 0 0 0 0).constraintOk || (Instr.fence 0 1).constraintOk ||
    (Instr.mma 0 12 0 0 0 0 0).constraintOk || (Instr.lpset 1 0).constraintOk || (Instr.hintMod 2).constraintOk ||
    (Instr.add 32 0 0 false 0).wellFormed || (Instr.qtrue 0 0).wellFormed || (Instr.add 0 1 2 true 0).wellFormed ||
    (Instr.fence 2 5).wellFormed || (Instr.lpset 1 0).wellFormed) = false := by decide

/-- The same on words: an unassigned major, an unlisted fn, a must-be-zero bit, q0 as destination, t with w0, scope 5 and
LPSET with end 0. -/
theorem test_words_refused :
    (refusedFor 0x00000000 .major && refusedFor 0x7C000000 .major && refusedFor 0xFC000000 .major &&
    refusedFor 0x052A5FF0 .selector && refusedFor 0xF8000001 .mustBeZero && refusedFor 0x2C0000D0 .destination &&
    refusedFor 0x04025808 .transientW0 && refusedFor 0x60000A80 .scope && refusedFor 0xEC028000 .constraint) = true := by
  decide +kernel

/-! ### One step -/

/-- 07 R136: sums wrap, SRA keeps the sign, MULH is the high half of the signed product, MULHU of the unsigned one. -/
theorem test_alu :
    (gives (.add 1 2 3 false 0) (rg [(2, 0xFFFFFFFFFFFFFFFF), (3, 2)] demo) (fun t => t.reg 1 == 1) &&
    gives (.sra 1 2 3 false 0) (rg [(2, 0x8000000000000000), (3, 64 + 4)] demo) (fun t => t.reg 1 == 0xF800000000000000) &&
    gives (.ror 1 2 3 false 0) (rg [(2, 0x123456789ABCDEF0), (3, 8)] demo) (fun t => t.reg 1 == 0xF0123456789ABCDE) &&
    gives (.mulh 1 2 3 false 0) (rg [(2, 0xFFFFFFFFFFFFFFFF), (3, 2)] demo) (fun t => t.reg 1 == 0xFFFFFFFFFFFFFFFF) &&
    gives (.mulhu 1 2 3 false 0) (rg [(2, 0xFFFFFFFFFFFFFFFF), (3, 2)] demo) (fun t => t.reg 1 == 1) &&
    gives (.clz 1 2 false 0) (rg [(2, 0x10)] demo) (fun t => t.reg 1 == 59) &&
    gives (.ctz 1 2 false 0) (rg [(2, 0)] demo) (fun t => t.reg 1 == 64) &&
    gives (.popc 1 2 false 0) (rg [(2, 0xF0F)] demo) (fun t => t.reg 1 == 8) &&
    gives (.sexth 1 2 false 0) (rg [(2, 0x18000)] demo) (fun t => t.reg 1 == 0xFFFFFFFFFFFF8000) &&
    gives (.shadd3 1 2 3 false 0) (rg [(2, 5), (3, 2)] demo) (fun t => t.reg 1 == 42) &&
    gives (.sltiu 1 2 0x1FFF 0) (rg [(2, 7)] demo) (fun t => t.reg 1 == 1) &&
    gives (.slt 1 2 3 false 0) (rg [(2, 0xFFFFFFFFFFFFFFFF), (3, 0)] demo) (fun t => t.reg 1 == 1) &&
    gives (.sltu 1 2 3 false 0) (rg [(2, 0xFFFFFFFFFFFFFFFF), (3, 0)] demo) (fun t => t.reg 1 == 0)) = true := by
  decide +kernel

/-- The example of 07 R139: w11 = -7 and w12 = 2, then w12 = 0. -/
theorem test_division :
    (gives (.div 1 11 12 0) (rg [(11, 0xFFFFFFFFFFFFFFF9), (12, 2)] demo) (fun t => t.reg 1 == 0xFFFFFFFFFFFFFFFD) &&
    gives (.rem 1 11 12 0) (rg [(11, 0xFFFFFFFFFFFFFFF9), (12, 2)] demo) (fun t => t.reg 1 == 0xFFFFFFFFFFFFFFFF) &&
    gives (.div 1 11 12 0) (rg [(11, 0xFFFFFFFFFFFFFFF9)] demo) (fun t => t.reg 1 == 0xFFFFFFFFFFFFFFFF) &&
    gives (.remu 1 11 12 0) (rg [(11, 0xFFFFFFFFFFFFFFF9)] demo) (fun t => t.reg 1 == 0xFFFFFFFFFFFFFFF9) &&
    gives (.div 1 11 12 0) (rg [(11, 0x8000000000000000), (12, 0xFFFFFFFFFFFFFFFF)] demo)
      (fun t => t.reg 1 == 0x8000000000000000)) = true := by decide +kernel

/-- w0 reads as 0 after a write, and a transient result is not in the register file (07 R120, R128). -/
theorem test_w0_and_transient :
    (gives (.add 0 2 2 false 0) (rg [(2, 5)] demo) (fun t => t.reg 0 == 0) &&
    gives (.add 1 2 2 true 0) (rg [(1, 3), (2, 5)] demo) (fun t => t.reg 1 == 3)) = true := by decide +kernel

/-- 07 R141, R142: branches count words from their own address; a call writes the return address where the callee reads
w15. -/
theorem test_branches :
    (gives (.bne 1 0 0x1FFB) (rg [(1, 1)] demo) (fun t => t.cx.flow.pc == 0x40000 - 20) &&
    gives (.bne 1 0 0x1FFB) (rg [(1, 0)] demo) (fun t => t.cx.flow.pc == 0x40004) &&
    gives (.bltu 1 2 8) (rg [(1, 1), (2, 0xFFFFFFFFFFFFFFFF)] demo) (fun t => t.cx.flow.pc == 0x40020) &&
    gives (.call 0x100) demo (fun t => t.cx.flow.pc == 0x40400 && t.reg 15 == 0x40004 && t.cx.rf.cwp == 1)) = true := by
  decide +kernel

/-- 07 R140, 02 R26: a false guard leaves the destination as it is. -/
theorem test_guards :
    (gives (.qsetLt 3 1 2 0) (rg [(1, 0xFFFFFFFFFFFFFFFF), (2, 1)] demo) (fun t => t.cx.qOf 3 == .val true) &&
    gives (.add 1 2 2 false 3) (cx (fun c => c.setQ 3 (.val false)) (rg [(1, 9), (2, 5)] demo)) (fun t => t.reg 1 == 9) &&
    gives (.add 1 2 2 false 3) (rg [(1, 9), (2, 5)] demo) (fun t => t.reg 1 == 10)) = true := by decide +kernel

/-- 06 R109: bytes are least significant first; LD extends the sign and LDN does not. -/
theorem test_memory :
    (gives (.ld 1 2 0 1 0 0) (rg [(2, 0x50000)] (put 0x50000 4 0x1234FFFE demo)) (fun t => t.reg 1 == 0xFFFFFFFFFFFFFFFE) &&
    gives (.ldn 1 2 1 1 0 0) (rg [(2, 0x50000)] (put 0x50000 4 0x9234FFFE demo)) (fun t => t.reg 1 == 0x9234) &&
    gives (.st 1 2 0xFF 2 0 0) (rg [(1, 0x11223344), (2, 0x50004)] demo)
      (fun t => Mem.byte t.mem 0x50000 == 0x44 && Mem.byte t.mem 0x50003 == 0x11)) = true := by decide +kernel

/-- 06 R114, R117, 05 R88: atomics return the old value; LDS.E leaves the word empty. -/
theorem test_atomics :
    (gives (.amoMax 1 2 0 0 0 0) (rg [(1, 5), (2, 0x50000)] (put 0x50000 4 0xFFFFFFFF demo))
      (fun t => t.reg 1 == 0xFFFFFFFFFFFFFFFF && Mem.byte t.mem 0x50000 == 5 && Mem.byte t.mem 0x50001 == 0) &&
    gives (.cas 2 1 1 0 0 0) (rg [(1, 0x50000), (2, 7), (3, 9)] (put 0x50000 8 7 demo))
      (fun t => t.reg 2 == 7 && Mem.byte t.mem 0x50000 == 9) &&
    gives (.ldsE 1 2 0 0 0) (rg [(2, 0x50000)] (put 0x50000 8 77 demo)) (fun t => t.reg 1 == 77 && t.isEmpty 0x50000)) =
    true := by decide +kernel

/-- 09 R176, R178, R180: 1.5 + 1.5 = 3 in every lane, a clamped sum, and a compare that is false for a NaN with NV. -/
theorem test_vector :
    (gives (.vadd 1 2 3 0 false) (vr [(2, 0x3FC00000, 1), (3, 0x3FC00000, 1)] demo) (fun t => t.vreg 1 == 0x40400000) &&
    gives (.viadds 1 2 3 0 false) (vr [(2, 0x7FFFFFFF, 5), (3, 1, 5)] demo) (fun t => t.vreg 1 == 0x7FFFFFFF) &&
    gives (.vfcmpLt 2 2 3 0 false) (vr [(2, 0x7FC00000, 1), (3, 0x3FC00000, 1)] demo)
      (fun t => t.mreg 2 == 0 && t.cx.spec.fstat == flNV) &&
    gives (.vsra 1 2 3 0 false) (vr [(2, 0x80000000, 5), (3, 36, 5)] demo) (fun t => t.vreg 1 == 0xF8000000)) = true := by
  decide +kernel

/-- 09 R184 and its table: 2^24 + 1 + 1 is 16,777,218 summed exactly and 2^24 where each sum is rounded. -/
theorem test_reductions :
    (gives (.vraddO 1 2 0 false) (vr [(2, 0x4B800000 + 2 ^ 32 * 0x3F800000 + 2 ^ 64 * 0x3F800000, 1)] demo)
      (fun t => t.reg 1 == 0x4B800001) &&
    gives (.vscanU 3 2 0 0 false) (vr [(2, 0x4B800000 + 2 ^ 32 * 0x3F800000 + 2 ^ 64 * 0x3F800000, 1)] demo)
      (fun t => lane (t.vreg 3) 2 == 0x4B800000)) = true := by decide +kernel

/-- 07 R133, R134: a write of FSTAT keeps five bits; a descriptor register has its reset value. -/
theorem test_system :
    (gives (.mtc 1 0x010) (rg [(1, 0xFFFF)] demo) (fun t => t.cx.spec.fstat == 0x1F) &&
    gives (.mfc 1 0x0C0) demo (fun t => t.reg 1 == 0x70348) &&
    gives .nop demo (fun t => t.cx.flow.pc == 0x40004)) = true := by decide +kernel

/-! ### Witnesses: scalar statements -/

/-- AluTwoOperands, AluOneOperand, DivisionResults, BranchResults, WordsDecode and more: a quiet context, with guards. -/
theorem wit_quiet : demo.quiet = true ∧ demo.guardOk 0 = true ∧ demo.guardOk 3 = true ∧ demo.cx.level = 0 := by
  decide +kernel

/-- AluOneOperand: both characterisations, at their ends. -/
theorem wit_AluOneOperand :
    (let s := rg [(1, 0)] demo; s.quiet = true ∧ s.guardOk 0 = true ∧ s.reg 1 = 0) ∧
    (let s := rg [(1, 1)] demo; s.quiet = true ∧ 2 ^ (63 - 63) ≤ (s.reg 1).toNat ∧ (s.reg 1).toNat < 2 ^ (64 - 63) ∧
      (s.reg 1).getLsbD 0 = true ∧ (s.reg 1).toNat % 2 ^ 0 = 0) ∧
    (let s := rg [(1, 0x8000000000000000)] demo; s.quiet = true ∧ 2 ^ (63 - 0) ≤ (s.reg 1).toNat ∧
      (s.reg 1).toNat < 2 ^ (64 - 0) ∧ (s.reg 1).getLsbD 63 = true ∧ (s.reg 1).toNat % 2 ^ 63 = 0) := by decide +kernel

/-- A HINT chain before the word at the program counter. -/
def hinted (l : List Hint) (s : State) : State := cx (fun c => { c with flow := { c.flow with chain := l } }) s

/-- ImmediateWords: a field at its greatest value; none, one and three HINT.IMMs waiting, whose immediate fits at its ends and does not
fit. -/
theorem wit_ImmediateWords :
    demo.quiet = true ∧ demo.guardOk 0 = true ∧ 8191 < 2 ^ 13 ∧ 63 < 64 ∧
    (∀ ps ∈ [[], [0x3FFFFF], [0x3FFFFF, 0, 0x3FFFFF]], let s := hinted (ps.map Hint.imm) demo;
      s.guardOk 0 = true ∧ ps.length ≤ 3 ∧ (∀ p ∈ ps, p < 2 ^ 22) ∧ s.cx.flow.chain = [] ++ ps.map Hint.imm ∧
      (s.setCx { s.cx with flow := { s.cx.flow with chain := [] } }).quiet = true) ∧
    gatheredImm 13 0x1FFF [0x3FFFFF] = -1 ∧ gatheredImm 13 0x1FFF [0x3FFFFF, 0x3FFFFF, 0x7F] = 2 ^ 64 - 1 ∧
    gatheredImm 13 0 [0, 0, 0x3FFFC0] = -(2 ^ 63) ∧ gatheredImm 13 0x1FFF [0x3FFFFF, 0x3FFFFF, 0x3F] = 2 ^ 63 - 1 ∧
    gatheredImm 13 0x1FFF [0x3FFFFF, 0x3FFFFF, 0x3FFFBF] = -(2 ^ 63) - 1 := by decide +kernel

/-- ScalarFrame: a shape that writes one w register and is long. -/
theorem wit_ScalarFrame : demo.quiet = true ∧ (Instr.div 3 1 2 0).shape.wr = [.w 3] ∧ (Instr.div 3 1 2 0).shape.long = true ∧
    31 ≠ 0 ∧ 31 < 32 := by decide +kernel

/-- GuardWords: slots with values, a false guard. -/
theorem wit_GuardWords :
    (let s := cx (fun c => c.setQ 4 (.val false)) demo;
      s.quiet = true ∧ s.guardOk 0 = true ∧ 7 < 8 ∧ s.cx.stepped.qOf 3 = .val true ∧ s.cx.stepped.qOf 4 = .val false) ∧
    (let s := cx (fun c => c.setQ 4 (.val false)) demo;
      s.quiet = true ∧ (Instr.add 1 2 3 false 4).shape.g ≠ 0 ∧ (Instr.add 1 2 3 false 4).shape.home ≠ some 3 ∧
      s.cx.qOf (Instr.add 1 2 3 false 4).shape.g = .val false) := by decide +kernel

/-- A transient result of w9 whose place in the bypass another instruction has taken. -/
def wStale : State := cx (fun c => { c with flow := { c.flow with stale := [(.base 9, 4)] } }) demo

theorem wit_StaleOperandTraps :
    wStale.cx.flow.chain = [] ∧ wStale.cx.flow.inflight = [] ∧ wStale.cx.flow.gone = [] ∧ wStale.cx.flow.loops = [] ∧ wStale.cx.follow = none ∧
    wStale.alone ∧ wStale.cx.wloc 9 = some (.base 9) ∧ (∃ k, wStale.cx.flow.staleTag (.base 9) = some k) ∧
    wStale.cx.flow.bypassed (.base 9) = none :=
  ⟨by decide +kernel, by decide +kernel, by decide +kernel, by decide +kernel, by decide +kernel,
    by unfold State.alone; decide +kernel, by decide +kernel, ⟨4, by decide +kernel⟩, by decide +kernel⟩

/-- EmptySlotTraps: slot 4 has no value, as a guard and as the first and the second source. -/
theorem wit_EmptySlotTraps :
    let s := cx (fun c => c.setQ 4 .empty) demo
    s.quiet = true ∧ (Instr.add 1 2 3 false 4).shape.g ≠ 0 ∧ (Instr.add 1 2 3 false 4).shape.home ≠ some 3 ∧
    s.cx.qOf (Instr.add 1 2 3 false 4).shape.g = .empty ∧ s.cx.qOf 4 = .empty ∧ s.cx.qOf 3 = .val true ∧ s.guardOk 0 = true := by
  decide +kernel

/-- FormatTraps: each tag that is refused, and a descriptor that is not valid. -/
theorem wit_FormatTraps :
    (let s := vr [(2, 0, 5), (3, 0, 1), (4, 0, 2)] demo;
      s.quiet = true ∧ s.cx.level = 0 ∧ s.vtag 2 ∉ floatTag ∧ s.vtag 3 ∈ floatTag ∧ s.vtag 4 ≠ s.vtag 3 ∧
      s.vtag 3 ≠ 5 ∧ s.vtag 2 ≠ 1 ∧ 1 ≠ 0) ∧
    (let s := cx (fun c => { c with spec := { c.spec with f := [(6, 0x50000000)] } }) (vr [(2, 0, 5)] demo);
      s.quiet = true ∧ (descValid (s.cx.fOf 6).toNat = false ∨ 4 < descKind (s.cx.fOf 6).toNat) ∧ 1 ≤ s.vtag 2 ∧
      s.vtag 2 ≤ 5) := by decide +kernel

/-! ### Witnesses: control flow and memory -/

theorem wit_BranchResults :
    (let s := cx (fun c => c.setQ 4 (.val false)) (rg [(1, 0x40100)] demo);
      s.quiet = true ∧ s.guardOk 0 = true ∧ (s.reg 1).toNat % 4 = 0 ∧ s.cx.stepped.qOf 4 = .val false ∧
      s.cx.stepped.qOf 0 = .val true) := by decide +kernel

/-- A context at depth `cwp` with frames from `low` resident. -/
def deep (cwp low : Nat) (s : State) : State :=
  cx (fun c => { c with rf := { c.rf with cwp := cwp, low := low, stack := [(0, 11), (17, 22), (33, 33)] } }) s

/-- CallWords: a call, a return, and the traps at both ends of the window. -/
theorem wit_CallWords :
    (let s := rg [(1, 0x40100)] demo;
      s.quiet = true ∧ s.cx.level = 0 ∧ s.guardOk 0 = true ∧ s.cx.rf.cwp ≠ 2 ^ 32 - 1 ∧ s.cx.rf.cwp - s.cx.rf.low ≠ 5 ∧
      (s.reg 1).toNat % 4 = 0) ∧
    (let s := deep 1 0 demo;
      s.quiet = true ∧ s.cx.rf.cwp ≠ 0 ∧ (s.reg 15).toNat % 4 = 0 ∧ ¬ (2 ≤ s.cx.rf.cwp ∧ s.cx.rf.low + 1 = s.cx.rf.cwp)) ∧
    (let s := deep 5 0 demo; s.quiet = true ∧ s.cx.rf.cwp ≠ 2 ^ 32 - 1 ∧ s.cx.rf.cwp - s.cx.rf.low = 5) ∧
    (let s := deep 2 1 demo;
      s.quiet = true ∧ 2 ≤ s.cx.rf.cwp ∧ s.cx.rf.low + 1 = s.cx.rf.cwp ∧ (s.reg 15).toNat % 4 = 0) ∧
    (let s := deep (2 ^ 32 - 1) (2 ^ 32 - 6) (rg [(1, 0x40100), (2, 0x40102)] demo);
      s.quiet = true ∧ s.cx.level = 0 ∧ s.cx.rf.cwp = 2 ^ 32 - 1 ∧ s.cx.rf.cwp - s.cx.rf.low = 5 ∧ (s.reg 1).toNat % 4 = 0 ∧
      (s.reg 2).toNat % 4 ≠ 0) ∧
    (let s := rg [(15, 0x40102)] demo; s.quiet = true ∧ s.cx.rf.cwp = 0 ∧ s.cx.level = 0) ∧
    (let s := cx (fun c => { c with rf := { c.rf with cwp := 1, stack := (List.range 40).map (fun i => (i, 0x40102)) } }) demo;
      s.quiet = true ∧ s.cx.rf.cwp ≠ 0 ∧ (s.reg 15).toNat % 4 ≠ 0) := by decide +kernel

/-- A loop of the running context whose last instruction stands at the program counter. -/
def loop1 (n : W64) : Loop := ⟨0x3FFF0, 0x40000, n, 5, 0⟩

/-- LoopWords: a count and a count of 0; the end of a level with more than one and with one iteration left. -/
theorem wit_LoopWords :
    (let s := rg [(1, 3)] demo; s.quiet = true ∧ s.reg 1 ≠ 0 ∧ s.reg 2 = 0) ∧
    (let s := cx (fun c => { c with flow := { c.flow with loops := [loop1 2] } }) demo;
      (s.setCx { s.cx with flow := { s.cx.flow with loops := [] } }).quiet = true ∧ s.cx.flow.loops = [loop1 2] ∧
      (loop1 2).win = s.cx.depth ∧ (loop1 2).fin = s.cx.flow.pc ∧ s.alone ∧ 1 < (loop1 2).count.toNat) ∧
    (let s := cx (fun c => { c with flow := { c.flow with loops := [loop1 1] } }) demo;
      (s.setCx { s.cx with flow := { s.cx.flow with loops := [] } }).quiet = true ∧ s.cx.flow.loops = [loop1 1] ∧
      (loop1 1).win = s.cx.depth ∧ (loop1 1).fin = s.cx.flow.pc ∧ s.alone ∧ (loop1 1).count.toNat ≤ 1) := by
  unfold State.alone; decide +kernel

/-- The loop levels of the running context. -/
def looping (l : List Loop) (s : State) : State := cx (fun c => { c with flow := { c.flow with loops := l } }) s

/-- A level whose body is from 0x3FF00 to 0x40010, one of the caller's window, and one from the next word to 0x40008. -/
def loop2 : Loop := ⟨0x3FF00, 0x40010, 3, 3, 0⟩
def loopUp : Loop := { loop2 with win := 7 }
def loop3 : Loop := ⟨0x40004, 0x40008, 3, 3, 0⟩

/-- LoopWords: an inner level that ends where the level outside it does, or where it does not, with turns left or none. -/
theorem wit_LoopEnd :
    (∀ l ∈ [[loop2, loop1 2], [loop2, loop1 1], [loop1 2, loop1 1], [loop1 1, loop1 1], [loop2, loop1 1, loop1 1]],
      let s := looping l demo;
      Unlooped s ∧ s.cx.flow.loops = l ∧ EndsHere s (loop1 1) ∧ EndsHere s (loop1 2) ∧ ¬EndsHere s loop2) ∧
    (loop1 1).count.toNat ≤ 1 ∧ 1 < (loop1 2).count.toNat := by
  unfold Unlooped State.alone EndsHere; decide +kernel

/-- LoopWords: levels of two windows; LPSET of the same body, of one inside, of one that ends behind, and of a fifth level; branches inside,
out of the inner level and out of both. -/
theorem wit_NestedLoops :
    (∀ l ∈ [[loopUp, loop2, loop3], [loopUp, loopUp, loop2, loop3], [loop3]], let s := looping l (rg [(1, 4), (2, 0x40008), (3, 0x4000C),
        (4, 0x30000)] demo);
      Unlooped s ∧ loopUp.win ≠ s.cx.depth ∧ (∀ x ∈ [loop2, loop3], x.win = s.cx.depth ∧ x.fin ≠ s.cx.flow.pc) ∧ s.reg 1 ≠ 0 ∧
      (s.reg 1 = s.reg 1 ∧ s.guardOk 0 = true ∧ (s.reg 4).toNat % 4 = 0) ∧
      (loop3.start = s.cx.flow.pc + 4 ∧ loop3.fin = s.cx.flow.pc + BitVec.ofNat 64 (4 * 2) ∧
        loop3.fin ≠ s.cx.flow.pc + BitVec.ofNat 64 (4 * 1)) ∧
      ((s.cx.flow.pc + BitVec.ofNat 64 (4 * 1)).toNat ≤ loop3.fin.toNat ∧ loop3.fin.toNat < (s.cx.flow.pc + BitVec.ofNat 64 (4 * 3)).toNat) ∧
      target s.cx.flow.pc 13 1 = 0x40004 ∧ target s.cx.flow.pc 13 3 = 0x4000C) ∧
    loop3.start.toNat ≤ 0x40004 ∧ 0x40004 ≤ loop3.fin.toNat ∧ ¬(0x4000C ≤ loop3.fin.toNat) ∧ loop2.start.toNat ≤ 0x4000C ∧
    0x4000C ≤ loop2.fin.toNat ∧ ¬(loop2.start.toNat ≤ 0x30000) := by
  unfold Unlooped State.alone; decide +kernel

/-- A word at 0x50000 in memory: accesses of it by the context of `demo`. -/
def at5 : State := rg [(2, 0x50000), (3, 0x55)] (put 0x50000 8 0x1122334455667788 demo)

/-- LoadResults and StoreResults: an aligned address in memory, one in the local store, and the least offset. -/
theorem wit_LoadResults :
    (at5.quiet = true ∧ 0 ≠ 3 ∧ 0 < 2 ^ 8 ∧ 3 < 4 ∧
      (at5.reg 2 + (BitVec.ofNat 8 0).signExtend 64 * BitVec.ofNat 64 8).toNat < 2 ^ 52 ∧
      (at5.reg 2 + (BitVec.ofNat 8 0).signExtend 64 * BitVec.ofNat 64 8).toNat % 8 = 0) ∧
    at5.access at5.who (at5.reg 2 + (BitVec.ofNat 8 0).signExtend 64 * BitVec.ofNat 64 8) 8 .read .ls = .ok (.hbm 0x50000 0) ∧
    at5.access at5.who (at5.reg 2 + (BitVec.ofNat 8 0x80).signExtend 64 * BitVec.ofNat 64 8) 8 .read .ls =
      .ok (.hbm 0x4FC00 0) ∧
    at5.access at5.who (ls 0x1000) 8 .read .ls = .ok (.ls 0 0x1000) ∧
    (Loc.hbm 0x50000 0).key?.isSome = true ∧ (Loc.ls 0 0x1000).key?.isSome = true :=
  ⟨by decide +kernel, dok (by decide +kernel), dok (by decide +kernel), dok (by decide +kernel), by decide +kernel,
    by decide +kernel⟩

theorem wit_StoreResults :
    at5.quiet = true ∧
    at5.access at5.who (at5.reg 2 + (BitVec.ofNat 8 0).signExtend 64 * BitVec.ofNat 64 8) 8 .write .ls = .ok (.hbm 0x50000 0) ∧
    (Loc.hbm 0x50000 0).key? = some 0x50000 ∧ (∀ ln ∈ linesOf 0x50000 8, Tbl.get 0 at5.lineKey ln = at5.keyMat (Loc.hbm 0x50000 0).mat) ∧ at5.sending true = false :=
  ⟨by decide +kernel, dok (by decide +kernel), by decide +kernel, by decide +kernel, by decide +kernel⟩

/-- ImmediateWords: an LD and an ST of home 3 behind HINT.HOME and a HINT.IMM, at 0x50000 + 8 x 256. -/
theorem wit_HintedAccess :
    let s := hinted ([.home 5] ++ [Hint.imm 1]) at5
    (s.setCx { s.cx with flow := { s.cx.flow with chain := [] } }).quiet = true ∧ gatheredImm 8 0 [1] = 256 ∧
    (s.reg 2 + w64OfInt 256 * BitVec.ofNat 64 8).toNat < 2 ^ 52 ∧ (s.reg 2 + w64OfInt 256 * BitVec.ofNat 64 8).toNat % 8 = 0 ∧
    s.access s.who (s.reg 2 + w64OfInt 256 * BitVec.ofNat 64 8) 8 .read .ls = .ok (.hbm 0x50800 0) ∧
    s.access s.who (s.reg 2 + w64OfInt 256 * BitVec.ofNat 64 8) 8 .write .ls = .ok (.hbm 0x50800 0) ∧
    (∀ ln ∈ linesOf 0x50800 8, Tbl.get 0 s.lineKey ln = s.keyMat (Loc.hbm 0x50800 0).mat) :=
  ⟨by decide +kernel, by decide +kernel, by decide +kernel, by decide +kernel, dok (by decide +kernel), dok (by decide +kernel),
    by decide +kernel⟩

theorem wit_OrderedWords :
    at5.quiet = true ∧ at5.sending true = false ∧ at5.cx.stores = [] ∧ at5.cx.postFail = none ∧ (at5.reg 2).toNat < 2 ^ 52 ∧ (at5.reg 2).toNat % 8 = 0 ∧
    at5.access at5.who (at5.reg 2) 8 .read .ls = .ok (.hbm 0x50000 0) ∧
    at5.access at5.who (at5.reg 2) 4 .write .ls = .ok (.hbm 0x50000 0) :=
  ⟨by decide +kernel, by decide +kernel, by decide +kernel, by decide +kernel, by decide +kernel, by decide +kernel,
    dok (by decide +kernel), dok (by decide +kernel)⟩

theorem at5_mem : MemOk at5 := by unfold MemOk; decide +kernel

/-- The conditions on an atomic of `at5` at 0x50000, by their parts. -/
theorem at5_place {n : Nat} {c : ACls} (h : at5.quiet = true ∧ at5.sending true = false) (h' : at5.cx.postFail = none)
    (h1 : (at5.reg 2).toNat % n = 0) (h2 : at5.access at5.who (at5.reg 2) n .rmw c = .ok (.hbm 0x50000 0))
    (h3 : ∀ ln ∈ linesOf 0x50000 n, Tbl.get 0 at5.lineKey ln = at5.keyMat 0) : AtomicPlace at5 2 n 0x50000 c (.hbm 0x50000 0) :=
  ⟨h.1, h.2, h', h1, h2, rfl, h3, at5_mem⟩

theorem wit_AtomicWords :
    AtomicPlace at5 2 8 0x50000 .amo (.hbm 0x50000 0) ∧ AtomicPlace at5 2 4 0x50000 .amo (.hbm 0x50000 0) ∧
    AtomicPlace at5 2 64 0x50000 .cell (.hbm 0x50000 0) :=
  by refine ⟨at5_place ?_ ?_ ?_ (dok ?_) ?_, at5_place ?_ ?_ ?_ (dok ?_) ?_, at5_place ?_ ?_ ?_ (dok ?_) ?_⟩ <;> decide +kernel

/-- The word of `at5`, empty. -/
def at5e : State := { at5 with fe := [(0x50000 / 8, true)] }

theorem wit_FullEmptyWords :
    AtomicPlace at5 2 8 0x50000 .fe (.hbm 0x50000 0) ∧ at5.net.parked = [] ∧ at5.isEmpty 0x50000 = false ∧
    AtomicPlace at5e 2 8 0x50000 .fe (.hbm 0x50000 0) ∧ at5e.net.parked = [] ∧ at5e.isEmpty 0x50000 = true :=
  by
  have h : at5e.Sent := by unfold State.Sent; decide +kernel
  refine ⟨at5_place ?_ ?_ ?_ (dok ?_) ?_, ?_, ?_, ⟨?_, h, ?_, ?_, dok ?_, ?_, ?_, at5_mem⟩, ?_, ?_⟩ <;> decide +kernel

/-! ### Witnesses: transfers and the vector unit -/

/-- VectorTransfers: LDV and GATHER of 64 words of memory, all lanes active. -/
theorem wit_VectorLoads :
    let s := vr [(5, 0, 5)] at5
    s.quiet = true ∧ s.cx.level = 0 ∧ (s.reg 2).toNat % 4 = 0 ∧ s.vtag 5 = 5 ∧
    (∀ j, j < 64 → (s.mreg 0).getLsbD j = true → (Loc.hbm (0x50000 + 4 * j) 0).key?.isSome = true ∧
      s.access s.who (s.reg 2 + BitVec.ofNat 64 (4 * j)) 4 .read .ls = .ok (.hbm (0x50000 + 4 * j) 0)) ∧
    (∀ j, j < 64 → (s.mreg 0).getLsbD j = true → (Loc.hbm 0x50000 0).key?.isSome = true ∧
      s.access s.who (s.reg 2 + w64OfInt (4 * signed 32 (lane (s.vreg 5) j))) 4 .read .ls = .ok (.hbm 0x50000 0)) := by
  intro s
  have h : ∀ j, j < 64 → okEq (s.access s.who (s.reg 2 + BitVec.ofNat 64 (4 * j)) 4 .read .ls) (.hbm (0x50000 + 4 * j) 0) = true := by decide +kernel
  have h' : ∀ j, j < 64 → okEq (s.access s.who (s.reg 2 + w64OfInt (4 * signed 32 (lane (s.vreg 5) j))) 4 .read .ls) (.hbm 0x50000 0) = true := by decide +kernel
  exact ⟨by decide +kernel, by decide +kernel, by decide +kernel, by decide +kernel,
    fun j hj _ => ⟨rfl, dok (h j hj)⟩, fun j hj _ => ⟨rfl, dok (h' j hj)⟩⟩

/-- VectorTransfers: the two lanes of mask m1 stored apart, and, by SCATTER, at one address. -/
def wSc : State := cx (fun c => { c with vec := { c.vec with m := [(1, 3)] } }) (vr [(4, 0x2200000011, 1), (5, 0, 5)] at5)

theorem wit_VectorStores :
    wSc.quiet = true ∧ wSc.cx.level = 0 ∧ (wSc.reg 2).toNat % 4 = 0 ∧ wSc.vtag 5 = 5 ∧
    (∀ j, j < 64 → (wSc.mreg 1).getLsbD j = true → wSc.access wSc.who (wSc.reg 2 + BitVec.ofNat 64 (4 * j)) 4 .write .ls =
      .ok (.hbm (0x50000 + 4 * j) 0) ∧ ∀ ln ∈ linesOf (0x50000 + 4 * j) 4, Tbl.get 0 wSc.lineKey ln = wSc.keyMat 0) ∧
    (∀ j, j < 64 → (wSc.mreg 1).getLsbD j = true →
      wSc.access wSc.who (wSc.reg 2 + w64OfInt (4 * signed 32 (lane (wSc.vreg 5) j))) 4 .write .ls = .ok (.hbm 0x50000 0)) := by
  have h : ∀ j, j < 64 → okEq (wSc.access wSc.who (wSc.reg 2 + BitVec.ofNat 64 (4 * j)) 4 .write .ls) (.hbm (0x50000 + 4 * j) 0) = true ∧ ∀ ln ∈ linesOf (0x50000 + 4 * j) 4, Tbl.get 0 wSc.lineKey ln = wSc.keyMat 0 := by decide +kernel
  have h' : ∀ j, j < 64 → okEq (wSc.access wSc.who (wSc.reg 2 + w64OfInt (4 * signed 32 (lane (wSc.vreg 5) j))) 4 .write .ls) (.hbm 0x50000 0) = true := by decide +kernel
  exact ⟨by decide +kernel, by decide +kernel, by decide +kernel, by decide +kernel,
    fun j hj _ => ⟨dok (h j hj).1, (h j hj).2⟩, fun j hj _ => dok (h' j hj)⟩

/-- TileTransfers: the pieces of 4,096 and 4,608 bytes at an aligned address of memory, under a descriptor of tiles. -/
def eTile (i : Instr) : Entry := at5.entryOf i 0 i.shape

theorem wit_TileTransfers :
    at5.quiet = true ∧ at5.cx.level = 0 ∧ (at5.reg 2).toNat % 64 = 0 ∧ descValid (at5.cx.xlDesc 3).2 = true ∧
    descKind (at5.cx.xlDesc 3).2 = 0 ∧
    (match locsOf (eTile (.ldx 1 2 0)) at5.who (at5.reg 2) 4096 .read at5 with
      | .ok (ps, u) => decide (u = at5) && ps.all (fun p => p.2.2.key?.isSome)
      | .error _ => false) = true ∧
    (match locsOf (eTile (.stxSc 1 2 0)) at5.who (at5.reg 2) 4608 .write at5 with
      | .ok (ps, u) => decide (u = at5) && ps.all (fun p => p.2.2.key?.isSome && (linesOf (p.2.2.key?.getD 0) p.2.1).all
          (fun ln => Tbl.get 0 at5.lineKey ln == at5.keyMat p.2.2.mat)) && decide (ps.Pairwise (fun p q =>
          p.2.2.key?.getD 0 + p.2.1 ≤ q.2.2.key?.getD 0 ∨ q.2.2.key?.getD 0 + q.2.1 ≤ p.2.2.key?.getD 0))
      | .error _ => false) = true := by and_intros <;> decide +kernel

/-- VectorFloat, VectorInteger, CompareAndMaskResults, VectorMoves, VectorLongWords: vectors of each kind of tag, masked
where the destination has the tag. -/
theorem wit_vectors :
    (∀ x ∈ [1, 2, 5], let s := vr [(1, 5, x), (2, 7, x), (3, 9, x)] demo;
      s.quiet = true ∧ s.cx.level = 0 ∧ s.vtag 1 = x ∧ s.vtag 2 = x ∧ s.vtag 3 = x ∧ s.vtag 1 ∈ anyTag) ∧
    (let s := vr [(1, 5, 1), (2, 7, 5), (3, 9, 1)] demo; s.quiet = true ∧ s.vtag 2 = 5 ∧ s.vtag 3 = s.vtag 1) ∧
    (demo.quiet = true ∧ demo.cx.level = 0) := by decide +kernel

/-- Conversions: a descriptor of each kind that a conversion writes, and sources of F32 and I32. -/
theorem wit_Conversions :
    let s := cx (fun c => { c with spec := { c.spec with f := [(1, 0x30000000), (2, 0x40000000)] } })
      (vr [(1, 5, 1), (2, 7, 5), (3, 9, 1), (4, 0, 2), (5, 0, 5)] demo)
    s.quiet = true ∧ s.cx.level = 0 ∧ s.vtag 1 = 1 ∧ s.vtag 2 = 5 ∧ s.vtag 4 = 2 ∧
    (descValid (s.cx.fOf 1).toNat = true ∧ descKind (s.cx.fOf 1).toNat = 3 ∧ s.vtag 3 = 1) ∧
    (descValid (s.cx.fOf 2).toNat = true ∧ descKind (s.cx.fOf 2).toNat = 4 ∧ s.vtag 4 = 2) ∧
    (descValid (s.cx.fOf 0).toNat = true ∧ descKind (s.cx.fOf 0).toNat = 0 ∧ s.vtag 1 ∈ anyTag ∧ s.vtag 5 = 5) := by
  decide +kernel

theorem wit_VectorFrame : demo.quiet = true ∧ demo.cx.level = 0 ∧ (Instr.vdiv 3 1 2 0 0 0).shape.wr = [.v 3] ∧
    (Instr.vdiv 3 1 2 0 0 0).shape.long = true ∧ 3 ≠ 0 := by decide +kernel

/-! ### Witnesses: messages, rings, copies, events, counters and work -/

/-- The bytes at an offset of the local store of core 0, in a state where core 0 runs. -/
theorem own {s : State} {o n : Nat} (h : ownWindow s.cur.1 (ls o) && ownWindow s.cur.1 (ls o + BitVec.ofNat 64 (n - 1)) &&
    okEq (s.access s.who (ls o) n .read .ls) (.ls 0 o) = true) : OwnBytes s (ls o) n (.ls 0 o) := by
  simp only [Bool.and_eq_true] at h
  obtain ⟨⟨h1, h2⟩, h3⟩ := h
  exact ⟨h1, h2, dok (by simpa using h3), rfl⟩

def wMsg : State := rg [(1, 5), (2, ls 0x1000), (3, 16)] (put (lsKey 0 0x1000) 16 0x112233 demo)
def wHeld : State := cx (fun c => { c with held := [demo.mkMsg 5 [1, 2, 3, 4, 5, 6, 7, 8]] }) demo

/-- MessageWords: SEND and SENDS of 16 bytes, HOIST of a held message, MCMD. -/
theorem wit_MessageWords :
    (wMsg.quiet = true ∧ wMsg.guardOk 0 = true ∧ destBad (wMsg.reg 1).toNat = false ∧ (wMsg.reg 2).toNat % 8 = 0 ∧
      (wMsg.reg 3).toNat = 16 ∧ wMsg.cc.sendq.length < 16 ∧ wMsg.cx.held.length < 64 ∧ wMsg.holds wMsg.cur.1 < 64 ∧
      destPlain (wMsg.reg 1).toNat = true) ∧
    wMsg.reg 2 = ls 0x1000 ∧ OwnBytes wMsg (ls 0x1000) 16 (.ls 0 0x1000) ∧ OwnBytes wMsg (ls 0x1000) 32 (.ls 0 0x1000) ∧
    (wHeld.quiet = true ∧ wHeld.cx.held.length + wHeld.cc.sendq.length ≤ 16) :=
  ⟨by decide +kernel, by decide +kernel, own (by decide +kernel), own (by decide +kernel), by decide +kernel⟩

/-- A ring of slots of 512 bytes with one message, in the local store at 0x2000. -/
def rx1 : RxRing := ⟨0x2000, 9, 4, 0, 0, 0, 1, 0, 0, 0, 0, 1⟩
def wRing : State := rg [(1, 2), (2, 0)] (co (fun x => { x with rx := [(2, rx1)] }) demo)
def wStb : State := rg [(1, 2), (2, 0x50000), (3, 1)] (co (fun x => { x with rx := [(2, rx1)] }) demo)
def wStream : State :=
  put (lsKey 0 0x2000) 8 300 (put (lsKey 0 0x2008) 8 0x40003000 (cx (fun c => { c with stream := some ⟨2, 1, 0⟩ })
    (co (fun x => { x with rx := [(2, rx1)], bound := [(2, 0)] }) demo)))

/-- RingWords: RBWAIT and RBADV on a ring with a message, STBIND, STUNBIND without and with a stream, and a stream of 300
bytes as an operand. -/
theorem wit_RingWords :
    (wRing.quiet = true ∧ wRing.guardOk 0 = true ∧ wRing.cx.results = [] ∧ (wRing.reg 1).toNat = 2 ∧ 2 ≤ 7 ∧
      Tbl.find wRing.cc.rx 2 = some rx1 ∧ Tbl.find wRing.cc.bound 2 = none ∧ rx1.current = some (false, 0x2000) ∧
      wRing.reg 2 = 0) ∧
    (wStb.quiet = true ∧ (wStb.reg 1).toNat = 2 ∧ Tbl.find wStb.cc.rx 2 = some rx1 ∧ Tbl.find wStb.cc.bound 2 = none ∧
      beyondLs (wStb.cc.rxDesc 2 + 47) = false) ∧
    (wStream.cx.stream = some ⟨2, 1, 0⟩ ∧ (wStream.setCx { wStream.cx with stream := none }).quiet = true ∧
      wStream.guardOk 0 = true ∧ wStream.cx.results = [] ∧ wStream.cx.level = 0 ∧ 1 ∈ anyTag ∧
      Tbl.find wStream.cc.rx 2 = some rx1 ∧ wStream.lost = [] ∧
      0 + 256 < wStream.peek (.ls wStream.cur.1 0x2000) 8 % 2 ^ 16) := by and_intros <;> decide +kernel

/-- Operands of a copy word: destination, source, control word; 2^62 selects a bulk engine. -/
def wCp (ctl : Nat) (dst src : W64) : State := rg [(1, dst), (2, src), (3, BitVec.ofNat 64 ctl)] demo

/-- The record of CP2D and CPIDX at 0x1000 of the local store. -/
def wCr (r : Nat) : State := put (lsKey 0 0x1000) 32 (2 ^ 62 + 64 + 2 ^ 64 * 3 + r) (wCp (ls 0x1000).toNat 0x50000 0x60000)

/-- A control word is one of a form without a fault for these addresses. -/
def whole (c : Nat) (dst src : W64) : Bool :=
  !ctlBad c && !engBad c dst src && dst.toNat % 8 == 0 && src.toNat % 8 == 0 && ctlLen c % 8 == 0

/-- CopyWords: CP of bytes and of none, both reductions (in F32 and in a format of a descriptor), CP2D, CPIDX and a
CPWAIT with nothing to wait for. -/
theorem wit_CopyWords :
    (demo.guardOk 0 = true ∧ ∀ c ∈ [2 ^ 62 + 64, 2 ^ 62], (wCp c 0x50000 0x60000).quiet = true ∧
      whole c 0x50000 0x60000 = true ∧ ctlRop c = 0) ∧
    (∀ c ∈ [2 ^ 62 + 64 + 2 ^ 44, 2 ^ 62 + 72 + 2 ^ 44 + 6 * 2 ^ 40], whole c 0x50000 0x60000 = true ∧ ctlRop c ≠ 0 ∧
      redOk c true = true ∧ (ctlFmt c = 6 → descValid (demo.cx.fOf (bits c 39 36)).toNat = true ∧
      descKind (demo.cx.fOf (bits c 39 36)).toNat = 0)) ∧
    redOk (2 ^ 62 + 64 + 2 ^ 44) false = true ∧
    (∀ r ∈ [2 ^ 128 * 128 + 2 ^ 192 * 256, 2 ^ 96 + 2 ^ 128 * 0x50080], let v := (wCr r).peek (.ls 0 0x1000) 32;
      (wCr r).quiet = true ∧ (wCr r).reg 3 = ls 0x1000 ∧ whole (slice v 0 8) 0x50000 0x60000 = true ∧ ctlRop (slice v 0 8) = 0 ∧
      slice v 8 4 * ctlLen (slice v 0 8) < 2 ^ 32) ∧
    OwnBytes (wCr (2 ^ 128 * 128 + 2 ^ 192 * 256)) (ls 0x1000) 32 (.ls 0 0x1000) ∧
    OwnBytes (wCr (2 ^ 96 + 2 ^ 128 * 0x50080)) (ls 0x1000) 32 (.ls 0 0x1000) ∧ demo.cc.copies = [] ∧ demo.net.recs = [] :=
  ⟨by decide +kernel, by decide +kernel, by decide +kernel, by decide +kernel, own (by decide +kernel), own (by decide +kernel),
    by decide +kernel, by decide +kernel⟩

def evr : EvRec := ⟨9, 5, 0, 0, 7, 0x1234, false, 0⟩
def wEv : State := rg [(4, 0)] (co (fun x => { x with evq := [evr] }) demo)
def wOvf : State := put 0x60000 16 0x5000000000000000009 (co (fun x => { x with evovfb := 0x60004, evdom := 1, evtail := 3 }) demo)

/-- EventWords: a record in the queue, none at all, one in the overflow area, and a place to post to. -/
theorem wit_EventWords :
    (wEv.quiet = true ∧ wEv.guardOk 0 = true ∧ wEv.cur.2 = 0 ∧ wEv.cc.evq = [evr] ∧ wEv.reg 4 = 0 ∧ wEv.cx.results = []) ∧
    (demo.cur.2 = 0 ∧ demo.cc.evq = [] ∧ demo.cc.evhead = demo.cc.evtail) ∧
    (wOvf.quiet = true ∧ wOvf.cc.evq = [] ∧ wOvf.cc.evhead ≠ wOvf.cc.evtail) ∧
    wOvf.vread ⟨wOvf.cc.evdom, true, wOvf.cur.1⟩ (wOvf.cc.evSlot wOvf.cc.evhead) 16 = .ok 0x5000000000000000009 ∧
    (destBad (wMsg.reg 1).toNat = false ∧ destPlain (wMsg.reg 1).toNat = true) :=
  ⟨by decide +kernel, by decide +kernel, by decide +kernel, dok (by decide +kernel), by decide +kernel⟩

/-- Communicator 3 of domain 1: 2 ranks, counters 0 to 63, step buffers of 64 KiB. -/
def comm3 (s : State) : State :=
  (((s.setDreg 0x2400C0 0x8000000000000100).setDreg 0x2400D0 2).setDreg 0x2400D8 0x400000).setDreg 0x2400E0 0x1
def wCtr : State := rg [(2, 5), (3, 7)] (comm3 { demo with coll := { demo.coll with ctr := [(5, 9)] } })

theorem wit_CounterWords : wCtr.quiet = true ∧ wCtr.guardOk 0 = true ∧ (wCtr.reg 2).toNat < 2 ^ 14 ∧
    wCtr.ctrOk wCtr.cc.domain (wCtr.reg 2).toNat = true ∧ wCtr.cx.postFail = none ∧
    (wCtr.reg 3).toNat ≤ (wCtr.ctr 5).toNat := by decide +kernel

/-- A record of 64 bytes to be summed, on counter 5 with threshold 9. -/
def wWork : State :=
  put (lsKey 0 0x1000) 64 (64 + 2 ^ 64 * 0x50000 + 2 ^ 128 * 0x60000 + 2 ^ 288 * 5 + 2 ^ 320 * 9 + 2 ^ 384 * 0xFFFFFFFF
    + 2 ^ 416 * 0xFFFFFFFF) (rg [(2, ls 0x1000), (3, 3)] (comm3 { demo with coll := { demo.coll with ctr := [(5, 9)] } }))
def work1 : Work := ⟨4, 3, 0, 0, false, toBytes 64 (64 + 2 ^ 288 * 5), 0, 9, 0, 64, 0, none⟩
def wArm (h : W64) : State :=
  rg [(2, h), (3, 8)] (comm3 { demo with coll := { demo.coll with ctr := [(5, 9)], work := [(7, work1)] } })

/-- WorkWords: a well-formed record; an entry that is done, armed again or freed. -/
theorem wit_WorkWords :
    (wWork.quiet = true ∧ wWork.guardOk 0 = true ∧ (wWork.reg 3).toNat = 3 ∧ wWork.commOn 3 = true ∧
      wWork.commDom 3 = wWork.cc.domain ∧ wWork.reg 2 = ls 0x1000 ∧ ownWindow 0 (ls 0x1000) = true ∧
      beyondLs ((ls 0x1000).toNat % 2 ^ 20) = false ∧ (ls 0x1000).toNat % 64 = 0 ∧
      wWork.recBad 3 (wWork.peek (.ls 0 0x1000) 64) = false ∧ (wWork.cc.part.map (·.promise)).getD 0 = 0 ∧
      bits (slice (wWork.peek (.ls 0 0x1000) 64) 0 8) 63 60 ≠ 1 ∧ bits (slice (wWork.peek (.ls 0 0x1000) 64) 0 8) 55 52 ≠ 6 ∧
      wWork.coll.work = []) ∧
    wWork.access wWork.who (ls 0x1000) 64 .read .ls = .ok (.ls 0 0x1000) ∧
    ((wArm 7).quiet = true ∧ ((wArm 7).reg 2).toNat = 7 ∧ ((wArm (7 + 2 ^ 15)).reg 2).toNat = 7 + 2 ^ 15 ∧
      Tbl.find (wArm 7).coll.work (4096 * ((wArm 7).cur.1 / 384) + 7) = some work1 ∧ work1.state = 4 ∧
      (wArm 7).commDom work1.comm = (wArm 7).cc.domain) :=
  ⟨by decide +kernel, dok (by decide +kernel), by decide +kernel⟩

/-! ### Witnesses: the matrix engine, rings, auctions and the projection -/

/-- The tiles of the running context: number, value, side area, tag. -/
def xt (l : List (Nat × Nat × Nat × Tag)) (s : State) : State := cx (fun c => { c with vec := { c.vec with
    x := l.map (fun p => (p.1, p.2.1)), side := l.map (fun p => (p.1, p.2.2.1)), xtag := l.map (fun p => (p.1, p.2.2.2)) } }) s

theorem free {s : State} (h : (s.quiet && s.cx.level == 0 && decide (s.cx.results = []) && s.mxIdle s.cur.1 &&
    (List.range 11).all (fun k => k == s.cur.2 || (s.ctx s.cur.1 k).flow.inflight.all (fun e => !mxWord e.instr)) &&
    (List.range 32).all (fun n => !bit (Tbl.get 0 s.cc.spmap n).toNat 63)) = true) : EngineFree s := by
  simp only [Bool.and_eq_true, Bool.or_eq_true, beq_iff_eq, decide_eq_true_eq, List.all_eq_true, List.mem_range,
    Bool.not_eq_true'] at h
  obtain ⟨⟨⟨⟨⟨h1, h2⟩, h3⟩, h4⟩, h5⟩, h6⟩ := h
  exact ⟨h1, h2, h3, h4, fun k hk hn => (h5 k hk).resolve_left hn, h6⟩

/-- Tiles 1 and 2 of one class, and a region of 64 rows and `n` columns in w3. -/
def wMma (t : Tag) (n : Nat) : State :=
  xt [(1, 0x3F800000, 0, t), (2, 0x3F800000, 0, t)] (rg [(3, BitVec.ofNat 64 (63 * 2 ^ 16 + (n - 1) * 2 ^ 26))] demo)

/-- MatrixProducts: each class that has a region of its K columns, and the class of four bits for MMA. -/
theorem wit_MatrixProducts :
    EngineFree (wMma .f32 8) ∧ EngineFree (wMma .f64 8) ∧ EngineFree (wMma .h16 32) ∧ EngineFree (wMma ⟨6, 0x70348⟩ 64) ∧
    EngineFree (wMma ⟨6, 0xFE0128⟩ 64) ∧ 7 < 8 ∧ 1 < 2 ∧
    (∀ p ∈ [(Tag.f32, Cls.f32, 8), (.h16, .c16, 32), (⟨6, 0x70348⟩, .c8, 64), (⟨6, 0xFE0128⟩, .c4, 64)],
      let s := wMma p.1 p.2.2; s.guardOk 0 = true ∧ (s.mxTag s.cur.1 s.cur.2 2).cls? = some p.2.1 ∧
        (s.mxTag s.cur.1 s.cur.2 1).cls? = some p.2.1 ∧ region? (s.reg 3).toNat = some ⟨0, 64, 0, p.2.2⟩ ∧
        (p.2.1 = .c4 ∨ p.2.2 = p.2.1.k)) ∧
    (((wMma .f64 8).mxTag (wMma .f64 8).cur.1 (wMma .f64 8).cur.2 2).cls? = some .f64 ∧ 8 = 2 * Cls.f64.k) :=
  by refine ⟨free ?_, free ?_, free ?_, free ?_, free ?_, ?_, ?_, ?_, ?_⟩ <;> decide +kernel

/-- Two regions of 5 rows and 6 columns; in the second state the rows stand in memory at 0x50000, 32 bytes apart. -/
def wAcc : State := rg [(1, BitVec.ofNat 64 (3 + 4 * 2 ^ 10 + 2 * 2 ^ 16 + 5 * 2 ^ 26)),
  (2, BitVec.ofNat 64 (4 + 5 * 2 ^ 10 + 2 * 2 ^ 16 + 5 * 2 ^ 26))] demo
def wAccM : State := rg [(1, BitVec.ofNat 64 (3 + 4 * 2 ^ 10 + 2 * 2 ^ 16 + 5 * 2 ^ 26)), (2, 0x50000), (3, 32)] demo

theorem wit_AccumulatorMoves :
    EngineFree wAcc ∧ EngineFree wAccM ∧ wAcc.guardOk 0 = true ∧ region? (wAcc.reg 1).toNat = some ⟨3, 3, 4, 6⟩ ∧
    region? (wAcc.reg 2).toNat = some ⟨4, 3, 5, 6⟩ ∧ region? (wAccM.reg 1).toNat = some ⟨3, 3, 4, 6⟩ ∧
    (wAccM.reg 2).toNat % 4 = 0 ∧ (wAccM.reg 3).toNat % 4 = 0 ∧
    (∀ i, i < 3 → ∀ j, j < 6 → okEq (wAccM.access wAccM.who (wAccM.reg 2 + BitVec.ofNat 64 i * wAccM.reg 3
      + BitVec.ofNat 64 (4 * j)) 4 .read .ls) (.hbm (0x50000 + 32 * i + 4 * j) 0) = true ∧
      okEq (wAccM.access wAccM.who (wAccM.reg 2 + BitVec.ofNat 64 i * wAccM.reg 3
      + BitVec.ofNat 64 (4 * j)) 4 .write .ls) (.hbm (0x50000 + 32 * i + 4 * j) 0) = true ∧
      ∀ ln ∈ linesOf (0x50000 + 32 * i + 4 * j) 4, Tbl.get 0 wAccM.lineKey ln = wAccM.keyMat 0) ∧
    (∀ i, i < 3 → ∀ j, j < 6 → ∀ i', i' < 3 → ∀ j', j' < 6 → (i = i' ∧ j = j') ∨
      0x50000 + 32 * i + 4 * j + 4 ≤ 0x50000 + 32 * i' + 4 * j' ∨ 0x50000 + 32 * i' + 4 * j' + 4 ≤ 0x50000 + 32 * i + 4 * j) :=
  by
    refine ⟨free ?_, free ?_, ?_, ?_, ?_, ?_, ?_, ?_, ?_, fun i _ j _ i' _ j' _ => by omega⟩ <;> decide +kernel

theorem wit_TileWords :
    EngineFree (wMma .f32 16) ∧ (let s := wMma .f32 16;
      s.guardOk 0 = true ∧ (s.cx.xtagOf 1).cls? = some .f32 ∧ (s.cx.xtagOf 1).code ≠ 0x86 ∧
      descValid (s.cx.fOf 0).toNat = true ∧ descKind (s.cx.fOf 0).toNat ≤ 4) ∧
    EngineFree (wMma .f32 64) ∧ (let s := wMma .f32 64;
      region? (s.reg 3).toNat = some ⟨0, 64, 0, 64⟩ ∧ cvtShape (s.cx.fOf 0).toNat ⟨0, 64, 0, 64⟩ = true) :=
  ⟨free (by decide +kernel), by decide +kernel, free (by decide +kernel), by decide +kernel⟩

/-- FactorSolveBurst: a block of order 3 to factor, and its factors with a permutation to solve with. -/
def wFac : State :=
  xt [(1, 0x3F800000, ofLanes 8 [2, 1, 2] + 3 * 2 ^ 288, .f32), (2, 0x3F800000, 0, .f32)] (rg [(3, 3)] demo)

theorem wit_FactorSolveBurst :
    EngineFree wFac ∧ (wFac.guardOk 0 = true ∧ (wFac.cx.xtagOf 1).code = 1 ∧ 1 ≤ (wFac.reg 3).toNat % 64 ∧
      (wFac.reg 3).toNat % 64 ≤ blockMax (wFac.cx.xtagOf 1) ∧ wFac.cx.xtagOf 2 = wFac.cx.xtagOf 1 ∧
      slice (wFac.xside 1) 36 1 = 3 ∧ 3 ≤ blockMax (wFac.cx.xtagOf 1) ∧
      ∀ j, j < 3 → j ≤ ((List.range 3).map (fun j => slice (wFac.xside 1) j 1)).getD j 0 ∧
        ((List.range 3).map (fun j => slice (wFac.xside 1) j 1)).getD j 0 < 3) :=
  ⟨free (by decide +kernel), by decide +kernel⟩

/-- The member cores of the ring of a configuration word, all live in domain 1; and in the ring. -/
def wMem (w : Nat) (s : State) : State := { s with cores := (ringMembers w 0).map (fun c => (c, s.core 0)) }
def ringQ (w : W64) : Ring :=
  ⟨0, w, 1, ⟨6, 0x70348⟩, ⟨6, 0x70348⟩, 0, 0, 0, false, false, [], [], [], [], false, []⟩
def inRing (w : W64) (q : Ring) (s : State) : State :=
  { s with rings := [(0, q)], cores := (ringMembers w.toNat 0).map (fun c => (c, { s.core 0 with ring := some 0 })) }
def tile (h : W64) : RTile := ⟨h, 5, 0, 0, true⟩

/-- A core may join the ring of a configuration word: it is in none, or in one of the same members and owner. -/
def mayJoin (s : State) (w c : Nat) : Bool :=
  (s.ctx c 0).life == .live && (s.core c).domain == s.cc.domain && match (s.core c).ring.bind (Tbl.find s.rings) with
  | none => true
  | some q => decide (ringMembers q.cfg.toNat 0 = ringMembers w s.cur.1) && q.owner == s.cur.1

/-- RingConfigWords: a new ring and one configured again. -/
theorem wit_RingConfigured :
    ∀ s ∈ [wMem 0x400000 (rg [(1, 0x400000)] demo), inRing 0x400000 (ringQ 0x400000) (rg [(1, 0x400000)] demo)],
    s.quiet = true ∧ s.guardOk 0 = true ∧ s.cur.2 = 0 ∧ (s.reg 1).toNat = 0x400000 ∧ ringBad 0x400000 = false ∧
    s.cur.1 ∈ ringMembers 0x400000 s.cur.1 ∧ descValid (s.cx.fOf (bits 0x400000 15 12)).toNat = true ∧
    descKind (s.cx.fOf (bits 0x400000 15 12)).toNat ≠ 5 ∧ (ringMembers 0x400000 s.cur.1).all (mayJoin s 0x400000) = true ∧
    s.myRing.all (fun p => !p.2.running) = true := by decide +kernel

def wMt : State := put (lsKey 0 0x1000) 32 (0x8000000000000001 + 2 ^ 64 * 0x8000000000000002)
  (rg [(1, ls 0x1000), (2, 254), (3, 2)] demo)
def wMtu : State := put (lsKey 0 0x1000) 32 (0x0102 + 2 ^ 64 * 0x8000000000000002 + 2 ^ 128 * 0xff00 + 2 ^ 192 * 5)
  (inRing 0x400000 (ringQ 0x400000) (rg [(1, ls 0x1000), (2, 2)] demo))
def wInj : State := inRing 0x400000 (ringQ 0x400000) (rg [(1, 0x300123), (2, ls 0x1000), (3, 0)] demo)

/-- RingConfigWords: RGMT of the last two entries, RGMTU of two members, RGINJ of a tile without a response window. -/
theorem wit_RingTablesAndTiles :
    (wMt.quiet = true ∧ wMt.guardOk 0 = true ∧ (wMt.reg 2).toNat = 254 ∧ (wMt.reg 3).toNat = 2 ∧ wMt.reg 1 = ls 0x1000 ∧
      wMt.myRing = none ∧ ∀ j, j < 2 → entryBad (slice (wMt.peek (.ls 0 0x1000) 16) (8 * j) 8) = false) ∧
    OwnBytes wMt (ls 0x1000) 16 (.ls 0 0x1000) ∧
    (wMtu.quiet = true ∧ wMtu.myRing = some (0, ringQ 0x400000) ∧ (ringQ 0x400000).flying = [] ∧ (wMtu.reg 2).toNat = 2 ∧
      wMtu.reg 1 = ls 0x1000 ∧ (ls 0x1000).toNat % 16 = 0 ∧
      ∀ j, j < 2 → updateBad (ringLen 0x400000) (slice (wMtu.peek (.ls 0 0x1000) 32) (16 * j) 16) = false) ∧
    OwnBytes wMtu (ls 0x1000) 32 (.ls 0 0x1000) ∧
    (wInj.quiet = true ∧ wInj.myRing = some (0, ringQ 0x400000) ∧ bits (wInj.reg 1).toNat 63 30 = 0 ∧
      bits (wInj.reg 1).toNat 19 13 = 0 ∧ ownWindow 0 (wInj.reg 2) = true ∧ beyondLs ((wInj.reg 2).toNat % 2 ^ 20) = false ∧
      beyondLs ((wInj.reg 2).toNat % 2 ^ 20 + (ringQ 0x400000).tileBytes false - 1) = false ∧ wInj.reg 3 = 0 ∧
      (wInj.reg 2).toNat % 64 = 0 ∧ (ringQ 0x400000).slot ++ (ringQ 0x400000).park = []) ∧
    wInj.access wInj.who (wInj.reg 2) ((ringQ 0x400000).tileBytes false) .read .eng = .ok (.ls 0 0x1000) :=
  ⟨by decide +kernel, own (by decide +kernel), by decide +kernel, own (by decide +kernel), by decide +kernel,
    dok (by decide +kernel)⟩

def rSlot : Ring := { ringQ 0x400000 with slot := [(0, tile 0x300005)] }
def rPark : Ring := { ringQ 0x400000 with park := [(0, tile 0x300005)] }

/-- RingControl: a ring with a slotted tile, an empty one and one with a parked tile, all idle and owned. -/
theorem wit_RingControl :
    (let s := inRing 0x400000 rSlot (rg [(1, 1)] demo);
      s.quiet = true ∧ s.guardOk 0 = true ∧ s.myRing = some (0, rSlot) ∧ s.cur.2 = 0 ∧ rSlot.owner = s.cur.1 ∧
      rSlot.running = false ∧ (s.reg 1).toNat ≤ 1 ∧ rSlot.slot ≠ [] ∧ s.cx.results = [] ∧ s.reg 2 = 0) ∧
    (let s := inRing 0x400000 (ringQ 0x400000) demo;
      s.quiet = true ∧ s.myRing = some (0, ringQ 0x400000) ∧ (ringQ 0x400000).slot = [] ∧ (ringQ 0x400000).counter = 0) ∧
    (let q := { ringQ 0x400000 with counter := 3 }
     let s := inRing 0x400000 q demo
     s.quiet = true ∧ s.myRing = some (0, q) ∧ q.owner = s.cur.1 ∧ q.running = false ∧ q.slot = [] ∧ q.counter ≠ 0) ∧
    (let s := inRing 0x400000 rPark (rg [(1, 5)] demo);
      s.quiet = true ∧ s.myRing = some (0, rPark) ∧ bits (s.reg 1).toNat 63 13 = 0 ∧
      Tbl.find rPark.park (2 * ringPos rPark.cfg.toNat 0 + bits (s.reg 1).toNat 12 12) = some (tile 0x300005) ∧
      (tile 0x300005).tag = bits (s.reg 1).toNat 11 0) := by decide +kernel

/-- An auction of two tokens and two experts of capacity 1: block at 0x50000, rows at 0x50100, capacities at 0x50300. -/
def auMem (s : State) : State :=
  put 0x50000 1 1 (put 0x50040 64 (2 * 2 ^ 32 + 2 * 2 ^ 64 + 5 * 2 ^ 112 + 256 * 2 ^ 128 + 0x50100 * 2 ^ 192 + 0x50300 * 2 ^ 256)
    (put 0x50100 4 (7 + 3 * 2 ^ 16) (put 0x50180 4 (2 + 9 * 2 ^ 16) (put 0x50300 8 (1 + 2 ^ 32) s))))
def auInit : State := auMem demo
def wAuc (st : Nat) : State :=
  match auInit.auConfigure 0 ⟨0, 0, 0, 0, 0x50000, 0, 0, 1, false, false⟩ with
  | (u, _) => { auInit with auction := [(0, { u.au 0 with state := st })] }
def wAuR (st : Nat) : State := rg [(1, 0x50400), (2, 0), (3, 2)] (wAuc st)

/-- A result is a value. -/
def okB {ε α : Type} (e : Except ε α) : Bool :=
  match e with
  | .ok _ => true
  | .error _ => false

theorem okEx {ε α : Type} {e : Except ε α} (h : okB e = true) : ∃ a, e = .ok a := by
  cases e <;> simp_all [okB]

/-- The conditions of the auction words on the state. -/
def auReady (s : State) : Bool :=
  s.quiet && s.guardOk 0 && decide (s.cx.results = []) &&
  let x := s.au (s.auEng (s.cur.1 / 384))
  decide (x.queue = []) && !s.auBusy (s.auEng (s.cur.1 / 384)) && (x.state == 0 || x.domain == s.cc.domain)

/-- AuctionWords: AUCFG of an idle engine, prices of the two experts, a round from the start and one that continues, results
of an auction that is done, both status words. -/
theorem wit_AuctionWords :
    (∀ st ∈ [1, 2, 3], auReady (wAuR st) = true ∧ ((wAuR st).au 0).state = st) ∧ (wAuR 1).auEng ((wAuR 1).cur.1 / 384) = 0 ∧
    ((wAuR 1).reg 3).toNat ≠ 0 ∧ ((wAuR 1).reg 2).toNat + ((wAuR 1).reg 3).toNat ≤ ((wAuR 1).au 0).size ∧
    ((wAuR 1).reg 1).toNat % 8 = 0 ∧
    (∃ a, (auIn (wAuR 1) (.prld 1 2 3 0 0)).engRead (wAuR 1).who 0x50400 8 .bulk = .ok a) ∧
    ((auIn (wAuR 1) (.prst 1 2 3 0 0)).engWrite (wAuR 1).who 0x50400 8
      (ofLanes 32 ((List.range 2).map (fun k => ((wAuR 1).auPrice 0 (0 + k)).toNat))) .bulk).2 = none ∧
    (∀ p ∈ ((wAuR 3).au 0).parts.head?,
      ((auIn (wAuR 3) (.aures 1 2 0 0)).engWrite (wAuR 3).who 0x50400 (8 * p.ntok)
        (ofLanes 64 (p.held.map auRecord)) .bulk).2 = none) ∧ ((wAuR 3).au 0).parts ≠ [] ∧
    (∃ v, (auIn (wAuR 1) (.austep 4 0 0)).auBegin 0 (auCmdOf (wAuR 1) 4 0 0 0) = .ok v) ∧
    (let s := rg [(1, 0x50000)] auInit; auReady s = true ∧ (s.reg 1).toNat % 64 = 0 ∧ (s.reg 2).toNat ≤ 1 ∧
      bits (s.reg 2).toNat 63 9 = 0 ∧ bits (s.reg 2).toNat 7 4 = 0 ∧
      okB ((auIn s (.aucfg 1 2 0 0)).auBlock (auCmdOf s 0 0x50000 0 0)) = true) :=
  by refine ⟨?_, ?_, ?_, ?_, ?_, okEx ?_, ?_, ?_, ?_, okEx ?_, ?_⟩ <;> decide +kernel

/-- A result is a value that leaves the state as it was. -/
def okSt {ε α : Type} (e : Except ε (α × State)) (p : State) (f : α → Bool) : Bool :=
  match e with
  | .ok (a, u) => decide (u = p) && f a
  | .error _ => false

/-- A projection of one pair of F32 tiles: the hidden tile at 0x8000 of the local store, weights at 0x100000. -/
def vRec : Nat :=
  layout [(0, (ls 0x8000).toNat), (8, 0x100000), (32, 1000), (36, 60), (40, 1), (42, 2), (43, 4), (44, 0), (45, 0x11),
    (56, 0x3F800000), (62, 8)]
def f1F32 (s : State) : State := cx (fun c => { c with spec := { c.spec with f := [(1, 0x30000000)] } }) s
def wCfg : State := put (lsKey 0 0x1000) 128 vRec (f1F32 (rg [(1, ls 0x1000)] demo))
def wVpj : State :=
  f1F32 (rg [(1, ls 0x2000), (2, 0), (3, 1), (5, ls 0x5000), (6, ls 0x3000), (7, ls 0x6000)] (cx (fun c => { c with
    vpj := (List.range 128).map (fun i => slice vRec i 1) ++ [0x30000000, 0x30000000] }) demo))
def vCfg : VCfg := VCfg.of (ofLanes 8 (wVpj.cx.vpj.take 128)) (wVpj.cx.vpj.getD 128 0) (wVpj.cx.vpj.getD 129 0)

theorem wit_vpjCfg :
    EngineFree wCfg ∧ (let r := wCfg.peek (.ls 0 0x1000) 128; let v := VCfg.of r 0x30000000 0x30000000;
      wCfg.guardOk 0 = true ∧ (wCfg.cx.fOf (slice r 45 1 % 16)).toNat = 0x30000000 ∧
      (wCfg.cx.fOf (slice r 45 1 / 16)).toNat = 0x30000000 ∧ (wCfg.reg 1).toNat % 64 = 0 ∧
      beyondLs ((wCfg.reg 1).toNat % 2 ^ 20 + 128 - 1) = false ∧ ownWindow wCfg.cur.1 (wCfg.reg 1) = true ∧
      beyondLs ((wCfg.reg 1).toNat % 2 ^ 20) = false ∧ ownWindow wCfg.cur.1 v.hbase = true ∧ beyondLs v.offH = false ∧
      v.wbase.toNat % 64 = 0 ∧ v.hbase.toNat % 64 = 0 ∧ v.gout.toNat % 64 = 0 ∧ descValid 0x30000000 = true ∧
      descKind 0x30000000 < 4 ∧ bit v.side 0 = false ∧ bit v.side 1 = false ∧ v.tagH.cls? = v.tagW.cls? ∧ v.bad r = false) ∧
    wCfg.access wCfg.who (wCfg.reg 1) 128 .read .ls = .ok (.ls 0 0x1000) :=
  ⟨free (by decide +kernel), by decide +kernel, dok (by decide +kernel)⟩

/-- The state block of `wVpj` with its initial rows, and a second one of the next shard. -/
def wBlk : State := nxt (execVpjInit 1 0 0 wVpj) wVpj
def wBlk2 : State :=
  let s := nxt (execVpjInit 6 0 0 (cx (fun c => { c with vpj := c.vpj.set 52 1 }) wBlk)) wBlk
  cx (fun c => { c with vpj := wBlk.cx.vpj }) s
def wVrd : State := put (lsKey 0 0x5000) 32 (layout [(0, 0x60000), (24, 3)]) wBlk

/-- The entry of a word as its operands were captured. -/
def ent (i : Instr) (s : State) : Entry := s.entryOf i ((encodeNat i).getD 0) i.shape

/-- ProjectionWords: VPJ.INIT, VPJ and VPJ.REGEN of the one tile, VPJ.MRG of two shards and VPJ.RD of the first row. -/
theorem wit_vpj :
    EngineFree wVpj ∧ EngineFree wBlk ∧ EngineFree wBlk2 ∧ EngineFree wVrd ∧ (wVpj.cx.vpj ≠ [] ∧ vCfg.lbase = 0) ∧
    okSt (vCfg.block (wVpj.reg 1) wVpj) wVpj (· == 0x2000) = true ∧ okB (vCfg.putRows 0x2000 0 ((List.range vCfg.nrows).map (fun _ =>
      ⟨0xFF800000, 0, 16, vCfg.shard, vCfg.shard, List.replicate 4 (0xFFFFFFFF, 0), []⟩)) (mxIn wVpj (.vpjInit 1 0 0) false)) = true ∧
    (wBlk.reg 3 = 1 ∧ (wBlk.reg 2).toNat < vCfg.tiles ∧ vCfg.thresh = false) ∧
    okSt (vpjCheck (ent (.vpj 1 2 3 0 0) wBlk) (wBlk.issuedAs (Instr.vpj 1 2 3 0 0).shape))
      (wBlk.issuedAs (Instr.vpj 1 2 3 0 0).shape) (fun _ => true) = true ∧
    okSt (vCfg.rows (ent (.vpj 1 2 3 0 0) wBlk) (wBlk.reg 1) (mxIn wBlk (.vpj 1 2 3 0 0) true))
      (mxIn wBlk (.vpj 1 2 3 0 0) true) (fun _ => true) = true ∧
    okSt (vCfg.weights wBlk.who (wBlk.reg 2).toNat (mxIn wBlk (.vpj 1 2 3 0 0) true))
      (mxIn wBlk (.vpj 1 2 3 0 0) true) (fun _ => true) = true ∧
    (vCfg.gout = 0 ∧ vCfg.grow0 + vCfg.ghn ≤ 512 ∧ vCfg.nrows ≤ 64) ∧
    okSt (vCfg.rows (ent (.vpjMrg 7 1 6 0 0) wBlk2) (wBlk2.reg 1) (mxIn wBlk2 (.vpjMrg 7 1 6 0 0) false))
      (mxIn wBlk2 (.vpjMrg 7 1 6 0 0) false) (fun lf => okSt (vCfg.rows (ent (.vpjMrg 7 1 6 0 0) wBlk2) (wBlk2.reg 6)
        (mxIn wBlk2 (.vpjMrg 7 1 6 0 0) false)) (mxIn wBlk2 (.vpjMrg 7 1 6 0 0) false)
        (fun rt => (lf.zip rt).all (fun x => mergeable x.1 x.2))) = true ∧
    (wVrd.reg 2).toNat < vCfg.nrows ∧ okSt (ownBlock (wVrd.reg 5) 8 32 wVrd) wVrd (fun _ => true) = true ∧
    okSt (readRecord (ent (.vpjRd 1 2 5 0 0) wVrd) (wVrd.issuedAs (Instr.vpjRd 1 2 5 0 0).shape))
      (wVrd.issuedAs (Instr.vpjRd 1 2 5 0 0).shape) (fun r => slice r 16 4 ≤ 1024 && slice r 20 1 == 0 && slice r 21 3 == 0 &&
        slice r 28 4 == 0 && slice r 0 8 % 8 == 0 && slice r 8 8 % 8 == 0) = true ∧
    okSt (loadAt wVrd.who (.ls 0 0x2000) vCfg.rowBytes (mxIn wVrd (.vpjRd 1 2 5 0 0) false))
      (mxIn wVrd (.vpjRd 1 2 5 0 0) false) (fun n => (rowOf? vCfg.kh n 0).isSome) = true :=
  ⟨free (by decide +kernel), free (by decide +kernel), free (by decide +kernel), free (by decide +kernel),
    by and_intros <;> decide +kernel⟩

/-- A VPJ.RD record at 0x5000: output at 0x60000, `n` segments at 0x60100 of which the first lies at 0x60200, mode, limit 3. -/
def wRdMode (n mode : Nat) : State :=
  put 0x60100 8 0x60200 (put 0x60200 16 (2 ^ 32 + 5 * 2 ^ 64 + 0x3F800000 * 2 ^ 96)
    (put (lsKey 0 0x5000) 32 (layout [(0, 0x60000), (8, 0x60100), (16, n), (20, mode), (24, 3)]) wBlk))

/-- The projection of `wVpj` with labels at 0x60100, and over two tiles. -/
def wLab : State :=
  cx (fun c => { c with vpj := (List.range 128).map (fun i => slice (vRec + 0x60100 * 2 ^ 128) i 1) ++ [0x30000000, 0x30000000] }) wVpj
def vLab : VCfg := VCfg.of (ofLanes 8 (wLab.cx.vpj.take 128)) (wLab.cx.vpj.getD 128 0) (wLab.cx.vpj.getD 129 0)
def wTwo : State :=
  cx (fun c => { c with
    vpj := (List.range 128).map (fun i => slice (vRec + 64 * 2 ^ 288) i 1) ++ [0x30000000, 0x30000000]
    rf := { c.rf with common := Tbl.put c.rf.common 3 2 } }) wBlk

/-- ProjectionWords: VPJ.INIT with labels, VPJ over two tiles, VPJ.RD that empties its row and VPJ.RD that merges a segment. -/
theorem wit_vpjModes :
    (vLab.lbase ≠ 0 ∧ okSt ((wLab.issuedAs (Instr.vpjInit 1 0 0).shape).engRead wLab.who vLab.lbase (16 * vLab.nrows) .eng)
      (wLab.issuedAs (Instr.vpjInit 1 0 0).shape) (fun _ => true) = true) ∧
    (wTwo.reg 3 = 2 ∧ okSt (vpjCheck (ent (.vpj 1 2 3 0 0) wTwo) (wTwo.issuedAs (Instr.vpj 1 2 3 0 0).shape))
      (wTwo.issuedAs (Instr.vpj 1 2 3 0 0).shape) (fun _ => true) = true) ∧
    (∀ p ∈ [(0, 1), (1, 2)], let s := wRdMode p.1 p.2; let i := Instr.vpjRd 1 2 5 0 0; let u := mxIn s i false
      okSt (readRecord (ent i s) (s.issuedAs i.shape)) (s.issuedAs i.shape)
        (fun r => slice r 20 1 == p.2 && slice r 16 4 == p.1 && slice r 21 3 == 0 && slice r 28 4 == 0) = true ∧
      okSt (engReadM u.who 0x60100 (8 * p.1) u) u (fun w => slice w 0 8 == 0x60200 * p.1) = true ∧
      okSt (segment u.who 0x60200 u) u (fun l => decide (l = [(5, 0x3F800000)])) = true ∧
      (u.engWrite u.who 0x60000 8 0 .eng).2 = none ∧ (u.engWrite u.who 0x60000 16 (2 ^ 32 + 1) .eng).2 = none ∧
      gives i s (fun t => decide (t.cx.level = 0 ∧ t.cx.flow.inflight = [] ∧ Mem.read t.mem 0x60000 8 = (2 ^ 32 + 1) * p.1)) = true) := by
  and_intros <;> decide +kernel

/-! ### Witnesses: contexts, halyards, control registers, traps -/

def part1 (run : List W64) (ex : Bool) : Part := { placedPart with run := run, exhausted := ex }
def wPart (run : List W64) (ex : Bool) (regs : List (Nat × W64)) : State :=
  rg regs (co (fun x => { x with part := some (part1 run ex) }) demo)

/-- Helper 3 of core 0 runs, with or without a pennant. -/
def wHelp (pn : Option (W64 × Bool)) : State :=
  let s := { demo with cur := (0, 3) }
  s.setCx { Ctx.reset with life := .live, pennant := pn, flow := { Ctx.reset.flow with pc := 0x40000 } }

/-- A pennant record at 0x50000 with count `n` and Q, and a ready queue of its cluster. -/
def wPen (n : Nat) (q : Bool) : State :=
  (put 0x50000 32 (layout [(0, 0x40000), (8, 77), (16, n), (24, 2 + b2n q * 128)]) (rg [(1, 0x50000), (2, 0x50000)] demo)).setDreg
    0x2C0000 0x8000000000100000

/-- All helpers of core 0 run; `st` tells whether START began them. -/
def busy (st : Bool) (s : State) : State := co (fun x => { x with ctxs := (List.range 11).map (fun k =>
  (k, if k = 0 then x.ctx 0 else { Ctx.reset with life := .live, started := st })) }) s

/-- Core 1 runs the part of core 0, and its control context follows as `f` says. -/
def lead (f : Option Follow) : State :=
  let s := wPart [5, 6] false [(2, 1)]
  { s with cores := s.cores ++ [(1, { s.core 0 with ctxs := [(0, { Ctx.reset with life := .live, follow := f })] })] }

theorem lead_follows : ¬ CannotFollow (lead none) 1 1 := by
  rintro (h | h | h | h | h | h)
  iterate 5 revert h; decide +kernel
  exact h (part1 [5, 6] false) (part1 [5, 6] false) (by decide +kernel) (by decide +kernel) ⟨rfl, rfl⟩

/-- Core 0 follows core 1, which has issued UNFOLLOW. -/
def wUnf : State := cx (fun c => { c with follow := some ⟨1, 0x40000, true, [(0x40000, 0, false)]⟩ }) demo

/-- ContextWords: START with and without an idle helper; EXIT of a helper and of a control context with helpers, with and
without a next identifier; FOLLOW of the own core, of one that can lead and of one that follows; UNFOLLOW of a follower; WID of a
part and of the next identifier. -/
theorem wit_ContextWords :
    (let s := wPart [5, 6] false [(1, 0x40100), (2, 0x1234), (3, 3), (4, 8)];
      s.quiet = true ∧ s.guardOk 0 = true ∧ s.cur.2 = 0 ∧ s.cx.level = 0 ∧ (s.reg 1).toNat % 4 = 0 ∧
      s.cc.idleHelper.isSome = true ∧ s.cc.helpersLeft = false ∧ s.cc.part = some (part1 [5, 6] false) ∧
      (part1 [5, 6] false).exhausted = false ∧ (part1 [5, 6] false).run = [5, 6] ∧
      s.reg 5 = BitVec.ofNat 64 (s.cur.1 % 192) ∧ (s.reg 3).toNat < 8 ∧ s.reg 4 = 8) ∧
    (wHelp none).quiet = true ∧ (wHelp none).cur.2 ≠ 0 ∧ (wHelp none).cx.pennant = none ∧
    (let p := some ((0x5000 : W64), true); (wHelp p).quiet = true ∧ (wHelp p).cur.2 ≠ 0 ∧ (wHelp p).cx.pennant = p) ∧
    (let s := wPart [] true []; s.quiet = true ∧ s.cc.helpersLeft = false ∧ s.cc.part = some (part1 [] true) ∧
      (part1 [] true).exhausted = true ∧ (s.nextId s.cur.1).isNone = true) ∧
    (∀ st ∈ [true, false], let s := busy st (wPart [5, 6] false [(1, 0x40100)]);
      s.quiet = true ∧ s.cc.idleHelper = none ∧ s.cc.helpersLeft = st) ∧ ((wPart [5, 6] false []).nextId 0).isSome = true ∧
    ((lead none).quiet = true ∧ (lead none).cur.2 = 0 ∧ (lead none).cx.level = 0 ∧ ((lead none).reg 2).toNat = 1) ∧
    (let f : Follow := ⟨3, 0, true, []⟩; ((lead (some f)).ctx 1 0).follow = some f ∧ f.leader ≠ 0 ∧
      ((lead (some f)).setCtx 1 0 { (lead (some f)).ctx 1 0 with follow := none }).quiet = true) ∧
    (wUnf.cx.follow = some ⟨1, wUnf.cx.flow.pc, true, [(wUnf.cx.flow.pc, 0, false)]⟩ ∧
      (wUnf.setCx { wUnf.cx with follow := none }).quiet = true ∧ wUnf.guardOk 0 = true) := by and_intros <;> decide +kernel

theorem wit_PennantWords :
    (∀ p ∈ [(0, false), (1, false), (2, true)], let s := wPen p.1 p.2; let r := s.peek (.hbm 0x50000 0) 32;
      s.quiet = true ∧ s.guardOk 0 = true ∧ (s.reg 2).toNat % 32 = 0 ∧ pnBad r = false ∧ pnCount r = p.1 ∧ pnQ r = p.2 ∧
      s.pnOn (s.cur.1 / 192) = true ∧ s.pnRoom (4 * (s.cur.1 / 192) + pnPrio r) = true) ∧
    (∀ p ∈ [(0, false), (1, false), (2, true)], okEq ((wPen p.1 p.2).access (wPen p.1 p.2).who ((wPen p.1 p.2).reg 2) 32
      .rmw .fe) (.hbm 0x50000 0) = true) := by and_intros <;> decide +kernel

/-- A context with one unfinished instruction whose operands are captured. -/
def left1 (i : Instr) (s : State) : State :=
  cx (fun c => { c with flow := { c.flow with inflight := [s.entryOf i 0 i.shape], seq := 1 } }) s

/-- The halyard word of extent 0 for cores 0 and 1 of the cluster. -/
def hal (mode : Nat) : W64 := BitVec.ofNat 64 (mode * 2 ^ 42 + 2 ^ 8)
def two (s : State) : State := { s with cores := [(0, s.core 0), (1, s.core 0)] }
def epi (op : Nat) (w : W64) : Episode := ⟨op, w, 0, 0, [(0, 0, 1), (1, 0, 0)]⟩
def wFull : State := { two demo with episodes := [epi 1 (hal 0)] }
def wAns (i : Instr) (r : Res) : State := cx (fun c => { c with results := [(0, r)] }) (left1 i demo)

/-- HalyardWords: each word in a mode that it has, a full episode, and each word with its answer. -/
theorem wit_HalyardWords :
    (let s := rg [(1, hal 0), (2, 1), (3, 0)] demo;
      s.quiet = true ∧ s.cur.2 = 0 ∧ s.cx.level = 0 ∧ s.cx.results = [] ∧ (∀ n ∈ [1, 2, 3], halyBad (s.reg 1).toNat s.cur.1 n = false) ∧
      s.reg 3 = 0) ∧
    (let e := epi 1 (hal 0); wFull.episodeFull e = true ∧
      wFull.episodes.filter (fun x => x.op == e.op && x.word == e.word && x.launch == e.launch) = [e] ∧
      wFull.partnersReady (wFull.members e) = true ∧ (1, 0, (0 : W64)) ∈ e.arrived ∧ (wFull.ctx 1 0).life ≠ .dead) ∧
    (let s := cx (fun c => c.setQ 4 (.pending 0)) (wAns (.vote 4 1 2 0) (.q false)); (s.ctx 0 0).qOf 4 = .pending 0 ∧
      (s.ctx 0 0).flow.inflight.map (fun e => (e.instr, e.seq, e.atEnd)) = [(.vote 4 1 2 0, 0, false)] ∧
      Tbl.find (s.ctx 0 0).results 0 = some (.q false)) ∧
    (∀ p ∈ [(Instr.vote 4 1 2 0, Res.q false), (.haly 4 1 2 0, .w 7), (.hsum 4 1 2 0, .w2 7 9)],
      let s := wAns p.1 p.2; (s.ctx 0 0).flow.inflight.map (fun e => (e.instr, e.seq, e.atEnd)) = [(p.1, 0, false)] ∧
      Tbl.find (s.ctx 0 0).results 0 = some p.2) := by decide +kernel

/-- ControlRegisters: a register of each access, an unassigned number, a privileged register in an unprivileged context. -/
theorem wit_ControlRegisters :
    demo.quiet = true ∧ (demo.ctl 0 0 0x010).isSome = true ∧ ctlPriv 0x010 = false ∧ ctlW1c 0x010 = false ∧
    (List.range 4096).any (fun n => ctlW1c n && (demo.ctl 0 0 n).isSome) = true ∧ demo.ctl 0 0 0x3FF = none ∧
    (List.range 4096).any (fun n => ctlPriv n && (demo.ctl 0 0 n).isSome) = true ∧ demo.privOf 0 0 = false := by
  decide +kernel

/-- The image of the context at 0x100000 with a handler at 0x48000. -/
def wTrap : State := rg [(1, 0x77), (9, 5), (15, 0x40200)] ((put 0x100000 8 0x48000 demo).setDreg 0x260010 0x100000)

/-- 07 R133: an unassigned number is ILLEGAL with the word, a privileged register PROT code 0x11. -/
theorem test_control_traps :
    (gives (.mtc 1 0x3FF) wTrap (fun t => decide ((t.cx.level, t.reg 10, t.reg 11) = (1, 0xF0423FF0, 0x40000))) &&
    gives (.mcc 1 0x050) wTrap (fun t => decide ((t.cx.level, t.reg 10, t.reg 11) = (1, 0x050, 0x40000)))) = true := by decide +kernel

/-- 18 R344: a trap leaves the number, the operand and the return address where the handler finds them. -/
theorem test_trap_entry : gives (.trap 1 5) (deep 3 0 wTrap) (fun t =>
    decide ((t.cx.level, t.cx.flow.pc, t.reg 1, t.reg 10, t.reg 11) = (1, 0x48000, 0x100000, 0x77, 0x40000))) = true := by
  decide +kernel

/-- Core 0 in a handler at level 1: its image at 0x100000 holds the level, and in frame 0 the window words CWP 3 and LOW 0. -/
def wHand : State :=
  cx (fun c => { c with level := 1, flow := { c.flow with pc := 0x48000 } }) (put 0x100010 8 1 (put 0x10B820 8 3 wTrap))

/-- A trap request of the running context of `wTrap`. -/
def req : TrapReq := ⟨.trap, 0, 0x77, 0x40000, 0x40004, 5, none, none⟩

/-- TrapEntry at level 0: the frame is written, the vector, the status and the handler's registers are read and the level
is written; at level 2 the context dies. -/
theorem wit_TrapEntry :
    let s1 := (wTrap.landStores 0 0).stopTiles 0 0
    let c := (s1.ctx 0 0).settle ((s1.ctx 0 0).lookedAt req)
    let p := (s1.setCtx 0 0 { c with flow := { c.flow.reopened req with chain := [] }, follow := none }).unpark 0 0
    let h := (p.ctx 0 0).frameHdr req.pc req.npc req.cause req.code req.aux req.n c.flow.inflight.length
    c.level < 2 ∧ (c.flow.reopened req).inflight = [] ∧ (match p.saveLevel 0 0 h [] with
      | .ok u => okEq (u.vread (p.hwWho 0) (p.cimg 0 0) 8) 0x48000 && okB (u.vread (p.hwWho 0) (p.cimg 0 0 + 0x10) 8) &&
        okB (u.vread (p.hwWho 0) (p.cimg 0 0 + 0x13600) 512) && okB (u.vwrite (p.hwWho 0) (p.cimg 0 0 + 0x10) 8 1)
      | .error _ => false) = true ∧
    2 ≤ ((cx (fun c => { c with level := 2 }) wHand).ctx 0 0).level := by decide +kernel

/-- A debugger is attached to the domain of the context with the given DBGCTL bits. -/
def wDbg (n : Nat) : State := demo.setDreg 0x280010 (BitVec.ofNat 64 (256 + n))

/-- TrapAndReturnWords: words that trap, that stop for a debugger and that do not; TRET outside a handler, from a frame
that is taken up and from one that is refused. -/
theorem wit_TrapAndReturnWords :
    (demo.quiet = true ∧ demo.dbgBrk 0 = false ∧ demo.dbgBrk 1 = false) ∧
    ((wDbg 3).quiet = true ∧ (wDbg 3).dbgBrk 0 = true ∧ (wDbg 3).dbgBrk 1 = true ∧ (wDbg 3).otherHalt = false) ∧
    demo.cx.level = 0 ∧ (wHand.quiet = true ∧ wHand.cx.level = 0 + 1 ∧ okB (wHand.restoreLevel 0 0 0) = true) ∧
    (let s := put 0x10B800 8 0xFFFFFFFF wHand; s.quiet = true ∧ s.cx.level = 0 + 1 ∧ (match s.restoreLevel 0 0 0 with
      | .error .refused => true
      | _ => false) = true) ∧
    (let s := wHand.setDreg 0x260010 0x80000000; s.quiet = true ∧ s.cx.level = 0 + 1 ∧ (match s.restoreLevel 0 0 0 with
      | .error (.fault _ _) => true
      | _ => false) = true) := by and_intros <;> decide +kernel

def wHandD (v : W64) : State := cx (fun c => { c with hw := Tbl.put c.hw 5 v }) wHand

/-- The spill map has frame 0 of the context in the lower half of row 4, and frame 1 is the lowest in the file. -/
def wPark : State := co (fun x => { x with spmap := [(0, 0x8000000000000010)] }) (put 0x10B820 8 (3 + 1 * 2 ^ 32) wHand)

/-- SpillAndFill: a frame left in its slot, one parked in half-row 5 and one whose half-row is marked, and a frame filled from its slot
and from a half-row. -/
theorem wit_SpillAndFill :
    (demo.quiet = true ∧ demo.cx.level = 0) ∧
    (∀ n ∈ [0, 0x8000000000000012], let s := wHandD (BitVec.ofNat 64 n); let p := passed s; let a := s.cimg 0 0 + frameOff 0 + 0x20;
      let w := (s.reg 5).toNat;
      s.quiet = true ∧ s.cx.level ≠ 0 ∧ okEq (p.vread (p.hwWho 0) a 8) 3 = true ∧ 0 + 1 < 3 ∧ bits w 62 11 = 0 ∧ bit w 0 = false ∧
      (match p.frameSlot 0 0 0 with
        | .ok slot => okB (p.vread (p.hwWho 0) slot 128)
        | .error _ => false) = true ∧ okB (p.vwrite (p.hwWho 0) a 8 (3 + 1 * 2 ^ 32)) = true ∧
      (List.range 32).find? (fun n => !bit (Tbl.get 0 s.cc.spmap n).toNat 63) = some 0 ∧
      s.cc.spFind (fun y => bits y 10 2 == 4 && bits y 1 1 == 1) = none ∧ Tbl.get false s.cc.marks (2 * 4 + 1) = false) ∧
    (let s := put 0x10B820 8 (3 + 1 * 2 ^ 32) wHand; let p := passed s; let a := s.cimg 0 0 + frameOff 0 + 0x20;
      s.quiet = true ∧ okEq (p.vread (p.hwWho 0) a 8) (3 + 1 * 2 ^ 32) = true ∧
      s.cc.spFind (fun y => bits y 62 59 == s.cur.2 && bits y 55 24 == 1 - 1) = none ∧
      (match p.frameSlot 0 0 0 with
        | .ok slot => okB (p.vread (p.hwWho 0) slot 128)
        | .error _ => false) = true ∧ okB (p.vwrite (p.hwWho 0) a 8 (3 + 0 * 2 ^ 32)) = true) ∧
    (let s := co (fun x => { x with marks := [(9, true)] }) (wHandD 0x8000000000000012);
      s.quiet = true ∧ s.cc.spFind (fun y => bits y 10 2 == 4 && bits y 1 1 == 1) = none ∧ Tbl.get false s.cc.marks (2 * 4 + 1) = true) ∧
    (let s := wPark; let p := passed s; let a := s.cimg 0 0 + frameOff 0 + 0x20;
      s.quiet = true ∧ s.cx.level ≠ 0 ∧ okEq (p.vread (p.hwWho 0) a 8) (3 + 1 * 2 ^ 32) = true ∧
      s.cc.spFind (fun y => bits y 62 59 == s.cur.2 && bits y 55 24 == 1 - 1) = some 0 ∧
      (match p.frameSlot 0 0 0 with
        | .ok slot => (match p.vwrite (p.hwWho 0) slot 128 (s.cc.parkedFrame 4 0) with
          | .ok t => okB (State.vwrite t (t.hwWho 0) a 8 (3 + 0 * 2 ^ 32))
          | .error _ => false)
        | .error _ => false) = true) := by and_intros <;> decide +kernel

/-- HintWords: a chain with room, a full one, one that ends a loop, and words that are no instruction. -/
theorem wit_HintWords :
    demo.cx.follow = none ∧ demo.alone ∧ demo.cx.flow.chain.length < 3 ∧ demo.cx.atEnd demo.cx.flow.pc = false ∧
    (let s := cx (fun c => { c with flow := { c.flow with chain := [.imm 1, .imm 2, .home 3] } }) demo;
      s.cx.follow = none ∧ s.alone ∧ 3 ≤ s.cx.flow.chain.length) ∧
    (let s := cx (fun c => { c with flow := { c.flow with loops := [loop1 2] } }) demo;
      s.cx.follow = none ∧ s.alone ∧ s.cx.atEnd s.cx.flow.pc = true) ∧
    demo.cx.flow.closed = false ∧ bits 0 31 26 ≠ 61 ∧ bits 0xF4C00000 31 26 = 61 ∧
    (left1 (.div 3 1 2 0) demo).cx.flow.closed = true := by
  unfold State.alone; decide +kernel

/-! ### Witnesses: events -/

def wLds : State :=
  let s := left1 (.lds 1 2 0 0 3) at5
  { s with net := { s.net with parked := [(0, 0, 0, 0x50000)] } }
/-- A posted store of eight bytes to this package's memory at 0x50000, which has landed or has not. -/
def pst (landed : Bool) : Store := ⟨some 0x50000, 0, 0x50000, 0, 8, 7, true, landed, 0⟩
def wPosted (landed : Bool) : State := cx (fun c => { c with stores := [pst landed] }) demo
def wFol : State :=
  cx (fun c => { c with follow := some ⟨1, 0x40004, true, []⟩ }) (left1 (.follow 1 2 0) (rg [(2, 1)] demo))

theorem wit_CompletionEvents :
    ((wLds.ctx 0 0).flow.inflight.map (fun e => (e.instr, e.atEnd, e.opa, e.priv, e.seq)) =
        [(.lds 1 2 0 0 3, false, 0x50000, false, 0)] ∧ (wLds.ctx 0 0).stores = [] ∧ (wLds.ctx 0 0).postFail = none ∧
      wLds.isEmpty 0x50000 = false ∧ wLds.net.parked = [(0, 0, 0, 0x50000)]) ∧
    wLds.access ⟨(wLds.core 0).domain, false, 0⟩ 0x50000 8 .rmw .fe = .ok (.hbm 0x50000 0) ∧
    (∀ b ∈ [true, false], (indexed 0 ((wPosted b).ctx 0 0).stores).find? (fun p => p.2.posted) = some (0, pst b) ∧
      (wPosted b).storeHeld 0 (pst b) = false) ∧
    (let s := cx (fun c => { c with stores := [{ pst false with posted := false, key := some 0x60000 }, pst false] }) demo;
      (indexed 0 (s.ctx 0 0).stores).find? (fun p => p.2.posted) = some (1, pst false) ∧
      ∀ y ∈ (s.ctx 0 0).stores.take 1, y.landed = false ∧ y.meets (pst false) = false) ∧
    ((wPosted false).ctx 0 0).stores.find? (fun y => y.posted && !y.landed && y.pa == 0x50000) = some (pst false) ∧ okB (demo.leafOf 0 1 (0x50000 % 2 ^ 52)) = true ∧
    (let s := wFol; (s.ctx 0 0).flow.inflight.map (fun e => (e.instr, e.atEnd, e.opa)) = [(.follow 1 2 0, false, 1)] ∧
      (s.ctx 0 0).level = 0 ∧ (s.ctx 0 0).follow = some ⟨1, 0x40004, true, []⟩) :=
  ⟨by decide +kernel, dok (by decide +kernel), by decide +kernel, by decide +kernel, by decide +kernel, by decide +kernel,
    by decide +kernel⟩

def msg1 : Msg := demo.mkMsg 0x20000 [1, 2, 3, 4, 5, 6, 7, 8]
def wRx : State := co (fun x => { x with rx := [(2, { rx1 with tail := 0 })] }) demo
def rc1 (ens : Nat) (w : W32) : RemoteCmd := ⟨0, 1, 0, 1, ens, w, 0, 0, 0, 0⟩
def wEns : State := co (fun x => { x with creg := [(0x050, 0x701000082)] }) demo

theorem wit_ArrivalEvents :
    (msg1.dest < 1536 ∧ msg1.ring < 8 ∧ msg1.score < 1536 ∧ Tbl.find (wRx.core msg1.dest).rx msg1.ring = some { rx1 with tail := 0 } ∧
      (rx1.dom = 0 ∨ rx1.dom = msg1.sdom) ∧ msg1.payload.length + 8 ≤ 2 ^ rx1.slotLog ∧ msg1.eos = false ∧
      Tbl.find (demo.core msg1.dest).rx msg1.ring = none ∧ wRx.admin.halting = none ∧ demo.admin.halting = none ∧
      (let s := adm (fun a => { a with halting := some 1 }) demo; s.admin.halting = some (s.core msg1.dest).domain ∧
        s.admin.heldBytes (msg1.dest / 384) + (msg1.payload.length + 8) ≤ 2 ^ 20) ∧
      (let s := adm (fun a => { a with halting := some 1, held := [.write 0 0 0 (2 ^ 20) 0] }) demo;
        s.admin.halting = some (s.core msg1.dest).domain ∧ 2 ^ 20 < s.admin.heldBytes (msg1.dest / 384) + (msg1.payload.length + 8)) ∧
      msg1.fab = false ∧ demo.devnum = none ∧ (demo.setDreg 0x2D0000 0x8000000000000005).devnum = some 5) ∧
    ((demo.core 0).admits (rc1 7 0xC4400000) = false ∧ (wEns.core 0).admits (rc1 7 0xC4800000) = true ∧
      (rcInstr (rc1 7 0xC4800000)).any (fun i => i.shape.g == 0) = true ∧ (wEns.core 0).rcbuf.length < 4) ∧
    ((demo.core 0).evq.length < 64 ∧ (demo.core 0).evhead = (demo.core 0).evtail) ∧
    ((3 : W64).toNat % 32 ≠ 0 ∧ (0x50000 : W64).toNat % 32 = 0 ∧ pnBad ((wPen 2 true).peek (.hbm 0x50000 0) 32) = false ∧
      pnCount ((wPen 2 true).peek (.hbm 0x50000 0) 32) = 2 ∧ pnCount ((wPen 0 false).peek (.hbm 0x50000 0) 32) = 0) ∧
    okEq ((wPen 2 true).access ((wPen 2 true).pnWho 0 1) 0x50000 32 .rmw .fe) (.hbm 0x50000 0) = true := by
  and_intros <;> decide +kernel

def wCq : State := nxt (execCp 1 2 3 0 0 (wCp (2 ^ 62 + 64) 0x50000 0x60000)) demo
def wCq2 : State := nxt (execBulkQueueAdmit 0 wCq) demo
def wCq3 (dst : W64) : State := nxt (execCopyCommandStart 0 1 (nxt (execBulkQueueAdmit 0 (nxt (execCp 1 2 3 0 0
  (wCp (2 ^ 62 + 64) dst 0x60000)) demo)) demo)) demo
/-- The event queue of core 0 is full and its command has nothing left to do. -/
def wCq4 : State := co (fun x => { x with evq := List.replicate 64 evr, copyRun := x.copyRun.map (fun c =>
  { c with reads := [], stage := 3, todo := [] }) }) (wCq3 0x50000)
def wM : State := left1 (.accz 1 0 1) (rg [(1, 0)] demo)
def wM1 : State := nxt (execMatrixQueueAdmit 0 wM) demo
def wM2 : State := nxt (execMatrixCommandStart 0 wM1) demo

/-- The command at the head of the matrix queue of core 0 runs without a fault on behalf of context `k`. -/
def mxRuns (s : State) (k : Nat) : Bool :=
  ((s.core 0).mq.head?.bind (·.entry)).any (fun e => (mxOf e.instr).any (fun m =>
    okB ((s.setCore 0 ((s.core 0).mxWork (arrayWord e.instr))).runAs 0 k (m.run e))))

/-- An ACCLD of one row of two elements at the head of the matrix queue of core 0. -/
def wAl : State :=
  nxt (execMatrixQueueAdmit 0 (left1 (.accld 1 2 3 0 1) (rg [(1, BitVec.ofNat 64 (1 * 2 ^ 26)), (2, 0x50000), (3, 32)] at5))) demo

def rq (fly : Bool) : Ring :=
  { ringQ 0x400000 with running := true, latch := if fly then [(0, { tile 0x300005 with fresh := false })] else [] }
def wTask : State := co (fun x => { x with mq := [⟨.ring (some 0) 0x8000000000000000 3 false 0x3F800000 ⟨6, 0x70348⟩
  ⟨6, 0x70348⟩, true, 0, .none, none⟩] }) (inRing 0x400000 (rq true) demo)

theorem wit_EngineEvents :
    ((wCq.core 0).copyq.find? (fun c => c.bulk && decide ((wCq.atEngine c false).length < 32))).isSome = true ∧
    (((wCq2.core 0).copyWaiting.find? (fun c => c.id == 1)).any wCq2.copyMayStart = true) ∧
    (∀ p ∈ [(0x50000, true), (0x80000000, false)], let s := wCq3 (BitVec.ofNat 64 p.1)
      ((s.core 0).copyRun.find? (fun c => c.started && c.id == 1)).any (fun c => s.admin.halting != some c.domain &&
        (s.copyAll c).2.err.isNone == p.2 && ((s.copyAll c).1.core 0).evRoom) = true) ∧
    ((wCq4.core 0).copyRun.find? (fun c => c.started && c.id == 1)).any (fun c => wCq4.admin.halting != some c.domain && c.done &&
        !((wCq4.copyAll c).1.core 0).evRoom) = true ∧
    ((wM.core 0).mq = [] ∧ (wM.core 0).ring = none ∧ (wM.core 0).rcbuf = [] ∧
      (wM.mxReady 0).map (fun e => (e.1, e.2.instr)) = [(0, .accz 1 0 1)] ∧ (mxOf (.accz 1 0 1)).isSome = true) ∧
    ((wM1.core 0).mq.map (fun q => (q.started, q.src, q.entry.map (·.instr))) = [(false, .ctx 0 0, some (.accz 1 0 1))] ∧
      (wM1.core 0).midway = false ∧ mxRuns wM1 0 = true) ∧
    ((wM2.core 0).mq.map (fun q => (q.started, q.src, q.res, (wM2.core 0).mxAccepted q 0)) = [(true, .ctx 0 0, .none, true)] ∧
      (wM2.ctx 0 0).flow.inflight.any (fun e => e.seq == 0) = true ∧ (wM2.ctx 0 0).owns 0 = true) ∧
    ((wM1.core 0).mxBusy = true ∧ (wM1.core 0).mxlevel < wM1.admin.arrayCap ∧ (demo.core 0).mxBusy = false) ∧
    (wTask.core 0).mq.map (fun q => (q.started, q.src)) = [(true, .ring (some 0) 0x8000000000000000 3 false 0x3F800000
      ⟨6, 0x70348⟩ ⟨6, 0x70348⟩)] ∧
    ((inRing 0x400000 (rq true) demo).beatOver 0 (rq true) = true ∧ (rq false).running = true ∧ (rq false).flying = [] ∧
      (inRing 0x400000 (rq true) demo).partnersReady (ringMembers (rq true).cfg.toNat 0) = true) ∧
    ((wAl.core 0).mq.map (fun q => (q.started, q.src, q.entry.map (·.instr))) = [(false, .ctx 0 0, some (.accld 1 2 3 0 1))] ∧
      (wAl.core 0).midway = false ∧ ((wAl.core 0).mq.head?.bind (·.entry)).any (fun e =>
        okB ((wAl.setCore 0 ((wAl.core 0).mxWork false)).runAs 0 0 (accldStep e false))) = true) := by
  and_intros <;> decide +kernel

def auE : AuCmd := ⟨0, 0, 0, 3, 0, 0, 0, 1, false, false⟩
def wAucQ (running : Bool) : State :=
  let s := left1 (.aubid 1 0 1) (wAuc (if running then 2 else 1))
  s.setAu 0 { s.au 0 with queue := [{ auE with running := running }] }
/-- A projection of two tiles at the head of the matrix queue. -/
def wVpjE : State :=
  let s := left1 (.vpj 1 2 3 0 1) (cx (fun c => { c with rf := { c.rf with common := Tbl.put c.rf.common 3 2 } }) wBlk)
  co (fun x => { x with mq := (s.cx.flow.inflight.map (fun e => ⟨.ctx 0 e.seq, false, 0, .none, some e⟩)) }) s
/-- Step 7 of communicator 3, in which one rank or both have sent their eight bytes. -/
def step1 (full : Bool) : AdderStep := ⟨3, 7, 0x50000, 0, 2, 1, 0, 8, 0xFFFFFFFF, 0, 64, false,
  [⟨0, 0, 0, false, 1, 0, [(0, [0, 0, 0x80, 0x3F, 0, 0, 0x80, 0x3F])]⟩] ++
  (if full then [⟨1, 1, 0, false, 2, 0, [(0, [0, 0, 0x80, 0x3F, 0, 0, 0x80, 0x40])]⟩] else []), 0⟩
def wStep (full : Bool) : State := comm3 { demo with coll := { demo.coll with steps := [step1 full] } }
def workE (err : Option (Nat × W64)) : Work :=
  ⟨3, 3, 0, 0, false, toBytes 64 (64 + 2 ^ 46 + 2 ^ 288 * 5 + 2 ^ 384 * 0xFFFFFFFF), 0, 9, 0, 64, 0, err⟩
def wEnd (err : Option (Nat × W64)) : State := comm3 { demo with coll := { demo.coll with work := [(7, workE err)] } }
/-- A work entry of core 0 that has a chunk to send. -/
def wSend : State := comm3 { demo with coll := { demo.coll with ctr := [(5, 9)], work := [(7, { workE none with sent := 0 })] } }

theorem wit_AuctionAndCollectiveEvents :
    ((wAucQ false).auBusy ((wAucQ false).auEng 0) = false ∧ ((wAucQ false).au 0).queue = [auE] ∧
      ((wAucQ false).ctx auE.core auE.ctx).flow.inflight.any (fun e => e.seq == auE.seq) = true) ∧
    ((wAucQ true).au 0).queue.find? (·.running) = some { auE with running := true } ∧
    ((wVpjE.ctx 0 0).flow.inflight.map (fun e => (e.instr, e.seq, e.opb)) = [(.vpj 1 2 3 0 1, 1, 2)] ∧
      (wVpjE.core 0).mq.map (fun q => (q.src, q.started, q.entry.map (·.instr))) = [(.ctx 0 1, false, some (.vpj 1 2 3 0 1))] ∧
      (wVpjE.core 0).midway = false ∧ mxRuns wVpjE 0 = true) ∧
    ((wSend.admitChunk 0).any (fun t => t.net.chunks.all (fun ch => decide (ch.comm < 64 ∧ ch.target < 1536) &&
      (t.chunkArrive ch).isSome)) = true) ∧
    (∀ b ∈ [true, false], (((wStep b).stepOf 3 7 0x50000).map (·.complete)) = some b ∧ (wStep b).stepLate (step1 b) = false) ∧
    ({ wStep false with time := 1000000 }.stepLate (step1 false) = true ∧ { wStep false with time := 1000000 }.stepOf 3 7 0x50000 = some (step1 false)) ∧
    (∀ e ∈ [none, some ((2 : Nat), (0x1234 : W64))], Tbl.find (wEnd e).coll.work (4096 * 0 + 7) = some (workE e) ∧
      (workE e).state = 3 ∧ (workE e).outstanding = 0 ∧ bits ((workE e).field 0 8) 31 0 ≤ (workE e).sent ∧
      bit ((workE e).field 0 8) 46 = true ∧ (workE e).err = e) := by and_intros <;> decide +kernel

/-- A packet of queue 5 of domain 1 at 0x60000, whose kernel of one NOP stands at 0x80000. -/
def wLq : State :=
  let s := put 0x60000 64 (layout [(0, 0x80000), (8, 0), (16, 9), (24, 2), (32, 1), (33, 0), (48, 0x100000), (56, 0x70000)]) demo
  let s := put 0x80000 4 0xF8000000 (put (0x80000 - 2048) 8 (0x4E4B5256 + 2 ^ 32 * 4) s)
  let s := ((s.setDreg (qReg 5 0) 0x60000).setDreg (qReg 5 8) 0x8000000000000104).setDreg (qReg 5 0x10) 1
  co (fun x => { x with part := none }) { s with
    cores := [(0, { s.core 0 with ctxs := [] })]
    launch := { s.launch with slots := [(0, 5, 0)] } }
def wLq1 : State :=
  let s := nxt (execLaunchPacketRead 5 wLq) demo
  { s with launch := { s.launch with active := s.launch.active.map (fun (p : Nat × Launch) => (p.1, s.fixUsable p.2)) } }
def wLq2 : State := nxt (execDealIdentifier 5 0 wLq1) demo
/-- All identifiers are dealt and nothing runs. -/
def wLq3 : State :=
  let s := nxt (execDealIdentifier 5 1 wLq2) demo
  { s with cores := s.cores.map (fun (p : Nat × Core) =>
    (p.1, { p.2 with ctxs := [], part := p.2.part.map (fun x => { x with ended := true }) })) }
/-- The part of core 0 has been stopped. -/
def wStop : State :=
  let x := wLq2.core 0
  { wLq2 with
    cores := [(0, { x with part := none, ctxs := [] })]
    launch := { wLq2.launch with stopped := [⟨0, x.part.getD placedPart, x.ctxs, [], [], ⟨[], 0, 0, 0, 0, 0, 0, []⟩⟩] } }
def wExit : State := left1 (.exit 0) (wPart [5, 6] false [])
def wStart : State := left1 (.start 4 1 2 0) (wPart [5, 6] false [(1, 0x40100), (2, 0x1234)])
/-- A pennant in the ready queue of priority 2 of cluster 0. -/
def wPop : State :=
  let s := nxt (execPnpush 2 0 (wPen 0 false)) demo
  { s with cores := [(0, { s.core 0 with ctxs := (List.range 11).map (fun k =>
    (k, if k = 3 then Ctx.reset else { Ctx.reset with life := .live })) })] }

theorem wit_LaunchEvents :
    (wLq.launch.waiting = [] ∧ (wLq.launch.slots.map (·.1)).Nodup ∧ ∀ y ∈ wLq.launch.slots, y.1 < 128) ∧
    ((wStop.core 0).running = none ∧
      (wStop.launch.stopped.find? (fun y => y.core == 0 && wStop.launch.mapped y.part.queue)).isSome = true ∧
      wStop.coreFree 0 = true ∧ wStop.admin.halting = none) ∧
    (wLq.qWork 5 = true ∧ wLq.launch.mapped 5 = true ∧ Tbl.find wLq.launch.active 5 = none ∧
      (match wLq.readPacket 5 with
        | .ok _ => true
        | .error _ => false) = true) ∧
    (wLq1.coreFree 0 = true ∧ wLq1.canDeal 5 0 = true ∧ wLq1.mayStart 5 0 = true ∧ wLq1.firstFor 5 0 = true ∧
      (Tbl.find wLq1.launch.active 5).any (fun l => l.begun && !bit (l.field 34 1) 1 && (l.nextFor 0).isSome) = true) ∧
    (wLq2.launchDone 5 = false ∧ wLq3.launchDone 5 = true ∧ (Tbl.find wLq3.launch.active 5).isSome = true) ∧
    ((wExit.ctx 0 0).flow.inflight.map (·.instr) = [.exit 0] ∧ (wExit.ctx 0 0).stores = [] ∧ (wExit.core 0).helpersLeft = false ∧
      (wExit.core 0).part = some (part1 [5, 6] false)) ∧
    ((wStart.ctx 0 0).flow.inflight.map (fun e => (e.instr, e.atEnd, e.opa)) = [(.start 4 1 2 0, false, 0x40100)] ∧
      (wStart.ctx 0 0).level = 0 ∧ (wStart.ctx 0 0).stores = [] ∧ (wStart.core 0).idleHelper.isSome = true) ∧
    ((wPop.hostedPart 0).isSome = true ∧ wPop.launch.taking = [] ∧ wPop.admin.halting = none ∧ (wPop.core 0).startWaits = false ∧
      (List.range 11).filter (fun i => i != 0 && ((wPop.core 0).ctx i).life == .idle) = [3] ∧
      (match (wPop.hostedPart 0).bind (fun p => wPop.pnFind 0 p.queue) with
        | some n => okB (wPop.access (wPop.pnWho 0 1) (BitVec.ofNat 64 (wPop.pnSlot n.1 n.2).2) 32 .read .ls)
        | none => false) = true) ∧
    (((Tbl.get [] wPop.launch.pennants (4 * 0 + 2))[0]?).isSome = true ∧ wPop.pnRoom (4 * 0 + 2 - 1) = true) := by
  and_intros <;> decide +kernel

def wHal : State :=
  let s := left1 (.haly 4 1 2 0) (rg [(1, hal 0), (2, 9)] demo)
  { s with
    cores := s.cores.map (fun (p : Nat × Core) => (p.1, p.2.setCtx 0 { p.2.ctx 0 with flow := { (p.2.ctx 0).flow with
      inflight := (p.2.ctx 0).flow.inflight.map (fun e => { e with await := true }) } }))
    episodes := [⟨1, hal 0, 0, 0, [(0, 0, 5)]⟩] }

theorem wit_LimitEvents :
    (∀ i ∈ [Instr.rbwait 4 1 2 0 1, .evwait 4 1 2 0 1, .rgwait 4 2 0 1], let s := left1 i (rg [(2, 9)] wRing);
      (s.ctx 0 0).flow.inflight.map (·.instr) = [i] ∧ (s.ctx 0 0).results = [] ∧
      ((s.ctx 0 0).flow.inflight.all (fun e => e.opa != 0 || e.opb != 0)) = true) ∧
    ((wHal.ctx 0 0).flow.inflight.map (fun e => (e.instr, e.await, e.opb)) = [(.haly 4 1 2 0, true, 9)] ∧
      (wHal.ctx 0 0).results = [] ∧ wHal.episodes = [⟨1, hal 0, 0, 0, [(0, 0, 5)]⟩]) ∧
    (let s := { two demo with admin := { demo.admin with phys := [(1, 0)] } };
      s.partnerOf 0 = some 1 ∧ s.onTurn 0 = true ∧ s.onTurn 1 = false ∧ s.yieldsTurn 0 = false) ∧
    (let s := { two wHal with admin := { demo.admin with phys := [(1, 0)] } };
      s.partnerOf 0 = some 1 ∧ s.onTurn 0 = true ∧ s.yieldsTurn 0 = true) ∧ demo.partnerOf 0 = none := by
  and_intros <;> decide +kernel

theorem wit_HostRegisterEvents :
    HostOpen demo ∧ bit (demo.dregN 0x2D0000) 63 = false ∧ bit ((demo.setDreg 0x2D0000 0x8000000000000005).dregN 0x2D0000) 63 = true ∧
    demo.clusterRuns 7 = false ∧ demo.admin.diePending.Nodup ∧
    (let s := (comm3 demo).setDreg 0x2A0008 0x8000000000000000;
      s.reaches (.fn 0) 1 = true ∧ bits (0x8000000000000105 : W64).toNat 15 8 = 1 ∧ bits (s.dregN (0x200008 + 32 * 5)) 15 8 = 0 ∧
      bits (s.dregN (0x240000 + 64 * 3)) 15 8 = 1) ∧
    (let s := wLq.setDreg 0x2A0008 0x8000000000000000; s.reaches (.fn 0) (s.qDom 5) = true) ∧ bit (demo.dregN (rngReg 3 0x38)) 63 = false ∧
    ((demo.setDreg 0x2A1000 5).dregN 0x2A1000 % 2 ^ 14 ≠ 0 ∧ demo.admin.keyBusy = 0) := by
  unfold HostOpen; decide +kernel

def tlb1 : TlbEntry := ⟨1, 0, 30, 0x1F⟩
def frec1 : FaultRec := ⟨5, 14, 0x24, 0, 0, 0, 0x1234, 0⟩
def wFq (full : Bool) (lat : Nat) : State :=
  let s := { demo with
    net := { demo.net with frecs := [(0, frec1)] }
    admin := { demo.admin with latches := [(0, List.replicate lat frec1)] } }
  if full then s else (s.setDreg 0x270000 0x90000).setDreg 0x270008 0x8000000000000004

theorem wit_AdminEvents :
    (let s := { co (fun x => { x with micro := [tlb1] }) demo with admin := { demo.admin with xlinv := [(1, 1, 0x50000)] } };
      s.admin.xlinv = [(1, 1, 0x50000)] ∧ s.settledFor (fun d => d == 1) = true) ∧ (wPosted false).settledFor (fun d => d == 1) = false ∧
    demo.admin.xlinv = [] ∧
    (let s := adm (fun a => { a with fills := [3, 1], disabling := [3, 1] }) demo;
      3 ∈ s.admin.fills ∧ s.admin.fills.Nodup ∧ 3 ∈ s.admin.disabling ∧ s.domainRuns 3 = false ∧ s.admin.disabling.Nodup) ∧
    ((wFq false 0).latch 0 = [] ∧ (wFq false 0).fqFull = false ∧ (wFq true 3).fqFull = true ∧ ((wFq true 3).latch 0).length < 16 ∧
      16 ≤ ((wFq true 16).latch 0).length ∧ (wFq true 16).fqFull = true) ∧
    ((wFq false 0).net.frecs.filter (fun x => x.1 == 0)).head? = some (0, frec1) ∧
    (let s := adm (fun a => { a with linkWidth := 0 }) demo; s.admin.linkPending = false ∧ s.admin.linkWidth = 0) ∧
    (demo.admin.linkPending = false ∧ demo.admin.linkWidth ≠ 0) ∧
    demo.admin.failedPorts.Nodup ∧ (adm (fun a => { a with linkPending := true }) demo).admin.linkPending = true ∧
    (let s := adm (fun a => { a with diePending := [3, 0] }) demo; 3 ∈ s.admin.diePending ∧ s.admin.linkPending = false ∧
      s.admin.diePending.Nodup) := by decide +kernel

/-- AdminEvents, RBEN: a ring's record of 16 slots of 512 bytes that fits, one with a slot size out of range, a ring that is enabled, and a
record past the local store. -/
theorem wit_RbenWrite :
    (let s := put (lsKey 0 0) 64 (layout [(0, 0x2000), (4, 9), (5, 4), (8, 3), (12, 5)]) demo;
      RingFits (s.peek (.ls 0 ((s.core 0).rxDesc 0)) 64) ∧ beyondLs ((s.core 0).rxDesc 0 + 63) = false ∧ Tbl.find (s.core 0).rx 0 = none) ∧
    (let s := put (lsKey 0 0) 64 (layout [(0, 0x2000), (4, 13), (5, 4)]) demo; ¬RingFits (s.peek (.ls 0 ((s.core 0).rxDesc 0)) 64)) ∧
    Tbl.find (wRing.core 0).rx 2 = some rx1 ∧
    (let s := co (fun x => { x with creg := [(0x040, 0xFFFC0)] }) demo; beyondLs ((s.core 0).rxDesc 1 + 63) = true) := by
  unfold RingFits; decide +kernel

theorem wit_DebugResetAndHostAccess :
    HostOpen demo ∧ (demo.ctx 0 0).life = .live ∧ 0x50000 < lsKey 1536 0 ∧
    (let s := adm (fun a => { a with lastingUnits := [.channel 3] }) State.reset;
      HwUnit.channel 3 ∈ s.admin.lastingUnits ∧ HwUnit.channel 3 ∉ s.admin.retiredUnits ∧ s.unitQuiet (.channel 3) = true) ∧
    demo.admin.halting = none ∧
    (let s := adm (fun a => { a with halting := some 2 }) demo;
      s.admin.halting = some 2 ∧ s.admin.halted = false ∧ s.allStopped 2 = true) ∧
    (let s := adm (fun a => { a with halting := some 1, halted := true }) demo; s.admin.halted = true ∧ s.admin.halting = some 1) ∧
    (let s := demo.setDreg 0x2A0010 0x8000000000000005;
      bit (s.dregN (0x2A0000 + 8 * 2)) 63 = true ∧ s.dregN (0x2A0000 + 8 * 2) % 2 ^ 7 = 5 ∧ s.domainRuns 2 = false) ∧
    (demo.barPlace 0 0x50000 4).any (fun l => l.key? == some 0x50000) = true ∧ demo.isLost 0x50000 4 = false ∧
    ((demo.setDreg 0x2D0000 0x8000000000000007).barPlace (2 ^ 16 + 5) 0x50000 8).isSome = true ∧ barReg 0 0x50000 4 = none ∧
    barReg 0 0xE000002A0000 8 = none ∧ barReg 0 0xE0000002A0000 8 = some 0x2A0000 ∧
    State.reset.stackFailed = false ∧ demo.firmwareRan = false ∧
    (let s := demo.setDreg 0x2B0000 13; HostOpen s ∧ s.firmwareRan = true) ∧ demo.admin.sessions = 0 := by
  unfold HostOpen; decide +kernel

/-! ### Witnesses: the machine as a whole -/

def wOne : State := left1 (.ld 1 2 0 3 0 1) at5
def one1 : Entry := at5.entryOf (.ld 1 2 0 3 0 1) 0 (Instr.ld 1 2 0 3 0 1).shape

def wGone : State := at5.setCx { at5.cx with flow := { at5.cx.flow with gone := [{ one1 with left := 1 }] } }

/-- LookaheadWindow: a load with a window in `at5`, and an unfinished load with what depends on it and what does not. -/
theorem wit_LookaheadWindow :
    (at5.quiet = true ∧ 0 < 3 ∧ at5.access at5.who (at5.reg 2 + (BitVec.ofNat 8 0).signExtend 64 * BitVec.ofNat 64 8) 8 .read .ls =
      .ok (.hbm 0x50000 0)) ∧ OneLeft wOne one1 ∧ one1.left = 0 + 1 ∧
    (wOne.cx.dependsOn (Instr.add 4 3 3 false 0).shape one1.instr.shape = false ∧
      wOne.cx.dependsOn (Instr.add 4 1 3 false 0).shape one1.instr.shape = true) ∧ OneGone wGone { one1 with left := 1 } :=
  ⟨⟨by decide +kernel, by decide, dok (by decide +kernel)⟩,
    ⟨by decide +kernel, by decide +kernel, by decide +kernel, by unfold State.alone; decide +kernel⟩, by decide +kernel,
    by decide +kernel, ⟨by decide +kernel, by decide +kernel, by decide +kernel, by unfold State.alone; decide +kernel⟩⟩

theorem wit_WordsRoundTrip : (Instr.cas 30 31 1 3 4 15).wellFormed = true ∧ encodeNat (.cas 30 31 1 3 4 15) = some 0x5FDF2E4F := by
  decide +kernel

/-- The state in which the one move of `demo` with a word at its program counter runs it. -/
def atPc (w : Nat) : State := put 0x40000 4 w demo
def ran (s : State) : State := { s.passTime.nextCycle 0 with cur := (0, 0) }

/-- The context of `atPc` has a HINT chain to go on with. -/
def inChain (w : Nat) : State := cx (fun c => { c with flow := { c.flow with chain := [.imm 1] } }) (atPc w)
/-- Core 0 follows core 1, which has issued a word here or has not. -/
def behind (q : List (W64 × Nat × Bool)) : State :=
  let s := cx (fun c => { c with follow := some ⟨1, 0x40000, true, q⟩ }) (atPc 0x052A5808)
  { s with cores := s.cores ++ [(1, { s.core 0 with ctxs := [(0, { (s.core 0).ctx 0 with follow := none })] })] }

/-- StepRuns: the premises, for a word that decodes, a word that does not, and a fetch that faults. -/
theorem wit_StepRuns :
    (∀ s ∈ [atPc 0x052A5808, atPc 0, cx (fun c => { c with flow := { c.flow with pc := 0x80000000 } }) wTrap],
      s.agenda = [] ∧ s.passTime.moves = [.issue 0] ∧ s.passTime.chained 0 = none ∧
      ((s.passTime.nextCycle 0).core 0).candidates = [0] ∧ ((s.passTime.nextCycle 0).ctx 0 0).stepping = false ∧
      (ran s).earlierTrap Instr.fin (ran s).cx.flow.seq = none) ∧
    (let s := inChain 0x052A5808; s.passTime.moves = [.issue 0] ∧ s.passTime.chained 0 = some 0 ∧
      (s.passTime.ctx 0 0).stepping = false) ∧
    ((ran (behind [])).nextWord.isNone = true ∧ (ran (behind [])).unfollowed.isNone = true ∧
      (ran (behind [(0x40000, 0xE1000000, true)])).unfollowed.isSome = true ∧
      (ran (behind [(0x40000, 0x052A5808, false)])).nextWord.any (fun f => okEq f 0x052A5808) = true) ∧
    okEq (ran (atPc 0x052A5808)).fetch 0x052A5808 = true ∧ okEq (ran (atPc 0)).fetch 0 = true ∧
    (let z := ran (cx (fun c => { c with flow := { c.flow with pc := 0x80000000 } }) wTrap);
      okB z.fetch = false ∧ z.cx.flow.inflight = []) ∧
    (∀ w ∈ [0x052A5808, 0], (atPc w).passTime.overdue.isNone = true) ∧ State.reset.passTime.moves = [] := by
  and_intros <;> decide +kernel

/-- What two outcomes leave in cores, memory and the package, the time apart, whose advance is free. -/
noncomputable def sameNext (r q : Host.Outcome State Fault Refusal) : Bool :=
  match r, q with
  | .next t, .next u => decide (t.cur = u.cur ∧ t.cores = u.cores ∧ t.mem = u.mem ∧ t.dreg = u.dreg ∧ t.net = u.net ∧
      t.coll = u.coll ∧ t.rings = u.rings ∧ t.agenda = u.agenda)
  | _, _ => false

/-- StepRuns at those states: the step is the instruction's or ILLEGAL, and where the package has no move an event happens. -/
theorem test_step :
    sameNext (step (atPc 0x052A5808)) (exec (.add 9 10 11 true 0) (ran (atPc 0x052A5808))) = true ∧
    sameNext (step (atPc 0)) (exec (.illegalWord 0) (ran (atPc 0))) = true ∧
    sameNext (step { State.reset with agenda := [.yieldExpire 0 0] }) (exec (.yieldExpire 0 0) State.reset.passTime) = true := by
  and_intros <;> decide +kernel

/-- StepKeepsMemory: a state in canonical form with a next state, and a form that is not canonical. -/
theorem wit_StepKeepsMemory : MemOk (atPc 0xF8000000) ∧ (match step (atPc 0xF8000000) with
    | .next t => decide (t.cx.flow.pc = 0x40004)
    | _ => false) = true ∧ ¬ MemOk { demo with mem := [(5, 1), (4, 1)] } := by
  unfold MemOk; decide +kernel

/-- The states of the witnesses of stores, atomics, counters, copies, rings, auctions, projections, contexts, pennants and halyards have no
message on its way. -/
theorem wit_Sent :
    ∀ s ∈ [at5, at5e, demo, wMt, wMtu, wInj, wCtr, wCp (2 ^ 62 + 64) 0x50000 0x60000, wCr 0, inRing 0x400000 rSlot demo, wAuR 1, wCfg,
        wVpj, wBlk, wBlk2, wVrd, wLab, wTwo, wPart [5, 6] false [], wPart [] true [], wHelp none, wPen 1 false, wPen 2 true, wExit, wStart,
        { wLds with cur := (0, 0) }],
      s.sending true = false := by decide +kernel

/-- AuctionRoundCapacity: two tokens that want an expert of one place, and one that alone wants another. -/
theorem wit_AuctionRoundCapacity :
    let p : Partition := {
      tok0 := 0, ntok := 3, nexp := 2, pbase := 0, sparse := false, cand := 0, aulim := 5, eps := 1, aff := 0,
      caps := [1, 2], rows := [[(0, 7), (1, 3)], [(0, 9), (1, 2)], [(0, 2), (1, 9)]], held := [none, none, none], rounds := 0,
      complete := false, fallback := false, fbcount := 0, doneRounds := 0 }
    let wants (i : Nat) : Option Nat := match (p.held.zip p.rows)[i]? with
      | some (some x, _) => some x.1
      | some (none, row) => (bidOf p (fun _ => 0) row).map (·.1)
      | none => none
    (List.range 3).countP (fun i => wants i == some 1) ≤ p.caps.getD 1 0 ∧ wants 2 = some 1 ∧ wants 0 = some 0 ∧ wants 1 = some 0 ∧
    (p.round (fun _ => 0)).1.held.map (·.map (·.1)) = [none, some 0, some 1] := by decide +kernel

end Sys2Proof.Tests
end

/-! # A step keeps the canonical form of memory (O60)

Memory is written in few places: a store (`State.poke`, with the rekeying of its lines), the refilling of a local store when a
stopped context resumes, its clearing when a core changes domain, and the warm reset. Every other function of the model builds
its state from those and from updates of other fields. So there is one lemma for each function that gives a state, in the order
of the model, each proved from those of the functions it calls; the lemma for `step` is the last. A lemma is named by the kind
of its function's answer and by the function. -/

section
namespace Sys2Proof.Machine

/-- The value of an option, where there is one, has the property. -/
inductive OptionOk {α : Type} (p : α → Prop) : Option α → Prop
  | none : OptionOk p Option.none
  | some {x : α} (h : p x) : OptionOk p (Option.some x)

/-- The answer, where there is one, has the property. -/
inductive ExceptOk {ε α : Type} (p : α → Prop) : Except ε α → Prop
  | error {e : ε} : ExceptOk p (.error e)
  | ok {x : α} (h : p x) : ExceptOk p (.ok x)

/-- The next state of a step, where there is one, has its memory in canonical form. -/
inductive OutcomeOk : Host.Outcome State Fault Refusal → Prop
  | next {t : State} (h : MemOk t) : OutcomeOk (.next t)
  | fault {f : Fault} : OutcomeOk (.fault f)
  | refused {r : Refusal} : OutcomeOk (.refused r)

/-- The state that an issue gives, where it gives one, has its memory in canonical form. -/
inductive IssuedOk : Issued → Prop
  | wait : IssuedOk .wait
  | next {t : State} (h : MemOk t) : IssuedOk (.next t)

/-- A meaning that keeps the canonical form of memory. -/
def Keeps {α : Type} (m : M α) : Prop := ∀ s, MemOk s → ExceptOk (fun r => MemOk r.2) (m s)

/-- A matrix command of which the checks and the work keep the canonical form. -/
structure MxOk (m : Mx) : Prop where
  check : ∀ e, Keeps (m.check e)
  run : ∀ e, Keeps (m.run e)

/-! ### The answers -/

theorem ExceptOk.of_ok {ε α : Type} {p : α → Prop} {r : Except ε α} {x : α} (e : r = .ok x) (h : ExceptOk p r) : p x := by
  subst e
  cases h
  assumption

theorem OptionOk.of_some {α : Type} {p : α → Prop} {r : Option α} {x : α} (e : r = Option.some x) (h : OptionOk p r) : p x := by
  subst e
  cases h
  assumption

theorem IssuedOk.of_next {r : Issued} {t : State} (e : r = .next t) (h : IssuedOk r) : MemOk t := by
  subst e
  cases h
  assumption

theorem OutcomeOk.of_next {r : Host.Outcome State Fault Refusal} {t : State} (e : r = .next t) (h : OutcomeOk r) : MemOk t := by
  subst e
  cases h
  assumption

theorem MemOk.ite {c : Prop} [Decidable c] {a b : State} (ha : MemOk a) (hb : MemOk b) : MemOk (if c then a else b) := by
  split <;> assumption

theorem MemOk.ite_fst {β : Type} {c : Prop} [Decidable c] {a b : State × β} (ha : MemOk a.1) (hb : MemOk b.1) :
    MemOk (if c then a else b).1 := by
  split <;> assumption

theorem MemOk.ite_snd {β : Type} {c : Prop} [Decidable c] {a b : β × State} (ha : MemOk a.2) (hb : MemOk b.2) :
    MemOk (if c then a else b).2 := by
  split <;> assumption

theorem MemOk.of_fst {β : Type} {r : State × β} {t : State} {x : β} (e : r = (t, x)) (h : MemOk r.1) : MemOk t := by
  subst e
  exact h

theorem MemOk.of_snd {β : Type} {r : β × State} {t : State} {x : β} (e : r = (x, t)) (h : MemOk r.2) : MemOk t := by
  subst e
  exact h

theorem OptionOk.ite {α : Type} {p : α → Prop} {c : Prop} [Decidable c] {a b : Option α} (ha : OptionOk p a) (hb : OptionOk p b) :
    OptionOk p (if c then a else b) := by
  split <;> assumption

theorem ExceptOk.ite {ε α : Type} {p : α → Prop} {c : Prop} [Decidable c] {a b : Except ε α} (ha : ExceptOk p a)
    (hb : ExceptOk p b) :
    ExceptOk p (if c then a else b) := by
  split <;> assumption

theorem OutcomeOk.ite {c : Prop} [Decidable c] {a b} (ha : OutcomeOk a) (hb : OutcomeOk b) : OutcomeOk (if c then a else b) := by
  split <;> assumption

theorem IssuedOk.ite {c : Prop} [Decidable c] {a b} (ha : IssuedOk a) (hb : IssuedOk b) : IssuedOk (if c then a else b) := by
  split <;> assumption

/-- A state that differs from one in canonical form in other fields than its memory. -/
theorem MemOk.update {t : State}
    {cores fe lost lineKey dreg ctlb net rings auction coll launch episodes admin time fresh cur agenda}
    (h : MemOk t) : MemOk ⟨cores, t.mem, fe, lost, lineKey, dreg, ctlb, net, rings, auction, coll, launch, episodes, admin, time,
      fresh, cur, agenda⟩ := h

theorem ExceptOk.bind {ε α β : Type} {q : α → Prop} {p : β → Prop} {r : Except ε α} {f : α → Except ε β} (hr : ExceptOk q r)
    (hf : ∀ x, q x → ExceptOk p (f x)) : ExceptOk p (r >>= f) := by
  cases hr with
  | error => exact .error
  | ok h => exact hf _ h

theorem ExceptOk.map {ε α β : Type} {q : α → Prop} {p : β → Prop} {r : Except ε α} {f : α → β} (hr : ExceptOk q r)
    (hf : ∀ x, q x → p (f x)) : ExceptOk p (r.map f) := by
  cases hr with
  | error => exact .error
  | ok h => exact .ok (hf _ h)

/-- An answer of which nothing is asked. -/
theorem ExceptOk.any {ε α : Type} {r : Except ε α} : ExceptOk (fun _ => True) r := by
  cases r with
  | error _ => exact .error
  | ok _ => exact .ok trivial

theorem OptionOk.map {α β : Type} {p : β → Prop} {o : Option α} {f : α → β} (hf : ∀ x, p (f x)) : OptionOk p (o.map f) := by
  cases o with
  | none => exact .none
  | some _ => exact .some (hf _)

theorem OptionOk.bind {α β : Type} {p : β → Prop} {o : Option α} {f : α → Option β} (hf : ∀ x, OptionOk p (f x)) :
    OptionOk p (o.bind f) := by
  cases o with
  | none => exact .none
  | some x => exact hf x

theorem MemOk.elim {α : Type} {o : Option α} {f : α → State} {s : State} (ho : OptionOk (fun x => MemOk (f x)) o) (h : MemOk s) :
    MemOk (o.elim s f) := by
  cases ho with
  | none => exact h
  | some h => exact h

/-! ### Folds -/

theorem MemOk.foldl {α : Type} {f : State → α → State} {l : List α} {s : State} (hf : ∀ s x, MemOk s → MemOk (f s x))
    (h : MemOk s) :
    MemOk (l.foldl f s) := by
  induction l generalizing s with
  | nil => exact h
  | cons x l ih => exact ih (hf s x h)

theorem MemOk.foldl_fst {α β : Type} {f : State × β → α → State × β} {l : List α} {r : State × β}
    (hf : ∀ r x, MemOk r.1 → MemOk (f r x).1) (h : MemOk r.1) : MemOk (l.foldl f r).1 := by
  induction l generalizing r with
  | nil => exact h
  | cons x l ih => exact ih (hf r x h)

theorem ExceptOk.foldl {ε α β : Type} {p : β → Prop} {f : Except ε β → α → Except ε β} {l : List α} {r : Except ε β}
    (hf : ∀ r x, ExceptOk p r → ExceptOk p (f r x)) (h : ExceptOk p r) : ExceptOk p (l.foldl f r) := by
  induction l generalizing r with
  | nil => exact h
  | cons x l ih => exact ih (hf r x h)

theorem OptionOk.foldl {α β : Type} {p : β → Prop} {f : Option β → α → Option β} {l : List α} {o : Option β}
    (hf : ∀ o x, OptionOk p o → OptionOk p (f o x)) (h : OptionOk p o) : OptionOk p (l.foldl f o) := by
  induction l generalizing o with
  | nil => exact h
  | cons x l ih => exact ih (hf o x h)

theorem OptionOk.findSome {α β : Type} {p : β → Prop} {f : α → Option β} {l : List α} (hf : ∀ x, OptionOk p (f x)) :
    OptionOk p (l.findSome? f) := by
  induction l with
  | nil => exact .none
  | cons x l ih =>
    rw [List.findSome?_cons]
    split
    · next e => exact e ▸ hf x
    · exact ih

theorem MemOk.getD {o : Option State} {s : State} (ho : OptionOk MemOk o) (h : MemOk s) : MemOk (o.getD s) := by
  cases o with
  | none => exact h
  | some t => exact OptionOk.of_some rfl ho

/-! ### Meanings -/

theorem Keeps.pure {α : Type} {x : α} : Keeps (Pure.pure x : M α) := fun _ h => .ok h

theorem Keeps.bind {α β : Type} {m : M α} {f : α → M β} (hm : Keeps m) (hf : ∀ x, Keeps (f x)) : Keeps (m >>= f) := by
  intro s h
  show ExceptOk _ ((m s).bind fun r => f r.1 r.2)
  cases e : m s with
  | error _ => exact .error
  | ok r =>
    have h1 := ExceptOk.of_ok e (hm s h)
    exact hf r.1 r.2 h1

/-- What a meaning does with the state that it reads, which is in canonical form. -/
theorem Keeps.get_bind {β : Type} {f : State → M β} (hf : ∀ s, MemOk s → Keeps (f s)) : Keeps (get >>= f) :=
  fun s h => hf s h s h

theorem Keeps.get : Keeps (MonadState.get : M State) := fun _ h => .ok h

theorem Keeps.set {t : State} (h : MemOk t) : Keeps (MonadStateOf.set t : M PUnit) := fun _ _ => .ok h

theorem Keeps.modify {f : State → State} (hf : ∀ s, MemOk s → MemOk (f s)) : Keeps (modify f : M PUnit) := fun s h => .ok (hf s h)

theorem Keeps.ite {α : Type} {c : Prop} [Decidable c] {a b : M α} (ha : Keeps a) (hb : Keeps b) : Keeps (if c then a else b) := by
  split <;> assumption

theorem Keeps.forM {α : Type} {l : List α} {f : α → M PUnit} (hf : ∀ x, Keeps (f x)) : Keeps (l.forM f) := by
  induction l with
  | nil => exact .pure
  | cons x l ih => exact .bind (hf x) fun _ => ih

theorem Keeps.mapM {α β : Type} {l : List α} {f : α → M β} (hf : ∀ x, Keeps (f x)) : Keeps (l.mapM f) := by
  induction l with
  | nil => exact .pure
  | cons x l ih =>
    rw [List.mapM_cons]
    exact .bind (hf x) fun _ => .bind ih fun _ => .pure

theorem Keeps.foldlM {α β : Type} {l : List α} {f : β → α → M β} {b : β} (hf : ∀ b x, Keeps (f b x)) : Keeps (l.foldlM f b) := by
  induction l generalizing b with
  | nil => exact .pure
  | cons x l ih =>
    rw [List.foldlM_cons]
    exact .bind (hf b x) fun _ => ih

theorem Keeps.check {m : Mx} {e} (h : MxOk m) : Keeps (m.check e) := h.check e

theorem Keeps.run {m : Mx} {e} (h : MxOk m) : Keeps (m.run e) := h.run e

end Sys2Proof.Machine
end

section
namespace Sys2Proof.Machine

variable {s : State}

theorem MemOk.reset : MemOk State.reset := rfl

/-! ### Reading and writing parts of the state -/

theorem MemOk.setCore {c x} (h : MemOk s) : MemOk (s.setCore c x) := h

theorem MemOk.setCtx {c k x} (h : MemOk s) : MemOk (s.setCtx c k x) := .setCore h

theorem MemOk.setCx {x} (h : MemOk s) : MemOk (s.setCx x) := .setCtx h

theorem MemOk.setCc {x} (h : MemOk s) : MemOk (s.setCc x) := .setCore h

theorem MemOk.choose {n} (h : MemOk s) : MemOk (s.choose n).2 := h

theorem MemOk.freeWord (h : MemOk s) : MemOk s.freeWord.2 := h

theorem MemOk.freeBytes {n} (h : MemOk s) : MemOk (s.freeBytes n).2 := by
  induction n generalizing s with
  | zero => exact h
  | succ n ih => exact ih h

theorem MemOk.setDreg {off v} (h : MemOk s) : MemOk (s.setDreg off v) := h

theorem MemOk.post {core r} (h : MemOk s) : MemOk (s.post core r) := h

theorem MemOk.postFault {die r} (h : MemOk s) : MemOk (s.postFault die r) := h

/-! ### Places of memory -/

theorem MemOk.rekey {line mat} (h : MemOk s) : MemOk (s.rekey line mat) := by
  unfold State.rekey
  split
  · exact h
  · exact Memory.wf_write _ _ _ _ h

theorem MemOk.heal {a n} (h : MemOk s) : MemOk (s.heal a n) := by
  rw [MemOk, (heal_mem s a n).1]
  exact h

theorem MemOk.rekeys {l : List Nat} {mat} (h : MemOk s) : MemOk (l.foldl (fun s line => s.rekey line mat) s) :=
  .foldl (fun _ _ h => .rekey h) h

theorem MemOk.poke {l n v} (h : MemOk s) : MemOk (s.poke l n v) := by
  unfold State.poke
  split
  · exact h
  · exact .heal (Memory.wf_write _ _ _ _ (MemOk.rekeys h))

theorem MemOk.setFe {key empty} (h : MemOk s) : MemOk (s.setFe key empty) := h

theorem MemOk.setFull {l n} (h : MemOk s) : MemOk (s.setFull l n) := by
  unfold State.setFull
  split <;> exact h

/-! ### The monad of a meaning -/

theorem Keeps.trapPre {α : Type} {c code aux} : Keeps (trapPre c code aux : M α) := fun _ _ => .error

theorem Keeps.trapPost {α : Type} {c code aux} : Keeps (trapPost c code aux : M α) := fun _ _ => .error

theorem Keeps.waitM {α : Type} : Keeps (waitM : M α) := fun _ _ => .error

theorem Keeps.getCx : Keeps getCx := fun _ h => .ok h

theorem Keeps.modCx {f : Ctx → Ctx} : Keeps (modCx f) := fun _ h => .ok (.setCx h)

theorem Keeps.getCc : Keeps getCc := fun _ h => .ok h

theorem Keeps.modCc {f : Core → Core} : Keeps (modCc f) := fun _ h => .ok (.setCc h)

theorem Keeps.getCur : Keeps getCur := fun _ h => .ok h

theorem Keeps.rW {n} : Keeps (rW n) := by
  unfold Machine.rW
  intro s h
  dsimp only
  split
  · exact .ok h
  · split
    · exact .ok h
    · split
      · exact .ok h
      · exact .error

theorem Keeps.wW {n v t} : Keeps (wW n v t) := .modCx

theorem Keeps.rM {n} : Keeps (rM n) := by
  unfold Machine.rM
  intro s h
  dsimp only
  split
  · exact .ok h
  · split
    · exact .ok h
    · split
      · exact .ok h
      · exact .error

theorem Keeps.rV {n} : Keeps (rV n) := by
  unfold Machine.rV
  intro s h
  dsimp only
  split
  · exact .ok h
  · split
    · exact .ok h
    · exact .error

theorem Keeps.wV {n val tag t} : Keeps (wV n val tag t) := .modCx

theorem Keeps.rQ {n} : Keeps (rQ n) := by
  unfold Machine.rQ
  intro s h
  dsimp only
  split
  · exact .ok h
  · exact .error
  · exact .error

theorem Keeps.raiseFlags {f} : Keeps (raiseFlags f) := .modCx

/-! ### Completion of an entry (07 R128, R129, 14 R295) -/

theorem MemOk.serveWord {key n} (h : MemOk s) : MemOk (s.serveWord key n) := by
  induction n generalizing s with
  | zero => exact h
  | succ n ih =>
    unfold State.serveWord
    refine .ite h ?_
    split
    · exact h
    · dsimp only
      split
      · exact ih h
      · split
        · exact ih h
        · split <;> exact ih h

theorem MemOk.fill {l n} (h : MemOk s) : MemOk (s.fill l n) := by
  unfold State.fill
  split
  · exact h
  · exact .foldl (fun _ _ h1 => .serveWord h1) (.setFull h)

/-! ### Images and frames (18 R337-R340) -/

theorem ExceptOk.vwrite {w va n v} (h : MemOk s) : ExceptOk MemOk (s.vwrite w va n v) := by
  unfold State.vwrite
  refine .foldl (fun _ _ h1 => ?_) (.ok h)
  dsimp only
  split
  · exact h1
  · split
    · exact .error
    · have h3 := ExceptOk.of_ok rfl h1
      exact .ite .error (.ok (.poke h3))

theorem ExceptOk.flushFrames {core k c stk} (h : MemOk s) : ExceptOk MemOk (s.flushFrames core k c stk) := by
  unfold State.flushFrames
  refine .foldl (fun _ _ h1 => ?_) (.ok (.setCtx h))
  split
  · exact h1
  · have h2 := ExceptOk.of_ok rfl h1
    exact .vwrite h2

theorem MemOk.unpark {core k} (h : MemOk s) : MemOk (s.unpark core k) := h

theorem MemOk.land {core k x} (h : MemOk s) : MemOk (s.land core k x) := by
  unfold State.land
  refine .setCtx ?_
  split
  · exact h
  · exact .poke h

theorem MemOk.landStores {core k} (h : MemOk s) : MemOk (s.landStores core k) := .foldl (fun _ _ h1 => .land h1) h

theorem MemOk.stopTiles {core k} (h : MemOk s) : MemOk (s.stopTiles core k) := .ite (.setCtx (.setCore h)) h

theorem MemOk.kill {core k hd es} (h : MemOk s) : MemOk (s.kill core k hd es) := by
  unfold State.kill
  dsimp only
  refine .postFault (.setCore (.setCtx (.unpark ?_)))
  cases e : s.vwrite (s.hwWho core) (s.cimg core k + frameOff 2) 10752 (frameNum hd es) with
  | error _ =>
    dsimp only
    split
    · split
      · next e1 => exact ExceptOk.of_ok e1 (.vwrite h)
      · exact h
    · exact h
  | ok s1 =>
    have h1 := ExceptOk.of_ok e (.vwrite h)
    dsimp only
    split
    · split
      · next e1 => exact ExceptOk.of_ok e1 (.vwrite h1)
      · exact h1
    · exact h1

theorem MemOk.killNow {core k cause code aux} (h : MemOk s) : MemOk (s.killNow core k cause code aux) := by
  unfold State.killNow
  exact .kill (.stopTiles h)

theorem ExceptOk.saveLevel {core k hd es} (h : MemOk s) : ExceptOk MemOk (s.saveLevel core k hd es) := by
  unfold State.saveLevel
  extract_lets c img w
  have hw : ∀ stk, ExceptOk MemOk (if c.level = 0 then
        match s.vwrite w (img + 0x40) 0xB440 c.imageNum with
        | .error e => .error e
        | .ok s => s.flushFrames core k c (stk / 128 * 128)
      else s.vwrite w (img + 0x13600 + 512 * (c.level - 1)) 512 c.handlerNum) := by
    intro stk
    refine .ite ?_ (.vwrite h)
    split
    · exact .error
    · next e => exact .flushFrames (ExceptOk.of_ok e (.vwrite h))
  split
  · exact .error
  · split
    · exact .error
    · next e => exact .vwrite (ExceptOk.of_ok e (hw _))

theorem MemOk.takeTrap {core k t} (h : MemOk s) : MemOk (s.takeTrap core k t) := by
  unfold State.takeTrap
  dsimp only
  split
  · exact .kill (.unpark (.setCtx (.stopTiles (.landStores h))))
  · split
    · exact .kill (.unpark (.setCtx (.stopTiles (.landStores h))))
    · next e =>
      have h2 := ExceptOk.of_ok e (ExceptOk.saveLevel (.unpark (.setCtx (.stopTiles (.landStores h)))))
      split
      · exact .kill h2
      · exact .kill h2
      · exact .kill h2
      · split
        · exact .kill h2
        · split
          · exact .kill h2
          · next e4 =>
            have h4 := ExceptOk.of_ok e4 (ExceptOk.vwrite h2)
            exact .setCtx h4

theorem MemOk.stopCtx {core k cause code aux} (h : MemOk s) : MemOk (s.stopCtx core k cause code aux) := by
  unfold State.stopCtx
  dsimp only
  split
  · exact .kill (.unpark (.setCtx (.stopTiles (.landStores h))))
  · next e =>
    have h1 := ExceptOk.of_ok e (ExceptOk.saveLevel (.unpark (.setCtx (.stopTiles (.landStores h)))))
    exact .setCtx h1

/-! ### Returning from a trap (18 R348, R351) -/

theorem ExceptOk.restoreLevel {core k l} (h : MemOk s) : ExceptOk MemOk (s.restoreLevel core k l) := by
  unfold State.restoreLevel
  extract_lets c img w fl
  have hfl : ∀ {α : Type} {p : α → Prop} {r : Except (Flt × W64) α}, ExceptOk p r → ExceptOk p (fl r) := by
    intro α p r hr
    cases hr with
    | error => exact .error
    | ok h => exact .ok h
  refine .bind .any fun fr _ => .bind .any fun st _ => .bind .any fun stk _ => .ite .error ?_
  extract_lets
  split
  · exact .error
  · refine .bind (hfl (.vwrite h)) fun s1 h1 => .bind (q := MemOk) (.ite (hfl (.vwrite h1)) (.ok h1)) fun s2 h2 => .bind .any
      fun c1 _ => ?_
    exact .ok (.setCtx h2)

/-! ### Receive rings as the network interface holds them (04 R69-R73) and the stream operand vq -/

theorem MemOk.setRx {core n r} (h : MemOk s) : MemOk (s.setRx core n r) := .ite (.setCore h) (.poke (.poke (.setCore h)))

theorem ExceptOk.takeStream {core ring fuel used n} (h : MemOk s) :
    ExceptOk (OptionOk fun r => MemOk r.2.2) (s.takeStream core ring fuel used n) := by
  induction fuel generalizing s used n with
  | zero => exact .ok .none
  | succ fuel ih =>
    unfold State.takeStream
    split
    · exact .ok .none
    · next r _ =>
      have h1 : ∀ c : Prop, [Decidable c] → MemOk (if c then s.setRx core ring r.advance else s) := fun c _ => .ite (.setRx h) h
      split
      · exact .ok .none
      · split
        · exact .error
        · dsimp only
          split
          · exact .error
          · refine .ite (.ok (.some (h1 _))) ?_
            split
            · exact .error
            · exact .ok .none
            · next e =>
              have h2 := OptionOk.of_some rfl (ExceptOk.of_ok e (ih (h1 _)))
              exact .ok (.some h2)

theorem Keeps.readVq : Keeps readVq := by
  unfold Machine.readVq
  intro s h
  dsimp only
  split
  · exact .error
  · split
    · exact .error
    · exact .error
    · next e1 =>
      have h1 := OptionOk.of_some rfl (ExceptOk.of_ok e1 (ExceptOk.takeStream h))
      exact .ok (.setCx h1)

/-! ### Arrival (04 R63, R71) -/

theorem MemOk.msgDrop {m status} (h : MemOk s) : MemOk (s.msgDrop m status) := by
  unfold State.msgDrop
  dsimp only
  split
  · exact .setCore (.post h)
  · split
    · exact .setRx (.setCore (.post h))
    · exact .setCore (.post h)

theorem MemOk.streamEnd {core ring} (h : MemOk s) : MemOk (s.streamEnd core ring) := .ite (.post h) h

theorem MemOk.msgArrive {m} (h : MemOk s) : MemOk (s.msgArrive m) := by
  unfold State.msgArrive
  dsimp only
  split
  · exact .msgDrop h
  · split
    · exact .msgDrop h
    · split
      · exact .msgDrop h
      · split
        · refine .streamEnd ?_
          split
          · exact .setRx (.poke h)
          · split
            · split
              · exact .msgDrop h
              · next e2 =>
                have h5 := ExceptOk.of_ok e2 (ExceptOk.vwrite h)
                exact .setRx (.setCore h5)
            · exact .msgDrop h
        · split
          · exact .setRx (.poke h)
          · split
            · split
              · exact .msgDrop h
              · next e1 =>
                have h6 := ExceptOk.of_ok e1 (ExceptOk.vwrite h)
                exact .setRx (.setCore h6)
            · exact .msgDrop h

/-! ### Issuing a word -/

theorem Keeps.plain {f : Entry → M Unit} {a} (hf : ∀ (a : Entry), Keeps (f a)) : Keeps (plain f a) :=
  .bind (hf _) fun _ => .pure

theorem Keeps.guard {g} : Keeps (guard g) := .ite .pure .rQ

theorem Keeps.gate {word hd} : Keeps (gate word hd) := by
  unfold Machine.gate
  refine .bind .getCx fun _ => ?_
  dsimp only
  split
  · exact .waitM
  · split
    · exact .trapPre
    · split
      · exact .waitM
      · refine .bind .guard fun _ => ?_
        split
        · exact .pure
        · split
          · exact .trapPre
          · split
            · exact .trapPre
            · split
              · exact .trapPre
              · exact .ite .waitM .pure

theorem Keeps.rWo {a} : Keeps (rWo a) := by
  unfold Machine.rWo
  split
  · exact .pure
  · exact .rW

theorem Keeps.rMo {a} : Keeps (rMo a) := by
  unfold Machine.rMo
  split
  · exact .pure
  · exact .rM

theorem Keeps.rVq {dry} : Keeps (rVq dry) := .bind .getCx fun _ => .ite .pure .readVq

theorem Keeps.rVec {dry a} : Keeps (rVec dry a) := by
  unfold Machine.rVec
  split
  · exact .bind .rV fun _ => .bind .getCx fun _ => .pure
  · exact .bind .getCx fun _ => .ite .rVq (.bind .rV fun _ => .pure)
  · exact .pure

theorem Keeps.touch {a} : Keeps (touch a) := by
  unfold Machine.touch
  split
  · exact .bind .rV fun _ => .pure
  · exact .bind .rW fun _ => .pure
  · exact .bind .rM fun _ => .pure
  · exact .pure
  · exact .pure
  · exact .pure
  · exact .pure

theorem Keeps.capture {i word hd dry} : Keeps (capture i word hd dry) :=
  .bind .rWo fun _ => .bind .rWo fun _ => .bind .rWo fun _ => .bind .rMo fun _ => .bind (.forM fun _ => .touch) fun _ => .bind
    .rVec fun _ => .bind .rVec fun _ => .bind .getCx fun _ => .bind .getCur fun _ => .get_bind fun _ _ => .pure

theorem MemOk.recapture {core k} (h : MemOk s) : MemOk (s.recapture core k) := .setCtx h

theorem Keeps.wFin {e n v} : Keeps (wFin e n v) := .modCx

theorem Keeps.vFin {e n val tag} : Keeps (vFin e n val tag) := .modCx

/-! ### Following -/

theorem MemOk.stream {own word ends} (h : MemOk s) : MemOk (s.stream own word ends) := by
  unfold State.stream
  split
  · exact h
  · refine .foldl (fun _ _ h2 => ?_) h
    dsimp only
    split
    · exact h2
    · exact .ite (.setCtx h2) (.ite (.setCtx h2) h2)

theorem OptionOk.following (h : MemOk s) : OptionOk MemOk s.following := by
  unfold State.following
  split
  · exact .some h
  · split
    · exact .some h
    · split
      · exact .ite (.some (.setCx h)) .none
      · exact .some (.setCx h)

/-! ### Issue -/

theorem MemOk.stamp (h : MemOk s) : MemOk s.stamp := .setCx h

theorem MemOk.trapHere {c code aux} (h : MemOk s) : MemOk (s.trapHere c code aux) := .stamp (.takeTrap h)

theorem MemOk.trapEntry {e c code aux} (h : MemOk s) : MemOk (s.trapEntry e c code aux) := .takeTrap h

theorem IssuedOk.queueV {s1} {eff : Eff} {e} (h : MemOk s) (h1 : MemOk s1) : IssuedOk (queueV s s1 eff e) := by
  unfold Machine.queueV
  split
  · exact .wait
  · split
    · exact .next (.trapHere h)
    · exact .next (.setCx h1)
    · exact .next (.setCx h1)
    · exact .next (.setCx h1)

theorem OptionOk.vqTrap {hd i word} {eff : Eff} (h : MemOk s) : OptionOk MemOk (vqTrap s hd i word eff) := by
  unfold Machine.vqTrap
  split
  · exact .none
  · split
    · exact .some (.trapHere h)
    · exact .none
    · split
      · exact .some (.trapHere h)
      · exact .none

theorem IssuedOk.runEff {hd i word} {eff : Eff} (h : MemOk s) (heff : ∀ e, Keeps (eff e)) :
    IssuedOk (runEff s hd i word eff) := by
  unfold Machine.runEff
  split
  · next e =>
    have h1 := OptionOk.of_some e (OptionOk.vqTrap h)
    exact .next h1
  · split
    · exact .wait
    · exact .next (.trapHere h)
    · exact .next (.trapHere h)
    · next e2 =>
      have h1 := ExceptOk.of_ok e2 (Keeps.capture _ h)
      dsimp only
      split
      · exact .queueV h (.setCx h1)
      · split
        · exact .next (.trapHere h)
        · exact .ite (.next (.setCx (.setCx h1))) .wait
        · exact .next (.ite (.trapEntry (.setCx (.setCx h1))) (.setCx (.setCx h1)))
        · next e3 =>
          have h3 := ExceptOk.of_ok e3 (heff _ _ (.setCx h1))
          split
          · split
            · exact .next (.setCx (.setCx h1))
            · split
              · exact .next (.setCx h3)
              · exact .next (.setCx h3)
              · exact .next (.setCx h3)
              · exact .next (.setCx h3)
              · exact .next (.trapEntry (.setCx h3))
          · split
            · exact .next (.setCx (.setCx h1))
            · split
              · exact .next (.setCx h3)
              · exact .next (.setCx h3)
              · exact .next (.setCx h3)
              · exact .next (.setCx h3)
              · exact .next (.trapEntry (.setCx h3))

theorem IssuedOk.issueWord {hd word} {run : State → Issued} (h : MemOk s) (hrun : ∀ t, MemOk t → IssuedOk (run t)) :
    IssuedOk (issueWord s hd word run) := by
  unfold Machine.issueWord
  split
  · exact .wait
  · next e =>
    have h1 := OptionOk.of_some e (OptionOk.following h)
    split
    · exact .wait
    · dsimp only
      split
      · exact .wait
      · exact .next (.trapHere h1)
      · split
        · exact .wait
        · next e2 =>
          have h4 := IssuedOk.of_next e2 (IssuedOk.ite (hrun _ h1) (.next (.setCx h1)))
          exact .next (.stamp (.ite (.stream h4) h4))

theorem IssuedOk.tryIssue {i} {eff : Eff} (heff : ∀ (a : Entry), Keeps (eff a)) (h : MemOk s) : IssuedOk (tryIssue i eff s) :=
  .issueWord h fun _ h1 => .runEff h1 fun _ => heff _

theorem OutcomeOk.outcome {a : Issued} (h : MemOk s) (ha : IssuedOk a) : OutcomeOk (Issued.outcome s a) := by
  unfold Issued.outcome
  split
  · exact .next h
  · have h1 := IssuedOk.of_next rfl ha
    exact .next h1

theorem OutcomeOk.issue {i} {eff : Eff} (heff : ∀ (a : Entry), Keeps (eff a)) (h : MemOk s) : OutcomeOk (issue i eff s) :=
  .outcome h (.tryIssue (fun _ => heff _) h)

theorem IssuedOk.runJump {hd} {pre : M Unit} {eff : Entry → M W64} (h : MemOk s) (heff : ∀ e, Keeps (eff e)) :
    IssuedOk (runJump s hd pre eff) := by
  unfold Machine.runJump
  split
  · exact .wait
  · exact .next (.trapHere h)
  · split
    · exact .wait
    · exact .next (.trapHere h)
    · next e2 =>
      have h2 := ExceptOk.of_ok e2 (Keeps.capture _ h)
      dsimp only
      split
      · exact .wait
      · exact .next (.trapHere h)
      · next e3 =>
        have h3 := ExceptOk.of_ok e3 (heff _ _ (.setCx h2))
        exact .next (.setCx h3)

theorem OutcomeOk.jump {i} {eff : Entry → M W64} (heff : ∀ (a : Entry), Keeps (eff a)) (h : MemOk s) : OutcomeOk (jump i eff s) :=
  .outcome h (.issueWord h fun _ h1 => .runJump h1 fun _ => heff _)

theorem OutcomeOk.jumpAfter {pre : M Unit} {i} {eff : Entry → M W64} (heff : ∀ (a : Entry), Keeps (eff a)) (h : MemOk s) :
    OutcomeOk (jumpAfter pre i eff s) :=
  .outcome h (.issueWord h fun _ h1 => .runJump h1 fun _ => heff _)

theorem IssuedOk.illegal {word} (h : MemOk s) : IssuedOk (illegal word s) := .ite .wait (.next (.trapHere h))

/-! ### Completion -/

theorem ExceptOk.runEntry {e : Entry} {eff : Instr → Eff} (heff : ∀ i e, Keeps (eff i e)) (h : MemOk s) :
    ExceptOk (fun x => MemOk x.2) (e.run eff s) := by
  unfold Entry.run
  dsimp only
  split
  · exact .ok (.setCx h)
  · split
    · exact heff _ _ _ h
    · split
      · exact .error
      · next e1 =>
        have h3 := ExceptOk.of_ok e1 (heff _ _ _ (.setCx h))
        exact .ok (.setCx h3)

theorem MemOk.rerun {e} (h : MemOk s) : MemOk (s.rerun e) := .setCx h

theorem IssuedOk.finish {eff : Instr → Eff} {core k seq} (h : MemOk s) (heff : ∀ i e, Keeps (eff i e)) :
    IssuedOk (s.finish eff core k seq) := by
  unfold State.finish
  dsimp only
  split
  · exact .wait
  · split
    · exact .wait
    · exact .next (.update (.trapEntry (.rerun h)))
    · next e2 =>
      have h1 := ExceptOk.of_ok e2 (ExceptOk.runEntry (fun _ _ => heff _ _) h)
      split
      · exact .next (.update (.setCx h1))
      · exact .next (.update (.setCx h1))
      · exact .next (.update (.setCx h1))
      · exact .next (.update (.setCx h1))
      · exact .next (.update (.trapEntry (.rerun h1)))

/-! ### Scalar instructions -/

theorem Keeps.finAdd {d t e} : Keeps (finAdd d t e) := .plain fun _ => .wW

theorem Keeps.finSub {d t e} : Keeps (finSub d t e) := .plain fun _ => .wW

theorem Keeps.finAnd {d t e} : Keeps (finAnd d t e) := .plain fun _ => .wW

theorem Keeps.finOr {d t e} : Keeps (finOr d t e) := .plain fun _ => .wW

theorem Keeps.finXor {d t e} : Keeps (finXor d t e) := .plain fun _ => .wW

theorem Keeps.finAndn {d t e} : Keeps (finAndn d t e) := .plain fun _ => .wW

theorem Keeps.finSll {d t e} : Keeps (finSll d t e) := .plain fun _ => .wW

theorem Keeps.finSrl {d t e} : Keeps (finSrl d t e) := .plain fun _ => .wW

theorem Keeps.finSra {d t e} : Keeps (finSra d t e) := .plain fun _ => .wW

theorem Keeps.finRor {d t e} : Keeps (finRor d t e) := .plain fun _ => .wW

theorem Keeps.finSlt {d t e} : Keeps (finSlt d t e) := .plain fun _ => .wW

theorem Keeps.finSltu {d t e} : Keeps (finSltu d t e) := .plain fun _ => .wW

theorem Keeps.finMin {d t e} : Keeps (finMin d t e) := .plain fun _ => .wW

theorem Keeps.finMax {d t e} : Keeps (finMax d t e) := .plain fun _ => .wW

theorem Keeps.finMinu {d t e} : Keeps (finMinu d t e) := .plain fun _ => .wW

theorem Keeps.finMaxu {d t e} : Keeps (finMaxu d t e) := .plain fun _ => .wW

theorem Keeps.finMul {d t e} : Keeps (finMul d t e) := .plain fun _ => .wW

theorem Keeps.finMulh {d t e} : Keeps (finMulh d t e) := .plain fun _ => .wW

theorem Keeps.finMulhu {d t e} : Keeps (finMulhu d t e) := .plain fun _ => .wW

theorem Keeps.finClz {d t e} : Keeps (finClz d t e) := .plain fun _ => .wW

theorem Keeps.finCtz {d t e} : Keeps (finCtz d t e) := .plain fun _ => .wW

theorem Keeps.finPopc {d t e} : Keeps (finPopc d t e) := .plain fun _ => .wW

theorem Keeps.finSextb {d t e} : Keeps (finSextb d t e) := .plain fun _ => .wW

theorem Keeps.finSexth {d t e} : Keeps (finSexth d t e) := .plain fun _ => .wW

theorem Keeps.finSextw {d t e} : Keeps (finSextw d t e) := .plain fun _ => .wW

theorem Keeps.finZextw {d t e} : Keeps (finZextw d t e) := .plain fun _ => .wW

theorem Keeps.finShadd1 {d t e} : Keeps (finShadd1 d t e) := .plain fun _ => .wW

theorem Keeps.finShadd2 {d t e} : Keeps (finShadd2 d t e) := .plain fun _ => .wW

theorem Keeps.finShadd3 {d t e} : Keeps (finShadd3 d t e) := .plain fun _ => .wW

theorem Keeps.finDiv {d e} : Keeps (finDiv d e) := .plain fun _ => .wFin

theorem Keeps.finDivu {d e} : Keeps (finDivu d e) := .plain fun _ => .wFin

theorem Keeps.finRem {d e} : Keeps (finRem d e) := .plain fun _ => .wFin

theorem Keeps.finRemu {d e} : Keeps (finRemu d e) := .plain fun _ => .wFin

theorem Keeps.finAddi {d imm e} : Keeps (finAddi d imm e) := .plain fun _ => .wW

theorem Keeps.finAndi {d imm e} : Keeps (finAndi d imm e) := .plain fun _ => .wW

theorem Keeps.finOri {d imm e} : Keeps (finOri d imm e) := .plain fun _ => .wW

theorem Keeps.finXori {d imm e} : Keeps (finXori d imm e) := .plain fun _ => .wW

theorem Keeps.finSlti {d imm e} : Keeps (finSlti d imm e) := .plain fun _ => .wW

theorem Keeps.finSltiu {d imm e} : Keeps (finSltiu d imm e) := .plain fun _ => .wW

theorem Keeps.finSlli {d sh e} : Keeps (finSlli d sh e) := .plain fun _ => .wW

theorem Keeps.finSrli {d sh e} : Keeps (finSrli d sh e) := .plain fun _ => .wW

theorem Keeps.finSrai {d sh e} : Keeps (finSrai d sh e) := .plain fun _ => .wW

theorem Keeps.finRori {d sh e} : Keeps (finRori d sh e) := .plain fun _ => .wW

theorem Keeps.finMovi {d imm e} : Keeps (finMovi d imm e) := .plain fun _ => .wW

theorem Keeps.wQ {n b} : Keeps (wQ n b) := .modCx

theorem Keeps.finQsetEq {d e} : Keeps (finQsetEq d e) := .plain fun _ => .wQ

theorem Keeps.finQsetNe {d e} : Keeps (finQsetNe d e) := .plain fun _ => .wQ

theorem Keeps.finQsetLt {d e} : Keeps (finQsetLt d e) := .plain fun _ => .wQ

theorem Keeps.finQsetGe {d e} : Keeps (finQsetGe d e) := .plain fun _ => .wQ

theorem Keeps.finQsetLtu {d e} : Keeps (finQsetLtu d e) := .plain fun _ => .wQ

theorem Keeps.finQsetGeu {d e} : Keeps (finQsetGeu d e) := .plain fun _ => .wQ

theorem Keeps.finQand {d a b e} : Keeps (finQand d a b e) := .plain fun _ => .bind .rQ fun _ => .bind .rQ fun _ => .wQ

theorem Keeps.finQor {d a b e} : Keeps (finQor d a b e) := .plain fun _ => .bind .rQ fun _ => .bind .rQ fun _ => .wQ

theorem Keeps.finQxor {d a b e} : Keeps (finQxor d a b e) := .plain fun _ => .bind .rQ fun _ => .bind .rQ fun _ => .wQ

theorem Keeps.finQandn {d a b e} : Keeps (finQandn d a b e) := .plain fun _ => .bind .rQ fun _ => .bind .rQ fun _ => .wQ

theorem Keeps.finQnot {d a e} : Keeps (finQnot d a e) := .plain fun _ => .bind .rQ fun _ => .wQ

theorem Keeps.finQtrue {d e} : Keeps (finQtrue d e) := .plain fun _ => .wQ

theorem Keeps.finQfalse {d e} : Keeps (finQfalse d e) := .plain fun _ => .wQ

theorem Keeps.finQunres {d e} : Keeps (finQunres d e) := .plain fun _ => .modCx

theorem Keeps.finNop {e} : Keeps (finNop e) := .plain fun _ => .pure

/-! ### Branches, jumps, calls, returns and the loop stack (07 R123, R141-R143, 14 R293-R298) -/

theorem Keeps.goTo {t} : Keeps (goTo t) := .bind .modCx fun _ => .pure

theorem Keeps.branch {taken disp e} : Keeps (branch taken disp e) := .ite .goTo .pure

theorem Keeps.callChecks : Keeps callChecks := .bind .getCx fun _ => .ite .trapPre (.ite .trapPre .pure)

theorem Keeps.enterCall {own} : Keeps (enterCall own) := .modCx

theorem Keeps.alignedTarget {t} : Keeps (alignedTarget t) := .ite .trapPre .pure

theorem Keeps.jumpBeq {disp e} : Keeps (jumpBeq disp e) := .branch

theorem OutcomeOk.execBeq {a b disp} (h : MemOk s) : OutcomeOk (execBeq a b disp s) := .jump (fun _ => .jumpBeq) h

theorem Keeps.jumpBne {disp e} : Keeps (jumpBne disp e) := .branch

theorem OutcomeOk.execBne {a b disp} (h : MemOk s) : OutcomeOk (execBne a b disp s) := .jump (fun _ => .jumpBne) h

theorem Keeps.jumpBlt {disp e} : Keeps (jumpBlt disp e) := .branch

theorem OutcomeOk.execBlt {a b disp} (h : MemOk s) : OutcomeOk (execBlt a b disp s) := .jump (fun _ => .jumpBlt) h

theorem Keeps.jumpBge {disp e} : Keeps (jumpBge disp e) := .branch

theorem OutcomeOk.execBge {a b disp} (h : MemOk s) : OutcomeOk (execBge a b disp s) := .jump (fun _ => .jumpBge) h

theorem Keeps.jumpBltu {disp e} : Keeps (jumpBltu disp e) := .branch

theorem OutcomeOk.execBltu {a b disp} (h : MemOk s) : OutcomeOk (execBltu a b disp s) := .jump (fun _ => .jumpBltu) h

theorem Keeps.jumpBgeu {disp e} : Keeps (jumpBgeu disp e) := .branch

theorem OutcomeOk.execBgeu {a b disp} (h : MemOk s) : OutcomeOk (execBgeu a b disp s) := .jump (fun _ => .jumpBgeu) h

theorem Keeps.jumpBqt {a disp e} : Keeps (jumpBqt a disp e) := .bind .rQ fun _ => .branch

theorem OutcomeOk.execBqt {a disp} (h : MemOk s) : OutcomeOk (execBqt a disp s) := .jump (fun _ => .jumpBqt) h

theorem Keeps.jumpBqf {a disp e} : Keeps (jumpBqf a disp e) := .bind .rQ fun _ => .branch

theorem OutcomeOk.execBqf {a disp} (h : MemOk s) : OutcomeOk (execBqf a disp s) := .jump (fun _ => .jumpBqf) h

theorem Keeps.jumpJ {disp e} : Keeps (jumpJ disp e) := .goTo

theorem OutcomeOk.execJ {disp} (h : MemOk s) : OutcomeOk (execJ disp s) := .jump (fun _ => .jumpJ) h

theorem Keeps.jumpCall {disp e} : Keeps (jumpCall disp e) := .bind .callChecks fun _ => .bind .enterCall fun _ => .pure

theorem OutcomeOk.execCall {disp} (h : MemOk s) : OutcomeOk (execCall disp s) := .jump (fun _ => .jumpCall) h

theorem Keeps.jumpJr {e} : Keeps (jumpJr e) := .bind .alignedTarget fun _ => .goTo

theorem OutcomeOk.execJr {a g} (h : MemOk s) : OutcomeOk (execJr a g s) := .jump (fun _ => .jumpJr) h

theorem Keeps.jumpCallr {e} : Keeps (jumpCallr e) :=
  .bind .alignedTarget fun _ => .bind .callChecks fun _ => .bind .enterCall fun _ => .pure

theorem OutcomeOk.execCallr {a g} (h : MemOk s) : OutcomeOk (execCallr a g s) := .jump (fun _ => .jumpCallr) h

theorem Keeps.jumpRet {e} : Keeps (jumpRet e) :=
  .bind .getCx fun _ => .bind .alignedTarget fun _ => .ite .trapPre (.bind .modCx fun _ => .pure)

theorem OutcomeOk.execRet {g} (h : MemOk s) : OutcomeOk (execRet g s) := .jumpAfter (fun _ => .jumpRet) h

theorem Keeps.jumpLpset {endOff e} : Keeps (jumpLpset endOff e) := by
  unfold Machine.jumpLpset
  refine .bind .getCx fun _ => ?_
  dsimp only
  split
  · exact .ite (.ite (.bind .modCx fun _ => .goTo) (.bind .modCx fun _ => .pure)) (.ite .trapPre (.ite .goTo (.ite .trapPre
      (.bind .modCx fun _ => .pure))))
  · exact .ite .goTo (.ite .trapPre (.bind .modCx fun _ => .pure))

theorem OutcomeOk.execLpset {a endOff} (h : MemOk s) : OutcomeOk (execLpset a endOff s) := .jump (fun _ => .jumpLpset) h

theorem Keeps.jumpLppop {e} : Keeps (jumpLppop e) := .bind .modCx fun _ => .pure

theorem OutcomeOk.execLppop (h : MemOk s) : OutcomeOk (execLppop s) := .jump (fun _ => .jumpLppop) h

/-! ### Accesses that engines make under a translation (03 R41, R52, 05 R84-R87) -/

theorem MemOk.engLoad {l n} (h : MemOk s) : MemOk (s.engLoad l n).2 := by
  unfold State.engLoad
  split
  · exact h
  · exact h
  · exact .freeBytes h

theorem MemOk.engStore {l n v} (h : MemOk s) : MemOk (s.engStore l n v) := by
  unfold State.engStore
  split
  · exact .fill (.poke h)
  · exact h
  · exact h

theorem ExceptOk.engRead {w va n c} (h : MemOk s) : ExceptOk (fun x => MemOk x.2) (s.engRead w va n c) := by
  unfold State.engRead
  refine .foldl (fun _ _ h1 => ?_) (.ok h)
  dsimp only
  split
  · exact h1
  · split
    · exact .error
    · have h3 := ExceptOk.of_ok rfl h1
      exact .ok (.engLoad h3)

theorem MemOk.engWrite {w va n v c} (h : MemOk s) : MemOk (s.engWrite w va n v c).1 := by
  unfold State.engWrite
  refine .foldl_fst (fun _ _ h1 => ?_) h
  dsimp only
  split
  · exact h1
  · split
    · exact h1
    · exact .engStore h1

theorem MemOk.deliver {core k seq r} (h : MemOk s) : MemOk (s.deliver core k seq r) := .ite (.setCtx h) h

/-! ### Rings: positions and release (11 R209, R210, R230) -/

theorem MemOk.setRing {r g} (h : MemOk s) : MemOk (s.setRing r g) := h

theorem MemOk.setMatch {items} (h : MemOk s) : MemOk (s.setMatch items) := .foldl (fun _ _ h1 => .setCore h1) h

theorem MemOk.ringApply {r} (h : MemOk s) : MemOk (s.ringApply r) := by
  unfold State.ringApply
  split
  · exact h
  · exact .foldl (fun _ _ h1 => .ite (.deliver (.setMatch h1)) h1) (.setRing h)

theorem MemOk.ringRelease {r} (h : MemOk s) : MemOk (s.ringRelease r) := by
  unfold State.ringRelease
  split
  · exact h
  · exact .update (.foldl (fun _ _ h1 => .setCore h1) (.ringApply h))

/-! ### Launch queues and slots -/

theorem MemOk.qUpdate {q} (h : MemOk s) : MemOk (s.qUpdate q) := .ite h (.ite h (.ite h h))

/-! ### Fault queue -/

theorem MemOk.fqPut {die r} (h : MemOk s) : MemOk (s.fqPut die r) := .setDreg (.engStore h)

theorem MemOk.fqAppend {die r} (h : MemOk s) : MemOk (s.fqAppend die r) := .ite (.fqPut h) (.ite h (.setDreg h))

theorem MemOk.drainLatch {die n} (h : MemOk s) : MemOk (s.drainLatch die n) := by
  induction n generalizing s with
  | zero => exact h
  | succ n ih =>
    unfold State.drainLatch
    split
    · exact h
    · exact .ite h (ih (.update (.fqPut h)))

theorem MemOk.drainLatches (h : MemOk s) : MemOk s.drainLatches := .foldl (fun _ _ h1 => .drainLatch h1) h

/-! ### Random engine (19 R367) -/

theorem MemOk.rngBlocks {n w base ctr j k} (h : MemOk s) : MemOk (s.rngBlocks n w base ctr j k).1 := by
  induction k generalizing s j with
  | zero => exact h
  | succ k ih =>
    unfold State.rngBlocks
    split
    · next e => exact .of_fst e (.engWrite h)
    · next e => exact ih (.of_fst e (.engWrite h))

theorem MemOk.rngStart {n} (h : MemOk s) : MemOk (s.rngStart n) := h

theorem MemOk.rngEnd {n} (h : MemOk s) : MemOk (s.rngEnd n) := .ite h (.setDreg (.ite (.rngBlocks h) (.setDreg (.rngBlocks h))))

/-! ### Counters (17 R327, R328) -/

theorem MemOk.fire {k} (h : MemOk s) : MemOk (s.fire k) := .ite h h

theorem MemOk.setCtr {k v} (h : MemOk s) : MemOk (s.setCtr k v) := .fire h

theorem MemOk.incCtr {id} (h : MemOk s) : MemOk (s.incCtr id) := .ite h (.setCtr h)

/-! ### Keys (20 R373) -/

theorem MemOk.keySlot {cmd} (h : MemOk s) : MemOk (s.keySlot cmd) := h

theorem MemOk.keyStart {cmd} (h : MemOk s) : MemOk (s.keyStart cmd) :=
  .ite h (.ite (.setDreg h) (.ite h (.update (.keySlot h))))

theorem MemOk.keyEnd (h : MemOk s) : MemOk s.keyEnd := h

/-! ### Invalidation (03 R56, R58) -/

theorem MemOk.invStart {kind dom addr} (h : MemOk s) : MemOk (s.invStart kind dom addr) := .ite (.setDreg h) h

theorem MemOk.invEnd (h : MemOk s) : MemOk s.invEnd := by
  unfold State.invEnd
  split
  · exact h
  · exact .ite h h

/-! ### Domains (20 R372) -/

theorem MemOk.disableNow {d} (h : MemOk s) : MemOk (s.disableNow d) := .ite (.setDreg h) h

theorem MemOk.domWrite {d v en} (h : MemOk s) : MemOk (s.domWrite d v en) :=
  .ite (.setDreg h) (.ite (.setDreg h) (.ite (.update (.setDreg h)) (.disableNow (.update (.setDreg h)))))

/-! ### Debug halts (18 R355) -/

theorem MemOk.haltDomain {d code skip} (h : MemOk s) : MemOk (s.haltDomain d code skip) :=
  .ite h (.foldl (fun _ _ h1 => .foldl (fun _ _ h2 => .ite (.stopCtx h2) h2) h1) h)

theorem MemOk.resumeCtx {core k} (h : MemOk s) : MemOk (s.resumeCtx core k) := by
  unfold State.resumeCtx
  dsimp only
  split
  · exact h
  · split
    · next e =>
      have h2 := ExceptOk.of_ok e (ExceptOk.restoreLevel h)
      exact .recapture h2
    · exact .killNow h
    · exact .killNow h

theorem MemOk.resumeDomain {d} (h : MemOk s) : MemOk (s.resumeDomain d) :=
  .foldl (fun _ _ h1 => .foldl (fun _ _ h2 => .resumeCtx h2) h1) h

theorem MemOk.hold {hd} (h : MemOk s) : MemOk (s.hold hd) := h

theorem MemOk.landItem {a} (h : MemOk s) : MemOk (s.landItem a) := by
  unfold State.landItem
  split
  · exact .fill (.poke h)
  · exact .msgArrive h
  · exact .incCtr h

theorem MemOk.landHeld (h : MemOk s) : MemOk s.landHeld := .foldl (fun _ _ h1 => .landItem h1) h

theorem MemOk.underHeld (h : MemOk s) : MemOk s.underHeld := by
  unfold State.underHeld
  refine .foldl (fun _ _ h1 => ?_) h
  split
  · exact .poke h1
  · exact h1
  · exact h1

theorem MemOk.dbgResume {d} (h : MemOk s) : MemOk (s.dbgResume d) := .ite (.resumeDomain (.landHeld h)) h

/-! ### Physical cores (01 R7, 19 R360) -/

theorem MemOk.remap {i} (h : MemOk s) : MemOk (s.remap i) := by
  unfold State.remap
  dsimp only
  split
  · exact .setCore (.choose h)
  · exact .update (.setCore (.choose h))

theorem MemOk.switchTurn {i} (h : MemOk s) : MemOk (s.switchTurn i) := by
  unfold State.switchTurn
  split
  · exact h
  · exact .ite h h

/-! ### Parked frames (06 R105-R108) -/

theorem MemOk.evict {core n} (h : MemOk s) : MemOk (s.evict core n) := by
  unfold State.evict
  dsimp only
  split
  · exact h
  · split
    · exact .killNow (.setCore h)
    · split
      · next e1 =>
        have h2 := ExceptOk.of_ok e1 (ExceptOk.vwrite h)
        exact .setCore h2
      · exact .killNow (.setCore h)

theorem MemOk.evictRegion {core row0 nrow col0 ncol} (h : MemOk s) : MemOk (s.evictRegion core row0 nrow col0 ncol) :=
  .foldl (fun _ _ h1 => .ite (.evict h1) h1) h

/-! ### Domain change and context start -/

theorem MemOk.evicts {core} {l : List Nat} (h : MemOk s) : MemOk (l.foldl (fun s n => s.evict core n) s) :=
  .foldl (fun _ _ h => .evict h) h

theorem MemOk.passDomain {core dom} (h : MemOk s) : MemOk (s.passDomain core dom) := by
  unfold State.passDomain
  refine .ite h (Memory.wf_clear _ _ _ (MemOk.setCore (MemOk.evicts ?_)))
  split
  · exact h
  · exact .ringRelease h

theorem MemOk.clearStatus {core k} (h : MemOk s) : MemOk (s.clearStatus core k) := by
  unfold State.clearStatus
  dsimp only
  split
  · exact h
  · split
    · next e1 =>
      have h1 := ExceptOk.of_ok e1 (ExceptOk.vwrite h)
      exact h1
    · exact h

theorem MemOk.beginCtx {core k pc wid widhdr args started pennant} (h : MemOk s) :
    MemOk (s.beginCtx core k pc wid widhdr args started pennant) :=
  .setCtx (.clearStatus h)

/-! ### Packets and notes -/

theorem MemOk.endHead {q compl status runs addr silent} (h : MemOk s) : MemOk (s.endHead q compl status runs addr silent) := by
  unfold State.endHead
  refine .qUpdate (.update (.setDreg ?_))
  split
  · exact .postFault h
  · split
    · next e => exact MemOk.of_fst e (MemOk.engWrite h)
    · next e =>
      have h2 := MemOk.of_fst e (MemOk.engWrite h)
      exact .postFault h2

theorem MemOk.packetRead {q} (h : MemOk s) : MemOk (s.packetRead q) := by
  unfold State.packetRead
  split
  · exact h
  · dsimp only
    split
    · exact h
    · exact .endHead h
    · exact .endHead h

/-! ### Placing and dealing -/

theorem MemOk.dealTo {q core} (h : MemOk s) : MemOk (s.dealTo q core).2 := by
  unfold State.dealTo
  split
  · exact h
  · dsimp only
    split
    · exact h
    · split <;> exact h

theorem MemOk.endReplay {q} (h : MemOk s) : MemOk (s.endReplay q) := by
  unfold State.endReplay
  split
  · exact h
  · exact .endHead h

theorem MemOk.startPart {q core} (h : MemOk s) : MemOk (s.startPart q core) := by
  unfold State.startPart
  split
  · exact h
  · dsimp only
    split
    · exact .beginCtx (.setCore (.passDomain (.dealTo h)))
    · exact .dealTo h

theorem OptionOk.nextId {core} (h : MemOk s) : OptionOk (fun x => MemOk x.2) (s.nextId core) := by
  unfold State.nextId
  split
  · exact .none
  · split
    · exact .none
    · split
      · exact .some (.setCore h)
      · split
        · exact .none
        · split
          · exact .none
          · next e2 =>
            have h3 := MemOk.of_snd e2 (MemOk.dealTo h)
            exact .some (.setCore h3)

theorem MemOk.countRun {core} (h : MemOk s) : MemOk (s.countRun core) := by
  unfold State.countRun
  split
  · exact h
  · split <;> exact h

theorem MemOk.leaveReserve {d n} (h : MemOk s) : MemOk (s.leaveReserve d n) := by
  induction n generalizing s with
  | zero => exact h
  | succ n ih => exact .ite h (.ite h (ih (.setDreg h)))

theorem MemOk.enterReserve {d n} (h : MemOk s) : MemOk (s.enterReserve d n) := by
  induction n generalizing s with
  | zero => exact h
  | succ n ih => exact .ite h (.ite h (ih (.setDreg h)))

theorem MemOk.endPart {core} (h : MemOk s) : MemOk (s.endPart core) := by
  unfold State.endPart
  dsimp only
  split
  · exact h
  · split
    · exact h
    · refine .leaveReserve (.disableNow ?_)
      split
      · exact .setCore h
      · exact .update (.setCore h)

/-! ### The end of a launch -/

theorem MemOk.writeTrace {q l} (h : MemOk s) : MemOk (s.writeTrace q l).1 := by
  unfold State.writeTrace
  split
  · exact h
  · dsimp only
    split
    · next e => exact MemOk.of_fst e (MemOk.engWrite h)
    · next e => exact MemOk.of_fst e (MemOk.engWrite h)

theorem MemOk.writeDigest {q l compl} (h : MemOk s) : MemOk (if l.regions = [] then (s, false) else
    match s.digest q l with
    | none => (s, true)
    | some d =>
      match s.engWrite (s.launchWho q) compl 64 d .bulk with
      | (s, none) => (s, false)
      | (s, some _) => (s, true)).1 := by
  refine .ite_fst h ?_
  split
  · exact h
  · split
    · next e => exact .of_fst e (.engWrite h)
    · next e => exact .of_fst e (.engWrite h)

theorem MemOk.finishLaunch {q} (h : MemOk s) : MemOk (s.finishLaunch q) := by
  unfold State.finishLaunch
  refine .ite h ?_
  split
  · exact h
  · next l _ =>
    cases e : s.writeTrace q l with
    | mk t b =>
      have ht := MemOk.writeDigest (q := q) (l := l) (compl := BitVec.ofNat 64 (l.field 56 8 + 16)) (.of_fst e (.writeTrace h))
      exact .endHead (.update ht)

/-! ### Quantum boundary (15 R305, R308, R309) -/

theorem MemOk.setReserve {d} (h : MemOk s) : MemOk (s.setReserve d) := .enterReserve (.leaveReserve h)

theorem MemOk.slotStep (h : MemOk s) : MemOk s.slotStep := h

theorem MemOk.markBad {q bad} (h : MemOk s) : MemOk (s.markBad q bad) := by
  unfold State.markBad
  split <;> exact h

theorem MemOk.preempt {q core} (h : MemOk s) : MemOk (s.preempt q core) := .update (.foldl (fun _ _ h1 => .stopCtx h1) h)

theorem MemOk.setEvState {core e} (h : MemOk s) : MemOk (s.setEvState core e) := .update (.setCore h)

theorem MemOk.setEmpty {core empty} (h : MemOk s) : MemOk (s.setEmpty core empty) := h

theorem MemOk.evictAll {core} (h : MemOk s) : MemOk (s.evictAll core) := .foldl (fun _ _ h1 => .evict h1) h

theorem MemOk.takeEnd {core} (h : MemOk s) : MemOk (s.takeEnd core) := by
  unfold State.takeEnd
  split
  · exact h
  · split
    · exact h
    · next p _ =>
      refine .ite h ?_
      cases e : s.engWrite (s.launchWho p.queue) (BitVec.ofNat 64 (s.saveArea p.queue + 1183744 * core)) 1183744
        (s.saveImage core) .bulk with
      | mk t f =>
        have ht := MemOk.of_fst e (MemOk.engWrite h)
        cases f <;> refine .ite (.endReplay ?_) (.startPart ?_) <;>
          exact .leaveReserve (.setEvState (.setCore (.update (.evictAll (.update (.markBad ht))))))

theorem MemOk.preemptResume {core} (h : MemOk s) : MemOk (s.preemptResume core) := by
  unfold State.preemptResume
  split
  · exact h
  · refine .ite h (.foldl (fun _ _ h => .resumeCtx h) (.setEvState (.setEmpty ?_)))
    have h1 : ∀ {d : Nat} {u : LaunchUnit} {c : Core}, MemOk ((State.passDomain { s with launch := u } core d).setCore core c) :=
      .setCore (.passDomain h)
    split
    · exact .markBad h1
    · next e =>
      have h2 := ExceptOk.of_ok e (.engRead h1)
      exact .setCore (Memory.wf_write _ _ _ _ h2)

theorem MemOk.takeCores {q} (h : MemOk s) : MemOk (s.takeCores q) := by
  unfold State.takeCores
  split
  · exact h
  · exact .ite h (.foldl (fun _ _ h1 => .preempt h1) h)

theorem MemOk.quantum (h : MemOk s) : MemOk s.quantum :=
  .foldl (fun _ _ h1 => .setReserve h1) (.foldl (fun _ _ h1 => .takeCores h1) (.slotStep h))

/-! ### Resets (20 R374, R376) -/

theorem MemOk.devstat {step flags} (h : MemOk s) : MemOk (s.devstat step flags) := .setDreg h

theorem MemOk.enterStep {n} (h : MemOk s) : MemOk (s.enterStep n) := .devstat h

theorem MemOk.endBoot {step flags} (h : MemOk s) : MemOk (s.endBoot step flags) := .devstat h

theorem MemOk.mapCores (h : MemOk s) : MemOk s.mapCores := .foldl (fun _ _ h1 => .remap h1) h

theorem MemOk.readCxl (h : MemOk s) : MemOk s.readCxl := .foldl (fun _ _ h1 => .setDreg h1) h

theorem MemOk.bootStep (h : MemOk s) : MemOk s.bootStep := by
  unfold State.bootStep
  split
  · exact .ite (.enterStep h) (.endBoot h)
  · exact .ite (.endBoot h) (.enterStep h)
  · exact .enterStep (.mapCores h)
  · exact .enterStep (.readCxl h)
  · exact .endBoot h
  · exact h

theorem MemOk.coldReset : MemOk s.coldReset := .enterStep (.update .reset)

theorem MemOk.warmReset (h : MemOk s) : MemOk s.warmReset := .ite h (.enterStep (Memory.wf_filter _ _ h))

/-! ### Debug stepping (18 R357) -/

theorem MemOk.dbgStep {d one core super} (h : MemOk s) : MemOk (s.dbgStep d one core super) :=
  .ite (.foldl (fun _ _ h1 => .foldl (fun _ _ h2 => .ite h2 (.setCtx (.resumeCtx h2))) h1) (.update (.landHeld h))) h

theorem MemOk.stopSteps {core} (h : MemOk s) : MemOk (s.stopSteps core) :=
  .ite (.foldl (fun _ _ h1 => .ite h1 (.ite (.stopCtx (.setCtx h1)) (.setCtx h1))) h) (.update (.foldl (fun _ _ h1 => .ite h1
    (.ite (.stopCtx (.setCtx h1)) (.setCtx h1))) h))

/-! ### Writes -/

theorem MemOk.clearCounters {c} (h : MemOk s) : MemOk (s.clearCounters c) := h

theorem ExceptOk.devPut {a off v acts mask} (h : MemOk s) : ExceptOk MemOk (s.devPut a off v acts mask) := by
  unfold State.devPut
  have hp : ∀ {x : W64}, MemOk (s.setDreg off x) := .setDreg h
  refine .ite (.ok ?_) (.ite (.ok ?_) (.ite (.ok ?_) (.ite (.ok ?_) (.ite .error (.ite (.ok h) (.ite (.ok ?_) (.ite (.ok ?_)
    (.ite (.ite (.ok h) (.ok (.qUpdate hp))) (.ite ?_ (.ite (.ite (.ok (.drainLatches hp)) (.ite (.ok h) (.ok hp))) (.ite ?_
    (.ite (.ite (.ok h) (.ite (.ite (.ok (.rngStart hp)) (.ok hp)) (.ok hp))) (.ite (.ok ?_) (.ite (.ok hp) (.ite (.ok ?_)
    (.ite (.ok ?_) (.ite (.ok h) (.ok hp))))))))))))))))))
  · exact .ite (.domWrite h) h
  · exact .ite h (.ite (.keyStart h) (.ite h hp))
  · exact .ite hp h
  · exact .ite hp h
  · exact .ite (.invStart h) h
  · exact .ite hp h
  · exact .ite (.ok (.setDreg (.ite (.clearCounters h) h))) (.ite (.ok hp) (.ite (.ok h) (.ok hp)))
  · split
    · exact .ok h
    · refine .ite ?_ (.ite (.ok hp) (.ok h))
      dsimp only
      split
      · exact .ok (.haltDomain h)
      · exact .ok (.dbgResume h)
      · exact .ok (.dbgStep h)
      · exact .ok h
  · exact .ite (.warmReset h) h
  · exact .ite (.update hp) hp
  · exact .ite (.update hp) hp

theorem ExceptOk.devWrite {a off size v} (h : MemOk s) : ExceptOk MemOk (s.devWrite a off size v) :=
  .ite (.devPut h) (.devPut h)

theorem MemOk.hostPut {fn off size v} (h : MemOk s) : MemOk (s.hostPut fn off size v) := by
  unfold State.hostPut
  split
  · exact h
  · split
    · next e =>
      have h2 := ExceptOk.of_ok e (ExceptOk.devWrite h)
      exact h2
    · exact h

/-! ### Accesses of the load, store and atomic instructions to every region (03 R41, 04 R65, 06 R103, R104) -/

theorem Keeps.who {e : Entry} : Keeps e.who := fun _ h => .ok h

theorem Keeps.accessM {w va n a c} : Keeps (accessM w va n a c) := by
  unfold Machine.accessM
  intro s h
  dsimp only
  split
  · exact .ok h
  · exact .error

theorem MemOk.loadLoc {w l n} (h : MemOk s) : MemOk (s.loadLoc w l n).2 := by
  unfold State.loadLoc
  split
  · exact h
  · exact h
  · exact .freeBytes h

theorem Keeps.loadAt {w l n} : Keeps (loadAt w l n) := fun _ h => .ok (.loadLoc h)

theorem MemOk.sent {x} (h : MemOk s) : MemOk (s.sent x) := .setCx h

theorem Keeps.storeAt {w va l n v} : Keeps (storeAt w va l n v) := by
  unfold Machine.storeAt
  intro s h
  dsimp only
  split
  · exact .ite .error (.ok (.sent h))
  · split
    · next e =>
      have h1 := ExceptOk.of_ok e (ExceptOk.devWrite h)
      exact .ok h1
    · exact .error
  · exact .ite (.ok (.sent h)) (.ok (.poke h))
  · exact .ite (.ok (.sent h)) (.ok (.poke h))
  · exact .ite (.ok (.sent h)) (.ok (.poke h))
  · exact .ok h

theorem Keeps.inOrder {e l n a} : Keeps (inOrder e l n a) := by
  unfold Machine.inOrder
  intro s h
  dsimp only
  split
  · exact .ite .error (.ok h)
  · exact .ite .error (.ok h)
  · exact .ok h
  · exact .ok h
  · exact .ok h
  · exact .ok h

theorem Keeps.allInOrder {e a l} : Keeps (allInOrder e a l) := .forM fun _ => .inOrder

theorem Keeps.locsOf {e w va n a} : Keeps (locsOf e w va n a) := by
  intro s h
  unfold Machine.locsOf
  split
  · exact .map (Keeps.allInOrder s h) fun _ h => h
  · exact .error

theorem Keeps.loadPieces {w l} : Keeps (loadPieces w l) := by
  induction l with
  | nil => exact .pure
  | cons x l ih =>
    unfold Machine.loadPieces
    refine .bind ?_ fun _ => .bind ih fun _ => .pure
    split
    · exact .foldlM fun _ _ => .bind .loadAt fun _ => .pure
    all_goals exact .loadAt

theorem Keeps.storePieces {w va v l} : Keeps (storePieces w va v l) := by
  induction l with
  | nil => exact .pure
  | cons x l ih => exact .bind .getCc fun _ => .bind (.forM fun _ => .storeAt) fun _ => ih

theorem Keeps.loadM {e va n} : Keeps (loadM e va n) :=
  .bind .who fun _ => .bind .accessM fun _ => .bind .inOrder fun _ => .loadAt

theorem Keeps.storeM {e va n v} : Keeps (storeM e va n v) :=
  .bind .who fun _ => .bind .accessM fun _ => .bind .inOrder fun _ => .storeAt

theorem Keeps.alignTo {va n code} : Keeps (alignTo va n code) := .ite .trapPre .pure

theorem Keeps.ownFirst {l n} : Keeps (ownFirst l n) := by
  unfold Machine.ownFirst
  intro s h
  dsimp only
  split
  · exact .ite .error (.ok h)
  · exact .ok h
  · exact .ok h

theorem Keeps.rmwM {e va n c} {release : M Unit} {f : Nat → Option Nat} (hrelease : Keeps release) :
    Keeps (rmwM e va n c release f) := by
  unfold Machine.rmwM
  refine .bind .who fun _ => .bind .accessM fun _ => .bind .ownFirst fun _ => .bind .loadAt fun _ => ?_
  split
  · exact .pure
  · refine .bind hrelease fun _ => .get_bind fun _ h => ?_
    dsimp only
    split
    · exact .bind (.set (.poke h)) fun _ => .pure
    · exact .pure
    · exact .pure

/-! ### Scalar loads and stores (06 R109) -/

theorem Keeps.effAddr {e off n code} : Keeps (effAddr e off n code) := .ite .trapPost (.bind .alignTo fun _ => .pure)

theorem Keeps.sysRelease : Keeps sysRelease := by
  unfold Machine.sysRelease
  refine .bind .getCx fun _ => .get_bind fun _ _ => ?_
  split
  · exact .waitM
  · split
    · exact .pure
    · exact .trapPost

theorem Keeps.nearRelease : Keeps nearRelease := .get_bind fun _ _ => .ite .waitM .pure

theorem Keeps.releaseAt {ord scope} : Keeps (releaseAt ord scope) := .ite (.ite .sysRelease .nearRelease) .pure

/-! ### Vector and tile transfers (06 R111-R113) -/

theorem Keeps.format {α : Type} {want have_ reg} : Keeps (format want have_ reg : M α) := .trapPre

theorem Keeps.maskedTag {m d want e} : Keeps (maskedTag m d want e) := .bind .getCx fun _ => .ite .format .pure

theorem Keeps.laneLocs {e w a as} : Keeps (laneLocs e w a as) :=
  .mapM fun _ => .bind .accessM fun _ => .bind .inOrder fun _ => .pure

theorem Keeps.loadLanes {w l seen v} : Keeps (loadLanes w l seen v) := by
  induction l generalizing seen v with
  | nil => exact .pure
  | cons x l ih =>
    unfold Machine.loadLanes
    split
    · exact ih
    · exact .bind .loadAt fun _ => ih

theorem Keeps.storeLanes {w v l} : Keeps (storeLanes w v l) := by
  induction l with
  | nil => exact .pure
  | cons x l ih => exact .bind (.ite .pure .storeAt) fun _ => ih

theorem Keeps.partsNow {n taken} : Keeps (partsNow n taken) := fun _ h => .ite (.ok h) (.ok (.freeBytes h))

theorem Keeps.vectorLoad {e d tag lanes} : Keeps (vectorLoad e d tag lanes) :=
  .bind .who fun _ => .bind .laneLocs fun _ => .bind .getCx fun _ => .bind .getCc fun _ => .ite (.bind .loadLanes fun _ => .bind
    .vFin fun _ => .pure) (.bind .partsNow fun _ => .bind .loadLanes fun _ => .ite (.bind .vFin fun _ => .pure) .pure)

theorem Keeps.tileLoad {e n} {fin : Nat → M Unit} (hfin : ∀ (a : Nat), Keeps (fin a)) : Keeps (tileLoad e n fin) :=
  .bind .who fun _ => .bind .locsOf fun _ => .bind .getCc fun _ => .bind .loadPieces fun _ => .ite (.bind (hfin _) fun _ =>
    .pure) (.bind .partsNow fun _ => .ite (.bind (hfin _) fun _ => .pure) .pure)

theorem Keeps.ldxTag {e d scaled} : Keeps (ldxTag e d scaled) := .bind .getCx fun _ => .ite .format (.ite .format .pure)

/-! ### Atomics (06 R114, R115) -/

theorem Keeps.amo {e d sz ord scope signedExt} {f : Nat → Nat → Nat → Nat × Flags} : Keeps (amo e d sz ord scope signedExt f) :=
  .bind .alignTo fun _ => .bind (.rmwM .releaseAt) fun _ => .bind .raiseFlags fun _ => .wFin

theorem Keeps.finLd {d off sz e} : Keeps (finLd d off sz e) :=
  .plain fun _ => .bind .effAddr fun _ => .bind .loadM fun _ => .wFin

theorem Keeps.finLdn {d off sz e} : Keeps (finLdn d off sz e) :=
  .plain fun _ => .bind .effAddr fun _ => .bind .loadM fun _ => .wFin

theorem Keeps.finSt {off sz e} : Keeps (finSt off sz e) := .plain fun _ => .bind .effAddr fun _ => .storeM

theorem Keeps.finLdv {d m cls e} : Keeps (finLdv d m cls e) := .bind .alignTo fun _ => .bind .maskedTag fun _ => .vectorLoad

theorem Keeps.finStv {e} : Keeps (finStv e) :=
  .plain fun _ => .bind .alignTo fun _ => .bind .who fun _ => .bind .laneLocs fun _ => .storeLanes

theorem Keeps.finLdx {d e} : Keeps (finLdx d e) := .bind .alignTo fun _ => .bind .ldxTag fun _ => .tileLoad fun _ => .modCx

theorem Keeps.finLdxSc {d e} : Keeps (finLdxSc d e) := .bind .alignTo fun _ => .bind .ldxTag fun _ => .tileLoad fun _ => .modCx

theorem Keeps.finStx {d e} : Keeps (finStx d e) :=
  .plain fun _ => .bind .alignTo fun _ => .bind .who fun _ => .bind .locsOf fun _ => .bind .getCx fun _ => .storePieces

theorem Keeps.finStxSc {d e} : Keeps (finStxSc d e) :=
  .plain fun _ => .bind .alignTo fun _ => .bind .who fun _ => .bind .locsOf fun _ => .bind .getCx fun _ => .storePieces

theorem Keeps.finGather {d vi m cls e} : Keeps (finGather d vi m cls e) :=
  .bind .getCx fun _ => .ite .format (.bind .maskedTag fun _ => .bind .alignTo fun _ => .vectorLoad)

theorem Keeps.finScatter {vi e} : Keeps (finScatter vi e) :=
  .plain fun _ => .bind .getCx fun _ => .ite .format (.bind .alignTo fun _ => .bind .who fun _ => .bind .laneLocs fun _ =>
    .storeLanes)

/-! ### Full-empty accesses (05 R88) -/

theorem Keeps.feLoc {e ord scope} : Keeps (feLoc e ord scope) := by
  unfold Machine.feLoc
  refine .bind .alignTo fun _ => .bind .releaseAt fun _ => .bind .who fun _ => .bind .accessM fun _ => .bind .ownFirst fun _ => ?_
  split
  · exact .pure
  · exact .trapPost

theorem Keeps.ldsEff {d ord scope take a} : Keeps (ldsEff d ord scope take a) :=
  .bind .feLoc fun _ => .get_bind fun _ h => .ite (.ite .waitM (.bind (.set h) fun _ => .pure)) (.bind .who fun _ => .bind
    .accessM fun _ => .bind .loadAt fun _ => .bind (.modify fun _ h1 => h1) fun _ => .bind (.ite (.modify fun _ h1 => .setFe h1)
    .pure) fun _ => .bind .wFin fun _ => .pure)

theorem Keeps.finLds {d ord scope e} : Keeps (finLds d ord scope e) := .ldsEff

theorem Keeps.finLdsE {d ord scope e} : Keeps (finLdsE d ord scope e) := .ldsEff

theorem Keeps.finStf {ord scope e} : Keeps (finStf ord scope e) :=
  .plain fun _ => .bind .feLoc fun _ => .bind .who fun _ => .bind .accessM fun _ => .modify fun _ h => .serveWord
    (.setFe (.poke h))

theorem Keeps.finSete {ord scope e} : Keeps (finSete ord scope e) :=
  .plain fun _ => .bind .feLoc fun _ => .modify fun _ h => .setFe h

theorem Keeps.finAmoSwap {d sz ord scope e} : Keeps (finAmoSwap d sz ord scope e) := .plain fun _ => .amo

theorem Keeps.finAmoAdd {d sz ord scope e} : Keeps (finAmoAdd d sz ord scope e) := .plain fun _ => .amo

theorem Keeps.finAmoAnd {d sz ord scope e} : Keeps (finAmoAnd d sz ord scope e) := .plain fun _ => .amo

theorem Keeps.finAmoOr {d sz ord scope e} : Keeps (finAmoOr d sz ord scope e) := .plain fun _ => .amo

theorem Keeps.finAmoXor {d sz ord scope e} : Keeps (finAmoXor d sz ord scope e) := .plain fun _ => .amo

theorem Keeps.finAmoMin {d sz ord scope e} : Keeps (finAmoMin d sz ord scope e) := .plain fun _ => .amo

theorem Keeps.finAmoMax {d sz ord scope e} : Keeps (finAmoMax d sz ord scope e) := .plain fun _ => .amo

theorem Keeps.finAmoMinu {d sz ord scope e} : Keeps (finAmoMinu d sz ord scope e) := .plain fun _ => .amo

theorem Keeps.finAmoMaxu {d sz ord scope e} : Keeps (finAmoMaxu d sz ord scope e) := .plain fun _ => .amo

theorem Keeps.finAmoFadd {d sz ord scope e} : Keeps (finAmoFadd d sz ord scope e) := .plain fun _ => .amo

theorem Keeps.finAmoFmin {d sz ord scope e} : Keeps (finAmoFmin d sz ord scope e) := .plain fun _ => .amo

theorem Keeps.finAmoFmax {d sz ord scope e} : Keeps (finAmoFmax d sz ord scope e) := .plain fun _ => .amo

theorem Keeps.finAmoFaddX {ord scope e} : Keeps (finAmoFaddX ord scope e) :=
  .plain fun _ => .bind .alignTo fun _ => .bind (.rmwM .releaseAt) fun _ => .pure

theorem Keeps.finLdo {d sz e} : Keeps (finLdo d sz e) :=
  .plain fun _ => .ite .trapPost (.bind .alignTo fun _ => .bind .loadM fun _ => .wFin)

theorem Keeps.finSto {sz rel scope e} : Keeps (finSto sz rel scope e) :=
  .plain fun _ => .ite .trapPost (.bind .alignTo fun _ => .bind .releaseAt fun _ => .storeM)

theorem Keeps.finCas {d sz ord scope e} : Keeps (finCas d sz ord scope e) :=
  .plain fun _ => .bind .alignTo fun _ => .bind (.rmwM .releaseAt) fun _ => .wFin

theorem Keeps.finFence {ord scope e} : Keeps (finFence ord scope e) := .plain fun _ => .ite .sysRelease .releaseAt

theorem MemOk.tlbFill {core dom va} (h : MemOk s) : MemOk (s.tlbFill core dom va) := by
  unfold State.tlbFill
  split
  · exact h
  · exact .update (.setCore h)

theorem Keeps.prefetch {e off} : Keeps (prefetch e off) := by
  unfold Machine.prefetch
  intro s h
  dsimp only
  split
  · exact .ok h
  · split
    · exact .ok (.tlbFill h)
    · exact .ok h

theorem Keeps.finPrefTlb {off e} : Keeps (finPrefTlb off e) := .plain fun _ => .prefetch

theorem Keeps.finPrefMsc {off e} : Keeps (finPrefMsc off e) := .plain fun _ => .prefetch

/-! ### Elements, activity and tags (09 R172, R173) -/

theorem Keeps.accept {e a ok} : Keeps (accept e a ok) := .ite .pure (.bind .getCx fun _ => .format)

theorem Keeps.matchB {e b want} : Keeps (matchB e b want) := .ite .pure .format

theorem Keeps.vecOut {e d m tag t} {f : Nat → Nat × Flags} : Keeps (vecOut e d m tag t f) :=
  .bind .maskedTag fun _ => .bind .getCx fun _ => .bind .raiseFlags fun _ => .wV

theorem Keeps.laneOut {e d m tag t} {f : Nat → Nat} : Keeps (laneOut e d m tag t f) :=
  .bind .maskedTag fun _ => .bind .getCx fun _ => .wV

/-! ### Floating arithmetic (09 R176, R177) -/

theorem Keeps.fop2 {e d a b m t} {f : Fmt → Nat → Nat → Nat × Flags} : Keeps (fop2 e d a b m t f) :=
  .bind .accept fun _ => .bind .matchB fun _ => .vecOut

theorem Keeps.fop1 {e d a m t} {f : Fmt → Nat → Nat} : Keeps (fop1 e d a m t f) := .bind .accept fun _ => .vecOut

theorem Keeps.fma {e d a b m t negProd negAdd} : Keeps (fma e d a b m t negProd negAdd) :=
  .bind .accept fun _ => .bind .matchB fun _ => .bind .getCx fun _ => .ite .format .vecOut

/-! ### Integer arithmetic, bitwise operations and shifts (09 R178, R179) -/

theorem Keeps.iop2 {e d a b m t} {f : W32 → W32 → W32} : Keeps (iop2 e d a b m t f) :=
  .bind .accept fun _ => .bind .matchB fun _ => .vecOut

theorem Keeps.bop2 {e d a m t} {f : W32 → W32 → W32} : Keeps (bop2 e d a m t f) := .bind .accept fun _ => .laneOut

/-! ### Compares (09 R180) -/

theorem Keeps.maskOut {e d x t} {f : Nat → Bool × Flags} : Keeps (maskOut e d x t f) := .bind .raiseFlags fun _ => .modCx

theorem Keeps.fcmp {e d a b t nv} {f : Val → Val → Bool} : Keeps (fcmp e d a b t nv f) :=
  .bind .accept fun _ => .bind .matchB fun _ => .maskOut

theorem Keeps.icmp {e d a b t} {f : W32 → W32 → Bool} : Keeps (icmp e d a b t f) :=
  .bind .accept fun _ => .bind .matchB fun _ => .maskOut

/-! ### Division, roots and functions (09 R183) -/

theorem Keeps.vlOut {e d m x} {f : Nat → Nat × Flags} : Keeps (vlOut e d m x f) :=
  .bind .maskedTag fun _ => .bind .getCx fun _ => .bind .raiseFlags fun _ => .vFin

theorem Keeps.vl1 {e d a m x} {f : Nat → Nat × Flags} : Keeps (vl1 e d a m x f) := .bind .accept fun _ => .vlOut

/-! ### Reductions and scans (09 R184) -/

theorem Keeps.vrm {e d a t greatest} : Keeps (vrm e d a t greatest) := .bind .accept fun _ => .wW

theorem Keeps.vscan {e d a m t ordered} : Keeps (vscan e d a m t ordered) := .bind .accept fun _ => .vecOut

/-! ### Conversions (09 R185-R188) -/

theorem Keeps.descCheck {ok : Nat → Bool} {n} : Keeps (descCheck ok n) := .bind .getCx fun _ => .ite .pure .format

theorem Keeps.packed {e d m w n t} {f : Nat → Nat × Flags} : Keeps (packed e d m w n t f) :=
  .bind .maskedTag fun _ => .bind .getCx fun _ => .bind .raiseFlags fun _ => .wV

theorem Keeps.vcvtOut {e d m f t} {md : Nat → Rnd} : Keeps (vcvtOut e d m f t md) := by
  unfold Machine.vcvtOut
  dsimp only
  split
  · exact .vecOut
  · exact .vecOut
  · exact .packed

theorem Keeps.vcvt {e d a b m t md} : Keeps (vcvt e d a b m t md) := .bind .accept fun _ => .bind .descCheck fun _ => .vcvtOut

theorem Keeps.finVadd {d a b m t e} : Keeps (finVadd d a b m t e) := .plain fun _ => .fop2

theorem Keeps.finVsub {d a b m t e} : Keeps (finVsub d a b m t e) := .plain fun _ => .fop2

theorem Keeps.finVmul {d a b m t e} : Keeps (finVmul d a b m t e) := .plain fun _ => .fop2

theorem Keeps.finVmin {d a b m t e} : Keeps (finVmin d a b m t e) := .plain fun _ => .fop2

theorem Keeps.finVmax {d a b m t e} : Keeps (finVmax d a b m t e) := .plain fun _ => .fop2

theorem Keeps.finVabs {d a m t e} : Keeps (finVabs d a m t e) := .plain fun _ => .fop1

theorem Keeps.finVneg {d a m t e} : Keeps (finVneg d a m t e) := .plain fun _ => .fop1

theorem Keeps.finViadd {d a b m t e} : Keeps (finViadd d a b m t e) := .plain fun _ => .iop2

theorem Keeps.finVisub {d a b m t e} : Keeps (finVisub d a b m t e) := .plain fun _ => .iop2

theorem Keeps.finVimul {d a b m t e} : Keeps (finVimul d a b m t e) := .plain fun _ => .iop2

theorem Keeps.finVimin {d a b m t e} : Keeps (finVimin d a b m t e) := .plain fun _ => .iop2

theorem Keeps.finVimax {d a b m t e} : Keeps (finVimax d a b m t e) := .plain fun _ => .iop2

theorem Keeps.finViminu {d a b m t e} : Keeps (finViminu d a b m t e) := .plain fun _ => .iop2

theorem Keeps.finVimaxu {d a b m t e} : Keeps (finVimaxu d a b m t e) := .plain fun _ => .iop2

theorem Keeps.finViadds {d a b m t e} : Keeps (finViadds d a b m t e) := .plain fun _ => .iop2

theorem Keeps.finVisubs {d a b m t e} : Keeps (finVisubs d a b m t e) := .plain fun _ => .iop2

theorem Keeps.finVand {d a m t e} : Keeps (finVand d a m t e) := .plain fun _ => .bop2

theorem Keeps.finVor {d a m t e} : Keeps (finVor d a m t e) := .plain fun _ => .bop2

theorem Keeps.finVxor {d a m t e} : Keeps (finVxor d a m t e) := .plain fun _ => .bop2

theorem Keeps.finVsll {d a m t e} : Keeps (finVsll d a m t e) := .plain fun _ => .bop2

theorem Keeps.finVsrl {d a m t e} : Keeps (finVsrl d a m t e) := .plain fun _ => .bop2

theorem Keeps.finVsra {d a m t e} : Keeps (finVsra d a m t e) := .plain fun _ => .bop2

theorem Keeps.finVfcmpEq {d a b t e} : Keeps (finVfcmpEq d a b t e) := .plain fun _ => .fcmp

theorem Keeps.finVfcmpLt {d a b t e} : Keeps (finVfcmpLt d a b t e) := .plain fun _ => .fcmp

theorem Keeps.finVfcmpLe {d a b t e} : Keeps (finVfcmpLe d a b t e) := .plain fun _ => .fcmp

theorem Keeps.finVfcmpUn {d a b t e} : Keeps (finVfcmpUn d a b t e) := .plain fun _ => .fcmp

theorem Keeps.finVicmpEq {d a b t e} : Keeps (finVicmpEq d a b t e) := .plain fun _ => .icmp

theorem Keeps.finVicmpLt {d a b t e} : Keeps (finVicmpLt d a b t e) := .plain fun _ => .icmp

theorem Keeps.finVicmpLtu {d a b t e} : Keeps (finVicmpLtu d a b t e) := .plain fun _ => .icmp

theorem Keeps.finVmov {d a m t e} : Keeps (finVmov d a m t e) := .plain fun _ => .bind .accept fun _ => .laneOut

theorem Keeps.finVsplat {d t e} : Keeps (finVsplat d t e) := .plain fun _ => .vecOut

theorem Keeps.finVext {d a t e} : Keeps (finVext d a t e) := .plain fun _ => .bind .accept fun _ => .wW

theorem Keeps.finVins {d t e} : Keeps (finVins d t e) := .plain fun _ => .vecOut

theorem Keeps.finVsel {d a b t e} : Keeps (finVsel d a b t e) :=
  .plain fun _ => .bind .accept fun _ => .bind .matchB fun _ => .laneOut

theorem Keeps.finVperm {d a b m t e} : Keeps (finVperm d a b m t e) :=
  .plain fun _ => .bind .accept fun _ => .bind .matchB fun _ => .laneOut

theorem Keeps.finVdiv {d a b m p e} : Keeps (finVdiv d a b m p e) :=
  .plain fun _ => .bind .accept fun _ => .bind .matchB fun _ => .vlOut

theorem Keeps.finVsqrt {d a m p e} : Keeps (finVsqrt d a m p e) := .plain fun _ => .vl1

theorem Keeps.finVrcp {d a m p e} : Keeps (finVrcp d a m p e) := .plain fun _ => .vl1

theorem Keeps.finVexp2 {d a m e} : Keeps (finVexp2 d a m e) := .plain fun _ => .vl1

theorem Keeps.finVlog2 {d a m e} : Keeps (finVlog2 d a m e) := .plain fun _ => .vl1

theorem Keeps.finVraddO {d a t e} : Keeps (finVraddO d a t e) :=
  .plain fun _ => .bind .accept fun _ => .bind .raiseFlags fun _ => .wW

theorem Keeps.finVraddU {d a t e} : Keeps (finVraddU d a t e) :=
  .plain fun _ => .bind .accept fun _ => .bind .raiseFlags fun _ => .wW

theorem Keeps.finVrmin {d a t e} : Keeps (finVrmin d a t e) := .plain fun _ => .vrm

theorem Keeps.finVrmax {d a t e} : Keeps (finVrmax d a t e) := .plain fun _ => .vrm

theorem Keeps.finVscanO {d a m t e} : Keeps (finVscanO d a m t e) := .plain fun _ => .vscan

theorem Keeps.finVscanU {d a m t e} : Keeps (finVscanU d a m t e) := .plain fun _ => .vscan

theorem Keeps.finViradd {d a t e} : Keeps (finViradd d a t e) := .plain fun _ => .bind .accept fun _ => .wW

theorem Keeps.finVcvtRne {d a b m t e} : Keeps (finVcvtRne d a b m t e) := .plain fun _ => .vcvt

theorem Keeps.finVcvtRtz {d a b m t e} : Keeps (finVcvtRtz d a b m t e) := .plain fun _ => .vcvt

theorem Keeps.finVcvtRdn {d a b m t e} : Keeps (finVcvtRdn d a b m t e) := .plain fun _ => .vcvt

theorem Keeps.finVcvtRup {d a b m t e} : Keeps (finVcvtRup d a b m t e) := .plain fun _ => .vcvt

theorem Keeps.finVcvtSr {d a f t e} : Keeps (finVcvtSr d a f t e) :=
  .plain fun _ => .bind .accept fun _ => .bind .descCheck fun _ => .vcvtOut

theorem Keeps.finVpackb {d a b t e} : Keeps (finVpackb d a b t e) :=
  .plain fun _ => .bind .accept fun _ => .bind .descCheck fun _ => .bind .raiseFlags fun _ => .wV

theorem Keeps.finVunpackb {d a b m t e} : Keeps (finVunpackb d a b m t e) :=
  .plain fun _ => .bind .accept fun _ => .bind .descCheck fun _ => .vecOut

theorem Keeps.finVftoi {d a m t e} : Keeps (finVftoi d a m t e) := .plain fun _ => .bind .accept fun _ => .vecOut

theorem Keeps.finVitof {d a m t e} : Keeps (finVitof d a m t e) := .plain fun _ => .bind .accept fun _ => .vecOut

theorem Keeps.finVfma {d a b m t e} : Keeps (finVfma d a b m t e) := .plain fun _ => .fma

theorem Keeps.finVfms {d a b m t e} : Keeps (finVfms d a b m t e) := .plain fun _ => .fma

theorem Keeps.finVfnma {d a b m t e} : Keeps (finVfnma d a b m t e) := .plain fun _ => .fma

theorem Keeps.finVfnms {d a b m t e} : Keeps (finVfnms d a b m t e) := .plain fun _ => .fma

theorem Keeps.finMand {d t e} : Keeps (finMand d t e) := .plain fun _ => .modCx

theorem Keeps.finMor {d t e} : Keeps (finMor d t e) := .plain fun _ => .modCx

theorem Keeps.finMxor {d t e} : Keeps (finMxor d t e) := .plain fun _ => .modCx

theorem Keeps.finMandn {d t e} : Keeps (finMandn d t e) := .plain fun _ => .modCx

theorem Keeps.finMnot {d t e} : Keeps (finMnot d t e) := .plain fun _ => .modCx

theorem Keeps.finMpopc {d t e} : Keeps (finMpopc d t e) := .plain fun _ => .wW

/-! ### Events -/

theorem OutcomeOk.eventOn {ok} (h : MemOk s) : OutcomeOk (eventOn ok s) := .ite (.next h) .fault

theorem Keeps.takeRes {e} : Keeps (takeRes e) := by
  unfold Machine.takeRes
  intro s h
  dsimp only
  split
  · exact .ok h
  · exact .ok (.setCx h)

theorem Keeps.promiseLimit {limit} : Keeps (promiseLimit limit) := fun _ h => .ite .error (.ok h)

/-! ### Destination words (04 R66) -/

theorem Keeps.ownOffset {va} : Keeps (ownOffset va) := .bind .getCur fun _ => .ite .pure .trapPre

theorem Keeps.afterEarlier {e} {p : Entry → Bool} : Keeps (afterEarlier e p) := .bind .getCx fun _ => .ite .waitM .pure

theorem Keeps.payload {e limit} : Keeps (payload e limit) :=
  .ite .trapPre (.bind .ownOffset fun _ => .bind .alignTo fun _ => .ite .trapPre (.bind .ownOffset fun _ => .bind .who fun _ =>
    .bind .accessM fun _ => .bind .afterEarlier fun _ => .bind .afterEarlier fun _ => .bind .loadAt fun _ => .pure))

/-! ### Arrival (04 R63, R71) -/

theorem OptionOk.msgReach {m} (h : MemOk s) : OptionOk MemOk (s.msgReach m) :=
  .ite (.ite (.some (.hold h)) .none) (.some (.msgArrive h))

theorem MemOk.unsend {m} (h : MemOk s) : MemOk (s.unsend m) := .ite (.setCore h) h

theorem MemOk.msgFail {m} (h : MemOk s) : MemOk (s.msgFail m) := .post h

theorem OptionOk.sendHead {core} (h : MemOk s) : OptionOk MemOk (s.sendHead core) := by
  unfold State.sendHead
  split
  · exact .none
  · exact .ite (.msgReach (.unsend h)) (.some (.ite (.unsend h) (.msgFail (.unsend h))))

theorem OutcomeOk.execMessageArrival {msg} (h : MemOk s) : OutcomeOk (execMessageArrival msg s) :=
  .eventOn (.ite (.getD (.msgReach (.unsend h)) h) h)

theorem OutcomeOk.execMessageFail {msg} (h : MemOk s) : OutcomeOk (execMessageFail msg s) := .eventOn (.msgFail (.unsend h))

/-! ### Rings (04 R72, R73) -/

theorem Keeps.ringOn {n} : Keeps (ringOn n) := by
  unfold Machine.ringOn
  refine .bind .getCc fun _ => ?_
  split
  · exact .pure
  · exact .trapPost

theorem Keeps.ringFree {n} : Keeps (ringFree n) :=
  .ite .trapPre (.bind .ringOn fun _ => .bind .getCc fun _ => .ite .trapPost .pure)

theorem Keeps.pokeOwn {off v} : Keeps (pokeOwn off v) := fun _ h => .ok (.ite h (.poke h))

theorem Keeps.finSend {e} : Keeps (finSend e) :=
  .plain fun _ => .bind .payload fun _ => .bind .getCc fun _ => .ite .waitM fun _ h => .ok (.setCc h)

theorem Keeps.finSends {e} : Keeps (finSends e) :=
  .plain fun _ => .bind .payload fun _ => .get_bind fun _ _ => .ite .trapPost (.ite .waitM fun _ h1 => .ok (.setCx h1))

theorem Keeps.finHoist {e} : Keeps (finHoist e) :=
  .bind .afterEarlier fun _ => .bind .getCc fun _ => .bind .getCx fun _ => .bind .modCc fun _ => .bind .modCx fun _ => .pure

theorem Keeps.finStrike {e} : Keeps (finStrike e) := .plain fun _ => .bind .afterEarlier fun _ => .modCx

theorem Keeps.finMcmd {e} : Keeps (finMcmd e) :=
  .plain fun _ => .ite .trapPre (.ite .trapPre (.bind .ownOffset fun _ => .bind .ownOffset fun _ => .bind .who fun _ => .bind
    .accessM fun _ => .bind .loadAt fun _ _ h => .ok h))

theorem Keeps.finRbwait {d e} : Keeps (finRbwait d e) := by
  unfold Machine.finRbwait
  refine .plain fun _ => .bind .takeRes fun _ => ?_
  split
  · exact .wFin
  · dsimp only
    split
    · refine .bind .trapPre fun _ => .bind .promiseLimit fun _ => .bind .ringFree fun _ => .bind .getCur fun _ => ?_
      split
      · exact .waitM
      · exact .wFin
    · refine .bind .promiseLimit fun _ => .bind .ringFree fun _ => .bind .getCur fun _ => ?_
      split
      · exact .waitM
      · exact .wFin

theorem Keeps.finRbadv {e} : Keeps (finRbadv e) :=
  .plain fun _ => .bind .ringFree fun _ => .bind .getCur fun _ => .bind .afterEarlier fun _ => .ite .pure fun _ h => .ok
    (.setRx h)

theorem Keeps.finStbind {e} : Keeps (finStbind e) :=
  .plain fun _ => .ite .trapPre (.bind .ringOn fun _ => .bind .getCc fun _ => .bind .getCx fun _ => .ite .trapPost
    (.ite .trapPost (.bind .getCur fun _ => .bind .pokeOwn fun _ => .bind .modCc fun _ => .modCx)))

theorem Keeps.finStunbind {e} : Keeps (finStunbind e) := by
  unfold Machine.finStunbind
  refine .plain fun _ => ?_
  intro s h
  dsimp only
  split
  · exact .ok h
  · refine .ok (.setCx (.setCc ?_))
    split
    · exact .ite h (.setRx h)
    · exact h

theorem OutcomeOk.execRbwaitTimeout {core ctx} (h : MemOk s) : OutcomeOk (execRbwaitTimeout core ctx s) := .eventOn (.setCtx h)

/-! ### Control words and checks (05 R77, R79-R82) -/

theorem Keeps.copyBad {α : Type} {aux pre} : Keeps (copyBad aux pre : M α) := fun _ _ => .error

theorem Keeps.enqueue {c} : Keeps (enqueue c) := fun _ h => .ite (.ok (.post h)) (.ite (.ok h) (.ok (.setCc h)))

theorem Keeps.mkCopy {e form ctl} : Keeps (mkCopy e form ctl) := fun _ h => .ok h

theorem Keeps.copyAlign {e ctl pre also} : Keeps (copyAlign e ctl pre also) := by
  unfold Machine.copyAlign
  intro s h
  dsimp only
  split
  · exact .error
  · exact .ok h

theorem Keeps.copyRecord {e} : Keeps (copyRecord e) :=
  .ite .trapPre (.bind .ownOffset fun _ => .bind .ownOffset fun _ => .bind .who fun _ => .bind .accessM fun _ => .loadAt)

theorem Keeps.heldRecord {e} {read : M Nat} (hread : Keeps read) : Keeps (heldRecord e read) := by
  unfold Machine.heldRecord
  split
  · exact .pure
  · exact hread

theorem Keeps.holdOr {e ext} : Keeps (holdOr e ext) := .ite .waitM .pure

theorem Keeps.copyRelease {e} {p : Entry → Bool} : Keeps (copyRelease e p) := .bind .nearRelease fun _ => .afterEarlier

theorem Keeps.enqueueHeld {e r k} : Keeps (enqueueHeld e r k) :=
  .get_bind fun _ _ => .ite .holdOr (.bind .enqueue fun _ => .ite .pure .holdOr)

theorem Keeps.enqueueWait {e k} : Keeps (enqueueWait e k) :=
  .bind .copyRelease fun _ => .bind .enqueue fun _ => .ite .pure .waitM

theorem Keeps.cpred {e ordered} : Keeps (cpred e ordered) :=
  .ite .copyBad (.bind .copyAlign fun _ => .bind .getCx fun _ => .ite .format (.bind .mkCopy fun _ => .enqueueWait))

/-! ### The event queue (05 R89-R92) -/

theorem MemOk.evLost {core} (h : MemOk s) : MemOk (s.evLost core) := .setCore h

theorem MemOk.recArrive {core r} (h : MemOk s) : MemOk (s.recArrive core r) := by
  unfold State.recArrive
  dsimp only
  split
  · exact .setCore h
  · split
    · split
      · exact .evLost h
      · next e =>
        have h3 := ExceptOk.of_ok e (ExceptOk.vwrite h)
        exact .setCore h3
    · exact .ite h (.evLost h)

/-! ### Engines (05 R77, R78, R82, R84-R86) -/

theorem MemOk.landWord {c it} (h : MemOk s) : MemOk (s.landWord c it).1 := by
  unfold State.landWord
  split
  · exact h
  · split
    · exact h
    · exact .engStore (.ite_snd (.engLoad h) h)

theorem MemOk.landAll {c l} (h : MemOk s) : MemOk (s.landAll c l).1 := .foldl_fst (fun _ _ h1 => .landWord h1) h

theorem MemOk.readWords {c l} (h : MemOk s) : MemOk (s.readWords c l).1 := by
  unfold State.readWords
  refine .foldl_fst (fun _ _ h1 => ?_) h
  split
  · exact h1
  · split
    · exact h1
    · next e =>
      have h3 := ExceptOk.of_ok e (ExceptOk.engRead h1)
      exact h3

theorem MemOk.split {α : Type} {l : List α} (h : MemOk s) : MemOk (s.split l).1 := by
  induction l generalizing s with
  | nil => exact h
  | cons x l ih => exact ih (.choose (n := 2) h)

theorem MemOk.copyStep {c} (h : MemOk s) : MemOk (s.copyStep c).1 := by
  unfold State.copyStep
  split
  · refine .foldl_fst (fun _ _ h2 => ?_) (.split h)
    split
    · exact h2
    · split
      · exact h2
      · next e =>
        have h4 := ExceptOk.of_ok e (ExceptOk.engRead h2)
        exact h4
  · exact .foldl_fst (fun _ _ h2 => .landWord h2) (.split h)

theorem MemOk.copyReads {n c} (h : MemOk s) : MemOk (s.copyReads n c).1 := by
  induction n generalizing s c with
  | zero => exact h
  | succ n ih => exact .ite_fst h (ih (.readWords h))

theorem MemOk.copyAll {c} (h : MemOk s) : MemOk (s.copyAll c).1 := by
  unfold State.copyAll
  cases e : s.copyReads 3 c with
  | mk t c =>
    have ht := MemOk.of_fst e (MemOk.copyReads h)
    exact .landAll ht

theorem OptionOk.bulkAdmit {core} (h : MemOk s) : OptionOk MemOk (s.bulkAdmit core) := by
  unfold State.bulkAdmit
  dsimp only
  split
  · exact .none
  · exact .some (.setCore h)

theorem OptionOk.copyStartId {core id} (h : MemOk s) : OptionOk MemOk (s.copyStartId core id) := by
  unfold State.copyStartId
  split
  · exact .none
  · exact .ite .none (.some (.setCore h))

theorem OptionOk.copyStepId {core id} (h : MemOk s) : OptionOk MemOk (s.copyStepId core id) := by
  unfold State.copyStepId
  split
  · exact .none
  · next c _ =>
    cases e : s.copyStep c with
    | mk t z =>
      have ht := MemOk.of_fst e (MemOk.copyStep h)
      exact .ite .none (.some (.setCore ht))

theorem OptionOk.copyEndId {core id} (h : MemOk s) : OptionOk (fun x => MemOk x.1) (s.copyEndId core id) := by
  unfold State.copyEndId
  split
  · exact .none
  · next c _ =>
    cases e : s.copyAll c with
    | mk t z =>
      have ht := MemOk.of_fst e (MemOk.copyAll h)
      exact .ite .none (.ite (.some (.recArrive (.setCore ht))) (.ite .none (.some (.setCore ht))))

theorem MemOk.holdWord {die c it} (h : MemOk s) : MemOk (s.holdWord die c it).1 := by
  unfold State.holdWord
  split
  · exact h
  · split
    · exact h
    · split
      · exact h
      · split
        · exact h
        · exact .landWord h
        · exact .ite_fst (.hold h) h

theorem MemOk.holdCopies {d} (h : MemOk s) : MemOk (s.holdCopies d) := by
  unfold State.holdCopies
  refine .foldl (fun s x h => ?_) h
  cases e : s.copyReads 3 x.2 with
  | mk t c =>
    have ht := MemOk.of_fst e (MemOk.copyReads h)
    dsimp only
    rw [e]
    exact .setCore (.foldl_fst (fun _ _ h => .holdWord h) ht)

theorem OptionOk.recNext {core} (h : MemOk s) : OptionOk MemOk (s.recNext core) := by
  unfold State.recNext
  split
  · exact .none
  · exact .some (.recArrive h)

theorem ExceptOk.evTake (h : MemOk s) : ExceptOk (OptionOk fun x => MemOk x.2) s.evTake := by
  unfold State.evTake
  dsimp only
  split
  · exact .ok (.some (.setCc h))
  · split
    · exact .ok .none
    · split
      · exact .error
      · exact .ok (.some (.setCc h))

theorem Keeps.evPopM : Keeps evPopM := by
  unfold Machine.evPopM
  intro s h
  dsimp only
  split
  · exact .error
  · exact .ok h
  · next e =>
    have h1 := OptionOk.of_some rfl (ExceptOk.of_ok e (ExceptOk.evTake h))
    exact .ok h1

theorem Keeps.evOut {e d a v} : Keeps (evOut e d a v) := .ite .wFin (.bind .modCx fun _ => .wFin)

theorem Keeps.controlOnly : Keeps controlOnly := fun _ h => .ite (.ok h) .error

/-! ### Meanings -/

theorem Keeps.finCp {e} : Keeps (finCp e) :=
  .plain fun _ => .ite .copyBad (.bind .copyAlign fun _ => .bind .mkCopy fun _ => .enqueueWait)

theorem Keeps.finCp2d {e} : Keeps (finCp2d e) :=
  .bind (.heldRecord .copyRecord) fun _ => .ite .pure (.ite .copyBad (.bind .copyAlign fun _ => .bind .mkCopy fun _ =>
    .enqueueHeld))

theorem Keeps.finCpidx {e} : Keeps (finCpidx e) :=
  .bind (.heldRecord .copyRecord) fun _ => .ite .pure (.ite .copyBad (.bind .copyAlign fun _ => .bind .mkCopy fun _ =>
    .enqueueHeld))

theorem Keeps.finCpwait {e} : Keeps (finCpwait e) :=
  .plain fun _ => .bind .getCc fun _ => .bind .getCur fun _ => .bind .afterEarlier fun _ _ h => .ite .error (.ok h)

theorem Keeps.finCpredO {e} : Keeps (finCpredO e) := .plain fun _ => .cpred

theorem Keeps.finCpredU {e} : Keeps (finCpredU e) := .plain fun _ => .cpred

theorem Keeps.finEvpop {d a e} : Keeps (finEvpop d a e) :=
  .plain fun _ => .bind .controlOnly fun _ => .bind .evPopM fun _ => .evOut

theorem Keeps.finEvwait {d a e} : Keeps (finEvwait d a e) := by
  unfold Machine.finEvwait
  refine .plain fun _ => .bind .controlOnly fun _ => .bind .promiseLimit fun _ => .bind .takeRes fun _ => ?_
  split
  · exact .evOut
  · refine .bind .evPopM fun _ => ?_
    split
    · exact .evOut
    · exact .waitM

theorem Keeps.finEvpost {e} : Keeps (finEvpost e) := .plain fun _ => .ite .trapPre fun _ h => .ok (.post h)

/-! ### Events -/

theorem OutcomeOk.eventIf {ok r} (h : MemOk s) (hr : OptionOk MemOk r) : OutcomeOk (eventIf ok s r) := .eventOn (.getD hr h)

theorem OutcomeOk.execEventRecordArrival {core rec} (h : MemOk s) : OutcomeOk (execEventRecordArrival core rec s) :=
  .eventOn (.recArrive h)

theorem OutcomeOk.execBulkQueueAdmit {core} (h : MemOk s) : OutcomeOk (execBulkQueueAdmit core s) := .eventIf h (.bulkAdmit h)

theorem OutcomeOk.execCopyCommandStart {core id} (h : MemOk s) : OutcomeOk (execCopyCommandStart core id s) :=
  .eventIf h (.copyStartId h)

theorem OutcomeOk.execCopyCommandComplete {core id} (h : MemOk s) : OutcomeOk (execCopyCommandComplete core id s) := by
  unfold Machine.execCopyCommandComplete
  refine .eventIf h ?_
  split
  · next e =>
    have h1 := OptionOk.of_some e (OptionOk.copyEndId h)
    exact .some h1
  · exact .none
  · exact .none

theorem OutcomeOk.execCopyCommandFault {core id} (h : MemOk s) : OutcomeOk (execCopyCommandFault core id s) := by
  unfold Machine.execCopyCommandFault
  refine .eventIf h ?_
  split
  · next e =>
    have h1 := OptionOk.of_some e (OptionOk.copyEndId h)
    exact .some h1
  · exact .none
  · exact .none

theorem OutcomeOk.execEvwaitTimeout {core} (h : MemOk s) : OutcomeOk (execEvwaitTimeout core s) := .eventOn (.setCtx h)

/-! ### Communicators and counters (17 R326-R328) -/

theorem Keeps.ctrId {id} : Keeps (ctrId id) := fun _ h => .ite .error (.ite .error (.ok h))

/-! ### Movement (17 R332, R333) -/

theorem MemOk.setWork {k w} (h : MemOk s) : MemOk (s.setWork k w) := h

theorem MemOk.remoteFail {w ordered dst len} (h : MemOk s) : MemOk (s.remoteFail w ordered dst len).2 := .ite_snd h h

theorem MemOk.of_openStep {ch t} (e : s.openStep ch = .ok t) (h : MemOk s) : MemOk t := by
  unfold State.openStep at e
  dsimp only at e
  split at e
  · cases e
  · split at e
    · cases e
      exact h
    · split at e
      · cases e
      · split at e
        · cases e
        · cases e
          exact h

theorem OptionOk.sendChunk {key w} (h : MemOk s) : OptionOk MemOk (s.sendChunk key w) := by
  unfold State.sendChunk
  dsimp only
  split
  · exact .some (.setWork h)
  · split
    · exact .some (.setWork h)
    · next e =>
      have h1 := ExceptOk.of_ok e (ExceptOk.engRead h)
      refine .ite (.ite ?_ (.some (.update (.setWork h1)))) (.ite (.some (.setWork h1))
        (.ite (.some (.setWork (.choose h1))) (.ite .none (.some (.setWork (.remoteFail (.choose h1)))))))
      split
      · exact .some (.setWork h1)
      · exact .none
      · next e2 => exact .some (.update (.setWork (.of_openStep e2 h1)))

theorem OptionOk.admitChunk {die} (h : MemOk s) : OptionOk MemOk (s.admitChunk die) := by
  unfold State.admitChunk
  refine .foldl (fun o x ho => ?_) .none
  cases ho with
  | none => exact .ite (.sendChunk h) .none
  | some ht => exact .some ht

theorem MemOk.chunkDone {ch err a} (h : MemOk s) : MemOk (s.chunkDone ch err a) := by
  unfold State.chunkDone
  split
  · exact h
  · dsimp only
    split
    · exact h
    · exact .setWork h

theorem MemOk.abandon {t} (h : MemOk s) : MemOk (s.abandon t) := .foldl (fun _ _ h1 => .post h1) (.update (.setDreg h))

theorem MemOk.duplicate {ch} (h : MemOk s) : MemOk (s.duplicate ch) := .ite h (.setDreg h)

theorem MemOk.contribute {ch} (h : MemOk s) : MemOk (s.contribute ch) := by
  unfold State.contribute
  split
  · exact .duplicate h
  · split
    · exact .duplicate h
    · dsimp only
      split
      · exact h
      · exact .ite (.duplicate h) h

theorem MemOk.reduceInPlace {ch} {store : State → Loc → Nat → Nat → State} {view : State → State} (h : MemOk s)
    (hstore : ∀ t, MemOk t → ∀ l n o, MemOk (store t l n o)) : MemOk (s.reduceInPlace ch store view).1 := by
  unfold State.reduceInPlace
  refine .foldl_fst (fun _ _ h1 => ?_) h
  split
  · exact h1
  · dsimp only
    split
    · exact h1
    · split
      · exact h1
      · exact h1
      · exact h1
      · exact hstore _ (.engLoad h1) _ _ _
      · exact hstore _ (.engLoad h1) _ _ _
      · exact hstore _ (.engLoad h1) _ _ _

theorem MemOk.chunkHandled {ch err held} (h : MemOk s) : MemOk (s.chunkHandled ch err held) :=
  .ite (.chunkDone h) (.ite h (.ite (.hold h) (.incCtr h)))

theorem MemOk.holdAt {ch l n v} (h : MemOk s) : MemOk (s.holdAt ch l n v) := by
  unfold State.holdAt
  split
  · exact .hold h
  · exact .engStore h
  · exact .engStore h

theorem MemOk.holdChunk {ch} (h : MemOk s) : MemOk (s.holdChunk ch).1 := by
  unfold State.holdChunk
  refine .foldl_fst (fun _ _ h1 => ?_) h
  dsimp only
  split
  · exact h1
  · split
    · exact h1
    · exact .holdAt h1

theorem OptionOk.chunkHeld {ch} (h : MemOk s) : OptionOk MemOk (s.chunkHeld ch) :=
  .ite .none (.some (.chunkHandled (.ite_fst (.reduceInPlace h fun _ h1 _ _ _ => .holdAt h1) (.holdChunk h))))

theorem OptionOk.handleChunk {ch} (h : MemOk s) : OptionOk MemOk (s.handleChunk ch) := by
  unfold State.handleChunk
  refine .ite (.some (.chunkHandled h)) (.ite (.chunkHeld h) (.ite ?_ (.ite (.some (.chunkHandled (.reduceInPlace h
    fun _ h _ _ _ => .engStore h))) ?_)))
  · split
    · next e => exact .some (.chunkHandled (.of_fst e (.engWrite h)))
    · next e => exact .some (.chunkHandled (.of_fst e (.engWrite h)))
  · have h1 : ∀ o : Option AdderStep, MemOk (match o with
        | Option.some t => if s.stepLate t then s.abandon t else s
        | Option.none => s) := by
      intro o
      cases o with
      | none => exact h
      | some _ => exact .ite (.abandon h) h
    dsimp only
    split
    · exact .some (.chunkDone (h1 _))
    · exact .ite .none (.some (.chunkDone (h1 _)))
    · next e => exact .some (.chunkDone (.contribute (.of_openStep e (h1 _))))

theorem OptionOk.chunkArrive {ch} (h : MemOk s) : OptionOk MemOk (s.chunkArrive ch) := .handleChunk h

/-! ### Steps (17 R332-R334) -/

theorem OptionOk.stepWrite {k} (h : MemOk s) : OptionOk MemOk (s.stepWrite k) := by
  unfold State.stepWrite
  split
  · exact .none
  · split
    · exact .none
    · refine .some (.incCtr (.update (.setDreg (.foldl_fst (fun _ _ h2 => ?_) h))))
      dsimp only
      split
      · exact h2
      · split
        · exact h2
        · exact .engStore h2

theorem OptionOk.stepDrop {k} (h : MemOk s) : OptionOk MemOk (s.stepDrop k) := by
  unfold State.stepDrop
  split
  · exact .none
  · exact .ite (.some (.abandon h)) .none

theorem MemOk.dropLate (h : MemOk s) : MemOk s.dropLate := .foldl (fun _ _ h1 => .abandon h1) h

theorem OptionOk.entryEnd {die idx} (h : MemOk s) : OptionOk MemOk (s.entryEnd die idx) := by
  unfold State.entryEnd
  dsimp only
  split
  · exact .none
  · split
    · exact .none
    · split
      · exact .some (.post (.ite (.setWork h) h))
      · exact .some (.ite (.post (.incCtr (.ite (.incCtr (.ite (.setWork h) h)) (.ite (.setWork h) h))))
          (.incCtr (.ite (.incCtr (.ite (.setWork h) h)) (.ite (.setWork h) h))))

/-! ### Meanings -/

theorem Keeps.postRecord {e} : Keeps (postRecord e) :=
  .bind .ownOffset fun _ => .bind .alignTo fun _ => .bind .who fun _ => .bind .accessM fun _ => .bind .afterEarlier fun _ =>
    .loadAt

theorem Keeps.postEntry {e d n r} : Keeps (postEntry e d n r) := by
  unfold Machine.postEntry
  refine .get_bind fun _ h => ?_
  dsimp only
  split
  · exact .trapPre
  · split
    · exact .pure
    · split
      · exact .trapPost
      · split
        · exact .trapPost
        · split
          · exact .trapPost
          · split
            · exact .holdOr
            · exact .bind (.set (.fire (.setWork h))) fun _ => .bind .wFin fun _ => .pure

theorem Keeps.finQpost {d e} : Keeps (finQpost d e) :=
  .get_bind fun _ _ => .ite .trapPre (.ite (.ite .pure .trapPost) (.bind (.heldRecord .postRecord) fun _ => .postEntry))

theorem Keeps.finQarm {e} : Keeps (finQarm e) := by
  unfold Machine.finQarm
  refine .plain fun _ => ?_
  intro s h
  dsimp only
  split
  · exact .error
  · split
    · exact .error
    · exact .ite .error (.ite (.ok h) (.ok (.fire (.setWork h))))

theorem Keeps.finCtradd {d e} : Keeps (finCtradd d e) :=
  .plain fun _ => .bind .ctrId fun _ => .bind .sysRelease fun _ => .get_bind fun _ h => .bind (.set (.setCtr h)) fun _ => .wFin

theorem Keeps.finCtrwait {d e} : Keeps (finCtrwait d e) :=
  .plain fun _ => .bind .ctrId fun _ => .get_bind fun _ _ => .ite .waitM .wFin

theorem Keeps.finCtrset {e} : Keeps (finCtrset e) :=
  .plain fun _ => .bind .ctrId fun _ => .bind .sysRelease fun _ => .get_bind fun _ h => .set (.setCtr h)

/-! ### Events -/

theorem OutcomeOk.execCollectiveChunkAdmit {die} (h : MemOk s) : OutcomeOk (execCollectiveChunkAdmit die s) :=
  .eventIf h (.admitChunk h)

theorem OutcomeOk.execChunkArrival {chunk} (h : MemOk s) : OutcomeOk (execChunkArrival chunk s) :=
  .eventIf h (.ite (.chunkArrive h) .none)

theorem OutcomeOk.execStepResultWrite {key} (h : MemOk s) : OutcomeOk (execStepResultWrite key s) := .eventIf h (.stepWrite h)

theorem OutcomeOk.execStepAbandon {key} (h : MemOk s) : OutcomeOk (execStepAbandon key s) := .eventIf h (.stepDrop h)

theorem OutcomeOk.execEntryComplete {die idx} (h : MemOk s) : OutcomeOk (execEntryComplete die idx s) :=
  .eventIf h (.entryEnd h)

/-! ### Contexts (14 R270-R274) -/

theorem Keeps.controlWord {also} : Keeps (controlWord also) := fun _ h => .ite .error (.ok h)

theorem MemOk.exitCtx (h : MemOk s) : MemOk s.exitCtx := by
  unfold State.exitCtx
  dsimp only
  split
  · refine .endPart (.setCx ?_)
    split <;> exact h
  · split
    · next e =>
      have h2 := OptionOk.of_some e (OptionOk.nextId (.setCx (.countRun h)))
      exact .beginCtx h2
    · exact .endPart (.setCx (.setCx (.countRun h)))

/-! ### Pennants (14 R275-R280) -/

theorem MemOk.pnPut {k a queue} (h : MemOk s) : MemOk (s.pnPut k a queue) := .update (.poke h)

theorem MemOk.pnFail {core status a} (h : MemOk s) : MemOk (s.pnFail core status a) := .post h

theorem MemOk.of_joinAt {core queue a l n t} (e : s.joinAt core queue a l = .ok n t) (h : MemOk s) : MemOk t := by
  unfold State.joinAt at e
  dsimp only at e
  split at e
  · cases e
  · split at e
    · cases e
    · split at e
      · cases e
        exact .poke h
      · split at e
        · cases e
        · split at e
          · cases e
          · split at e
            · cases e
            · cases e
              exact .pnPut (.poke h)

theorem OptionOk.hwPost {core a queue dom} (h : MemOk s) : OptionOk MemOk (s.hwPost core a queue dom) := by
  unfold State.hwPost
  refine .ite (.some (.pnFail h)) ?_
  split
  · exact .some (.pnFail h)
  · split
    · exact .some (.pnFail h)
    · exact .some (.pnFail h)
    · exact .some (.pnFail h)
    · exact .some (.pnFail h)
    · exact .none
    · next e => exact .some (.of_joinAt e h)

theorem OptionOk.postPennant {core a} (h : MemOk s) : OptionOk MemOk (s.postPennant core a) := by
  unfold State.postPennant
  split <;> exact .hwPost h

theorem MemOk.pnTake {k n} (h : MemOk s) : MemOk (s.pnTake k n) := h

theorem OptionOk.pnPop {core} (h : MemOk s) : OptionOk MemOk (s.pnPop core) := by
  unfold State.pnPop
  generalize State.access = access
  as_aux_lemma =>
    split
    · exact .none
    · refine .ite .none ?_
      split
      · exact .none
      · dsimp only
        split
        · exact .some (.pnFail (.pnTake h))
        · exact .some (.beginCtx (.setCore (.choose (.poke (.pnTake h)))))

theorem OptionOk.pnPromote {cluster prio idx} (h : MemOk s) : OptionOk MemOk (s.pnPromote cluster prio idx) := by
  unfold State.pnPromote
  split
  · exact .none
  · dsimp only
    split
    · exact .none
    · exact .ite .none (.some (.pnPut (.pnTake h)))

/-! ### Halyard words (14 R284, R285) -/

theorem OptionOk.episodeEnd {e} (h : MemOk s) : OptionOk MemOk (s.episodeEnd e) :=
  .ite .none (.some (.foldl (fun _ _ h1 => .deliver h1) h))

theorem OptionOk.halyExpire {core} (h : MemOk s) : OptionOk MemOk (s.halyExpire core) := by
  unfold State.halyExpire
  split
  · exact .none
  · split
    · exact .none
    · exact .some (.deliver h)

theorem Keeps.halyCheck {e modes} : Keeps (halyCheck e modes) :=
  .bind .controlWord fun _ => .bind .getCur fun _ => .ite .trapPre .pure

theorem Keeps.arrive {e op modes} : Keeps (arrive e op modes) :=
  .bind .halyCheck fun _ => .bind .getCur fun _ => .ite .pure (.bind .nearRelease fun _ _ h => .ok h)

theorem Keeps.goOn {e} : Keeps (goOn e) := .ite .waitM .pure

/-! ### Meanings -/

theorem Keeps.finStart {d e} : Keeps (finStart d e) := by
  unfold Machine.finStart
  refine .plain fun _ => .bind .controlWord fun _ => .bind .alignTo fun _ => .bind .nearRelease fun _ => .bind .getCc fun _ => ?_
  split
  · exact .waitM
  · exact .bind (fun _ h => .ok (.beginCtx h)) fun _ => .wFin

theorem Keeps.finExit {e} : Keeps (finExit e) :=
  .plain fun _ => .bind .getCx fun _ => .bind .getCc fun _ => .bind .getCur fun _ => .ite .waitM (.ite .waitM (.bind .nearRelease
    fun _ _ h => .ok (.exitCtx h)))

theorem Keeps.finYield {e} : Keeps (finYield e) := .plain fun _ _ h => .ok (.setCx h)

theorem Keeps.finFollow {d e} : Keeps (finFollow d e) := by
  unfold Machine.finFollow
  refine .bind .controlWord fun _ => .get_bind fun _ _ => ?_
  dsimp only
  split
  · exact .ite (.bind .wFin fun _ => .pure) .waitM
  · exact .ite (.bind .wFin fun _ => .pure) (.bind .modCx fun _ => .pure)

theorem Keeps.finUnfollow {e} : Keeps (finUnfollow e) := .plain fun _ => .modCx

theorem Keeps.finWid {d e} : Keeps (finWid d e) := by
  unfold Machine.finWid
  refine .plain fun _ => .bind .getCx fun _ => .bind .getCur fun _ => ?_
  dsimp only
  split
  · exact .trapPre
  · split
    · exact .wFin
    · intro s h2
      dsimp only
      split
      · next e =>
        have h3 := OptionOk.of_some e (OptionOk.nextId h2)
        exact .ok (.setCx (.countRun h3))
      · exact .ok (.setCx (.setCc h2))

theorem Keeps.finPnpush {e} : Keeps (finPnpush e) :=
  .plain fun _ => .bind .alignTo fun _ => .bind .who fun _ => .bind .accessM fun _ => .bind .getCur fun _ => .bind .nearRelease
    fun _ _ h => .ite .error (.ite .error (.ite .error (.ok (.pnPut (.poke h)))))

theorem Keeps.finJoin {d e} : Keeps (finJoin d e) := by
  refine .plain fun _ => .bind .alignTo fun _ => .bind .who fun _ => .bind .accessM fun _ => .bind .nearRelease fun _ =>
    .get_bind fun s h => ?_
  split
  · exact .trapPost
  · exact .trapPost
  · exact .trapPost
  · exact .waitM
  · exact .wFin
  · next e => exact .bind (.set (.of_joinAt e h)) fun _ => .wFin

theorem Keeps.finVote {d e} : Keeps (finVote d e) := by
  unfold Machine.finVote
  refine .bind .takeRes fun _ => ?_
  split
  · exact .bind .modCx fun _ => .pure
  · exact .bind .halyCheck fun _ => .get_bind fun _ _ => .bind .modCx fun _ => .ite .pure (.bind .arrive fun _ => .goOn)

theorem Keeps.finHaly {d e} : Keeps (finHaly d e) := by
  unfold Machine.finHaly
  refine .bind .takeRes fun _ => ?_
  split
  · exact .bind .wFin fun _ => .pure
  · exact .bind .promiseLimit fun _ => .bind .arrive fun _ => .goOn

theorem Keeps.finHsum {d e} : Keeps (finHsum d e) := by
  unfold Machine.finHsum
  refine .bind .takeRes fun _ => ?_
  split
  · exact .bind .raiseFlags fun _ => .bind .wFin fun _ => .pure
  · exact .bind .arrive fun _ => .goOn

/-! ### Events -/

theorem OptionOk.finishIf {eff : Instr → Eff} {core k} {p : Instr → Bool} (h : MemOk s) (heff : ∀ i e, Keeps (eff i e)) :
    OptionOk MemOk (s.finishIf eff core k p) := by
  unfold State.finishIf
  split
  · exact .none
  · split
    · exact .none
    · next e2 =>
      have h1 := IssuedOk.of_next e2 (IssuedOk.finish h fun _ _ => heff _ _)
      exact .some h1

theorem OutcomeOk.execFollowEngage {core} (h : MemOk s) : OutcomeOk (execFollowEngage core s) := by
  unfold Machine.execFollowEngage
  refine .eventIf h (.finishIf h fun _ _ => ?_)
  split
  · exact .finFollow
  · exact .waitM

theorem OutcomeOk.execHardwarePost {core addr} (h : MemOk s) : OutcomeOk (execHardwarePost core addr s) :=
  .eventIf h (.postPennant h)

theorem OutcomeOk.execControlContextRestart {core} (h : MemOk s) : OutcomeOk (execControlContextRestart core s) :=
  .eventIf h (.finishIf h fun _ _ => .finExit)

theorem OutcomeOk.execStartHelperAssign {core} (h : MemOk s) : OutcomeOk (execStartHelperAssign core s) := by
  unfold Machine.execStartHelperAssign
  refine .eventIf h (.finishIf h fun _ _ => ?_)
  split
  · exact .finStart
  · exact .waitM

theorem OutcomeOk.execPennantPop {core} (h : MemOk s) : OutcomeOk (execPennantPop core s) := .eventIf h (.pnPop h)

theorem OutcomeOk.execPennantAgePromote {cluster prio idx} (h : MemOk s) : OutcomeOk (execPennantAgePromote cluster prio idx s) :=
  .eventIf h (.pnPromote h)

theorem OutcomeOk.execHalyardEpisodeComplete {op word launch} (h : MemOk s) :
    OutcomeOk (execHalyardEpisodeComplete op word launch s) :=
  .eventIf h (.findSome fun _ => .episodeEnd h)

theorem OutcomeOk.execHalyLimitExpire {core} (h : MemOk s) : OutcomeOk (execHalyLimitExpire core s) :=
  .eventIf h (.halyExpire h)

theorem OutcomeOk.execYieldExpire {core ctx} (h : MemOk s) : OutcomeOk (execYieldExpire core ctx s) := .eventOn (.setCtx h)

/-! ### Regions and elements (06 R105, R106, 10 R195) -/

theorem Keeps.regionM {w} {ok : Region → Bool} : Keeps (regionM w ok) := by
  unfold Machine.regionM
  split
  · exact .ite .pure .trapPre
  · exact .trapPre

theorem Keeps.evictM {r} : Keeps (evictM r) := fun _ h => .ok (.evictRegion h)

/-! ### Tiles (08 R157, 10 R194) -/

theorem Keeps.exs {e : Entry} {l} : Keeps (e.exs l) := fun _ h => .ok h

/-! ### Products (10 R193-R196) -/

theorem MemOk.mxProduct {core c ints a b sc row0 col0} (h : MemOk s) : MemOk (s.mxProduct core c ints a b sc row0 col0).1 :=
  .setCore (.evictRegion h)

theorem MemOk.mxMma {core ta tb a b sc row0 col0} (h : MemOk s) : MemOk (s.mxMma core ta tb a b sc row0 col0).1 := by
  unfold State.mxMma
  split
  · exact h
  · exact .mxProduct h

theorem Keeps.mxClass {ta tb ra rb} : Keeps (mxClass ta tb ra rb) := by
  unfold Machine.mxClass
  split
  · exact .format
  · exact .ite .pure .format

/-! ### Factoring and solving (10 R201-R203) -/

theorem Keeps.blockTag {t reg} : Keeps (blockTag t reg) := .ite .pure (.ite .pure .format)

/-! ### Commands: the checks at issue, and the work in the engine -/

theorem MxOk.mxOfMma {a b row col s} : MxOk (mxOfMma a b row col s) := by
  unfold Machine.mxOfMma
  refine .mk (fun _ => .bind .exs fun _ => .bind .mxClass fun _ => .pure) fun _ => .bind .exs fun _ => ?_
  intro s1 h
  refine .ok ?_
  dsimp only
  split
  · exact h
  · exact .mxProduct h

theorem MxOk.mxOfMmac {b row col s} : MxOk (mxOfMmac b row col s) := by
  unfold Machine.mxOfMmac
  refine .mk (fun _ => .bind .exs fun _ => ?_) fun _ => .bind .exs fun _ => .bind .regionM fun _ => .bind .evictM fun _ _ h =>
    .ok (.setCore (.evictRegion h))
  dsimp only
  split
  · exact .format
  · exact .ite .format (.bind .regionM fun _ => .pure)

theorem MxOk.mxOfAccz : MxOk mxOfAccz :=
  .mk (fun _ => .bind .regionM fun _ => .pure) fun _ => .bind .regionM fun _ => .bind .evictM fun _ => .bind .modCc fun _ => .pure

theorem Keeps.accCheck {e} : Keeps (accCheck e) := .bind .regionM fun _ => .bind .alignTo fun _ => .alignTo

theorem Keeps.accLocs {e r a} : Keeps (accLocs e r a) :=
  .bind .who fun _ => .mapM fun _ => .bind .accessM fun _ => .bind .inOrder fun _ => .pure

theorem Keeps.accStore {w va l v} : Keeps (accStore w va l v) := by
  unfold Machine.accStore
  intro s h
  dsimp only
  split
  · exact .ok (.sent h)
  · exact Keeps.storeAt _ h
  · exact Keeps.storeAt _ h
  · exact Keeps.storeAt _ h
  · exact Keeps.storeAt _ h
  · exact Keeps.storeAt _ h

theorem Keeps.accldStep {e whole} : Keeps (accldStep e whole) :=
  .bind .regionM fun _ => .bind .accLocs fun _ => .ite (.bind .pure fun _ => .bind .who fun _ => .bind (.mapM fun _ => .ite
    .loadAt .pure) fun _ => .ite (.bind .evictM fun _ => .bind .modCc fun _ => .pure) .pure) (.bind .partsNow fun _ => .bind .who
    fun _ => .bind (.mapM fun _ => .ite .loadAt .pure) fun _ => .ite (.bind .evictM fun _ => .bind .modCc fun _ => .pure) .pure)

theorem MxOk.mxOfAccld : MxOk mxOfAccld := .mk (fun _ => .accCheck) fun _ => .bind .accldStep fun _ => .pure

theorem MxOk.mxOfAccst : MxOk mxOfAccst :=
  .mk (fun _ => .accCheck) fun _ => .bind .regionM fun _ => .bind .accLocs fun _ => .bind .who fun _ => .bind .evictM fun _ =>
    .bind .getCc fun _ => .bind (.forM fun _ => .accStore) fun _ => .pure

theorem Keeps.mxDesc {f n} : Keeps (mxDesc f n) := .ite .pure .format

theorem MxOk.mxOfAcccvt {d b} : MxOk (mxOfAcccvt d b) :=
  .mk (fun _ => .bind .exs fun _ => .bind .mxDesc fun _ => .bind .regionM fun _ => .pure) fun _ => .bind .exs fun _ => .bind
    .regionM fun _ => .bind .evictM fun _ => .bind .getCc fun _ => .pure

theorem MxOk.mxOfAccmov : MxOk mxOfAccmov :=
  .mk (fun _ => .bind .regionM fun _ => .bind .regionM fun _ => .pure) fun _ => .bind .regionM fun _ => .bind .regionM fun _ =>
    .bind .evictM fun _ => .bind .evictM fun _ => .bind .modCc fun _ => .pure

theorem Keeps.xTile {n} : Keeps (xTile n) := fun _ h => .ok h

theorem MxOk.mxOfXmov {d a} : MxOk (mxOfXmov d a) :=
  .mk (fun _ => .pure) fun _ => .bind .exs fun _ => .bind .xTile fun _ => .pure

theorem MxOk.mxOfXtr {d a} : MxOk (mxOfXtr d a) :=
  .mk (fun _ => .bind .exs fun _ => .ite .format .pure) fun _ => .bind .exs fun _ => .bind .xTile fun _ => .pure

theorem MxOk.mxOfXzero {d} : MxOk (mxOfXzero d) := .mk (fun _ => .pure) fun _ => .bind .exs fun _ => .pure

theorem MxOk.mxOfXcvt {d a b} : MxOk (mxOfXcvt d a b) :=
  .mk (fun _ => .bind .exs fun _ => .ite .format .mxDesc) fun _ => .bind .exs fun _ => .bind .xTile fun _ => .pure

theorem MxOk.mxOfTfact {d a} : MxOk (mxOfTfact d a) :=
  .mk (fun _ => .bind .exs fun _ => .bind .blockTag fun _ => .ite .trapPre .pure) fun _ => .bind .exs fun _ => .bind .xTile
    fun _ => .pure

theorem MxOk.mxOfTsolve {d a b} : MxOk (mxOfTsolve d a b) :=
  .mk (fun _ => .bind .exs fun _ => .bind .blockTag fun _ => .ite .pure .format) fun _ => .bind .exs fun _ => .bind .xTile
    fun _ => .bind .xTile fun _ => .ite .trapPost .pure

/-! ### Configuration (13 R253, R254) -/

theorem Keeps.vcfgM : Keeps vcfgM := .bind .getCx fun _ => .ite .trapPre .pure

theorem Keeps.ownBlock {va align n} : Keeps (ownBlock va align n) :=
  .bind .ownOffset fun _ => .ite .trapPre (.bind .alignTo fun _ => .pure)

theorem Keeps.block {v : VCfg} {va} : Keeps (v.block va) := .ownBlock

theorem Keeps.cfgRecord {e} : Keeps (cfgRecord e) := .bind .who fun _ => .bind .accessM fun _ => .loadAt

theorem Keeps.formatPost {α : Type} {want have_ reg} : Keeps (formatPost want have_ reg : M α) := .trapPost

theorem Keeps.projDesc {c n side} : Keeps (projDesc c n side) := .ite .formatPost (.ite .formatPost .pure)

theorem MxOk.mxOfVpjCfg : MxOk mxOfVpjCfg := by
  unfold Machine.mxOfVpjCfg
  refine .mk (fun _ => .bind .ownBlock fun _ => .pure) fun _ => .get_bind fun _ _ => .bind .getCx fun _ => ?_
  split
  · exact .trapPost
  · split
    · exact .trapPost
    · exact .bind .projDesc fun _ => .bind .projDesc fun _ => .ite .formatPost (.ite .trapPost (.bind .modCx fun _ => .pure))

/-! ### State blocks (13 R256, R257) -/

theorem Keeps.rows {v : VCfg} {e va} : Keeps (v.rows e va) := by
  unfold VCfg.rows
  refine .bind .who fun _ => .bind .accessM fun _ => .bind .loadAt fun _ => ?_
  split
  · exact .trapPost
  · exact .pure

theorem Keeps.putRows {v : VCfg} {off first rows} : Keeps (v.putRows off first rows) :=
  fun _ h => .ok (.foldl (fun _ _ h1 => .fill (.poke h1)) h)

/-! ### Logits and the tile (13 R255, R259, R260) -/

theorem Keeps.weights {v : VCfg} {w t} : Keeps (v.weights w t) := by
  unfold VCfg.weights
  refine .mapM fun _ => ?_
  intro s h
  dsimp only
  split
  · exact .error
  · next e =>
    have h1 := ExceptOk.of_ok e (ExceptOk.engRead h)
    exact .ok h1

theorem Keeps.vpjCheck {e} : Keeps (vpjCheck e) := by
  unfold Machine.vpjCheck
  refine .bind .vcfgM fun _ => .bind .getCx fun _ => ?_
  split
  · exact .trapPre
  · refine .bind .block fun _ => ?_
    dsimp only
    split
    · exact .format
    · refine .get_bind fun _ _ => ?_
      split
      · exact .trapPost
      · split
        · exact .trapPost
        · exact .bind .rows fun _ => .pure

theorem Keeps.vpjTile {e} : Keeps (vpjTile e) :=
  .bind .vcfgM fun _ => .bind .block fun _ => .bind .rows fun _ => .bind .who fun _ => .bind .getCx fun _ => .bind .weights
    fun _ => .get_bind fun _ _ => .ite .trapPost (.bind .putRows fun _ => .pure)

theorem Keeps.regenTile {e} : Keeps (regenTile e) := by
  unfold Machine.regenTile
  refine .bind .vcfgM fun _ => .bind .rows fun _ => .bind .who fun _ => .bind .getCx fun _ => .bind .weights fun _ => .get_bind
    fun _ h => ?_
  dsimp only
  split
  · exact .trapPost
  · exact .bind (.set (.setCore (.evictRegion h))) fun _ => .ite (.bind (.modify fun _ h1 => .engWrite h1) fun _ => .pure) .pure

theorem MxOk.mxOfVpj : MxOk mxOfVpj := .mk (fun _ => .vpjCheck) fun _ => .vpjTile

theorem MxOk.mxOfVpjRegen : MxOk mxOfVpjRegen := .mk (fun _ => .vpjCheck) fun _ => .regenTile

/-! ### VPJ.INIT, VPJ.MRG and VPJ.RD (13 R258, R262, R264) -/

theorem Keeps.labelRecord {e} : Keeps (labelRecord e) := by
  unfold Machine.labelRecord
  refine .bind .vcfgM fun _ => .bind .who fun _ => ?_
  split
  · exact .pure
  · intro s h1
    dsimp only
    split
    · exact .error
    · next e1 =>
      have h2 := ExceptOk.of_ok e1 (ExceptOk.engRead h1)
      exact .ok h2

theorem MxOk.mxOfVpjInit : MxOk mxOfVpjInit :=
  .mk (fun _ => .bind .vcfgM fun _ => .bind .block fun _ => .pure) fun _ => .bind .vcfgM fun _ => .bind .block fun _ => .bind
    .putRows fun _ => .pure

theorem MxOk.mxOfVpjMrg : MxOk mxOfVpjMrg :=
  .mk (fun _ => .bind .vcfgM fun _ => .bind .block fun _ => .bind .block fun _ => .bind .block fun _ => .pure) fun _ => .bind
    .vcfgM fun _ => .bind .block fun _ => .bind .rows fun _ => .bind .rows fun _ => .ite (.bind .putRows fun _ => .pure) .trapPost

theorem Keeps.readRecord {e} : Keeps (readRecord e) := .bind .who fun _ => .bind .accessM fun _ => .loadAt

theorem Keeps.engReadM {w va n} : Keeps (engReadM w va n) := by
  unfold Machine.engReadM
  intro s h
  dsimp only
  split
  · exact .error
  · next e =>
    have h1 := ExceptOk.of_ok e (ExceptOk.engRead h)
    exact .ok h1

theorem Keeps.segment {w va} : Keeps (segment w va) :=
  .ite .trapPost (.bind .engReadM fun _ => .ite .trapPost (.bind .engReadM fun _ => .pure))

theorem MxOk.mxOfVpjRd : MxOk mxOfVpjRd := by
  unfold Machine.mxOfVpjRd
  refine .mk (fun _ => .bind .vcfgM fun _ => .ite .trapPre (.bind .block fun _ => .bind .ownBlock fun _ => .pure)) fun _ => .bind
    .vcfgM fun _ => .bind .block fun _ => .bind .who fun _ => ?_
  dsimp only
  split
  · exact .trapPost
  · split
    · exact .trapPost
    · split
      · exact .trapPost
      · refine .bind .accessM fun _ => .bind .loadAt fun _ => ?_
        split
        · exact .trapPost
        · refine .bind (.ite (.bind .engReadM fun _ => .mapM fun _ => .segment) .pure) fun _ => ?_
          split
          · split
            · exact .trapPost
            · split
              · exact .trapPost
              · refine .get_bind fun _ h5 => ?_
                split
                · next e3 =>
                  have h6 := MemOk.of_fst e3 (MemOk.engWrite h5)
                  exact .bind (.set h6) fun _ => .pure
                · next e3 =>
                  have h6 := MemOk.of_fst e3 (MemOk.engWrite h5)
                  exact .bind (.set h6) fun _ => .ite (.bind .putRows fun _ => .pure) .pure
          · split
            · exact .trapPost
            · split
              · exact .trapPost
              · refine .get_bind fun _ h6 => ?_
                split
                · next e2 =>
                  have h7 := MemOk.of_fst e2 (MemOk.engWrite h6)
                  exact .bind (.set h7) fun _ => .pure
                · next e2 =>
                  have h7 := MemOk.of_fst e2 (MemOk.engWrite h6)
                  exact .bind (.set h7) fun _ => .ite (.bind .putRows fun _ => .pure) .pure

/-! ### The matrix queue (10 R191, R192, R204-R206) and the meanings of the words that enter it -/

theorem OptionOk.mxOf {i} : OptionOk MxOk (mxOf i) := by
  unfold Machine.mxOf
  split
  · exact .some .mxOfMma
  · exact .some .mxOfMmac
  · exact .some .mxOfAccz
  · exact .some .mxOfAccld
  · exact .some .mxOfAccst
  · exact .some .mxOfAcccvt
  · exact .some .mxOfAccmov
  · exact .some .mxOfXmov
  · exact .some .mxOfXtr
  · exact .some .mxOfXzero
  · exact .some .mxOfXcvt
  · exact .some .mxOfTfact
  · exact .some .mxOfTsolve
  · exact .some .mxOfVpjCfg
  · exact .some .mxOfVpjInit
  · exact .some .mxOfVpjMrg
  · exact .some .mxOfVpjRd
  · exact .some .mxOfVpj
  · exact .some .mxOfVpjRegen
  · exact .none

/-! ### The queue (10 R191, R192, R204, R205) -/

theorem ExceptOk.runAs {α : Type} {core k} {m : M α} (h : MemOk s) (hm : Keeps m) :
    ExceptOk (fun x => MemOk x.2) (s.runAs core k m) := by
  unfold State.runAs
  split
  · next e =>
    have h1 := ExceptOk.of_ok e (hm _ h)
    exact .ok h1
  · exact .error

theorem Keeps.mxWrite {r} : Keeps (mxWrite r) := by
  unfold Machine.mxWrite
  split
  · exact .trapPost
  · exact .modCx
  · exact .modCx
  · exact .modCx
  · exact .modCx
  · exact .modCx
  · exact .modCx
  · exact .modCx
  · exact .modCx

theorem Keeps.enqueueMx {e started fl res} : Keeps (enqueueMx e started fl res) := fun _ h => .ok (.setCc h)

theorem Keeps.mxGo {m fresh a} (hm : MxOk m) : Keeps (mxGo m fresh a) := by
  unfold Machine.mxGo
  refine .bind .takeRes fun _ => ?_
  split
  · exact .bind .mxWrite fun _ => .pure
  · split
    · exact .waitM
    · refine .bind (.check hm) fun _ => .bind .getCx fun _ => .get_bind fun _ _ => ?_
      split
      · exact .ite .pure .waitM
      · refine .bind .modCc fun _ => ?_
        split
        · exact .bind .enqueueMx fun _ => .pure
        · refine .bind (.run hm) fun _ => .bind .getCx fun _ => ?_
          split
          · exact .bind .enqueueMx fun _ => .pure
          · refine .bind .raiseFlags fun _ => ?_
            split
            · exact .pure
            · exact .bind .mxWrite fun _ => .pure

theorem Keeps.mxFin {m a} (hm : MxOk m) : Keeps (mxFin m a) := .mxGo hm

theorem Keeps.mxHeld {m} {record : Entry → M Nat} {a} (hm : MxOk m) (hrecord : ∀ (a : Entry), Keeps (record a)) :
    Keeps (mxHeld m record a) :=
  .ite (.mxFin hm) (.bind (.check hm) fun _ => .bind .copyRelease fun _ => .bind (.heldRecord (hrecord _)) fun _ => .mxGo hm)

theorem MemOk.mcReply {c kind status} (h : MemOk s) : MemOk (s.mcReply c kind status) := .post h

theorem MemOk.rcArrive {c} (h : MemOk s) : MemOk (s.rcArrive c) := by
  unfold State.rcArrive
  dsimp only
  split
  · exact .mcReply h
  · split
    · exact .mcReply h
    · exact .ite (.mcReply h) (.ite (.mcReply h) (.setCore h))

theorem OptionOk.rcAdmit {core} (h : MemOk s) : OptionOk MemOk (s.rcAdmit core) := by
  unfold State.rcAdmit
  dsimp only
  split
  · exact .none
  · split
    · exact .some (.mcReply (.setCore h))
    · split
      · exact .some (.mcReply (.setCore h))
      · split
        · exact .some (.mcReply (.setCore (.setCore h)))
        · exact .some (.setCore (.setCore h))
        · split
          · exact .some (.mcReply (.setCore h))
          · split
            · exact .some (.mcReply (.setCore h))
            · exact .some (.setCore (.setCore h))
            · exact .some (.setCore (.setCore h))

theorem OptionOk.mxAdmit {core} (h : MemOk s) : OptionOk MemOk (s.mxAdmit core) := by
  unfold State.mxAdmit
  dsimp only
  split
  · exact .ite .none (.some (.setCore h))
  · split
    · exact .none
    · split
      · exact .rcAdmit h
      · split
        · exact .none
        · exact .some (.setCore (.setCtx (.ite_snd h (.choose h))))

theorem MemOk.mxUnqueue {core k} (h : MemOk s) : MemOk (s.mxUnqueue core k) := .setCtx (.setCore h)

theorem MemOk.mxHead {core q} (h : MemOk s) : MemOk (s.mxHead core q) := .setCore h

theorem MemOk.mxPop {core} (h : MemOk s) : MemOk (s.mxPop core) := .setCore h

theorem MemOk.mxGoesOn {core k q e} (h : MemOk s) : MemOk (s.mxGoesOn core k q e) := .setCtx (.mxHead h)

theorem Keeps.mxPart {m e} (hm : MxOk m) : Keeps (mxPart m e) := by
  unfold Machine.mxPart
  split
  · exact .bind .accldStep fun _ => .pure
  · exact .bind (.run hm) fun _ => .pure

theorem MemOk.mxFailed {core k i} (h : MemOk s) : MemOk (s.mxFailed core k i) := by
  unfold State.mxFailed
  split
  · exact .mxUnqueue h
  · exact .mxUnqueue h
  · exact h

theorem MemOk.joinFlags {core k fl} (h : MemOk s) : MemOk (s.joinFlags core k fl) := .setCtx h

theorem OptionOk.mxStartCmd {core q} (h : MemOk s) : OptionOk MemOk (s.mxStartCmd core q) := by
  unfold State.mxStartCmd
  split
  · exact .none
  · dsimp only
    split
    · exact .none
    · split
      · exact .none
      · next e3 =>
        have h1 := OptionOk.of_some e3 OptionOk.mxOf
        split
        · exact .none
        · split
          · next e4 =>
            have h3 := ExceptOk.of_ok e4 (ExceptOk.runAs (.setCore h) (.mxPart h1))
            exact .some (.mxGoesOn (.joinFlags h3))
          · next e4 =>
            have h3 := ExceptOk.of_ok e4 (ExceptOk.runAs (.setCore h) (.mxPart h1))
            exact .some (.mxHead h3)
          · exact .some (.deliver (.mxFailed (.mxPop (.setCore h))))
          · exact .none
    · split
      · exact .some (.mxHead (.setCore h))
      · next e3 =>
        have h1 := OptionOk.of_some e3 OptionOk.mxOf
        split
        · next e4 =>
          have h2 := ExceptOk.of_ok e4 (ExceptOk.runAs (.setCore h) (.mxPart h1))
          exact .some (.mxHead (.joinFlags h2))
        · next e4 =>
          have h2 := ExceptOk.of_ok e4 (ExceptOk.runAs (.setCore h) (.mxPart h1))
          exact .some (.mxHead h2)
        · exact .some (.mcReply (.mxPop (.setCore h)))
        · exact .none

theorem OptionOk.mxEndCmd {core q} (h : MemOk s) : OptionOk MemOk (s.mxEndCmd core q) := by
  unfold State.mxEndCmd
  split
  · exact .none
  · split
    · exact .none
    · split
      · exact .none
      · dsimp only
        split
        · split
          · next e2 =>
            have h3 := ExceptOk.of_ok e2 (ExceptOk.runAs (.joinFlags (.mxPop h)) .mxWrite)
            exact .some (.deliver h3)
          · exact .some (.deliver (.joinFlags (.mxPop h)))
        · exact .some (.deliver (.joinFlags (.mxPop h)))
    · exact .ite .none (.some (.mcReply (.setCtx (.joinFlags (.mxPop h)))))

/-! ### Meanings -/

theorem Keeps.finMma {a b row col s e} : Keeps (finMma a b row col s e) := .mxFin .mxOfMma

theorem Keeps.finMmac {b row col s e} : Keeps (finMmac b row col s e) := .mxFin .mxOfMmac

theorem Keeps.finAccz {e} : Keeps (finAccz e) := .mxFin .mxOfAccz

theorem Keeps.finAccld {e} : Keeps (finAccld e) := .mxFin .mxOfAccld

theorem Keeps.finAccst {e} : Keeps (finAccst e) := .mxFin .mxOfAccst

theorem Keeps.finAcccvt {d b e} : Keeps (finAcccvt d b e) := .mxFin .mxOfAcccvt

theorem Keeps.finAccmov {e} : Keeps (finAccmov e) := .mxFin .mxOfAccmov

theorem Keeps.finXmov {d a e} : Keeps (finXmov d a e) := .mxFin .mxOfXmov

theorem Keeps.finXtr {d a e} : Keeps (finXtr d a e) := .mxFin .mxOfXtr

theorem Keeps.finXzero {d e} : Keeps (finXzero d e) := .mxFin .mxOfXzero

theorem Keeps.finXcvt {d a b e} : Keeps (finXcvt d a b e) := .mxFin .mxOfXcvt

theorem Keeps.finTfact {d a e} : Keeps (finTfact d a e) := .mxFin .mxOfTfact

theorem Keeps.finTsolve {d a b e} : Keeps (finTsolve d a b e) := .mxFin .mxOfTsolve

theorem Keeps.finVpjCfg {e} : Keeps (finVpjCfg e) := .mxHeld .mxOfVpjCfg fun _ => .cfgRecord

theorem Keeps.finVpjInit {e} : Keeps (finVpjInit e) := .mxHeld .mxOfVpjInit fun _ => .labelRecord

theorem Keeps.finVpjMrg {e} : Keeps (finVpjMrg e) := .mxHeld .mxOfVpjMrg fun _ => .pure

theorem Keeps.finVpjRd {e} : Keeps (finVpjRd e) := .mxHeld .mxOfVpjRd fun _ => .readRecord

theorem Keeps.finVpj {e} : Keeps (finVpj e) := .mxHeld .mxOfVpj fun _ => .pure

theorem Keeps.finVpjRegen {e} : Keeps (finVpjRegen e) := .mxHeld .mxOfVpjRegen fun _ => .pure

theorem Keeps.finBurst {e} : Keeps (finBurst e) := .plain fun _ => .modCc

theorem Keeps.finMwait {e} : Keeps (finMwait e) := .plain fun _ => .bind .getCx fun _ => .ite .waitM .pure

/-! ### Events -/

theorem OutcomeOk.execRemoteCommandArrival {cmd} (h : MemOk s) : OutcomeOk (execRemoteCommandArrival cmd s) :=
  .eventOn (.rcArrive h)

theorem OutcomeOk.execMatrixQueueAdmit {core} (h : MemOk s) : OutcomeOk (execMatrixQueueAdmit core s) := .eventIf h (.mxAdmit h)

theorem OutcomeOk.execArrayLevelRise {core} (h : MemOk s) : OutcomeOk (execArrayLevelRise core s) :=
  .eventOn (.ite (.setCore h) h)

theorem OutcomeOk.execArrayLevelFall {core} (h : MemOk s) : OutcomeOk (execArrayLevelFall core s) :=
  .eventOn (.ite h (.setCore h))

theorem OutcomeOk.execBurstHoldExpire {core} (h : MemOk s) : OutcomeOk (execBurstHoldExpire core s) := .eventOn (.setCore h)

theorem OutcomeOk.execVpjTileBoundary {core ctx idx} (h : MemOk s) : OutcomeOk (execVpjTileBoundary core ctx idx s) := by
  unfold Machine.execVpjTileBoundary
  refine .eventIf h ?_
  split
  · exact .none
  · split
    · exact .ite (.mxStartCmd h) .none
    · exact .none

/-! ### Tiles (11 R211) -/

theorem MemOk.ringPost {g kind status count low} (h : MemOk s) : MemOk (s.ringPost g kind status count low) := .post h

theorem MemOk.ringDone {r} (h : MemOk s) : MemOk (s.ringDone r) := by
  unfold State.ringDone
  split
  · exact h
  · exact .ite h (.ringPost (.setRing h))

/-! ### A beat (11 R212-R216, R219, R221) -/

theorem MemOk.ringEntry {r core ka kb i trail} (h : MemOk s) : MemOk (s.ringEntry r core ka kb i trail) := by
  unfold State.ringEntry
  split
  · exact h
  · split
    · exact .ite h (.setRing (.setCore h))
    · exact h

theorem MemOk.ringCheck {r p trail} (h : MemOk s) : MemOk (s.ringCheck r p trail) := by
  unfold State.ringCheck
  split
  · exact h
  · dsimp only
    split
    · exact h
    · exact .foldl (fun _ _ h1 => .ringEntry h1) h

theorem MemOk.ringOrder {len} (h : MemOk s) : MemOk (s.ringOrder len).2 := h

theorem MemOk.ringChecks {r} (h : MemOk s) : MemOk (s.ringChecks r) := by
  unfold State.ringChecks
  split
  · exact h
  · exact .foldl (fun _ _ h1 => .foldl (fun _ _ h2 => .ringCheck h2) h1) h

theorem MemOk.ringReturn {g core p ccw t} (h : MemOk s) : MemOk (s.ringReturn g core p ccw t) := by
  unfold State.ringReturn
  split
  · exact h
  · split
    · next e => exact MemOk.of_fst e (MemOk.engWrite h)
    · next e =>
      have h2 := MemOk.of_fst e (MemOk.engWrite h)
      exact .ringPost h2

theorem MemOk.ringHome {r p ccw} (h : MemOk s) : MemOk (s.ringHome r p ccw) := by
  unfold State.ringHome
  split
  · exact h
  · dsimp only
    split
    · exact h
    · exact .ite h (.ite (.ringReturn (.setRing h)) (.ite (.setRing h) (.ringPost (.setRing h))))

theorem MemOk.ringBoundary {r} (h : MemOk s) : MemOk (s.ringBoundary r) := by
  unfold State.ringBoundary
  split
  · exact h
  · dsimp only
    split
    · exact .ringApply (.foldl (fun _ _ h1 => .ringHome (.ringHome h1)) (.ringOrder (.setRing h)))
    · exact .ite (.ringApply (.foldl (fun _ _ h1 => .ringHome (.ringHome h1)) (.ringOrder (.setRing h)))) (.ringChecks
        (.ringApply (.foldl (fun _ _ h1 => .ringHome (.ringHome h1)) (.ringOrder (.setRing h)))))

/-! ### Tasks in the matrix engine (11 R217, R218) -/

theorem MemOk.setCw {ring core bytes} (h : MemOk s) : MemOk (s.setCw ring core bytes) := by
  unfold State.setCw
  split
  · exact h
  · split
    · exact h
    · dsimp only
      split
      · exact h
      · exact .setRing h

theorem MemOk.ringStart {core q ring w trail sc ta tb} (h : MemOk s) : MemOk (s.ringStart core q ring w trail sc ta tb) := by
  unfold State.ringStart
  dsimp only
  split
  · exact .mxHead (.mxMma (.setCore h))
  · exact .ite (.mxHead (.setCore h)) (.ite (.mxHead (.setCore h)) (.ite (.mxHead (.setCore h)) (.mxHead (.setCw (.setCore h)))))

theorem MemOk.ringEnd {core q ring w i} (h : MemOk s) : MemOk (s.ringEnd core q ring w i) := by
  unfold State.ringEnd
  dsimp only
  split
  · exact .joinFlags (.mxPop h)
  · split
    · exact .joinFlags (.mxPop h)
    · refine .ringDone ?_
      split
      · exact .ringPost (.setRing (.joinFlags (.mxPop h)))
      · exact .setRing (.joinFlags (.mxPop h))

theorem OptionOk.mxStart {core} (h : MemOk s) : OptionOk MemOk (s.mxStart core) := by
  unfold State.mxStart
  split
  · exact .none
  · split
    · exact .none
    · split
      · exact .some (.ringStart h)
      · exact .mxStartCmd h
      · exact .mxStartCmd h

theorem OptionOk.mxEnd {core} (h : MemOk s) : OptionOk MemOk (s.mxEnd core) := by
  unfold State.mxEnd
  split
  · exact .none
  · split
    · exact .none
    · exact .mxEndCmd h
    · exact .mxEndCmd h

theorem OptionOk.ringTaskEnd {core} (h : MemOk s) : OptionOk MemOk (s.ringTaskEnd core) := by
  unfold State.ringTaskEnd
  split
  · exact .none
  · split
    · exact .ite (.some (.ringEnd h)) .none
    · exact .none
    · exact .none

theorem OptionOk.ringBeat {r} (h : MemOk s) : OptionOk MemOk (s.ringBeat r) := by
  unfold State.ringBeat
  split
  · exact .none
  · exact .ite (.some (.ringBoundary h)) .none

theorem OptionOk.ringRest {r} (h : MemOk s) : OptionOk MemOk (s.ringRest r) := by
  unfold State.ringRest
  split
  · exact .none
  · exact .ite (.some (.ringDone (.setRing h))) .none

/-! ### Meanings -/

theorem Keeps.familyTag {n side} : Keeps (familyTag n side) :=
  .bind .getCx fun _ => .ite .format (.ite .format (.ite .format .pure))

theorem Keeps.matchWrite {e items r} : Keeps (matchWrite e items r) := by
  unfold Machine.matchWrite
  intro s h
  dsimp only
  split
  · exact .ok (.setMatch h)
  · exact .ite (.ok (.setMatch h)) (.ok (.setRing h))

theorem Keeps.matchHeld {e} : Keeps (matchHeld e) := by
  unfold Machine.matchHeld
  refine .bind .takeRes fun _ => ?_
  split
  · exact .pure
  · exact .waitM

theorem Keeps.ownRange {va n} : Keeps (ownRange va n) := .bind .ownOffset fun _ => .ite .trapPre .pure

theorem Keeps.matchArray {e unit n} : Keeps (matchArray e unit n) := .bind .who fun _ => .bind .accessM fun _ => .loadAt

theorem Keeps.ringOwner : Keeps ringOwner := by
  unfold Machine.ringOwner
  refine .get_bind fun _ _ => ?_
  split
  · exact .trapPre
  · split
    · exact .trapPost
    · exact .ite .trapPost .pure

theorem Keeps.finRgcfg {e} : Keeps (finRgcfg e) := by
  unfold Machine.finRgcfg
  refine .plain fun _ => .get_bind fun _ h => ?_
  dsimp only
  split
  · exact .trapPre
  · split
    · exact .trapPre
    · split
      · exact .trapPre
      · split
        · exact .trapPost
        · split
          · exact .ite .trapPost (.bind .familyTag fun _ => .bind .familyTag fun _ => .ite .format
              (.set (.foldl (fun _ _ h5 => .setCore h5) (.setRing h))))
          · exact .ite .trapPost (.bind .familyTag fun _ => .bind .familyTag fun _ => .ite .format
              (.set (.foldl (fun _ _ h5 => .setCore h5) (.setRing (.ringRelease h)))))

theorem Keeps.finRgmt {e} : Keeps (finRgmt e) :=
  .ite .matchHeld (.bind .ownOffset fun _ => .bind .alignTo fun _ => .ite .trapPre (.bind .ownRange fun _ => .bind (.heldRecord
    .matchArray) fun _ => .ite .pure (.bind .getCur fun _ => .ite .trapPost .matchWrite)))

theorem Keeps.finRgmtu {e} : Keeps (finRgmtu e) := by
  unfold Machine.finRgmtu
  split
  · exact .matchHeld
  · refine .get_bind fun _ _ => ?_
    split
    · exact .trapPost
    · exact .bind .ownRange fun _ => .bind .alignTo fun _ => .ite .trapPre (.bind .copyRelease fun _ => .bind .matchArray
        fun _ => .ite .trapPost .matchWrite)

theorem Keeps.finRginj {e} : Keeps (finRginj e) := by
  unfold Machine.finRginj
  refine .plain fun _ => .get_bind fun _ _ => ?_
  dsimp only
  split
  · exact .trapPost
  · exact .ite .trapPre (.bind (.ite .pure .trapPre) fun _ => .ite (.bind (.ite .pure .trapPre) fun _ => .bind .alignTo fun _ =>
      .bind .alignTo fun _ => .ite .trapPost (.ite .trapPost (.ite .trapPost (.bind .copyRelease fun _ => .bind .who fun _ =>
      .bind .accessM fun _ => .bind .loadAt fun _ => .modify fun _ h1 => .setRing h1)))) (.bind .alignTo fun _ => .bind .alignTo
      fun _ => .ite .trapPost (.ite .trapPost (.ite .trapPost (.bind .copyRelease fun _ => .bind .who fun _ => .bind .accessM
      fun _ => .bind .loadAt fun _ => .modify fun _ h1 => .setRing h1)))))

theorem Keeps.finRgstart {e} : Keeps (finRgstart e) :=
  .plain fun _ => .bind .ringOwner fun _ => .ite .trapPre (.ite .trapPost (.bind .copyRelease fun _ => .modify fun _ h => .ite
    (.ite (.ringPost (.setRing (.setRing (.ite h (.foldl (fun _ _ h1 => .setCore h1) h)))))
    (.setRing (.ite h (.foldl (fun _ _ h1 => .setCore h1) h)))) (.ringChecks (.setRing (.ite h (.foldl (fun _ _ h1 => .setCore
    h1) h))))))

theorem Keeps.finRgwait {d e} : Keeps (finRgwait d e) := by
  unfold Machine.finRgwait
  refine .plain fun _ => .bind .promiseLimit fun _ => .get_bind fun _ _ => ?_
  split
  · exact .wFin
  · refine .bind .takeRes fun _ => ?_
    split
    · exact .wFin
    · exact .ite .waitM .wFin

theorem Keeps.finRgstat {d e} : Keeps (finRgstat d e) := .plain fun _ => .get_bind fun _ _ => .wFin

theorem Keeps.finRgreinj {e} : Keeps (finRgreinj e) := by
  unfold Machine.finRgreinj
  refine .plain fun _ => .get_bind fun _ h => ?_
  dsimp only
  split
  · exact .trapPre
  · split
    · exact .trapPost
    · split
      · exact .trapPost
      · exact .ite .trapPost (.set (.setRing h))

theorem Keeps.finRgret {e} : Keeps (finRgret e) := .plain fun _ => .bind .ringOwner fun _ => .modify fun _ h => .ringRelease h

/-! ### Events -/

theorem OutcomeOk.execMatrixCommandStart {core} (h : MemOk s) : OutcomeOk (execMatrixCommandStart core s) :=
  .eventIf h (.mxStart h)

theorem OutcomeOk.execMatrixCommandComplete {core} (h : MemOk s) : OutcomeOk (execMatrixCommandComplete core s) :=
  .eventIf h (.mxEnd h)

theorem OutcomeOk.execRingBeatEnd {ring} (h : MemOk s) : OutcomeOk (execRingBeatEnd ring s) := .eventIf h (.ringBeat h)

theorem OutcomeOk.execRingTaskComplete {core} (h : MemOk s) : OutcomeOk (execRingTaskComplete core s) :=
  .eventIf h (.ringTaskEnd h)

theorem OutcomeOk.execRingIdle {ring} (h : MemOk s) : OutcomeOk (execRingIdle ring s) := .eventIf h (.ringRest h)

theorem OutcomeOk.execRgwaitTimeout {core ctx} (h : MemOk s) : OutcomeOk (execRgwaitTimeout core ctx s) := .eventOn (.setCtx h)

/-! ### Engines, prices and package mode (12 R233-R235, R242) -/

theorem MemOk.setAu {die x} (h : MemOk s) : MemOk (s.setAu die x) := h

theorem MemOk.setPrice {eng n v} (h : MemOk s) : MemOk (s.setPrice eng n v) := .setAu h

/-! ### Configuration (12 R236-R238, R244) -/

theorem ExceptOk.auRead {c va n} (h : MemOk s) : ExceptOk (fun x => MemOk x.2) (s.auRead c va n) := by
  unfold State.auRead
  split
  · next e =>
    have h1 := ExceptOk.of_ok e (ExceptOk.engRead h)
    exact .ok h1
  · exact .error

theorem ExceptOk.auCaps {c l} (h : MemOk s) : ExceptOk (fun x => MemOk x.2) (s.auCaps c l) := by
  induction l generalizing s with
  | nil => exact .ok h
  | cons x l ih =>
    unfold State.auCaps
    split
    · exact .error
    · next e =>
      have h1 := ExceptOk.of_ok e (.auRead h)
      split
      · exact .error
      · next e1 =>
        have h2 := ExceptOk.of_ok e1 (ih h1)
        exact .ok h2

theorem ExceptOk.auBlock {c} (h : MemOk s) : ExceptOk (fun x => MemOk x.2) (s.auBlock c) := by
  unfold State.auBlock
  split
  · exact .error
  · next e =>
    have h1 := ExceptOk.of_ok e (ExceptOk.auRead h)
    dsimp only
    split
    · exact .error
    · next e1 =>
      have h2 := ExceptOk.of_ok e1 (ExceptOk.auRead h1)
      split
      · exact .error
      · split
        · exact .error
        · split
          · exact .error
          · split
            · exact .error
            · next e4 =>
              have h4 := ExceptOk.of_ok e4 (ExceptOk.auCaps h2)
              exact .ok h4

theorem MemOk.auConfigure {eng c} (h : MemOk s) : MemOk (s.auConfigure eng c).1 := by
  unfold State.auConfigure
  split
  · exact h
  · next e =>
    have h1 := ExceptOk.of_ok e (ExceptOk.auBlock h)
    dsimp only
    split
    · exact h1
    · split
      · exact h1
      · exact .ite (.setAu (.foldl (fun _ _ h3 => .setAu h3) h1)) (.foldl (fun _ _ h3 => .foldl (fun _ _ h4 => .setPrice h4) h3)
          (.setAu (.foldl (fun _ _ h3 => .setAu h3) h1)))

/-! ### Auctions (12 R237, R239-R241, R243) -/

theorem ExceptOk.auRows {c p} (h : MemOk s) : ExceptOk (fun x => MemOk x.2) (s.auRows c p) := by
  unfold State.auRows
  refine .foldl (fun _ _ h1 => ?_) (.ok h)
  split
  · exact h1
  · split
    · exact .error
    · next e =>
      have h3 := ExceptOk.of_ok rfl h1
      have h4 := ExceptOk.of_ok e (ExceptOk.auRead h3)
      exact .ok h4

theorem ExceptOk.auAllRows {c l} (h : MemOk s) : ExceptOk (fun x => MemOk x.2) (s.auAllRows c l) := by
  induction l generalizing s with
  | nil => exact .ok h
  | cons x l ih =>
    unfold State.auAllRows
    split
    · exact .error
    · next e =>
      have h1 := ExceptOk.of_ok e (.auRows h)
      split
      · exact .error
      · next e1 =>
        have h2 := ExceptOk.of_ok e1 (ih h1)
        exact .ok h2

theorem ExceptOk.auBegin {eng c} (h : MemOk s) : ExceptOk MemOk (s.auBegin eng c) := by
  unfold State.auBegin
  split
  · exact .error
  · next e =>
    have h1 := ExceptOk.of_ok e (ExceptOk.auAllRows h)
    split
    · exact .error
    · exact .ok (.setAu h1)

theorem MemOk.auRoundOf {eng} (h : MemOk s) : MemOk (s.auRoundOf eng) :=
  .setAu (.foldl_fst (fun _ _ h1 => .ite_fst h1 (.ite (.setAu (.foldl (fun _ _ h2 => .setPrice h2) h1))
    (.foldl (fun _ _ h2 => .setPrice h2) h1))) h)

/-! ### Commands (12 R234, R243-R247, R249) -/

theorem MemOk.auLoad {eng c} (h : MemOk s) : MemOk (s.auLoad eng c).1 := by
  unfold State.auLoad
  split
  · exact h
  · split
    · exact h
    · next e =>
      have h2 := ExceptOk.of_ok e (ExceptOk.auRead h)
      exact .foldl (fun _ _ h3 => .setPrice h3) h2

theorem MemOk.auStore {c n v} (h : MemOk s) : MemOk (s.auStore c n v).1 := by
  unfold State.auStore
  split
  · next e => exact MemOk.of_fst e (MemOk.engWrite h)
  · next e => exact MemOk.of_fst e (MemOk.engWrite h)

theorem MemOk.auPrst {eng c} (h : MemOk s) : MemOk (s.auPrst eng c).1 := .ite_fst h (.auStore h)

theorem MemOk.auResult {eng c} (h : MemOk s) : MemOk (s.auResult eng c).1 := by
  unfold State.auResult
  dsimp only
  split
  · exact h
  · split
    · exact h
    · exact .auStore h

theorem MemOk.auStep {eng c} (h : MemOk s) : MemOk (s.auStep eng c).1 := by
  unfold State.auStep
  dsimp only
  split
  · exact h
  · split
    · exact h
    · next e =>
      have h2 := ExceptOk.of_ok e (ExceptOk.ite (.ok h) (.auBegin h))
      exact .auRoundOf h2

theorem MemOk.auRun {eng c} (h : MemOk s) : MemOk (s.auRun eng c).1 := by
  unfold State.auRun
  dsimp only
  split
  · exact h
  · split
    · exact .auConfigure h
    · exact .auLoad h
    · exact .auPrst h
    · exact .auResult h
    · exact .auStep h

theorem MemOk.auEnd {die c r} (h : MemOk s) : MemOk (s.auEnd die c r) := .ite (.setAu h) (.deliver (.setAu h))

theorem MemOk.auStart {die c} (h : MemOk s) : MemOk (s.auStart die c) := by
  unfold State.auStart
  split
  · next e =>
    have h1 := MemOk.of_fst e (MemOk.auRun h)
    exact .auEnd h1
  · next e =>
    have h1 := MemOk.of_fst e (MemOk.auRun h)
    exact .setAu h1

theorem MemOk.setAwait {core k seq} (h : MemOk s) : MemOk (s.setAwait core k seq) := .setCtx h

theorem OptionOk.auAdmit {die} (h : MemOk s) : OptionOk MemOk (s.auAdmit die) := by
  unfold State.auAdmit
  split
  · exact .none
  · dsimp only
    split
    · exact .none
    · exact .some (.auStart (.setAwait (.setAu h)))

theorem OptionOk.auRound {die} (h : MemOk s) : OptionOk MemOk (s.auRound die) := by
  unfold State.auRound
  split
  · exact .none
  · exact .some (.ite (.auEnd (.auRoundOf h)) (.auRoundOf h))

/-! ### Meanings -/

theorem Keeps.auDone {e d a} : Keeps (auDone e d a) := by
  unfold Machine.auDone
  split
  · exact .bind .wFin fun _ => .pure
  · exact .trapPost
  · exact .pure

theorem Keeps.auFin {op d} {pre : Entry → M Unit} {a} (hpre : ∀ e, Keeps (pre e)) : Keeps (auFin op d pre a) := by
  unfold Machine.auFin
  refine .bind (hpre _) fun _ => .bind .takeRes fun _ => ?_
  split
  · exact .auDone
  · refine .get_bind fun _ h => ?_
    dsimp only
    split
    · exact .ite .pure .waitM
    · refine .bind (.ite .pure .copyRelease) fun _ => ?_
      split
      · exact .bind (.set (.setAu h)) fun _ => .pure
      · split
        · exact .bind (.set (.setAu (.auRun h))) fun _ => .pure
        · exact .bind (.set (.auRun h)) fun _ => .pure
        · exact .bind (.set (.auRun h)) fun _ => .auDone

theorem Keeps.finAucfg {e} : Keeps (finAucfg e) := .auFin fun _ => .bind .alignTo fun _ => .ite .trapPre .pure

theorem Keeps.finPrld {e} : Keeps (finPrld e) := .auFin fun _ => .bind .alignTo fun _ => .ite .trapPre .pure

theorem Keeps.finPrst {e} : Keeps (finPrst e) := .auFin fun _ => .bind .alignTo fun _ => .ite .trapPre .pure

theorem Keeps.finAubid {d e} : Keeps (finAubid d e) := .auFin fun _ => .pure

theorem Keeps.finAustep {d e} : Keeps (finAustep d e) := .auFin fun _ => .pure

theorem Keeps.finAures {e} : Keeps (finAures e) := .auFin fun _ => .bind .alignTo fun _ => .ite .trapPre .pure

theorem Keeps.finAustat {d e} : Keeps (finAustat d e) :=
  .plain fun _ => .ite .trapPre (.get_bind fun _ _ => .ite .trapPost .wFin)

/-! ### Events -/

theorem OutcomeOk.execAuctionCommandAdmit {die} (h : MemOk s) : OutcomeOk (execAuctionCommandAdmit die s) :=
  .eventIf h (.auAdmit h)

theorem OutcomeOk.execAuctionRound {die} (h : MemOk s) : OutcomeOk (execAuctionRound die s) := .eventIf h (.auRound h)

/-! ### Receive ring enables (04 R70) -/

theorem MemOk.rbenSet {core dom v} (h : MemOk s) : MemOk (s.rbenSet core dom v) := by
  unfold State.rbenSet
  refine .foldl (fun _ _ h1 => ?_) h
  dsimp only
  split
  · exact .setCore h1
  · split
    · exact h1
    · split
      · exact h1
      · exact .setCore h1
  · exact h1

/-! ### Control registers (07 R133, R134) -/

theorem MemOk.ctlPut {core k n v} (h : MemOk s) : MemOk (s.ctlPut core k n v) :=
  .ite (.setCtx h) (.ite (.setCore h) (.ite (.rbenSet h) (.ite (.setCore h) (.ite (.setCore h) (.ite (.setCtx h)
    (.ite (.setCtx h) (.ite (.setCtx h) (.ite (.setCtx h) (.ite (.setCtx h) h)))))))))

theorem MemOk.ctlClear {core n v} (h : MemOk s) : MemOk (s.ctlClear core n v) := .setCore h

theorem Keeps.ctlM {word n} : Keeps (ctlM word n) := by
  unfold Machine.ctlM
  intro s h
  dsimp only
  split
  · exact .error
  · exact .ite .error (.ok h)

/-! ### Issue of SYS words -/

theorem OutcomeOk.sysIssue {word hd} {eff : Entry → M Unit} (heff : ∀ (a : Entry), Keeps (eff a)) (h : MemOk s) :
    OutcomeOk (sysIssue word hd eff s) :=
  .outcome h (.issueWord h fun _ h1 => .runEff h1 fun _ => .plain fun _ => heff _)

theorem MemOk.sysNext {hd} (h : MemOk s) : MemOk (s.sysNext hd) := .setCx (.setCx h)

theorem OutcomeOk.sysLeave {word hd} {f : W64 → W64 → State → State} (hf : ∀ v w t, MemOk t → MemOk (f v w t)) (h : MemOk s) :
    OutcomeOk (sysLeave word hd f s) := by
  unfold Machine.sysLeave
  refine .outcome h (.issueWord h fun _ h1 => ?_)
  split
  · exact .wait
  · exact .next (.trapHere h1)
  · next e =>
    have h2 := ExceptOk.of_ok e (Keeps.rWo _ h1)
    exact .next (hf _ _ _ (.sysNext h2))

theorem OutcomeOk.assigned {word n} {run : State → Host.Outcome State Fault Refusal} (h : MemOk s)
    (hrun : ∀ (a : State), MemOk a → OutcomeOk (run a)) : OutcomeOk (assigned word n s run) :=
  .ite (.outcome h (.illegal h)) (hrun _ h)

theorem OutcomeOk.execMfc {d n} (h : MemOk s) : OutcomeOk (execMfc d n s) :=
  .assigned h fun _ h1 => .sysIssue (fun _ => .bind .ctlM fun _ => .wW) h1

theorem OutcomeOk.execMtc {d n} (h : MemOk s) : OutcomeOk (execMtc d n s) :=
  .assigned h fun _ h1 => .sysIssue (fun _ => .bind .ctlM fun _ => .modify fun _ h2 => .ite (.ctlClear h2) (.ctlPut h2)) h1

theorem OutcomeOk.execMsc {d n} (h : MemOk s) : OutcomeOk (execMsc d n s) :=
  .assigned h fun _ h1 => .sysIssue (fun _ => .bind .ctlM fun _ => .modify fun _ h2 => .ite h2 (.ctlPut h2)) h1

theorem OutcomeOk.execMcc {d n} (h : MemOk s) : OutcomeOk (execMcc d n s) :=
  .assigned h fun _ h1 => .sysIssue (fun _ => .bind .ctlM fun _ => .modify fun _ h2 => .ite (.ctlClear h2) (.ctlPut h2)) h1

/-! ### Traps made by instructions (18 R349) -/

theorem MemOk.trapNext {c pc aux n sysv} (h : MemOk s) : MemOk (s.trapNext c pc aux n sysv) := .takeTrap h

theorem OutcomeOk.execTrap {d n} (h : MemOk s) : OutcomeOk (execTrap d n s) := .sysLeave (fun _ _ _ h1 => .trapNext h1) h

theorem OutcomeOk.execSysc {d n} (h : MemOk s) : OutcomeOk (execSysc d n s) := .sysLeave (fun _ _ _ h1 => .trapNext h1) h

theorem MemOk.stopHere {code aux} (h : MemOk s) : MemOk (s.stopHere code aux) := .haltDomain (.stopCtx h)

theorem OutcomeOk.execBrk {n} (h : MemOk s) : OutcomeOk (execBrk n s) :=
  .ite (.next h) (.sysLeave (fun _ _ _ h1 => .ite (.stopHere h1) (.trapNext h1)) h)

theorem OutcomeOk.execHalt {d} (h : MemOk s) : OutcomeOk (execHalt d s) :=
  .ite (.next h) (.sysLeave (fun _ _ _ h1 => .ite (.stopHere h1) (.kill h1)) h)

/-! ### Returning (18 R348) -/

theorem MemOk.tret (h : MemOk s) : MemOk s.tret := by
  unfold State.tret
  dsimp only
  split
  · exact .trapHere h
  · split
    · next e1 =>
      have h1 := ExceptOk.of_ok e1 (ExceptOk.restoreLevel (.landStores h))
      exact .recapture h1
    · exact .trapHere h
    · exact .kill h

theorem OutcomeOk.execTret (h : MemOk s) : OutcomeOk (execTret s) := .outcome h (.issueWord h fun _ h1 => .next (.tret h1))

/-! ### Window spills (07 R124, R125) -/

theorem Keeps.imageM {α : Type} {r : Except (Flt × W64) α} : Keeps (imageM r) := by
  unfold Machine.imageM
  split
  · exact .pure
  · exact .trapPre

theorem Keeps.trappedWin : Keeps trappedWin := .get_bind fun _ _ => .bind .imageM fun _ => .pure

theorem Keeps.imageM_bind {α : Type} {r : Except (Flt × W64) State} {f : State → M α} (hr : ExceptOk MemOk r)
    (hf : ∀ s, MemOk s → Keeps (f s)) : Keeps (Machine.imageM r >>= f) := by
  cases hr with
  | error => exact fun _ _ => .error
  | ok h => exact hf _ h

theorem Keeps.setLow {a cwp low} : Keeps (setLow a cwp low) :=
  .get_bind fun _ h => .imageM_bind (.vwrite h) fun _ h => .bind (.set h) fun _ => .modCx

theorem Keeps.slotM {d} : Keeps (slotM d) := .get_bind fun _ _ => .imageM

theorem OutcomeOk.execSpillw {d} (h : MemOk s) : OutcomeOk (execSpillw d s) :=
  .sysIssue (fun _ => .bind .getCx fun _ => .ite .trapPre (.bind .trappedWin fun _ => .ite .trapPre (.ite .trapPre (.bind .getCc
    fun _ => .ite .trapPre (.bind .slotM fun _ => .get_bind fun _ _ => .bind .imageM fun _ => .bind .setLow fun _ => .bind .modCx
    fun _ => .ite (.bind .modCc fun _ => .wW) .wW))))) h

theorem OutcomeOk.execFillw (h : MemOk s) : OutcomeOk (execFillw s) := by
  refine .sysIssue (fun _ => .bind .getCx fun _ => .ite .trapPre (.bind .trappedWin fun _ => .ite .trapPre
    (.get_bind fun _ h => .bind .getCc fun _ => ?_))) h
  split
  · exact .bind .slotM fun _ => .bind .imageM fun _ => .setLow
  · exact .bind .slotM fun _ => .imageM_bind (.vwrite h) fun _ h => .bind (.set h) fun _ => .bind .modCc fun _ => .setLow

/-! ### HINTs (02 R23, R25) -/

theorem IssuedOk.hintIllegal {word} (h : MemOk s) : IssuedOk (s.hintIllegal word) := .ite .wait (.next (.stamp (.takeTrap h)))

theorem OutcomeOk.hintIssue {hd word} (h : MemOk s) : OutcomeOk (hintIssue hd word s) := by
  unfold Machine.hintIssue
  split
  · exact .next h
  · next e =>
    have h1 := OptionOk.of_some e (OptionOk.following h)
    exact .ite (.next h) (.ite (.outcome h (.hintIllegal h1)) (.next (.ite (.stream (.setCx h1)) (.setCx h1))))

theorem OutcomeOk.execHintImm {payload} (h : MemOk s) : OutcomeOk (execHintImm payload s) := .hintIssue h

theorem OutcomeOk.execHintHome {payload} (h : MemOk s) : OutcomeOk (execHintHome payload s) := .hintIssue h

theorem OutcomeOk.execHintMod {payload} (h : MemOk s) : OutcomeOk (execHintMod payload s) := .hintIssue h

theorem OutcomeOk.execIllegalWord {w} (h : MemOk s) : OutcomeOk (execIllegalWord w s) :=
  .outcome h (.ite (.hintIllegal h) (.illegal h))

theorem OutcomeOk.execSysWord {w} (h : MemOk s) : OutcomeOk (SysWord.exec w s) := by
  unfold SysWord.exec
  split
  · exact .execMfc h
  · exact .execMtc h
  · exact .execMsc h
  · exact .execMcc h
  · exact .execTrap h
  · exact .execTret h
  · exact .execSysc h
  · exact .execBrk h
  · exact .execHalt h
  · exact .execSpillw h
  · exact .execFillw h
  · exact .execHintImm h
  · exact .execHintHome h
  · exact .execHintMod h

/-! ### The effect that an issued instruction makes when it completes (07 R129) -/

/-- What an issued word does when it completes, a case for each row of the table of operations. -/
theorem Keeps.fin {i e} : Keeps (Instr.fin i e) := by
  cases i
  case add => exact .finAdd
  case sub => exact .finSub
  case and => exact .finAnd
  case or => exact .finOr
  case xor => exact .finXor
  case andn => exact .finAndn
  case sll => exact .finSll
  case srl => exact .finSrl
  case sra => exact .finSra
  case ror => exact .finRor
  case slt => exact .finSlt
  case sltu => exact .finSltu
  case min => exact .finMin
  case max => exact .finMax
  case minu => exact .finMinu
  case maxu => exact .finMaxu
  case mul => exact .finMul
  case mulh => exact .finMulh
  case mulhu => exact .finMulhu
  case clz => exact .finClz
  case ctz => exact .finCtz
  case popc => exact .finPopc
  case sextb => exact .finSextb
  case sexth => exact .finSexth
  case sextw => exact .finSextw
  case zextw => exact .finZextw
  case shadd1 => exact .finShadd1
  case shadd2 => exact .finShadd2
  case shadd3 => exact .finShadd3
  case div => exact .finDiv
  case divu => exact .finDivu
  case rem => exact .finRem
  case remu => exact .finRemu
  case addi => exact .finAddi
  case andi => exact .finAndi
  case ori => exact .finOri
  case xori => exact .finXori
  case slti => exact .finSlti
  case sltiu => exact .finSltiu
  case slli => exact .finSlli
  case srli => exact .finSrli
  case srai => exact .finSrai
  case rori => exact .finRori
  case movi => exact .finMovi
  case qsetEq => exact .finQsetEq
  case qsetNe => exact .finQsetNe
  case qsetLt => exact .finQsetLt
  case qsetGe => exact .finQsetGe
  case qsetLtu => exact .finQsetLtu
  case qsetGeu => exact .finQsetGeu
  case qand => exact .finQand
  case qor => exact .finQor
  case qxor => exact .finQxor
  case qandn => exact .finQandn
  case qnot => exact .finQnot
  case qtrue => exact .finQtrue
  case qfalse => exact .finQfalse
  case qunres => exact .finQunres
  case ld => exact .finLd
  case ldn => exact .finLdn
  case st => exact .finSt
  case ldv => exact .finLdv
  case stv => exact .finStv
  case ldx => exact .finLdx
  case ldxSc => exact .finLdxSc
  case stx => exact .finStx
  case stxSc => exact .finStxSc
  case gather => exact .finGather
  case scatter => exact .finScatter
  case lds => exact .finLds
  case ldsE => exact .finLdsE
  case stf => exact .finStf
  case sete => exact .finSete
  case amoSwap => exact .finAmoSwap
  case amoAdd => exact .finAmoAdd
  case amoAnd => exact .finAmoAnd
  case amoOr => exact .finAmoOr
  case amoXor => exact .finAmoXor
  case amoMin => exact .finAmoMin
  case amoMax => exact .finAmoMax
  case amoMinu => exact .finAmoMinu
  case amoMaxu => exact .finAmoMaxu
  case amoFadd => exact .finAmoFadd
  case amoFaddX => exact .finAmoFaddX
  case amoFmin => exact .finAmoFmin
  case amoFmax => exact .finAmoFmax
  case ldo => exact .finLdo
  case sto => exact .finSto
  case cas => exact .finCas
  case fence => exact .finFence
  case prefTlb => exact .finPrefTlb
  case prefMsc => exact .finPrefMsc
  case send => exact .finSend
  case sends => exact .finSends
  case hoist => exact .finHoist
  case strike => exact .finStrike
  case mcmd => exact .finMcmd
  case rbwait => exact .finRbwait
  case rbadv => exact .finRbadv
  case stbind => exact .finStbind
  case stunbind => exact .finStunbind
  case cp => exact .finCp
  case cp2d => exact .finCp2d
  case cpidx => exact .finCpidx
  case cpwait => exact .finCpwait
  case cpredO => exact .finCpredO
  case cpredU => exact .finCpredU
  case evpop => exact .finEvpop
  case evwait => exact .finEvwait
  case evpost => exact .finEvpost
  case qpost => exact .finQpost
  case qarm => exact .finQarm
  case ctradd => exact .finCtradd
  case ctrwait => exact .finCtrwait
  case ctrset => exact .finCtrset
  case vadd => exact .finVadd
  case vsub => exact .finVsub
  case vmul => exact .finVmul
  case vmin => exact .finVmin
  case vmax => exact .finVmax
  case vabs => exact .finVabs
  case vneg => exact .finVneg
  case viadd => exact .finViadd
  case visub => exact .finVisub
  case vimul => exact .finVimul
  case vimin => exact .finVimin
  case vimax => exact .finVimax
  case viminu => exact .finViminu
  case vimaxu => exact .finVimaxu
  case viadds => exact .finViadds
  case visubs => exact .finVisubs
  case vand => exact .finVand
  case vor => exact .finVor
  case vxor => exact .finVxor
  case vsll => exact .finVsll
  case vsrl => exact .finVsrl
  case vsra => exact .finVsra
  case vfcmpEq => exact .finVfcmpEq
  case vfcmpLt => exact .finVfcmpLt
  case vfcmpLe => exact .finVfcmpLe
  case vfcmpUn => exact .finVfcmpUn
  case vicmpEq => exact .finVicmpEq
  case vicmpLt => exact .finVicmpLt
  case vicmpLtu => exact .finVicmpLtu
  case vmov => exact .finVmov
  case vsplat => exact .finVsplat
  case vext => exact .finVext
  case vins => exact .finVins
  case vsel => exact .finVsel
  case vperm => exact .finVperm
  case vdiv => exact .finVdiv
  case vsqrt => exact .finVsqrt
  case vrcp => exact .finVrcp
  case vexp2 => exact .finVexp2
  case vlog2 => exact .finVlog2
  case vraddO => exact .finVraddO
  case vraddU => exact .finVraddU
  case vrmin => exact .finVrmin
  case vrmax => exact .finVrmax
  case vscanO => exact .finVscanO
  case vscanU => exact .finVscanU
  case viradd => exact .finViradd
  case vcvtRne => exact .finVcvtRne
  case vcvtRtz => exact .finVcvtRtz
  case vcvtRdn => exact .finVcvtRdn
  case vcvtRup => exact .finVcvtRup
  case vcvtSr => exact .finVcvtSr
  case vpackb => exact .finVpackb
  case vunpackb => exact .finVunpackb
  case vftoi => exact .finVftoi
  case vitof => exact .finVitof
  case vfma => exact .finVfma
  case vfms => exact .finVfms
  case vfnma => exact .finVfnma
  case vfnms => exact .finVfnms
  case mand => exact .finMand
  case mor => exact .finMor
  case mxor => exact .finMxor
  case mandn => exact .finMandn
  case mnot => exact .finMnot
  case mpopc => exact .finMpopc
  case mma => exact .finMma
  case mmac => exact .finMmac
  case accz => exact .finAccz
  case accld => exact .finAccld
  case accst => exact .finAccst
  case acccvt => exact .finAcccvt
  case accmov => exact .finAccmov
  case xmov => exact .finXmov
  case xtr => exact .finXtr
  case xzero => exact .finXzero
  case xcvt => exact .finXcvt
  case tfact => exact .finTfact
  case tsolve => exact .finTsolve
  case burst => exact .finBurst
  case mwait => exact .finMwait
  case rgcfg => exact .finRgcfg
  case rgmt => exact .finRgmt
  case rgmtu => exact .finRgmtu
  case rginj => exact .finRginj
  case rgstart => exact .finRgstart
  case rgwait => exact .finRgwait
  case rgstat => exact .finRgstat
  case rgreinj => exact .finRgreinj
  case rgret => exact .finRgret
  case aucfg => exact .finAucfg
  case prld => exact .finPrld
  case prst => exact .finPrst
  case aubid => exact .finAubid
  case austep => exact .finAustep
  case aures => exact .finAures
  case austat => exact .finAustat
  case vpjCfg => exact .finVpjCfg
  case vpj => exact .finVpj
  case vpjMrg => exact .finVpjMrg
  case vpjRd => exact .finVpjRd
  case vpjRegen => exact .finVpjRegen
  case vpjInit => exact .finVpjInit
  case start => exact .finStart
  case exit => exact .finExit
  case yield => exact .finYield
  case follow => exact .finFollow
  case unfollow => exact .finUnfollow
  case wid => exact .finWid
  case pnpush => exact .finPnpush
  case join => exact .finJoin
  case vote => exact .finVote
  case haly => exact .finHaly
  case hsum => exact .finHsum
  case nop => exact .finNop
  all_goals exact .waitM

/-! ### Completions of instructions -/

theorem OptionOk.completeNth {core k idx} (h : MemOk s) : OptionOk MemOk (s.completeNth core k idx) := by
  unfold State.completeNth
  split
  · exact .none
  · split
    · exact .none
    · next e2 =>
      have h1 := IssuedOk.of_next e2 (IssuedOk.finish h fun _ _ => .fin)
      exact .some h1

theorem OutcomeOk.execInstructionComplete {core ctx idx} (h : MemOk s) : OutcomeOk (execInstructionComplete core ctx idx s) :=
  .eventIf h (.completeNth h)

theorem OutcomeOk.execPageWalkComplete {core domain va} (h : MemOk s) : OutcomeOk (execPageWalkComplete core domain va s) :=
  .eventOn (.tlbFill h)

theorem OptionOk.ackStore {core k} (h : MemOk s) : OptionOk MemOk (s.ackStore core k) := by
  unfold State.ackStore
  dsimp only
  split
  · exact .none
  · exact .ite .none (.some (.setCtx (.ite h (.land h))))

theorem OutcomeOk.execPostedStoreAck {core ctx} (h : MemOk s) : OutcomeOk (execPostedStoreAck core ctx s) :=
  .eventIf h (.ackStore h)

theorem OptionOk.landStore {core k idx} (h : MemOk s) : OptionOk MemOk (s.landStore core k idx) := by
  unfold State.landStore
  dsimp only
  split
  · exact .none
  · exact .ite .none (.some (.land h))

theorem OutcomeOk.execPostedStoreFail {core ctx pa} (h : MemOk s) : OutcomeOk (execPostedStoreFail core ctx pa s) := by
  unfold Machine.execPostedStoreFail
  refine .eventOn ?_
  split
  · exact h
  · exact .postFault (.setCtx h)

theorem OutcomeOk.execParkedRequestServe {addr} (h : MemOk s) : OutcomeOk (execParkedRequestServe addr s) :=
  .next (.serveWord h)

theorem OutcomeOk.execLdsParkRetry {core ctx} (h : MemOk s) : OutcomeOk (execLdsParkRetry core ctx s) :=
  .eventIf h (.finishIf h fun _ _ => .fin)

/-! ### Errors and retirement -/

theorem MemOk.dieOf {a} (h : MemOk s) : MemOk (s.dieOf a).2 := .ite_snd h (.ite_snd h (.choose (n := 4) h))

theorem MemOk.loseData {x} (h : MemOk s) : MemOk (s.loseData x) := by
  cases x with
  | line a =>
    have ht : MemOk (s.dieOf a).2 := .dieOf h
    exact .postFault (.update ht)
  | regFile core k => exact .ite h (.postFault (.killNow (.choose (n := 256) (.choose (n := 256) h))))
  | cxlPort p => exact .update h

theorem OutcomeOk.execUncorrectableError {site} (h : MemOk s) : OutcomeOk (execUncorrectableError site s) :=
  .eventOn (.loseData h)

theorem MemOk.unitDie {a} (h : MemOk s) : MemOk (s.unitDie a).2 := by
  unfold State.unitDie
  split
  · exact h
  · exact h
  · exact h
  · exact .choose h

theorem MemOk.unitRecord {kind u} (h : MemOk s) : MemOk (s.unitRecord kind u) := by
  unfold State.unitRecord
  refine .postFault ?_
  split
  · exact h
  · exact h
  · exact h
  · exact .choose h

theorem MemOk.countError {u} (h : MemOk s) : MemOk (s.countError u) := by
  unfold State.countError
  split
  · exact .ite (.unitRecord (.setCore h)) (.setCore h)
  · exact .ite (.unitRecord h) h

theorem OutcomeOk.execCorrectedError {unit} (h : MemOk s) : OutcomeOk (execCorrectedError unit s) := .eventOn (.countError h)

theorem MemOk.openRecord {u} (h : MemOk s) : MemOk (s.openRecord u) := .unitRecord h

theorem MemOk.retireUnit {u} (h : MemOk s) : MemOk (s.retireUnit u) := by
  unfold State.retireUnit
  split
  · exact h
  · split
    · exact .ite h (.unitRecord (.foldl (fun _ _ h2 => .remap h2) h))
    · split
      · exact h
      · dsimp only
        split
        · exact .ite (.openRecord (.unitRecord h)) (.unitRecord h)
        · exact .foldl (fun _ _ h4 => .remap h4) (.update (.unitRecord h))
        · exact .unitRecord h
        · exact .unitRecord h

theorem OutcomeOk.execUnitRetire {unit} (h : MemOk s) : OutcomeOk (execUnitRetire unit s) := .eventOn (.retireUnit h)

theorem OutcomeOk.execPartnerSwitch {core} (h : MemOk s) : OutcomeOk (execPartnerSwitch core s) := .eventOn (.switchTurn h)

theorem OutcomeOk.execFaultRecordAppend {die rec} (h : MemOk s) : OutcomeOk (execFaultRecordAppend die rec s) :=
  .eventOn (.fqAppend h)

/-! ### The launch unit -/

theorem OutcomeOk.execQuantumBoundary (h : MemOk s) : OutcomeOk (execQuantumBoundary s) := .next (.quantum h)

theorem OutcomeOk.execPreemptResume {core} (h : MemOk s) : OutcomeOk (execPreemptResume core s) := .eventOn (.preemptResume h)

theorem OutcomeOk.execQtailWrite {fn q v} (h : MemOk s) : OutcomeOk (execQtailWrite fn q v s) := .eventOn (.hostPut h)

theorem OutcomeOk.execQctlWrite {fn q v} (h : MemOk s) : OutcomeOk (execQctlWrite fn q v s) := .eventOn (.hostPut h)

theorem OutcomeOk.execLaunchPacketRead {q} (h : MemOk s) : OutcomeOk (execLaunchPacketRead q s) := .eventOn (.packetRead h)

theorem MemOk.dealCore {q core} (h : MemOk s) : MemOk (s.dealCore q core) := by
  unfold State.dealCore
  split
  · exact h
  · exact .ite (.endReplay h) (.ite (.startPart h) h)

theorem OutcomeOk.execDealIdentifier {q core} (h : MemOk s) : OutcomeOk (execDealIdentifier q core s) := .eventOn (.dealCore h)

theorem OutcomeOk.execLaunchComplete {q} (h : MemOk s) : OutcomeOk (execLaunchComplete q s) := .eventOn (.finishLaunch h)

/-! ### Register writes of the host -/

theorem OutcomeOk.execFqheadWrite {v} (h : MemOk s) : OutcomeOk (execFqheadWrite v s) := .next (.hostPut h)

theorem OutcomeOk.execFqctlWrite {v} (h : MemOk s) : OutcomeOk (execFqctlWrite v s) := .next (.hostPut h)

theorem MemOk.xlinvGo {kind dom} (h : MemOk s) : MemOk (s.xlinvGo kind dom) := .hostPut h

theorem OutcomeOk.execXlinvPage {domain} (h : MemOk s) : OutcomeOk (execXlinvPage domain s) := .eventOn (.xlinvGo h)

theorem OutcomeOk.execXlinvDomain {domain} (h : MemOk s) : OutcomeOk (execXlinvDomain domain s) := .eventOn (.xlinvGo h)

theorem OutcomeOk.execXlinvAllDomains (h : MemOk s) : OutcomeOk (execXlinvAllDomains s) := .next (.xlinvGo h)

theorem OutcomeOk.execXlinvReserved (h : MemOk s) : OutcomeOk (execXlinvReserved s) := .next (.xlinvGo h)

theorem OutcomeOk.execXlinvComplete (h : MemOk s) : OutcomeOk (execXlinvComplete s) := .next (.invEnd h)

theorem OutcomeOk.execKeyInstall (h : MemOk s) : OutcomeOk (execKeyInstall s) := .next (.hostPut h)

theorem OutcomeOk.execKeyErase (h : MemOk s) : OutcomeOk (execKeyErase s) := .next (.hostPut h)

theorem OutcomeOk.execKeyCommandComplete (h : MemOk s) : OutcomeOk (execKeyCommandComplete s) := .next (.keyEnd h)

theorem OutcomeOk.execRngFill {stream} (h : MemOk s) : OutcomeOk (execRngFill stream s) := .eventOn (.hostPut h)

theorem OutcomeOk.execRngFillComplete {stream} (h : MemOk s) : OutcomeOk (execRngFillComplete stream s) := .eventOn (.rngEnd h)

theorem OutcomeOk.execDevnumWrite {fn v} (h : MemOk s) : OutcomeOk (execDevnumWrite fn v s) := .eventOn (.hostPut h)

theorem OutcomeOk.execLinkTraining {port neighbour} (h : MemOk s) : OutcomeOk (execLinkTraining port neighbour s) :=
  .eventOn (.ite (.openRecord h) h)

theorem OutcomeOk.execFabricLinkLoss {port} (h : MemOk s) : OutcomeOk (execFabricLinkLoss port s) := .eventOn h

theorem OutcomeOk.execPnqbaseWrite {fn n v} (h : MemOk s) : OutcomeOk (execPnqbaseWrite fn n v s) := .eventOn (.hostPut h)

theorem OutcomeOk.execRbenWrite {core ctx v} (h : MemOk s) : OutcomeOk (execRbenWrite core ctx v s) := .eventOn (.rbenSet h)

theorem OutcomeOk.execDomctlWrite {fn n v} (h : MemOk s) : OutcomeOk (execDomctlWrite fn n v s) := .eventOn (.hostPut h)

theorem OutcomeOk.execDomainDisable {n} (h : MemOk s) : OutcomeOk (execDomainDisable n s) := .eventOn (.disableNow h)

theorem OutcomeOk.execCctlWrite {fn c v} (h : MemOk s) : OutcomeOk (execCctlWrite fn c v s) := .eventOn (.hostPut h)

theorem OutcomeOk.execRegisterWrite {fn off size v} (h : MemOk s) : OutcomeOk (execRegisterWrite fn off size v s) :=
  .eventOn (.ite (.hostPut h) h)

/-! ### Debug (18 R355-R357) -/

theorem OutcomeOk.execDbgHalt {domain} (h : MemOk s) : OutcomeOk (execDbgHalt domain s) := .eventOn (.hostPut h)

theorem OutcomeOk.execDbgResume {domain} (h : MemOk s) : OutcomeOk (execDbgResume domain s) := .eventOn (.hostPut h)

theorem OutcomeOk.execDbgStep {domain one core} (h : MemOk s) : OutcomeOk (execDbgStep domain one core s) :=
  .eventOn (.hostPut h)

theorem OutcomeOk.execDbgSuperstep {domain one core} (h : MemOk s) : OutcomeOk (execDbgSuperstep domain one core s) :=
  .eventOn (.hostPut h)

theorem MemOk.haltEnd (h : MemOk s) : MemOk s.haltEnd := by
  unfold State.haltEnd
  split
  · exact h
  · exact .ite h (.postFault (.update (.update (.holdCopies h))))

theorem OutcomeOk.execDebugHaltComplete (h : MemOk s) : OutcomeOk (execDebugHaltComplete s) := .next (.haltEnd h)

/-! ### Resets, power and links (20 R374-R378) -/

theorem OutcomeOk.execColdReset : OutcomeOk (execColdReset s) := .next .coldReset

theorem OutcomeOk.execWarmReset (h : MemOk s) : OutcomeOk (execWarmReset s) := .next (.hostPut h)

theorem MemOk.flr {fn} (h : MemOk s) : MemOk (s.flr fn) := .foldl (fun _ _ h1 => .ite (.domWrite h1) h1) (.ite h h)

theorem OutcomeOk.execFunctionLevelReset {fn} (h : MemOk s) : OutcomeOk (execFunctionLevelReset fn s) := .eventOn (.flr h)

theorem OutcomeOk.execLinkWidthRequest {v} (h : MemOk s) : OutcomeOk (execLinkWidthRequest v s) := .next (.hostPut h)

theorem MemOk.retrain (h : MemOk s) : MemOk s.retrain := .ite h (.ite h h)

theorem OutcomeOk.execLinkRetrainComplete (h : MemOk s) : OutcomeOk (execLinkRetrainComplete s) := .next (.retrain h)

theorem OutcomeOk.execDieClockRequest {die v} (h : MemOk s) : OutcomeOk (execDieClockRequest die v s) := .eventOn (.hostPut h)

theorem OutcomeOk.execDieClockChange {die} (h : MemOk s) : OutcomeOk (execDieClockChange die s) := .eventOn (.ite h h)

theorem MemOk.powerCap (h : MemOk s) : MemOk s.powerCap := h

theorem OutcomeOk.execPowerCapWindow (h : MemOk s) : OutcomeOk (execPowerCapWindow s) := .next (.powerCap h)

theorem OutcomeOk.execPowerDown (h : MemOk s) : OutcomeOk (execPowerDown s) := .next h

/-! ### The host's accesses to memory and its sessions -/

theorem MemOk.reply {poisoned l} (h : MemOk s) : MemOk (s.reply poisoned l) := h

/-! ### TDISP (20 R370; PRESUMED, log entry 71) -/

theorem MemOk.tdispReply {m code l} (h : MemOk s) : MemOk (s.tdispReply m code l) := .reply h

theorem MemOk.setTdi {f n nonce} (h : MemOk s) : MemOk (s.setTdi f n nonce) := h

theorem MemOk.tdisp {m} (h : MemOk s) : MemOk (s.tdisp m) := by
  unfold State.tdisp
  dsimp only
  split
  · exact h
  · split
    · exact .tdispReply h
    · split
      · exact .ite (.tdispReply h) (.tdispReply (.setTdi (.freeBytes h)))
      · exact .tdispReply h
      · exact .ite (.tdispReply h) (.tdispReply (.setTdi h))
      · exact .tdispReply (.setTdi h)
      · exact .tdispReply h

theorem MemOk.chooseIfHalting (h : MemOk s) : MemOk (if s.admin.halting.isSome then s.choose 2 else (0, s)).2 :=
  .ite_snd (.choose (n := 2) h) h

theorem OptionOk.deviceStore {l n v} (h : MemOk s) : OptionOk MemOk (s.deviceStore l n v) := by
  unfold State.deviceStore
  cases e : if s.admin.halting.isSome then s.choose 2 else (0, s) with
  | mk b t =>
    have ht := MemOk.of_snd e (MemOk.chooseIfHalting h)
    refine .ite (.some (.poke ht)) ?_
    cases e1 : t.dieOf ((l.key?).getD 0) with
    | mk die u =>
      have hu := MemOk.of_snd e1 (MemOk.dieOf ht)
      exact .ite (.some (.hold hu)) .none

theorem OptionOk.hostStore {fn pa bytes} (h : MemOk s) : OptionOk MemOk (s.hostStore fn pa bytes) := by
  unfold State.hostStore
  refine .ite .none (.ite (.ite .none (.some (.tdisp h))) ?_)
  split
  · exact .some (.hostPut h)
  · exact .ite (.ite .none (.map fun _ => .poke h)) (.bind fun _ => .deviceStore (.reply h))

theorem OutcomeOk.execHostWrite {fn pa bytes} (h : MemOk s) : OutcomeOk (execHostWrite fn pa bytes s) :=
  .eventIf h (.hostStore h)

theorem MemOk.hostLoad {l n} (h : MemOk s) : MemOk (s.hostLoad l n) := by
  unfold State.hostLoad
  split
  · exact h
  · exact .ite (.reply (.freeBytes h)) (.reply h)

theorem MemOk.configRead {off n} (h : MemOk s) : MemOk (s.configRead off n) := .ite (.reply h) (.reply (.freeBytes h))

theorem OptionOk.hostFetch {fn pa n} (h : MemOk s) : OptionOk MemOk (s.hostFetch fn pa n) := by
  unfold State.hostFetch
  refine .ite .none (.ite (.ite (.some (.configRead h)) .none) ?_)
  split
  · exact .ite .none (.some (.reply h))
  · exact .map fun _ => .hostLoad h

theorem OutcomeOk.execHostRead {fn pa n} (h : MemOk s) : OutcomeOk (execHostRead fn pa n s) := .eventIf h (.hostFetch h)

theorem MemOk.signed {m} (h : MemOk s) : MemOk (s.signed m).2 := by
  unfold State.signed
  exact .freeBytes h

theorem MemOk.report {nonce} (h : MemOk s) : MemOk (s.report nonce).2 := MemOk.signed (m := measurements ++ nonce) h

theorem OutcomeOk.execAttestationReport {nonce} (h : MemOk s) : OutcomeOk (execAttestationReport nonce s) :=
  .next (.ite (.reply (.report h)) h)

theorem OutcomeOk.execIdeKmKeyProgram {key} (h : MemOk s) : OutcomeOk (execIdeKmKeyProgram key s) := .next (.ite h h)

theorem OutcomeOk.execSpdmSession {nonce} (h : MemOk s) : OutcomeOk (execSpdmSession nonce s) := by
  cases e : s.signed nonce with
  | mk g t =>
    have ht := MemOk.of_snd e (MemOk.signed h)
    unfold Machine.execSpdmSession
    rw [e]
    exact .next (.reply (.update ht))

/-! ### The meaning of every row of the table of operations -/

theorem OutcomeOk.issueFin {i : Instr} (h : MemOk s) : OutcomeOk (Machine.issue i (Instr.fin i) s) := .issue (fun _ => .fin) h

/-- Every row of the table of operations: those with a case of their own, and the words that issue their effect. -/
theorem OutcomeOk.exec {i} (h : MemOk s) : OutcomeOk (Machine.exec i s) := by
  cases i
  case beq => exact .execBeq h
  case bne => exact .execBne h
  case blt => exact .execBlt h
  case bge => exact .execBge h
  case bltu => exact .execBltu h
  case bgeu => exact .execBgeu h
  case bqt => exact .execBqt h
  case bqf => exact .execBqf h
  case j => exact .execJ h
  case call => exact .execCall h
  case jr => exact .execJr h
  case callr => exact .execCallr h
  case ret => exact .execRet h
  case lpset => exact .execLpset h
  case lppop => exact .execLppop h
  case mfc => exact .execMfc h
  case mtc => exact .execMtc h
  case msc => exact .execMsc h
  case mcc => exact .execMcc h
  case trap => exact .execTrap h
  case tret => exact .execTret h
  case sysc => exact .execSysc h
  case brk => exact .execBrk h
  case halt => exact .execHalt h
  case spillw => exact .execSpillw h
  case fillw => exact .execFillw h
  case hintImm => exact .execHintImm h
  case hintHome => exact .execHintHome h
  case hintMod => exact .execHintMod h
  case illegalWord => exact .execIllegalWord h
  case instructionComplete => exact .execInstructionComplete h
  case followEngage => exact .execFollowEngage h
  case pageWalkComplete => exact .execPageWalkComplete h
  case postedStoreAck => exact .execPostedStoreAck h
  case postedStoreFail => exact .execPostedStoreFail h
  case uncorrectableError => exact .execUncorrectableError h
  case correctedError => exact .execCorrectedError h
  case unitRetire => exact .execUnitRetire h
  case parkedRequestServe => exact .execParkedRequestServe h
  case ldsParkRetry => exact .execLdsParkRetry h
  case messageArrival => exact .execMessageArrival h
  case messageFail => exact .execMessageFail h
  case remoteCommandArrival => exact .execRemoteCommandArrival h
  case eventRecordArrival => exact .execEventRecordArrival h
  case hardwarePost => exact .execHardwarePost h
  case bulkQueueAdmit => exact .execBulkQueueAdmit h
  case copyCommandStart => exact .execCopyCommandStart h
  case copyCommandComplete => exact .execCopyCommandComplete h
  case copyCommandFault => exact .execCopyCommandFault h
  case matrixQueueAdmit => exact .execMatrixQueueAdmit h
  case matrixCommandStart => exact .execMatrixCommandStart h
  case matrixCommandComplete => exact .execMatrixCommandComplete h
  case arrayLevelRise => exact .execArrayLevelRise h
  case arrayLevelFall => exact .execArrayLevelFall h
  case burstHoldExpire => exact .execBurstHoldExpire h
  case ringBeatEnd => exact .execRingBeatEnd h
  case ringTaskComplete => exact .execRingTaskComplete h
  case ringIdle => exact .execRingIdle h
  case auctionCommandAdmit => exact .execAuctionCommandAdmit h
  case auctionRound => exact .execAuctionRound h
  case vpjTileBoundary => exact .execVpjTileBoundary h
  case collectiveChunkAdmit => exact .execCollectiveChunkAdmit h
  case chunkArrival => exact .execChunkArrival h
  case stepResultWrite => exact .execStepResultWrite h
  case stepAbandon => exact .execStepAbandon h
  case entryComplete => exact .execEntryComplete h
  case quantumBoundary => exact .execQuantumBoundary h
  case preemptResume => exact .execPreemptResume h
  case qtailWrite => exact .execQtailWrite h
  case launchPacketRead => exact .execLaunchPacketRead h
  case dealIdentifier => exact .execDealIdentifier h
  case launchComplete => exact .execLaunchComplete h
  case controlContextRestart => exact .execControlContextRestart h
  case startHelperAssign => exact .execStartHelperAssign h
  case pennantPop => exact .execPennantPop h
  case pennantAgePromote => exact .execPennantAgePromote h
  case halyardEpisodeComplete => exact .execHalyardEpisodeComplete h
  case halyLimitExpire => exact .execHalyLimitExpire h
  case rbwaitTimeout => exact .execRbwaitTimeout h
  case evwaitTimeout => exact .execEvwaitTimeout h
  case rgwaitTimeout => exact .execRgwaitTimeout h
  case yieldExpire => exact .execYieldExpire h
  case partnerSwitch => exact .execPartnerSwitch h
  case faultRecordAppend => exact .execFaultRecordAppend h
  case fqheadWrite => exact .execFqheadWrite h
  case xlinvPage => exact .execXlinvPage h
  case xlinvDomain => exact .execXlinvDomain h
  case xlinvAllDomains => exact .execXlinvAllDomains h
  case xlinvReserved => exact .execXlinvReserved h
  case xlinvComplete => exact .execXlinvComplete h
  case keyInstall => exact .execKeyInstall h
  case keyErase => exact .execKeyErase h
  case keyCommandComplete => exact .execKeyCommandComplete h
  case rngFill => exact .execRngFill h
  case rngFillComplete => exact .execRngFillComplete h
  case devnumWrite => exact .execDevnumWrite h
  case linkTraining => exact .execLinkTraining h
  case pnqbaseWrite => exact .execPnqbaseWrite h
  case rbenWrite => exact .execRbenWrite h
  case domctlWrite => exact .execDomctlWrite h
  case domainDisable => exact .execDomainDisable h
  case cctlWrite => exact .execCctlWrite h
  case dbgHalt => exact .execDbgHalt h
  case dbgResume => exact .execDbgResume h
  case dbgStep => exact .execDbgStep h
  case dbgSuperstep => exact .execDbgSuperstep h
  case debugHaltComplete => exact .execDebugHaltComplete h
  case coldReset => exact .execColdReset
  case warmReset => exact .execWarmReset h
  case functionLevelReset => exact .execFunctionLevelReset h
  case linkWidthRequest => exact .execLinkWidthRequest h
  case linkRetrainComplete => exact .execLinkRetrainComplete h
  case dieClockRequest => exact .execDieClockRequest h
  case dieClockChange => exact .execDieClockChange h
  case powerCapWindow => exact .execPowerCapWindow h
  case attestationReport => exact .execAttestationReport h
  case hostWrite => exact .execHostWrite h
  case hostRead => exact .execHostRead h
  case registerWrite => exact .execRegisterWrite h
  case powerDown => exact .execPowerDown h
  case fabricLinkLoss => exact .execFabricLinkLoss h
  case qctlWrite => exact .execQctlWrite h
  case fqctlWrite => exact .execFqctlWrite h
  case ideKmKeyProgram => exact .execIdeKmKeyProgram h
  case spdmSession => exact .execSpdmSession h
  all_goals exact .issueFin h

/-! ### Fetch and issue -/

theorem OutcomeOk.runWord {w} (h : MemOk s) : OutcomeOk (runWord w s) := by
  unfold Machine.runWord
  split
  · split
    · exact .execSysWord h
    · exact .execIllegalWord h
  · split
    · exact .exec h
    · exact .execIllegalWord h

theorem OptionOk.unfollowed (h : MemOk s) : OptionOk MemOk s.unfollowed := by
  unfold State.unfollowed
  split
  · exact .none
  · split
    · exact .ite (.some (.stamp (.setCx h))) .none
    · exact .none

theorem OutcomeOk.attemptWord (h : MemOk s) : OutcomeOk (attemptWord s) := by
  unfold Machine.attemptWord
  split
  · next e =>
    have h1 := OptionOk.of_some e (OptionOk.unfollowed h)
    exact .next h1
  · split
    · exact .next h
    · exact .runWord h
    · exact .ite (.next h) (.next (.trapHere h))

theorem OutcomeOk.attempt (h : MemOk s) : OutcomeOk (attempt s) := by
  unfold Machine.attempt
  split
  · next e =>
    have h1 := OutcomeOk.of_next e (OutcomeOk.attemptWord h)
    split
    · split
      · exact .next h1
      · exact .next (.stamp (.trapEntry (.rerun h)))
    · exact .next h1
  · exact .attemptWord h

theorem MemOk.nextCycle {core} (h : MemOk s) : MemOk (s.nextCycle core) := .setCore h

theorem OutcomeOk.attemptAt {core k} (h : MemOk s) : OutcomeOk (s.attemptAt core k) := .attempt h

theorem MemOk.stopFollowers {core} (h : MemOk s) : MemOk (s.stopFollowers core) := .foldl (fun _ _ h1 => .stopSteps h1) h

theorem MemOk.afterStep {s' core k} (h1 : MemOk s') : MemOk (s.afterStep s' core k) := by
  unfold State.afterStep
  split
  · dsimp only
    split
    · exact .holdCopies (.stopFollowers (.stopSteps h1))
    · exact .stopFollowers (.stopSteps h1)
  · exact h1

theorem OutcomeOk.mapNext {f : State → State} {a : Host.Outcome State Fault Refusal} (hf : ∀ t, MemOk t → MemOk (f t))
    (ha : OutcomeOk a) : OutcomeOk (mapNext f a) := by
  unfold Machine.mapNext
  split
  · have h := OutcomeOk.of_next rfl ha
    exact .next (hf _ h)
  · exact ha
  · exact ha

theorem OutcomeOk.issueCycle {core} (h : MemOk s) : OutcomeOk (s.issueCycle core) := by
  unfold State.issueCycle
  dsimp only
  split
  · exact .next (.nextCycle h)
  · exact .ite (.mapNext (fun _ h1 => .afterStep h1) (.attemptAt (.nextCycle h))) (.attemptAt (.nextCycle h))
  · exact .ite (.next (.nextCycle h)) (.mapNext (fun _ h3 => .afterStep (.foldl (fun _ _ h4 => .setCtx h4) h3)) (.attemptAt
      (.nextCycle h)))

theorem OutcomeOk.issueCore {core} (h : MemOk s) : OutcomeOk (s.issueCore core) := by
  unfold State.issueCore
  split
  · exact .mapNext (fun _ h1 => .afterStep h1) (.attemptAt h)
  · exact .issueCycle h

/-! ### Moves -/

theorem MemOk.allSettled {core k} (h : MemOk s) : MemOk (s.allSettled core k) := by
  unfold State.allSettled
  refine .foldl (fun _ _ h1 => ?_) h
  split
  · split
    · exact h1
    · next e1 => exact IssuedOk.of_next e1 (IssuedOk.finish h1 fun _ _ => .fin)
  · exact h1

theorem MemOk.completeMove {core k idx} (h : MemOk s) : MemOk (s.completeMove core k idx) := by
  unfold State.completeMove
  dsimp only
  split
  · exact h
  · next e =>
    have h1 := OptionOk.of_some e (OptionOk.completeNth h)
    split
    · split
      · split
        · exact .holdCopies (.stopSteps h1)
        · exact .stopSteps h1
      · exact h1
    · split
      · split
        · exact .holdCopies (.stopSteps h1)
        · exact .stopSteps h1
      · exact h1

theorem MemOk.walkMove {core} (h : MemOk s) : MemOk (s.walkMove core) := .tlbFill h

theorem MemOk.dealMove {q} (h : MemOk s) : MemOk (s.dealMove q) := .ite (.dealCore h) (.ite h (.dealCore h))

theorem MemOk.turnV {core} (h : MemOk s) : MemOk (s.turnV core) := .setCore h

theorem MemOk.turnM {core} (h : MemOk s) : MemOk (s.turnM core) := .setCore h

theorem OutcomeOk.play {m} (h : MemOk s) : OutcomeOk (s.play m) := by
  unfold State.play
  split
  · exact .issueCore h
  · exact .next (.walkMove h)
  · exact .next (.completeMove h)
  · exact .next (.getD (.landStore h) h)
  · exact .execPostedStoreAck h
  · exact .next (.turnV h)
  · exact .next (.turnM h)
  · exact .next (.getD (.sendHead h) h)
  · exact .next (.getD (.recNext h) h)
  · exact .execHardwarePost h
  · exact .execRemoteCommandArrival h
  · exact .execChunkArrival h
  · exact .execFaultRecordAppend h
  · exact .execBulkQueueAdmit h
  · exact .execCopyCommandStart h
  · exact .next (.getD (.copyStepId h) h)
  · exact .next (.elim (.copyEndId h) h)
  · exact .execMatrixQueueAdmit h
  · exact .execMatrixCommandStart h
  · exact .execMatrixCommandComplete h
  · exact .execRingTaskComplete h
  · exact .execArrayLevelRise h
  · exact .execArrayLevelFall h
  · exact .execBurstHoldExpire h
  · exact .execRbwaitTimeout h
  · exact .execEvwaitTimeout h
  · exact .execRgwaitTimeout h
  · exact .execHalyLimitExpire h
  · exact .next (.endPart h)
  · exact .execPennantPop h
  · exact .execPennantAgePromote h
  · exact .execPreemptResume h
  · exact .next (.takeEnd h)
  · exact .execRingBeatEnd h
  · exact .execRingIdle h
  · exact .execAuctionCommandAdmit h
  · exact .execAuctionRound h
  · exact .execCollectiveChunkAdmit h
  · exact .execEntryComplete h
  · exact .execStepResultWrite h
  · exact .execStepAbandon h
  · exact .execHalyardEpisodeComplete h
  · exact .execLaunchPacketRead h
  · exact .next (.dealMove h)
  · exact .execLaunchComplete h
  · exact .execQuantumBoundary h
  · exact .execXlinvComplete h
  · exact .execKeyCommandComplete h
  · exact .execRngFillComplete h
  · exact .execDebugHaltComplete h
  · exact .execDomainDisable h
  · exact .execPartnerSwitch h
  · exact .next (.bootStep h)
  · exact .execLinkRetrainComplete h
  · exact .execDieClockChange h
  · exact .execUnitRetire h

theorem MemOk.tick (h : MemOk s) : MemOk s.tick := h

theorem MemOk.passTime (h : MemOk s) : MemOk s.passTime := .dropLate (.tick h)

theorem OptionOk.overdue (h : MemOk s) : OptionOk MemOk s.overdue :=
  .findSome fun _ => .findSome fun _ => .findSome fun _ => .ite (.landStore h) .none

theorem OutcomeOk.move (h : MemOk s) : OutcomeOk s.move := by
  unfold State.move
  split
  · next e =>
    have h1 := OptionOk.of_some e (OptionOk.overdue h)
    exact .next h1
  · split
    · exact .next h
    · exact .play h
    · dsimp only
      split
      · exact .play (.choose h)
      · exact .next (.choose h)

/-! ### One step of the package -/

theorem OutcomeOk.event (h : MemOk s) : OutcomeOk s.event := by
  unfold State.event
  split
  · exact .ite (.exec h) (.next h)
  · exact .next h

theorem OutcomeOk.step (h : MemOk s) : OutcomeOk (step s) :=
  .ite (.move (.passTime h)) (.ite (.event (.passTime h)) (.ite (.event (.update (.passTime h))) (.move (.update (.passTime h)))))

/-! ### Every step -/

/-- Settles O60, by the lemma for `step` that the lemmas for the functions of the model end in: the few places that write memory
keep its canonical form, and every other part of a step leaves memory as it is. -/
theorem stepKeepsMemory : Obligations.StepKeepsMemory := by
  unfold Obligations.StepKeepsMemory
  intro s t h e
  exact OutcomeOk.of_next e (.step h)

end Sys2Proof.Machine
end

/-! # The words of instructions (O56, O57)

A word of a layout of 02 R15 gives its fields back, so it decodes as the decoder of its major says (`decodeNat_encR` and the
like, one for each layout). What is left for an instruction is that
the decoder of its major, on the fields that the encoder put there, checks just that instruction. -/

section
namespace Sys2Proof

/-! ### The checks -/

theorem check_of_wellFormed {i : Instr} (h : i.wellFormed = true) : check i = .ok i := by
  simp only [Instr.wellFormed, Bool.and_eq_true] at h
  simp [check, Instr.problem, h]

theorem fieldsFit_of_wellFormed {i : Instr} (h : i.wellFormed = true) : i.fieldsFit = true := by
  simp only [Instr.wellFormed, Bool.and_eq_true, and_assoc] at h
  exact h.1

theorem constraintOk_of_wellFormed {i : Instr} (h : i.wellFormed = true) : i.constraintOk = true := by
  simp only [Instr.wellFormed, Bool.and_eq_true] at h
  exact h.2

theorem zeros_zero (i : Instr) : zeros [0] i = check i := rfl

theorem b2n_lt_two (t : Bool) : b2n t < 2 := by cases t <;> decide

/-! ### The decoder of each major -/

theorem decodeNat_of_major {w major : Nat} (h : bits w 31 26 = major) (hs : major ≠ 60 ∧ major ≠ 61) :
    decodeNat w = decodeOps w := by
  simp [decodeNat, isSysMajor, h, hs]

theorem decodeNat_of_sysMajor {w : Nat} (h : bits w 31 26 = 60 ∨ bits w 31 26 = 61) :
    decodeNat w = (decodeSys w).map SysWord.toInstr := by
  have hs : isSysMajor w = true := by simpa [isSysMajor] using h
  simp only [decodeNat, hs, if_true]
  cases decodeSys w <;> rfl

/-- The majors with the R layout of 02 R15. -/
def majorsR : List Nat := [1, 11, 15]

/-- The decoder of a major with the R layout. -/
def decR (major : Nat) : Nat → Nat → Nat → Nat → Nat → Nat → Except Reject Instr :=
  match major with
  | 1 => dec01 | 11 => dec0B | 15 => dec0F | _ => fun _ _ _ _ _ _ => .error .major

theorem decodeNat_R {w major : Nat} (hm : major ∈ majorsR) (h : bits w 31 26 = major) :
    decodeNat w = decR major (bits w 25 21) (bits w 20 16) (bits w 15 11) (bits w 10 4) (bits w 3 3) (bits w 2 0) := by
  fin_cases hm <;> exact (decodeNat_of_major h (by decide)).trans (by rw [decodeOps, h]; rfl)

/-- The majors with the I layout of 02 R15. -/
def majorsI : List Nat := [3, 4, 5, 6, 7, 8, 9, 10]

/-- The decoder of a major with the I layout. -/
def decI (major : Nat) : Nat → Nat → Nat → Nat → Except Reject Instr :=
  match major with
  | 3 => dec03 | 4 => dec04 | 5 => dec05 | 6 => dec06 | 7 => dec07 | 8 => dec08 | 9 => dec09 | 10 => dec0A
  | _ => fun _ _ _ _ => .error .major

theorem decodeNat_I {w major : Nat} (hm : major ∈ majorsI) (h : bits w 31 26 = major) :
    decodeNat w = decI major (bits w 25 21) (bits w 20 16) (bits w 15 3) (bits w 2 0) := by
  fin_cases hm <;> exact (decodeNat_of_major h (by decide)).trans (by rw [decodeOps, h]; rfl)

/-- The majors with the J layout of 02 R15. -/
def majorsJ : List Nat := [13, 14]

/-- The decoder of a major with the J layout. -/
def decJ (major : Nat) : Nat → Except Reject Instr :=
  match major with
  | 13 => dec0D | 14 => dec0E | _ => fun _ => .error .major

theorem decodeNat_J {w major : Nat} (hm : major ∈ majorsJ) (h : bits w 31 26 = major) :
    decodeNat w = decJ major (bits w 25 0) := by
  fin_cases hm <;> exact (decodeNat_of_major h (by decide)).trans (by rw [decodeOps, h]; rfl)

/-- The majors with the M layout of 02 R15. -/
def majorsM : List Nat := [16, 17, 18, 25]

/-- The decoder of a major with the M layout. -/
def decM (major : Nat) : Nat → Nat → Nat → Nat → Nat → Nat → Except Reject Instr :=
  match major with
  | 16 => dec10 | 17 => dec11 | 18 => dec12 | 25 => dec19 | _ => fun _ _ _ _ _ _ => .error .major

theorem decodeNat_M {w major : Nat} (hm : major ∈ majorsM) (h : bits w 31 26 = major) :
    decodeNat w = decM major (bits w 25 21) (bits w 20 16) (bits w 15 8) (bits w 7 6) (bits w 5 4) (bits w 3 0) := by
  fin_cases hm <;> exact (decodeNat_of_major h (by decide)).trans (by rw [decodeOps, h]; rfl)

/-- The majors with the A layout of 02 R15. -/
def majorsA : List Nat := [21, 22, 23, 24]

/-- The decoder of a major with the A layout. -/
def decA (major : Nat) : Nat → Nat → Nat → Nat → Nat → Nat → Nat → Nat → Except Reject Instr :=
  match major with
  | 21 => dec15 | 22 => dec16 | 23 => dec17 | 24 => dec18 | _ => fun _ _ _ _ _ _ _ _ => .error .major

theorem decodeNat_A {w major : Nat} (hm : major ∈ majorsA) (h : bits w 31 26 = major) :
    decodeNat w = decA major (bits w 25 21) (bits w 20 16) (bits w 15 12) (bits w 11 10) (bits w 9 7) (bits w 6 6)
      (bits w 5 4) (bits w 3 0) := by
  fin_cases hm <;> exact (decodeNat_of_major h (by decide)).trans (by rw [decodeOps, h]; rfl)

/-- The majors with the V layout of 02 R15. -/
def majorsV : List Nat := [32, 33, 34, 35, 36, 38, 39, 40, 41]

/-- The decoder of a major with the V layout. -/
def decV (major : Nat) : Nat → Nat → Nat → Nat → Nat → Nat → Nat → Except Reject Instr :=
  match major with
  | 32 => dec20 | 33 => dec21 | 34 => dec22 | 35 => dec23 | 36 => dec24 | 38 => dec26 | 39 => dec27 | 40 => dec28
  | 41 => dec29 | _ => fun _ _ _ _ _ _ _ => .error .major

theorem decodeNat_V {w major : Nat} (hm : major ∈ majorsV) (h : bits w 31 26 = major) :
    decodeNat w = decV major (bits w 25 21) (bits w 20 16) (bits w 15 11) (bits w 10 5) (bits w 4 2) (bits w 1 1)
      (bits w 0 0) := by
  fin_cases hm <;> exact (decodeNat_of_major h (by decide)).trans (by rw [decodeOps, h]; rfl)

/-- The majors with the VL layout of 02 R15. -/
def majorsVL : List Nat := [19, 20, 37]

/-- The decoder of a major with the VL layout. -/
def decVL (major : Nat) : Nat → Nat → Nat → Nat → Nat → Nat → Except Reject Instr :=
  match major with
  | 19 => dec13 | 20 => dec14 | 37 => dec25 | _ => fun _ _ _ _ _ _ => .error .major

theorem decodeNat_VL {w major : Nat} (hm : major ∈ majorsVL) (h : bits w 31 26 = major) :
    decodeNat w = decVL major (bits w 25 21) (bits w 20 16) (bits w 15 9) (bits w 8 6) (bits w 5 4) (bits w 3 0) := by
  fin_cases hm <;> exact (decodeNat_of_major h (by decide)).trans (by rw [decodeOps, h]; rfl)

/-- The majors with the X layout of 02 R15. -/
def majorsX : List Nat := [26, 27, 28, 29, 30, 49, 50, 51, 52, 53, 54, 55, 56, 57, 58]

/-- The decoder of a major with the X layout. -/
def decX (major : Nat) : Nat → Nat → Nat → Nat → Nat → Nat → Except Reject Instr :=
  match major with
  | 26 => dec1A | 27 => dec1B | 28 => dec1C | 29 => dec1D | 30 => dec1E | 49 => dec31 | 50 => dec32 | 51 => dec33
  | 52 => dec34 | 53 => dec35 | 54 => dec36 | 55 => dec37 | 56 => dec38 | 57 => dec39 | 58 => dec3A
  | _ => fun _ _ _ _ _ _ => .error .major

theorem decodeNat_X {w major : Nat} (hm : major ∈ majorsX) (h : bits w 31 26 = major) :
    decodeNat w = decX major (bits w 25 22) (bits w 21 19) (bits w 18 14) (bits w 13 9) (bits w 8 4) (bits w 3 0) := by
  fin_cases hm <;> exact (decodeNat_of_major h (by decide)).trans (by rw [decodeOps, h]; rfl)

/-! ### The fields of a word -/

theorem bits_encR {w major d a b fn t g : Nat} (hM : major < 64) (h : d < 32 ∧ a < 32 ∧ b < 32 ∧ fn < 128 ∧ t < 2 ∧ g < 8)
    (hw : w = encR major d a b fn t g) :
    w < 2 ^ 32 ∧ bits w 31 26 = major ∧ bits w 25 21 = d ∧ bits w 20 16 = a ∧ bits w 15 11 = b ∧ bits w 10 4 = fn ∧
      bits w 3 3 = t ∧ bits w 2 0 = g := by
  simp only [hw, encR, bits]
  omega

theorem decodeNat_encR {major d a b fn t g : Nat} (hm : major ∈ majorsR)
    (h : d < 32 ∧ a < 32 ∧ b < 32 ∧ fn < 128 ∧ t < 2 ∧ g < 8) :
    encR major d a b fn t g < 2 ^ 32 ∧ decodeNat (encR major d a b fn t g) = decR major d a b fn t g := by
  obtain ⟨hw, h26, hf⟩ := bits_encR ((by decide : ∀ m ∈ majorsR, m < 64) _ hm) h rfl
  exact ⟨hw, by simp only [decodeNat_R hm h26, hf]⟩

theorem bits_encRL {w d a b fn la : Nat} (h : d < 32 ∧ a < 32 ∧ b < 32 ∧ fn < 16 ∧ la < 16) (hw : w = encRL 2 d a b fn la) :
    w < 2 ^ 32 ∧ bits w 31 26 = 2 ∧ bits w 25 21 = d ∧ bits w 20 16 = a ∧ bits w 15 11 = b ∧ bits w 10 7 = fn ∧ bits w 6 4 = 0 ∧
      bits w 3 0 = la := by
  simp only [hw, encRL, bits]
  omega

theorem decodeNat_encRL {d a b fn la : Nat} (h : d < 32 ∧ a < 32 ∧ b < 32 ∧ fn < 16 ∧ la < 16) :
    encRL 2 d a b fn la < 2 ^ 32 ∧ decodeNat (encRL 2 d a b fn la) = dec02 d a b fn 0 la := by
  obtain ⟨hw, hm, hf⟩ := bits_encRL h rfl
  exact ⟨hw, by simp only [decodeNat_of_major hm (by decide), decodeOps, hm, hf]⟩

theorem bits_encI {w major d a imm g : Nat} (hM : major < 64) (h : d < 32 ∧ a < 32 ∧ imm < 8192 ∧ g < 8)
    (hw : w = encI major d a imm g) :
    w < 2 ^ 32 ∧ bits w 31 26 = major ∧ bits w 25 21 = d ∧ bits w 20 16 = a ∧ bits w 15 3 = imm ∧ bits w 2 0 = g := by
  simp only [hw, encI, bits]
  omega

theorem decodeNat_encI {major d a imm g : Nat} (hm : major ∈ majorsI) (h : d < 32 ∧ a < 32 ∧ imm < 8192 ∧ g < 8) :
    encI major d a imm g < 2 ^ 32 ∧ decodeNat (encI major d a imm g) = decI major d a imm g := by
  obtain ⟨hw, h26, hf⟩ := bits_encI ((by decide : ∀ m ∈ majorsI, m < 64) _ hm) h rfl
  exact ⟨hw, by simp only [decodeNat_I hm h26, hf]⟩

theorem bits_encB {w a b cond disp : Nat} (h : a < 32 ∧ b < 32 ∧ cond < 8 ∧ disp < 8192) (hw : w = encB 12 a b cond disp) :
    w < 2 ^ 32 ∧ bits w 31 26 = 12 ∧ bits w 25 21 = a ∧ bits w 20 16 = b ∧ bits w 15 13 = cond ∧ bits w 12 0 = disp := by
  simp only [hw, encB, bits]
  omega

theorem decodeNat_encB {a b cond disp : Nat} (h : a < 32 ∧ b < 32 ∧ cond < 8 ∧ disp < 8192) :
    encB 12 a b cond disp < 2 ^ 32 ∧ decodeNat (encB 12 a b cond disp) = dec0C a b cond disp := by
  obtain ⟨hw, hm, hf⟩ := bits_encB h rfl
  exact ⟨hw, by simp only [decodeNat_of_major hm (by decide), decodeOps, hm, hf]⟩

theorem bits_encJ {w major disp : Nat} (hM : major < 64) (h : disp < 67108864) (hw : w = encJ major disp) :
    w < 2 ^ 32 ∧ bits w 31 26 = major ∧ bits w 25 0 = disp := by
  simp only [hw, encJ, bits]
  omega

theorem decodeNat_encJ {major disp : Nat} (hm : major ∈ majorsJ) (h : disp < 67108864) :
    encJ major disp < 2 ^ 32 ∧ decodeNat (encJ major disp) = decJ major disp := by
  obtain ⟨hw, h26, hf⟩ := bits_encJ ((by decide : ∀ m ∈ majorsJ, m < 64) _ hm) h rfl
  exact ⟨hw, by simp only [decodeNat_J hm h26, hf]⟩

theorem bits_encM {w major d a off sz home la : Nat} (hM : major < 64)
    (h : d < 32 ∧ a < 32 ∧ off < 256 ∧ sz < 4 ∧ home < 4 ∧ la < 16) (hw : w = encM major d a off sz home la) :
    w < 2 ^ 32 ∧ bits w 31 26 = major ∧ bits w 25 21 = d ∧ bits w 20 16 = a ∧ bits w 15 8 = off ∧ bits w 7 6 = sz ∧
      bits w 5 4 = home ∧ bits w 3 0 = la := by
  simp only [hw, encM, bits]
  omega

theorem decodeNat_encM {major d a off sz home la : Nat} (hm : major ∈ majorsM)
    (h : d < 32 ∧ a < 32 ∧ off < 256 ∧ sz < 4 ∧ home < 4 ∧ la < 16) :
    encM major d a off sz home la < 2 ^ 32 ∧ decodeNat (encM major d a off sz home la) = decM major d a off sz home la := by
  obtain ⟨hw, h26, hf⟩ := bits_encM ((by decide : ∀ m ∈ majorsM, m < 64) _ hm) h rfl
  exact ⟨hw, by simp only [decodeNat_M hm h26, hf]⟩

theorem bits_encA {w major d a op ord scope sz la : Nat} (hM : major < 64)
    (h : d < 32 ∧ a < 32 ∧ op < 16 ∧ ord < 4 ∧ scope < 8 ∧ sz < 2 ∧ la < 16) (hw : w = encA major d a op ord scope sz la) :
    w < 2 ^ 32 ∧ bits w 31 26 = major ∧ bits w 25 21 = d ∧ bits w 20 16 = a ∧ bits w 15 12 = op ∧ bits w 11 10 = ord ∧
      bits w 9 7 = scope ∧ bits w 6 6 = sz ∧ bits w 5 4 = 0 ∧ bits w 3 0 = la := by
  simp only [hw, encA, bits]
  omega

theorem decodeNat_encA {major d a op ord scope sz la : Nat} (hm : major ∈ majorsA)
    (h : d < 32 ∧ a < 32 ∧ op < 16 ∧ ord < 4 ∧ scope < 8 ∧ sz < 2 ∧ la < 16) :
    encA major d a op ord scope sz la < 2 ^ 32 ∧
      decodeNat (encA major d a op ord scope sz la) = decA major d a op ord scope sz 0 la := by
  obtain ⟨hw, h26, hf⟩ := bits_encA ((by decide : ∀ m ∈ majorsA, m < 64) _ hm) h rfl
  exact ⟨hw, by simp only [decodeNat_A hm h26, hf]⟩

theorem bits_encV {w major d a b fn m t : Nat} (hM : major < 64) (h : d < 32 ∧ a < 32 ∧ b < 32 ∧ fn < 64 ∧ m < 8 ∧ t < 2)
    (hw : w = encV major d a b fn m t) :
    w < 2 ^ 32 ∧ bits w 31 26 = major ∧ bits w 25 21 = d ∧ bits w 20 16 = a ∧ bits w 15 11 = b ∧ bits w 10 5 = fn ∧
      bits w 4 2 = m ∧ bits w 1 1 = t ∧ bits w 0 0 = 0 := by
  simp only [hw, encV, bits]
  omega

theorem decodeNat_encV {major d a b fn m t : Nat} (hm : major ∈ majorsV)
    (h : d < 32 ∧ a < 32 ∧ b < 32 ∧ fn < 64 ∧ m < 8 ∧ t < 2) :
    encV major d a b fn m t < 2 ^ 32 ∧ decodeNat (encV major d a b fn m t) = decV major d a b fn m t 0 := by
  obtain ⟨hw, h26, hf⟩ := bits_encV ((by decide : ∀ m ∈ majorsV, m < 64) _ hm) h rfl
  exact ⟨hw, by simp only [decodeNat_V hm h26, hf]⟩

theorem bits_encVL {w major d a fn m sub la : Nat} (hM : major < 64)
    (h : d < 32 ∧ a < 32 ∧ fn < 128 ∧ m < 8 ∧ sub < 4 ∧ la < 16) (hw : w = encVL major d a fn m sub la) :
    w < 2 ^ 32 ∧ bits w 31 26 = major ∧ bits w 25 21 = d ∧ bits w 20 16 = a ∧ bits w 15 9 = fn ∧ bits w 8 6 = m ∧
      bits w 5 4 = sub ∧ bits w 3 0 = la := by
  simp only [hw, encVL, bits]
  omega

theorem decodeNat_encVL {major d a fn m sub la : Nat} (hm : major ∈ majorsVL)
    (h : d < 32 ∧ a < 32 ∧ fn < 128 ∧ m < 8 ∧ sub < 4 ∧ la < 16) :
    encVL major d a fn m sub la < 2 ^ 32 ∧ decodeNat (encVL major d a fn m sub la) = decVL major d a fn m sub la := by
  obtain ⟨hw, h26, hf⟩ := bits_encVL ((by decide : ∀ m ∈ majorsVL, m < 64) _ hm) h rfl
  exact ⟨hw, by simp only [decodeNat_VL hm h26, hf]⟩

theorem bits_encX {w major op g d a b la : Nat} (hM : major < 64) (h : op < 16 ∧ g < 8 ∧ d < 32 ∧ a < 32 ∧ b < 32 ∧ la < 16)
    (hw : w = encX major op g d a b la) :
    w < 2 ^ 32 ∧ bits w 31 26 = major ∧ bits w 25 22 = op ∧ bits w 21 19 = g ∧ bits w 18 14 = d ∧ bits w 13 9 = a ∧
      bits w 8 4 = b ∧ bits w 3 0 = la := by
  simp only [hw, encX, bits]
  omega

theorem decodeNat_encX {major op g d a b la : Nat} (hm : major ∈ majorsX)
    (h : op < 16 ∧ g < 8 ∧ d < 32 ∧ a < 32 ∧ b < 32 ∧ la < 16) :
    encX major op g d a b la < 2 ^ 32 ∧ decodeNat (encX major op g d a b la) = decX major op g d a b la := by
  obtain ⟨hw, h26, hf⟩ := bits_encX ((by decide : ∀ m ∈ majorsX, m < 64) _ hm) h rfl
  exact ⟨hw, by simp only [decodeNat_X hm h26, hf]⟩

theorem bits_encMma {w op g row col a b s la : Nat}
    (h : op < 4 ∧ g < 8 ∧ row < 8 ∧ col < 2 ∧ a < 32 ∧ b < 16 ∧ s < 8 ∧ la < 16) (hw : w = encMma 48 op g row col a b s la) :
    w < 2 ^ 32 ∧ bits w 31 26 = 48 ∧ bits w 25 24 = op ∧ bits w 23 21 = g ∧ bits w 20 18 = row ∧ bits w 17 17 = col ∧
      bits w 16 12 = a ∧ bits w 11 8 = b ∧ bits w 7 5 = s ∧ bits w 4 4 = 0 ∧ bits w 3 0 = la := by
  simp only [hw, encMma, bits]
  omega

theorem decodeNat_encMma {op g row col a b s la : Nat}
    (h : op < 4 ∧ g < 8 ∧ row < 8 ∧ col < 2 ∧ a < 32 ∧ b < 16 ∧ s < 8 ∧ la < 16) :
    encMma 48 op g row col a b s la < 2 ^ 32 ∧
      decodeNat (encMma 48 op g row col a b s la) = dec30 op g row col a b s 0 la := by
  obtain ⟨hw, hm, hf⟩ := bits_encMma h rfl
  exact ⟨hw, by simp only [decodeNat_of_major hm (by decide), decodeOps, hm, hf]⟩

theorem bits_encLoop {w op a endOff la : Nat} (h : op < 16 ∧ a < 32 ∧ endOff < 2048 ∧ la < 16)
    (hw : w = encLoop 59 op a endOff la) :
    w < 2 ^ 32 ∧ bits w 31 26 = 59 ∧ bits w 25 22 = op ∧ bits w 21 20 = 0 ∧ bits w 19 15 = a ∧ bits w 14 4 = endOff ∧
      bits w 3 0 = la := by
  simp only [hw, encLoop, bits]
  omega

theorem decodeNat_encLoop {op a endOff la : Nat} (h : op < 16 ∧ a < 32 ∧ endOff < 2048 ∧ la < 16) :
    encLoop 59 op a endOff la < 2 ^ 32 ∧ decodeNat (encLoop 59 op a endOff la) = dec3B op 0 a endOff la := by
  obtain ⟨hw, hm, hf⟩ := bits_encLoop h rfl
  exact ⟨hw, by simp only [decodeNat_of_major hm (by decide), decodeOps, hm, hf]⟩

theorem bits_encSys {w op d n la : Nat} (h : op < 16 ∧ d < 32 ∧ n < 4096 ∧ la < 16) (hw : w = encSys 60 op d n la) :
    w < 2 ^ 32 ∧ bits w 31 26 = 60 ∧ bits w 25 22 = op ∧ bits w 21 17 = d ∧ bits w 16 16 = 0 ∧ bits w 15 4 = n ∧
      bits w 3 0 = la := by
  simp only [hw, encSys, bits]
  omega

theorem decodeNat_encSys {op d n la : Nat} (h : op < 16 ∧ d < 32 ∧ n < 4096 ∧ la < 16) :
    encSys 60 op d n la < 2 ^ 32 ∧ decodeNat (encSys 60 op d n la) = (dec3C op d 0 n la).map SysWord.toInstr := by
  obtain ⟨hw, hm, hf⟩ := bits_encSys h rfl
  exact ⟨hw, by simp [decodeNat_of_sysMajor (.inl hm), decodeSys, hm, hf]⟩

theorem bits_encH {w kind payload : Nat} (h : kind < 16 ∧ payload < 4194304) (hw : w = encH 61 kind payload) :
    w < 2 ^ 32 ∧ bits w 31 26 = 61 ∧ bits w 25 22 = kind ∧ bits w 21 0 = payload := by
  simp only [hw, encH, bits]
  omega

theorem decodeNat_encH {kind payload : Nat} (h : kind < 16 ∧ payload < 4194304) :
    encH 61 kind payload < 2 ^ 32 ∧ decodeNat (encH 61 kind payload) = (dec3D kind payload).map SysWord.toInstr := by
  obtain ⟨hw, hm, hf⟩ := bits_encH h rfl
  exact ⟨hw, by simp [decodeNat_of_sysMajor (.inr hm), decodeSys, hm, hf]⟩

/-! ### The decoders that look into a field -/

theorem dec09_of_lt {d a sh g : Nat} (h : sh < 64) :
    dec09 d a sh g = check (.slli d a sh g) ∧ dec09 d a (64 + sh) g = check (.srli d a sh g) ∧
      dec09 d a (128 + sh) g = check (.srai d a sh g) ∧ dec09 d a (192 + sh) g = check (.rori d a sh g) := by
  have hdiv : sh / 64 = 0 ∧ (64 + sh) / 64 = 1 ∧ (128 + sh) / 64 = 2 ∧ (192 + sh) / 64 = 3 := by omega
  have hmod : sh % 64 = sh ∧ (64 + sh) % 64 = sh ∧ (128 + sh) % 64 = sh ∧ (192 + sh) % 64 = sh := by omega
  simp only [dec09, hdiv, hmod, and_self]

theorem dec14_gather {d a vi m cls la : Nat} (h : vi < 32) : dec14 d a vi m cls la = check (.gather d a vi m cls la) := by
  simp only [dec14, Nat.div_eq_of_lt h, Nat.mod_eq_of_lt h]

theorem dec14_scatter {d a vi m la : Nat} (h : vi < 32) : dec14 d a (vi + 32) m 0 la = check (.scatter d a vi m la) := by
  have hfn : (vi + 32) / 32 = 1 ∧ (vi + 32) % 32 = vi := by omega
  simp only [dec14, hfn, zeros_zero]

theorem dec17_release (d a rel scope sz la : Nat) : dec17 d a 1 (rel * 2) scope sz 0 la = check (.sto d a sz rel scope la) := by
  simp only [dec17, Nat.mul_mod_left, Nat.mul_div_cancel rel (by decide : 0 < 2)]
  rfl

theorem dec25_of_lt {d a b m p la : Nat} (h : b < 32) : dec25 d a b m p la = check (.vdiv d a b m p la) := by
  simp only [dec25, Nat.div_eq_of_lt h, Nat.mod_eq_of_lt h]

theorem dec3D_home {payload : Nat} (h : payload < 4) : dec3D 1 payload = .ok (.hintHome payload) := by
  simp only [dec3D, Nat.div_eq_of_lt h]
  rfl

/-! ### Every instruction -/

/-- The word of the instruction, where it is well-formed and has one, decodes to it. -/
def RoundTrip (i : Instr) : Prop :=
  ∀ w, i.wellFormed = true → encodeNat i = some w → w < 2 ^ 32 ∧ decodeNat w = .ok i

theorem RoundTrip.of_no_word {i : Instr} (he : encodeNat i = none) : RoundTrip i := fun w _ hw => by simp [he] at hw

/-- An instruction with a word of a layout: its own checks `fits` imply the bounds of the layout's fields, and with them the
decoder of its major gives it back. -/
theorem RoundTrip.of_layout {i : Instr} {w : Nat} {r : Except Reject Instr} {bounds : Prop} (fits : Bool)
    (hw : bounds → w < 2 ^ 32 ∧ decodeNat w = r) (he : encodeNat i = some w) (hi : i.fieldsFit = fits)
    (hd : fits = true → i.wellFormed = true → r = check i)
    (hb : fits = true → bounds := by
      simp only [Bool.and_eq_true, decide_eq_true_eq, b2n_lt_two, true_and, and_true]; omega) : RoundTrip i := by
  intro w' hwf he'
  have hfits : fits = true := hi ▸ fieldsFit_of_wellFormed hwf
  obtain ⟨hlt, hdec⟩ := hw (hb hfits)
  obtain rfl : w = w' := Option.some.inj (he.symm.trans he')
  exact ⟨hlt, (hdec.trans (hd hfits hwf)).trans (check_of_wellFormed hwf)⟩

theorem roundTrip (i : Instr) : RoundTrip i := by
  cases i
  case add | sub | and | or | xor | andn | sll | srl | sra | ror | slt | sltu | min | max | minu | maxu | mul | mulh | mulhu |
      clz | ctz | popc | sextb | sexth | sextw | zextw | shadd1 | shadd2 | shadd3 =>
    exact .of_layout (_ && _) (decodeNat_encR (by decide)) rfl rfl fun _ _ => by cases ‹Bool› <;> rfl
  case qsetEq | qsetNe | qsetLt | qsetGe | qsetLtu | qsetGeu | qand | qor | qxor | qandn | qnot | qtrue | qfalse | qunres | jr |
      callr =>
    exact .of_layout (_ && _) (decodeNat_encR (by decide)) rfl rfl fun _ _ => rfl
  case ret => exact .of_layout (decide _) (decodeNat_encR (by decide)) rfl rfl fun _ _ => rfl
  case div | divu | rem | remu => exact .of_layout (_ && _) decodeNat_encRL rfl rfl fun _ _ => rfl
  case addi | andi | ori | xori | slti | sltiu | movi =>
    exact .of_layout (_ && _) (decodeNat_encI (by decide)) rfl rfl fun _ _ => rfl
  case slli d a sh g | srli d a sh g | srai d a sh g | rori d a sh g =>
    refine .of_layout (_ && _) (decodeNat_encI (by decide)) rfl rfl fun h _ => ?_
    simp only [Bool.and_eq_true, decide_eq_true_eq] at h
    obtain ⟨⟨-, hsh⟩, -⟩ := h
    simp only [decI, dec09_of_lt hsh]
  case beq | bne | blt | bge | bltu | bgeu | bqt | bqf => exact .of_layout (_ && _) decodeNat_encB rfl rfl fun _ _ => rfl
  case j | call => exact .of_layout (decide _) (decodeNat_encJ (by decide)) rfl rfl fun _ _ => rfl
  case ld | ldn | st | prefTlb | prefMsc => exact .of_layout (_ && _) (decodeNat_encM (by decide)) rfl rfl fun _ _ => rfl
  case ldv | stv | ldx | ldxSc | stx | stxSc | vsqrt | vrcp | vexp2 | vlog2 =>
    exact .of_layout (_ && _) (decodeNat_encVL (by decide)) rfl rfl fun _ _ => rfl
  case gather d a vi m cls la =>
    refine .of_layout (_ && _) (decodeNat_encVL (by decide)) rfl rfl fun h _ => ?_
    have hvi : vi < 32 := by simp only [Bool.and_eq_true, decide_eq_true_eq] at h; omega
    exact dec14_gather hvi
  case scatter d a vi m la =>
    refine .of_layout (_ && _) (decodeNat_encVL (by decide)) rfl rfl fun h _ => ?_
    have hvi : vi < 32 := by simp only [Bool.and_eq_true, decide_eq_true_eq] at h; omega
    exact dec14_scatter hvi
  case vdiv d a b m p la =>
    refine .of_layout (_ && _) (decodeNat_encVL (by decide)) rfl rfl fun h _ => ?_
    have hb : b < 32 := by simp only [Bool.and_eq_true, decide_eq_true_eq] at h; omega
    exact dec25_of_lt hb
  case lds | ldsE | stf | sete | amoSwap | amoAdd | amoAnd | amoOr | amoXor | amoMin | amoMax | amoMinu | amoMaxu | amoFadd |
      amoFaddX | amoFmin | amoFmax | ldo | cas | fence =>
    exact .of_layout (_ && _) (decodeNat_encA (by decide)) rfl rfl fun _ _ => rfl
  case sto => exact .of_layout (_ && _) (decodeNat_encA (by decide)) rfl rfl fun _ _ => dec17_release ..
  case send | sends | mcmd | rbwait | rbadv | stbind | cp | cp2d | cpidx | cpwait | cpredO | cpredU | evpop | evwait | evpost |
      qpost | qarm | ctradd | ctrwait | ctrset | accz | accld | accst | acccvt | accmov | xmov | xtr | xzero | xcvt | tfact |
      tsolve | burst | rgcfg | rgmt | rgmtu | rginj | rgstart | rgwait | rgstat | rgreinj | aucfg | prld | prst | aubid | austep |
      aures | austat | vpjCfg | vpj | vpjMrg | vpjRd | vpjRegen | vpjInit | start | yield | follow | wid | pnpush | join | vote |
      haly | hsum =>
    exact .of_layout (_ && _) (decodeNat_encX (by decide)) rfl rfl fun _ _ => rfl
  case hoist | strike | stunbind | mwait | rgret | exit | unfollow =>
    exact .of_layout (decide _) (decodeNat_encX (by decide)) rfl rfl fun _ _ => rfl
  case vadd | vsub | vmul | vmin | vmax | vabs | vneg | viadd | visub | vimul | vimin | vimax | viminu | vimaxu | viadds |
      visubs | vand | vor | vxor | vsll | vsrl | vsra | vfcmpEq | vfcmpLt | vfcmpLe | vfcmpUn | vicmpEq | vicmpLt | vicmpLtu |
      vmov | vsplat | vext | vins | vsel | vperm | vraddO | vraddU | vrmin | vrmax | vscanO | vscanU | viradd | vcvtRne | vcvtRtz |
      vcvtRdn | vcvtRup | vcvtSr | vpackb | vunpackb | vftoi | vitof | vfma | vfms | vfnma | vfnms | mand | mor | mxor | mandn |
      mnot | mpopc =>
    exact .of_layout (_ && _) (decodeNat_encV (by decide)) rfl rfl fun _ _ => by cases ‹Bool› <;> rfl
  case mma | mmac => exact .of_layout (_ && _) decodeNat_encMma rfl rfl fun _ _ => rfl
  case lpset => exact .of_layout (_ && _) decodeNat_encLoop rfl rfl fun _ _ => rfl
  case lppop => exact .of_layout true decodeNat_encLoop rfl rfl (fun _ _ => rfl) (fun _ => by decide)
  case mfc | mtc | msc | mcc | trap | sysc =>
    exact .of_layout (_ && _) decodeNat_encSys rfl rfl fun _ hwf => (check_of_wellFormed hwf).symm
  case brk | halt | spillw => exact .of_layout (decide _) decodeNat_encSys rfl rfl fun _ hwf => (check_of_wellFormed hwf).symm
  case tret | fillw =>
    exact .of_layout true decodeNat_encSys rfl rfl (fun _ hwf => (check_of_wellFormed hwf).symm) (fun _ => by decide)
  case hintImm => exact .of_layout (decide _) decodeNat_encH rfl rfl fun _ hwf => (check_of_wellFormed hwf).symm
  case hintHome =>
    refine .of_layout (decide _) decodeNat_encH rfl rfl fun h hwf => ?_
    rw [dec3D_home (of_decide_eq_true h), check_of_wellFormed hwf]
    rfl
  case hintMod payload =>
    refine .of_layout (decide _) decodeNat_encH rfl rfl fun _ hwf => ?_
    obtain rfl : payload = 1 := beq_iff_eq.1 (constraintOk_of_wellFormed hwf : (payload == 1) = true)
    exact (check_of_wellFormed hwf).symm
  case nop =>
    exact .of_layout (w := 62 * 2 ^ 26) true (fun _ => ⟨by decide, rfl⟩) rfl rfl (fun _ _ => rfl) (fun _ => trivial)
  -- The rows that remain are events and have no word.
  all_goals exact .of_no_word rfl

/-- Settles O57: the instruction's constructor says which layout its word has, and the decoder of its major gives it back. -/
theorem wordsRoundTrip : Obligations.WordsRoundTrip := by
  unfold Obligations.WordsRoundTrip
  exact fun i w hwf he => roundTrip i w hwf he

/-! ### Written-out words -/

theorem decodeNat_of_encodeNat {i : Instr} {w : Nat} (hwf : i.wellFormed = true) (he : encodeNat i = some w) :
    decodeNat w = .ok i := (roundTrip i w hwf he).2

/-- Settles O56: each word is the encoding of the well-formed instruction that it stands for, and two majors are unassigned. -/
theorem wordsDecode : Obligations.WordsDecode := by
  unfold Obligations.WordsDecode
  have rejected : decodeNat 0 = .error .major ∧ decodeNat 0xFFFFFFFF = .error .major := ⟨rfl, rfl⟩
  exact ⟨decodeNat_of_encodeNat rfl rfl, decodeNat_of_encodeNat rfl rfl, decodeNat_of_encodeNat rfl rfl,
    decodeNat_of_encodeNat rfl rfl, decodeNat_of_encodeNat rfl rfl, decodeNat_of_encodeNat rfl rfl,
    decodeNat_of_encodeNat rfl rfl, rejected⟩

end Sys2Proof
end

/-! # HINT chains and illegal words (O46) -/

section
namespace Sys2Proof.Machine

theorem exec_hintImm (n : Nat) (s : State) : exec (.hintImm n) s = hintIssue (.imm n) (encH 61 0 n) s := by rfl

theorem exec_hintHome (n : Nat) (s : State) : exec (.hintHome n) s = hintIssue (.home n) (encH 61 1 n) s := by rfl

theorem exec_hintMod (n : Nat) (s : State) : exec (.hintMod n) s = hintIssue (.mod n) (encH 61 2 n) s := by rfl

theorem exec_illegalWord (w : Nat) (s : State) : exec (.illegalWord w) s =
    (if bits w 31 26 = 61 then s.hintIllegal w else illegal w s).outcome s := by rfl

/-- The state once a HINT has joined the chain. -/
def State.hinted (s : State) (h : Hint) : State :=
  s.setCx { s.cx with flow := { s.cx.flow with
    chain := s.cx.flow.chain ++ [h], chainPc := if s.cx.flow.chain = [] then s.cx.flow.pc else s.cx.flow.chainPc,
    pc := s.cx.flow.pc + 4 } }

/-- Where no context follows another, a HINT is handled by its own core alone. -/
theorem hintIssue_alone (h : Hint) (w : Nat) (s : State) (hf : s.cx.follow = none) (ha : s.alone) :
    hintIssue h w s = if 3 ≤ s.cx.flow.chain.length ∨ s.cx.atEnd s.cx.flow.pc = true then (s.hintIllegal w).outcome s
      else .next (s.hinted h) := by
  have hs : (s.hinted h).stream s.cx.flow.pc w false = s.hinted h :=
    State.stream_none _ _ _ _ (State.alone_setCx s _ ha hf)
  unfold hintIssue
  simp only [State.following_none s hf, State.heldByFollower_none s ha, Bool.false_eq_true, if_false]
  split
  · rfl
  · show Host.Outcome.next (if s.cx.level = 0 then (s.hinted h).stream s.cx.flow.pc w false else s.hinted h) = _
    rw [hs, ite_self]

theorem hintIllegal_outcome (s : State) (w : Nat) : (s.hintIllegal w).outcome s = if s.cx.flow.closed then .next s else
    .next (s.takeTrap s.cur.1 s.cur.2 ⟨.illegal, 0, BitVec.ofNat 64 w, s.cx.flow.pc, s.cx.flow.pc, 0, none, none⟩).stamp := by
  unfold State.hintIllegal
  split <;> rfl

theorem illegal_outcome (s : State) (w : Nat) (hc : s.cx.flow.closed = false) :
    (illegal w s).outcome s = .next (s.trapHere .illegal 0 (BitVec.ofNat 64 w)) := by
  simp [illegal, hc, Issued.outcome]

theorem hintIssue_joins (h : Hint) (w : Nat) (s : State) (hf : s.cx.follow = none) (ha : s.alone)
    (hlen : s.cx.flow.chain.length < 3) (hend : s.cx.atEnd s.cx.flow.pc = false) :
    hintIssue h w s = .next (s.hinted h) := by
  rw [hintIssue_alone h w s hf ha, if_neg]
  simp [hend, hlen]

theorem hintIssue_traps (h : Hint) (w : Nat) (s : State) (hf : s.cx.follow = none) (ha : s.alone)
    (hbad : 3 ≤ s.cx.flow.chain.length ∨ s.cx.atEnd s.cx.flow.pc = true) :
    hintIssue h w s = (s.hintIllegal w).outcome s := by
  rw [hintIssue_alone h w s hf ha, if_pos hbad]

theorem exec_illegalWord_open (s : State) (w : Nat) (hc : s.cx.flow.closed = false) :
    exec (.illegalWord w) s = .next (if bits w 31 26 = 61 then
      (s.takeTrap s.cur.1 s.cur.2 ⟨.illegal, 0, BitVec.ofNat 64 w, s.cx.flow.pc, s.cx.flow.pc, 0, none, none⟩).stamp
    else s.trapHere .illegal 0 (BitVec.ofNat 64 w)) := by
  rw [exec_illegalWord]
  split
  · simp [hintIllegal_outcome, hc]
  · exact illegal_outcome s w hc

/-- Settles O46: a HINT with room joins the chain, any other traps at its own address, and a word that is no instruction traps
where its major says. -/
theorem hintWords : Obligations.HintWords := by
  unfold Obligations.HintWords
  refine ⟨fun s n hf ha => ⟨fun hlen hend => ?_, fun hbad => ?_⟩, exec_illegalWord_open⟩
  · rw [exec_hintImm, exec_hintHome, exec_hintMod]
    exact ⟨hintIssue_joins _ _ s hf ha hlen hend, hintIssue_joins _ _ s hf ha hlen hend, hintIssue_joins _ _ s hf ha hlen hend⟩
  · have traps (h : Hint) (w : Nat) := (hintIssue_traps h w s hf ha hbad).trans (hintIllegal_outcome s w)
    rw [exec_hintImm, exec_hintHome, exec_hintMod]
    exact ⟨traps _ _, traps _ _, traps _ _⟩

end Sys2Proof.Machine
end

/-! # Register writes of the physical function (O52)

A write of the host is a `devPut` of the register (`State.hostPut_word`), and `devPut` has one lemma for each group of registers
that the statement names. -/

section
namespace Sys2Proof.Machine

/-! ### Events, and registers as numbers -/

theorem eventOn_eq_next {b : Bool} {t u : State} (hb : b = true) (h : t = u) : eventOn b t = .next u := by
  rw [eventOn, if_pos hb, h]

@[simp] theorem State.dregN_setDreg_same (s : State) (off : Nat) (v : W64) : (s.setDreg off v).dregN off = v.toNat := by
  simp [State.dregN, State.dreg!, State.setDreg]

theorem bit_eq_testBit (w n : Nat) : bit w n = w.testBit n := Nat.testBit_eq_decide_div_mod_eq.symm

/-- A mask of `k` low-order ones lets through the value modulo 2^k. -/
theorem toNat_ofNat_and_low {m k : Nat} (v : W64) (hm : m = 2 ^ k - 1) :
    (BitVec.ofNat 64 (v.toNat &&& m)).toNat = v.toNat % 2 ^ k := by
  have hlt : v.toNat % 2 ^ k < 2 ^ 64 := lt_of_le_of_lt (Nat.mod_le _ _) v.isLt
  rw [hm, Nat.and_two_pow_sub_one_eq_mod, BitVec.toNat_ofNat, Nat.mod_eq_of_lt hlt]

/-! ### Which registers a function reaches -/

theorem State.admits_of_no_domain {s : State} {a : Agent} {off new : Nat} {write : Bool} (h : s.regDomain off = none) :
    s.admits a off new write = true := by
  simp [State.admits, h]

/-- The registers outside the four groups that belong to a domain. -/
theorem State.regDomain_none {s : State} {off : Nat} (h1 : off < 0x100000 ∨ 0x100800 ≤ off)
    (h2 : off < 0x200000 ∨ 0x220000 ≤ off) (h3 : off < 0x240000 ∨ 0x241000 ≤ off) (h4 : off < 0x260000 ∨ 0x261000 ≤ off) :
    s.regDomain off = none := by
  simp (disch := omega) only [State.regDomain, if_neg]

theorem State.regDomain_queue {s : State} {n r : Nat} (hn : n < 4096) (hr : r < 32) :
    s.regDomain (qReg n r) = some (s.qDom n) := by
  simp (disch := omega) only [State.regDomain, qReg, if_neg, if_pos, State.qDom, State.qctl,
    show (0x200000 + 32 * n + r - 0x200000) / 32 * 32 + 0x200008 = 0x200000 + 32 * n + 8 by omega]

theorem State.regDomain_comm {s : State} {n : Nat} (hn : n < 64) :
    s.regDomain (0x240000 + 64 * n) = some (bits (s.dregN (0x240000 + 64 * n)) 15 8) := by
  simp (disch := omega) only [State.regDomain, if_neg, if_pos,
    show (0x240000 + 64 * n - 0x240000) / 64 * 64 + 0x240000 = 0x240000 + 64 * n by omega]

/-- A write of QCTL is judged by the domain that it sets and by the one that it leaves. -/
theorem State.admits_qctl {s : State} {a : Agent} {n v : Nat} (hn : n < 4096) (hv : s.reaches a (bits v 15 8) = true)
    (hd : s.qDom n = 0 ∨ s.reaches a (s.qDom n) = true) : s.admits a (qReg n 8) v true = true := by
  have hctl : 0x200000 ≤ qReg n 8 ∧ qReg n 8 < 0x220000 ∧ qReg n 8 % 32 = 8 := by
    unfold qReg
    omega
  simp [State.admits, State.regDomain_queue hn (show 8 < 32 by decide), hctl, hv, hd]

theorem State.admits_qtail {s : State} {a : Agent} {n v : Nat} (hn : n < 4096) (hd : s.reaches a (s.qDom n) = true) :
    s.admits a (qReg n 0x10) v true = true := by
  have hmod : qReg n 0x10 % 32 ≠ 8 := by
    unfold qReg
    omega
  have hlt : ¬ 0x240000 ≤ qReg n 0x10 := by
    unfold qReg
    omega
  simp [State.admits, State.regDomain_queue hn (show 0x10 < 32 by decide), hmod, hlt, hd]

/-- A write of CCTL that keeps the domain is judged by that domain. -/
theorem State.admits_cctl {s : State} {a : Agent} {n v : Nat} (hn : n < 64)
    (hd : bits v 15 8 = bits (s.dregN (0x240000 + 64 * n)) 15 8) (hv : s.reaches a (bits v 15 8) = true) :
    s.admits a (0x240000 + 64 * n) v true = true := by
  rw [State.admits, State.regDomain_comm hn, ← hd]
  simp [hv]

/-! ### What a write of a register does -/

section
variable {s : State} {a : Agent} {v acts mask : Nat}

theorem State.devPut_domctl {n : Nat} (hn : n < 256) :
    s.devPut a (0x2A0000 + 8 * n) v acts mask = .ok (if a.pf then s.domWrite n (BitVec.ofNat 64 v) (bit mask 63) else s) := by
  simp (disch := omega) only [State.devPut, if_pos, show (0x2A0000 + 8 * n - 0x2A0000) / 8 = n by omega]

theorem State.devPut_keycmd (hp : a.pf = true) : s.devPut a 0x2A1050 v acts mask = .ok (s.keyStart (acts % 4)) := by
  simp [State.devPut, hp]

theorem State.devPut_pnqbase {n : Nat} (hn : n < 8) (hp : a.pf = true) (hr : s.clusterRuns n = false) :
    s.devPut a (0x2C0000 + 8 * n) v acts mask =
      .ok (s.setDreg (0x2C0000 + 8 * n) (BitVec.ofNat 64 (v &&& rwMask (0x2C0000 + 8 * n)))) := by
  simp (disch := omega) only [State.devPut, if_pos, if_neg, show (0x2C0000 + 8 * n - 0x2C0000) / 8 = n by omega]
  simp [hp, hr]

theorem State.devPut_devnum (hp : a.pf = true) : s.devPut a 0x2D0000 v acts mask =
    .ok (if bit (s.dregN 0x2D0000) 63 then s else s.setDreg 0x2D0000 (BitVec.ofNat 64 (v &&& rwMask 0x2D0000))) := by
  cases hb : bit (s.dregN 0x2D0000) 63 <;> simp [State.devPut, hp, hb]

variable (ht : a.trusted = true)
include ht

theorem State.devPut_xlinv : s.devPut a 0x101008 v acts mask =
    .ok (if bit acts 63 then s.invStart (bits acts 9 8) (acts % 2 ^ 8) (s.dreg! 0x101000) else s) := by
  simp [State.devPut, ht, State.admits, State.regDomain]

theorem State.devPut_queue {n r : Nat} (hn : n < 4096) (hr : r < 0x18) (hd : s.admits a (qReg n r) v true = true) :
    s.devPut a (qReg n r) v acts mask =
      .ok ((s.setDreg (qReg n r) (BitVec.ofNat 64 (v &&& rwMask (qReg n r)))).qUpdate n) := by
  have hq : qReg n r = 0x200000 + 32 * n + r := rfl
  simp (disch := omega) only [State.devPut, if_neg, if_pos, ht, hd, show (qReg n r - 0x200000) / 32 = n by omega,
    Bool.not_true, Bool.false_eq_true, reduceIte]

theorem State.devPut_cctl {n : Nat} (hn : n < 64) (hd : s.admits a (0x240000 + 64 * n) v true = true)
    (hv : bits v 15 8 = bits (s.dregN (0x240000 + 64 * n)) 15 8) : s.devPut a (0x240000 + 64 * n) v acts mask =
      .ok (s.setDreg (0x240000 + 64 * n) (BitVec.ofNat 64 (v &&& rwMask (0x240000 + 64 * n)))) := by
  simp (disch := omega) only [State.devPut, if_neg, if_pos, ht, hd, hv, Bool.not_true, Bool.false_eq_true, ne_eq, not_true, reduceIte]

/-- FQCTL and FQHEAD. -/
theorem State.devPut_faultQueue {off : Nat} (ho : off = 0x270008 ∨ off = 0x270010) : s.devPut a off v acts mask =
    .ok (s.setDreg off (BitVec.ofNat 64 (v &&& rwMask off))).drainLatches := by
  have hd : s.admits a off v true = true :=
    State.admits_of_no_domain (State.regDomain_none (by omega) (by omega) (by omega) (by omega))
  simp (disch := omega) only [State.devPut, if_neg, if_pos, ht, hd, Bool.not_true, Bool.false_eq_true, reduceIte]

theorem State.devPut_rngGo {n : Nat} (hn : n < 256) (hf : bit (s.dregN (rngReg n 0x38)) 63 = false) (hv : bit v 63 = true) :
    s.devPut a (rngReg n 0x38) v acts mask =
      .ok ((s.setDreg (rngReg n 0x38) (BitVec.ofNat 64 (v &&& 0x800000000000FF00))).rngStart n) := by
  have hq : rngReg n 0x38 = 0x290000 + 64 * n + 0x38 := rfl
  have hd : s.admits a (rngReg n 0x38) v true = true :=
    State.admits_of_no_domain (State.regDomain_none (by omega) (by omega) (by omega) (by omega))
  simp (disch := omega) only [State.devPut, if_neg, if_pos, ht, hd, hv, hf, show (rngReg n 0x38 - 0x290000) / 64 = n by omega,
    Bool.not_true, Bool.false_eq_true, reduceIte]

theorem State.devPut_launchLimit {n : Nat} (hn : n < 4) : s.devPut a (0x220000 + 32 * n) v acts mask =
    .ok (s.setDreg (0x220000 + 32 * n) (BitVec.ofNat 64 (v &&& rwMask (0x220000 + 32 * n)))) := by
  have hd : s.admits a (0x220000 + 32 * n) v true = true :=
    State.admits_of_no_domain (State.regDomain_none (by omega) (by omega) (by omega) (by omega))
  have hm : rwMask (0x220000 + 32 * n) = 0x1FF := by
    simp (disch := omega) only [rwMask, if_neg, if_pos, show (0x220000 + 32 * n) % 32 = 0 by omega]
  simp (disch := omega) only [State.devPut, if_neg, ht, hd, hm, Bool.not_true, Bool.false_eq_true, reduceIte]

theorem State.devPut_linkReq (hm : bit mask 0 = true) : s.devPut a 0x2B0010 v acts mask =
    .ok { s.setDreg 0x2B0010 (BitVec.ofNat 64 (v &&& rwMask 0x2B0010)) with
      admin := { s.admin with linkPending := v % 4 == 1 || v % 4 == 2 } } := by
  simp [State.devPut, ht, hm, State.admits, State.regDomain]

theorem State.devPut_dieFreq {n : Nat} (hn : n < 4) (hm : bit mask 0 = true) : s.devPut a (0x2B0018 + 8 * n) v acts mask =
    .ok { s.setDreg (0x2B0018 + 8 * n) (BitVec.ofNat 64 (v &&& rwMask (0x2B0018 + 8 * n))) with
      admin := { s.admin with diePending :=
        if 800 ≤ v % 2 ^ 16 ∧ v % 2 ^ 16 ≤ 1700 then s.admin.diePending.erase n ++ [n] else s.admin.diePending.erase n } } := by
  have hd : s.admits a (0x2B0018 + 8 * n) v true = true :=
    State.admits_of_no_domain (State.regDomain_none (by omega) (by omega) (by omega) (by omega))
  simp (disch := omega) only [State.devPut, if_neg, ht, hd, hm, Bool.not_true, Bool.false_eq_true, reduceIte]
  simp (disch := omega) only [if_pos, show (0x2B0018 + 8 * n - 0x2B0018) / 8 = n by omega]
  rfl

end

/-! ### Writes of the host -/

section
variable {s t : State} (h : HostOpen s)
include h

/-- With the link up and the package not in FWFAIL, a write of the host is a write of the register. -/
theorem State.hostPut_of_open {fn off v : Nat} (ho : off % 8 = 0) (hv : v < 2 ^ 64)
    (hf : s.devPut (.fn fn) off v v (2 ^ 64 - 1) = .ok t) : s.hostPut fn off 8 v = t := by
  obtain ⟨hfw, hlink⟩ := h
  have hw : s.devWrite (.fn fn) off 8 v = .ok t := by
    rw [State.devWrite, if_pos rfl, show off / 8 * 8 = off by omega, Nat.mod_eq_of_lt hv, hf]
  simp [State.hostPut, State.fwFailed, hfw, hlink, hw]

theorem State.hostPut_word {fn off : Nat} {v : W64} (ho : off % 8 = 0)
    (hf : s.devPut (.fn fn) off v.toNat v.toNat (2 ^ 64 - 1) = .ok t) : s.hostPut fn off 8 v.toNat = t :=
  State.hostPut_of_open h ho v.isLt hf

theorem eventOn_hostPut {b : Bool} {fn off : Nat} {v : W64} (hb : b = true) (ho : off % 8 = 0)
    (hf : s.devPut (.fn fn) off v.toNat v.toNat (2 ^ 64 - 1) = .ok t) : eventOn b (s.hostPut fn off 8 v.toNat) = .next t :=
  eventOn_eq_next hb (State.hostPut_word h ho hf)

theorem State.xlinvGo_of_open {kind dom : Nat} (hk : kind < 4) (hd : dom < 256) :
    s.xlinvGo kind dom = s.invStart kind dom (s.dreg! 0x101000) := by
  refine State.hostPut_of_open h rfl (by omega) ((State.devPut_xlinv rfl).trans ?_)
  have hgo : bit (2 ^ 63 + kind * 2 ^ 8 + dom) 63 = true := by
    simp only [bit, beq_iff_eq]
    omega
  have hkind : bits (2 ^ 63 + kind * 2 ^ 8 + dom) 9 8 = kind := by
    simp only [bits]
    omega
  rw [if_pos hgo, hkind, show (2 ^ 63 + kind * 2 ^ 8 + dom) % 2 ^ 8 = dom by omega]

end

/-! ### The writes of the statement -/

theorem State.dregN_rngStart (s : State) (n off : Nat) : (s.rngStart n).dregN off = s.dregN off := rfl

theorem State.keyStart_takes {s : State} {cmd : Nat} (hc : cmd = 1 ∨ cmd = 2) (hslot : s.dregN 0x2A1000 % 2 ^ 14 ≠ 0)
    (hb : s.admin.keyBusy = 0) : s.keyStart cmd =
      { s.keySlot cmd with admin := { (s.keySlot cmd).admin with keyBusy := cmd } } := by
  rw [State.keyStart, if_neg (by omega), if_neg hslot, if_neg (by omega)]

section
variable {s : State} (h : HostOpen s)
include h

theorem State.xlinvGo_queues {kind dom : Nat} (hk : kind < 3) (hd : dom < 256) :
    (s.xlinvGo kind dom).admin.xlinv = s.admin.xlinv ++ [(kind, dom, s.dreg! 0x101000)] ∧ SameMem s (s.xlinvGo kind dom) := by
  rw [State.xlinvGo_of_open h (by omega) hd, State.invStart, if_neg (by omega)]
  exact ⟨rfl, fun _ => rfl⟩

theorem exec_rngFill {n : Nat} (hn : n < 256) (hf : bit (s.dregN (rngReg n 0x38)) 63 = false) :
    Happens (.rngFill n) s (fun t => t.admin.fills = s.admin.fills ++ [n] ∧ bit (t.dregN (rngReg n 0x38)) 63 = true ∧
      SameMem s t) := by
  have hlt : bits (s.dregN (rngReg n 0x38)) 15 8 < 2 ^ 8 := Nat.mod_lt _ (by decide)
  refine ⟨_, eventOn_eq_next (decide_eq_true hn) rfl, ?_⟩
  generalize bits (s.dregN (rngReg n 0x38)) 15 8 = d at hlt
  have hgo : bit (2 ^ 63 + d * 2 ^ 8) 63 = true := by
    simp only [bit, beq_iff_eq]
    omega
  rw [State.hostPut_of_open h (by unfold rngReg; omega) (by omega) (State.devPut_rngGo rfl hn hf hgo)]
  refine ⟨rfl, ?_, fun _ => rfl⟩
  rw [bit_eq_testBit] at hgo ⊢
  rw [State.dregN_rngStart, State.dregN_setDreg_same, BitVec.toNat_ofNat, Nat.testBit_mod_two_pow, Nat.testBit_and, hgo]
  decide

theorem exec_dieClockRequest {n : Nat} {v : W64} (hn : n < 4) : Happens (.dieClockRequest n v) s (fun t =>
    t.dregN (0x2B0018 + 8 * n) = v.toNat % 2 ^ 16 ∧
    (800 ≤ v.toNat % 2 ^ 16 → v.toNat % 2 ^ 16 ≤ 1700 → n ∈ t.admin.diePending) ∧
    (s.admin.diePending.Nodup → v.toNat % 2 ^ 16 < 800 ∨ 1700 < v.toNat % 2 ^ 16 → n ∉ t.admin.diePending) ∧ SameMem s t) := by
  have hm : rwMask (0x2B0018 + 8 * n) = 2 ^ 16 - 1 := by
    simp (disch := omega) only [rwMask, if_neg, if_pos]
    rfl
  refine ⟨_, eventOn_eq_next (decide_eq_true hn)
    (State.hostPut_word h (by omega) (State.devPut_dieFreq rfl hn rfl)), ?_, fun h1 h2 => ?_, fun hnd hout => ?_, fun _ => rfl⟩
  · exact (State.dregN_setDreg_same ..).trans (toNat_ofNat_and_low v hm)
  · dsimp only
    rw [if_pos ⟨h1, h2⟩]
    simp
  · have hno : ¬(800 ≤ v.toNat % 2 ^ 16 ∧ v.toNat % 2 ^ 16 ≤ 1700) := by omega
    dsimp only
    rw [if_neg hno]
    exact hnd.not_mem_erase

theorem State.hostPut_keycmd {cmd : Nat} (hc : cmd = 1 ∨ cmd = 2) (hslot : s.dregN 0x2A1000 % 2 ^ 14 ≠ 0)
    (hb : s.admin.keyBusy = 0) : s.hostPut 0 0x2A1050 8 cmd =
      { s.keySlot cmd with admin := { (s.keySlot cmd).admin with keyBusy := cmd } } := by
  refine State.hostPut_of_open h rfl (by omega) ((State.devPut_keycmd rfl).trans ?_)
  rw [show cmd % 4 = cmd by omega, State.keyStart_takes hc hslot hb]

theorem exec_linkWidthRequest (v : W64) : Happens (.linkWidthRequest v) s (fun t => t.dregN 0x2B0010 = v.toNat % 4 ∧
    t.admin.linkPending = decide (v.toNat % 4 = 1 ∨ v.toNat % 4 = 2)) := by
  refine ⟨_, congrArg Host.Outcome.next (State.hostPut_word h rfl (State.devPut_linkReq rfl rfl)), ?_, ?_⟩
  · exact (State.dregN_setDreg_same ..).trans (toNat_ofNat_and_low (k := 2) v rfl)
  · exact (Bool.decide_or _ _).symm

end

/-- Settles O52: each write is a write of its register that the host port lets through. -/
theorem hostRegisterEvents : Obligations.HostRegisterEvents := by
  unfold Obligations.HostRegisterEvents
  intro s v n h
  refine ⟨fun hn => ⟨⟨_, eventOn_eq_next (decide_eq_true hn) rfl, State.xlinvGo_queues h (by decide) hn⟩,
      ⟨_, eventOn_eq_next (decide_eq_true hn) rfl, State.xlinvGo_queues h (by decide) hn⟩⟩,
    ⟨_, rfl, State.xlinvGo_queues h (by decide) (by decide)⟩, ?reserved, fun hf => ?devnum, fun hf => ?devnumLocked,
    fun hn hr => ?pnqbase, fun hn => ?domctl, fun fn h1 h2 hn => ?domctlVirtual, fun d hn hd hr ho => ?qctl, fun hn hr => ?qtail,
    ?fqhead, ?fqctl, fun d hn hd ho hr => ?cctl, fun hn hf => exec_rngFill h hn hf, fun hn => ?limit, fun hslot hb => ?keys,
    exec_linkWidthRequest h v, fun hn => exec_dieClockRequest h hn⟩
  case reserved => exact congrArg Host.Outcome.next (State.xlinvGo_of_open h (by decide) (by decide))
  case devnum => exact eventOn_hostPut h rfl rfl ((State.devPut_devnum rfl).trans (by rw [if_neg (by simp [hf])]; rfl))
  case devnumLocked => exact eventOn_hostPut h rfl rfl ((State.devPut_devnum rfl).trans (by rw [if_pos hf]))
  case pnqbase => exact eventOn_hostPut h (by simp [hn]) (by omega) (State.devPut_pnqbase hn rfl hr)
  case domctl =>
    refine eventOn_hostPut h (by simp [hn]) (by omega) ((State.devPut_domctl hn).trans ?_)
    rw [if_pos (by rfl), BitVec.ofNat_toNat, BitVec.setWidth_eq]
    rfl
  case domctlVirtual =>
    have hpf : (Agent.fn fn).pf = false := beq_eq_false_iff_ne.2 (by omega)
    exact eventOn_hostPut h (by simp [hn, h2]) (by omega) ((State.devPut_domctl hn).trans (by simp [hpf]))
  case qctl =>
    subst hd
    rw [show 0x200008 + 32 * n = qReg n 8 by unfold qReg; omega] at ho
    exact eventOn_hostPut h (by simp [hn]) (by unfold qReg; omega)
      (State.devPut_queue rfl hn (by decide) (State.admits_qctl hn hr ho))
  case qtail =>
    exact eventOn_hostPut h (by simp [hn]) (by unfold qReg; omega)
      (State.devPut_queue rfl hn (by decide) (State.admits_qtail hn hr))
  case fqhead => exact congrArg Host.Outcome.next (State.hostPut_word h rfl (State.devPut_faultQueue rfl (.inr rfl)))
  case fqctl => exact congrArg Host.Outcome.next (State.hostPut_word h rfl (State.devPut_faultQueue rfl (.inl rfl)))
  case cctl =>
    subst hd
    exact eventOn_hostPut h (by simp [hn]) (by omega) (State.devPut_cctl rfl hn (State.admits_cctl hn ho hr) ho)
  case limit =>
    refine eventOn_eq_next (by simp; omega) ?_
    rw [if_pos (by omega)]
    exact State.hostPut_word h (by omega) (State.devPut_launchLimit rfl hn)
  case keys =>
    exact ⟨congrArg Host.Outcome.next (State.hostPut_keycmd h (.inl rfl) hslot hb),
      congrArg Host.Outcome.next (State.hostPut_keycmd h (.inr rfl) hslot hb)⟩

end Sys2Proof.Machine
end

/-! # Package engines move (O53)

Most of the engines change a few registers and nothing else. A random fill also writes memory, which leaves the registers alone
(`State.admin_rngBlocks`), and a write of RBEN treats each ring by itself (`State.rbenFold`). -/

section
namespace Sys2Proof

/-! ### Tables -/

theorem Tbl.get_map {α β : Type} (f : α → β) (d : α) (t : Tbl α) (n : Nat) :
    Tbl.get (f d) (t.map (fun p => (p.1, f p.2))) n = f (Tbl.get d t n) := by
  induction t with
  | nil => rfl
  | cons p r ih =>
    simp only [List.map_cons, Tbl.get, ih]
    split <;> rfl

theorem Tbl.find_put_ne {α : Type} (t : Tbl α) {n m : Nat} (x : α) (h : m ≠ n) : Tbl.find (Tbl.put t n x) m = Tbl.find t m := by
  induction t with
  | nil => simp [Tbl.put, Tbl.find, h.symm]
  | cons p r ih =>
    obtain ⟨k, y⟩ := p
    simp only [Tbl.put]
    split
    next hk => simp [Tbl.find, hk, h.symm]
    next => split <;> simp [Tbl.find, h.symm, ih]

theorem Tbl.find_erase_same {α : Type} (t : Tbl α) (n : Nat) : Tbl.find (Tbl.erase t n) n = none := by
  induction t with
  | nil => rfl
  | cons p r ih =>
    simp only [Tbl.erase]
    split
    next => exact ih
    next hk => simp [Tbl.find, hk, ih]

theorem Tbl.find_erase_ne {α : Type} (t : Tbl α) {n m : Nat} (h : m ≠ n) : Tbl.find (Tbl.erase t n) m = Tbl.find t m := by
  induction t with
  | nil => rfl
  | cons p r ih =>
    obtain ⟨k, y⟩ := p
    simp only [Tbl.erase]
    split
    next hk => simp [Tbl.find, hk, h.symm, ih]
    next => simp [Tbl.find, ih]

/-- What every step of a fold keeps, the fold keeps. -/
theorem foldl_keeps {α β γ : Type} (g : β → γ) {f : β → α → β} (h : ∀ b a, g (f b a) = g b) (l : List α) (b : β) :
    g (l.foldl f b) = g b := by
  induction l generalizing b with
  | nil => rfl
  | cons a l ih => exact (ih (f b a)).trans (h b a)

end Sys2Proof
end

section
namespace Sys2Proof.Machine

variable {s : State}

/-! ### The writes of engines leave the registers of the package alone -/

theorem State.admin_rekey (s : State) (ln m : Nat) : (s.rekey ln m).admin = s.admin := by
  unfold State.rekey
  split <;> rfl

theorem State.admin_heal (s : State) (a n : Nat) : (s.heal a n).admin = s.admin := by
  unfold State.heal
  split
  · rfl
  · refine foldl_keeps State.admin (fun s l => ?_) _ s
    dsimp only
    split <;> rfl

theorem State.admin_poke (s : State) (l : Loc) (n v : Nat) : (s.poke l n v).admin = s.admin := by
  unfold State.poke
  split
  · rfl
  · exact (State.admin_heal ..).trans (foldl_keeps State.admin (fun s ln => State.admin_rekey s ln _) _ s)

theorem State.admin_serveWord (s : State) (key fuel : Nat) : (s.serveWord key fuel).admin = s.admin := by
  induction fuel generalizing s with
  | zero => rfl
  | succ fuel ih =>
    unfold State.serveWord
    split
    · rfl
    · split
      · rfl
      · dsimp only
        split
        · exact ih _
        · split
          · exact ih _
          · split <;> exact ih _

theorem State.admin_setFull (s : State) (l : Loc) (n : Nat) : (s.setFull l n).admin = s.admin := by
  unfold State.setFull
  split <;> rfl

theorem State.admin_fill (s : State) (l : Loc) (n : Nat) : (s.fill l n).admin = s.admin := by
  unfold State.fill
  split
  · rfl
  · exact (foldl_keeps State.admin (fun s p => State.admin_serveWord s _ _) _ _).trans (State.admin_setFull s l n)

theorem State.admin_engStore (s : State) (l : Loc) (n v : Nat) : (s.engStore l n v).admin = s.admin := by
  unfold State.engStore
  split
  · exact (State.admin_fill ..).trans (State.admin_poke ..)
  · rfl
  · rfl

theorem State.admin_engWrite (s : State) (w : Who) (va : W64) (n v : Nat) (c : ACls) :
    (s.engWrite w va n v c).1.admin = s.admin := by
  unfold State.engWrite
  refine foldl_keeps (fun r : State × Option (Flt × W64) => r.1.admin) (fun r p => ?_) _ (s, none)
  dsimp only
  split
  · rfl
  · split
    · rfl
    · exact State.admin_engStore ..

theorem State.admin_rngBlocks (s : State) (n : Nat) (w : Who) (base : W64) (ctr j k : Nat) :
    (s.rngBlocks n w base ctr j k).1.admin = s.admin := by
  induction k generalizing s j with
  | zero => rfl
  | succ k ih =>
    have hw := State.admin_engWrite s w (base + BitVec.ofNat 64 (64 * j)) 64 (s.rngBlock n ((ctr + j) % 2 ^ 64)) .bulk
    unfold State.rngBlocks
    split
    next e => rw [← hw, e]
    next e => rw [ih, ← hw, e]

/-! ### Choices -/

theorem State.choose_lt {n : Nat} (hn : 0 < n) : (s.choose n).1 < n := by
  unfold State.choose
  dsimp only
  split
  · exact hn
  · exact Nat.mod_lt _ hn

/-! ### Random fills and domains -/

/-- What the end of a fill leaves: its blocks are written, RNGCTR has advanced unless they faulted, and RNGCTL has DOMAIN and ERR. -/
theorem State.rngEnd_cases {n : Nat} (hn : n ∈ s.admin.fills) : ∃ (u : State) (bad : Bool) (ctr : W64),
    u.admin = { s.admin with fills := s.admin.fills.erase n } ∧
    s.rngEnd n = (if bad then u else u.setDreg (rngReg n 0x30) ctr).setDreg (rngReg n 0x38)
      (BitVec.ofNat 64 (bits (s.dregN (rngReg n 0x38)) 15 8 * 2 ^ 8 + b2n bad * 2 ^ 62)) := by
  rw [State.rngEnd, if_neg (by simp [hn])]
  extract_lets a s1 ctl blocks ctr w
  split
  next u bad e =>
  have hu : u.admin = s1.admin := by
    have h := State.admin_rngBlocks s1 n w (BitVec.ofNat 64 (bits (s1.dregN (rngReg n 0x20)) 51 6 * 64)) ctr 0 blocks
    rwa [e] at h
  exact ⟨u, bad, _, hu, rfl⟩

theorem bit_rngCtl (d : Nat) (bad : Bool) (hd : d < 2 ^ 8) :
    bit (BitVec.ofNat 64 (d * 2 ^ 8 + b2n bad * 2 ^ 62)).toNat 63 = false := by
  have hb : b2n bad ≤ 1 := by cases bad <;> decide
  rw [BitVec.toNat_ofNat, bit, beq_eq_false_iff_ne]
  omega

theorem exec_rngFillComplete {n : Nat} (hn : n < 256) (hf : n ∈ s.admin.fills) (hd : s.admin.fills.Nodup) :
    Happens (.rngFillComplete n) s (fun t => n ∉ t.admin.fills ∧ bit (t.dregN (rngReg n 0x38)) 63 = false) := by
  obtain ⟨u, bad, ctr, hu, hend⟩ := State.rngEnd_cases hf
  refine ⟨_, eventOn_eq_next (decide_eq_true hn) hend, ?_, ?_⟩
  · rw [State.setDreg_admin, apply_ite State.admin, State.setDreg_admin, ite_self, hu]
    exact hd.not_mem_erase
  · rw [State.dregN_setDreg_same]
    exact bit_rngCtl _ bad (Nat.mod_lt _ (by decide))

theorem bit_and_not_bit (v : W64) : bit (v &&& ~~~(1#64 <<< 63)).toNat 63 = false := by
  rw [bit_eq_testBit, BitVec.testBit_toNat]
  simp

theorem exec_domainDisable {n : Nat} (hn : n < 256) (hm : n ∈ s.admin.disabling) (hr : s.domainRuns n = false)
    (hd : s.admin.disabling.Nodup) : Happens (.domainDisable n) s (fun t =>
      bit (t.dregN (0x2A0000 + 8 * n)) 63 = false ∧ n ∉ t.admin.disabling) := by
  have ht : s.disableNow n = State.setDreg { s with admin := { s.admin with disabling := s.admin.disabling.erase n } }
      (0x2A0000 + 8 * n) (s.dreg! (0x2A0000 + 8 * n) &&& ~~~(1#64 <<< 63)) := by
    rw [State.disableNow, if_pos (by simp [hm, hr])]
    rfl
  refine ⟨_, eventOn_eq_next (decide_eq_true hn) ht, ?_, hd.not_mem_erase⟩
  rw [State.dregN_setDreg_same]
  exact bit_and_not_bit _

/-! ### Invalidations -/

theorem State.invEnd_waits {q : Nat × Nat × W64} {r} (hq : s.admin.xlinv = q :: r)
    (hs : s.settledFor (fun d => q.1 == 2 || d == q.2.1) = false) : s.invEnd = s := by
  obtain ⟨kind, dom, addr⟩ := q
  simp only [State.invEnd, hq]
  exact if_pos (by simp [hs])

theorem State.invEnd_none (hq : s.admin.xlinv = []) : s.invEnd = s := by
  simp only [State.invEnd, hq]

/-- The entries of a TLB that an invalidation leaves. -/
def TlbEntry.left (q : Nat × Nat × W64) (l : List TlbEntry) : List TlbEntry := l.filter (fun e => !e.reached q.1 q.2.1 q.2.2)

theorem TlbEntry.mem_left {q : Nat × Nat × W64} {l : List TlbEntry} {e : TlbEntry} (h : e ∈ TlbEntry.left q l) :
    e ∈ l ∧ e.reached q.1 q.2.1 q.2.2 = false := by
  simpa [TlbEntry.left] using h

/-- A core after an invalidation. -/
def Core.invalidated (q : Nat × Nat × W64) (x : Core) : Core := { x with micro := TlbEntry.left q x.micro }

theorem State.invEnd_settled {q : Nat × Nat × W64} {r} (hq : s.admin.xlinv = q :: r)
    (hs : s.settledFor (fun d => q.1 == 2 || d == q.2.1) = true) : s.invEnd = { s with
      cores := s.cores.map (fun p => (p.1, p.2.invalidated q))
      ctlb := s.ctlb.map (fun p => (p.1, TlbEntry.left q p.2)), admin := { s.admin with xlinv := r } } := by
  obtain ⟨kind, dom, addr⟩ := q
  simp only [State.invEnd, hq]
  exact if_neg (by simp [hs])

theorem exec_xlinvComplete {q : Nat × Nat × W64} {r} (hq : s.admin.xlinv = q :: r)
    (hs : s.settledFor (fun d => q.1 == 2 || d == q.2.1) = true) : Happens .xlinvComplete s (fun t => t.admin.xlinv = r ∧ SameMem s t ∧
      (∀ c, ∀ e ∈ (t.core c).micro, e ∈ (s.core c).micro ∧ e.reached q.1 q.2.1 q.2.2 = false) ∧
      (∀ c, ∀ e ∈ Tbl.get [] t.ctlb c, e.reached q.1 q.2.1 q.2.2 = false)) := by
  have hend := State.invEnd_settled hq hs
  have hcore (c : Nat) : s.invEnd.core c = (s.core c).invalidated q := by
    rw [hend]
    exact Tbl.get_map (Core.invalidated q) Core.reset s.cores c
  have hctlb (c : Nat) : Tbl.get [] s.invEnd.ctlb c = TlbEntry.left q (Tbl.get [] s.ctlb c) := by
    rw [hend]
    exact Tbl.get_map (TlbEntry.left q) [] s.ctlb c
  refine ⟨s.invEnd, rfl, by rw [hend], fun _ => by rw [hend], fun c e he => ?_, fun c e he => ?_⟩
  · rw [hcore] at he
    exact TlbEntry.mem_left he
  · rw [hctlb] at he
    exact (TlbEntry.mem_left he).2

/-! ### Fault records -/

theorem exec_faultRecordAppend {n : Nat} {r : FaultRec} (hn : n < 4)
    (hr : (s.net.frecs.filter (fun x => x.1 == n)).head? = some (n, r)) : exec (.faultRecordAppend n r) s =
      .next (State.fqAppend { s with net := { s.net with frecs := dropFrec s.net.frecs (n, r) } } n r) :=
  eventOn_eq_next (by simp [hn, State.frecNext, hr]) rfl

theorem State.fqAppend_room {n : Nat} {r : FaultRec} (hl : s.latch n = []) (hf : s.fqFull = false) :
    s.fqAppend n r = s.fqPut n r := if_pos ⟨hl, by simp [hf]⟩

theorem State.fqAppend_latched {n : Nat} {r : FaultRec} (hf : s.fqFull = true) (hl : (s.latch n).length < 16) :
    s.fqAppend n r = { s with admin := { s.admin with latches := Tbl.put s.admin.latches n (s.latch n ++ [r]) } } := by
  rw [State.fqAppend, if_neg (by simp [hf]), if_pos hl]

theorem State.fqAppend_lost {n : Nat} {r : FaultRec} (hf : s.fqFull = true) (hl : 16 ≤ (s.latch n).length) : s.fqAppend n r =
    s.setDreg (0x270040 + 8 * n) (BitVec.ofNat 64 ((s.dregN (0x270040 + 8 * n) + 1) % 2 ^ 32)) := by
  rw [State.fqAppend, if_neg (by simp [hf]), if_neg (by omega)]

/-! ### Links, clocks and the power loop -/

/-- A record about a unit is posted, and nothing but the count of free values changes besides. -/
theorem State.openRecord_posts (s : State) (u : HwUnit) :
    (s.openRecord u).admin = s.admin ∧ ∃ r, (s.openRecord u).net.frecs = s.net.frecs ++ [r] := by
  cases u <;> exact ⟨rfl, _, rfl⟩

theorem exec_linkTraining {n m : Nat} (hn : n < 32) (hd : s.admin.failedPorts.Nodup) : Happens (.linkTraining n m) s (fun t =>
    (n ∈ t.admin.failedPorts ↔ (s.devnum = some m ∨ HwUnit.port n ∈ s.admin.retiredUnits)) ∧
    (s.devnum = some m → ∃ r, t.net.frecs = s.net.frecs ++ [r])) := by
  have hno : n ∉ s.admin.failedPorts.erase n := hd.not_mem_erase
  refine ⟨_, eventOn_eq_next (decide_eq_true hn) rfl, ?_⟩
  by_cases hs : s.devnum = some m
  · simp only [hs, decide_true, Bool.true_or, if_true]
    obtain ⟨hadm, hrec⟩ := State.openRecord_posts
      { s with admin := { s.admin with failedPorts := s.admin.failedPorts.erase n ++ [n] } } (.port n)
    exact ⟨by simp [hadm], fun _ => hrec⟩
  · simp only [hs, decide_false, Bool.false_or, Bool.false_eq_true, if_false, false_or]
    refine ⟨?_, fun h => h.elim⟩
    split
    next hr => exact iff_of_true (List.mem_append_right _ List.mem_cons_self) (List.contains_iff_mem.1 hr)
    next hr => exact iff_of_false hno (mt List.contains_iff_mem.2 hr)

theorem exec_linkRetrainComplete_asked (hp : s.admin.linkPending = true) : Happens .linkRetrainComplete s (fun t =>
    t.admin.linkPending = false ∧
      (t.admin.linkWidth = (if s.dregN 0x2B0010 % 4 = 1 then 8 else 16) ∨ t.admin.linkWidth = 0)) := by
  refine ⟨_, congrArg Host.Outcome.next (if_pos hp), rfl, ?_⟩
  by_cases hb : (s.choose 2).1 = 0
  · exact .inl (if_pos hb)
  · exact .inr (if_neg hb)

theorem exec_linkRetrainComplete_down (hp : s.admin.linkPending = false) (hw : s.admin.linkWidth = 0) :
    Happens .linkRetrainComplete s (fun t => t.admin.linkWidth ∈ [0, 8, 16] ∧ SameMem s t) := by
  refine ⟨_, congrArg Host.Outcome.next ((if_neg (by simp [hp])).trans (if_pos hw)), ?_, fun _ => rfl⟩
  have hb : (s.choose 3).1 < 3 := State.choose_lt (by decide)
  show 8 * (s.choose 3).1 ∈ [0, 8, 16]
  generalize (s.choose 3).1 = b at hb
  interval_cases b <;> decide

theorem exec_linkRetrainComplete_up (hp : s.admin.linkPending = false) (hw : s.admin.linkWidth ≠ 0) :
    exec .linkRetrainComplete s = .next s :=
  congrArg Host.Outcome.next ((if_neg (by simp [hp])).trans (if_neg hw))

theorem exec_dieClockChange {n : Nat} (hn : n < 4) (hm : n ∈ s.admin.diePending) (hl : s.admin.linkPending = false)
    (hd : s.admin.diePending.Nodup) : Happens (.dieClockChange n) s (fun t =>
      Tbl.find t.admin.dieClock n = some (s.dregN (0x2B0018 + 8 * n)) ∧ n ∉ t.admin.diePending) :=
  ⟨_, eventOn_eq_next (decide_eq_true hn) (if_pos (by simp [hm, hl])), Tbl.find_put_same .., hd.not_mem_erase⟩

theorem exec_powerCapWindow : Happens .powerCapWindow s (fun t => 1 ≤ t.admin.arrayCap ∧ t.admin.arrayCap ≤ 4 ∧ SameMem s t) :=
  ⟨_, rfl, Nat.le_add_left 1 _, State.choose_lt (n := 4) (by decide), fun _ => rfl⟩

/-! ### Receive rings (04 R69, R70) -/

theorem toNat_ofNat_slice (v off : Nat) : (BitVec.ofNat 64 (slice v off 8)).toNat = slice v off 8 :=
  (BitVec.toNat_ofNat ..).trans (Nat.mod_eq_of_lt (Nat.mod_lt _ (Nat.two_pow_pos _)))

theorem rxOf?_of_fits {v owner : Nat} (h : RingFits v) : ∃ r, rxOf? v owner = some r ∧ RingRead v owner r := by
  obtain ⟨h1, h2, h3, h4, h5, h6, h7, h8, h9⟩ := h
  unfold rxOf?
  dsimp only
  rw [if_neg (by omega), if_neg (by simp [h6, h7]), if_neg (by rw [toNat_ofNat_slice]; tauto), if_neg (by omega)]
  exact ⟨_, rfl, rfl, rfl, rfl, rfl, rfl, rfl, rfl, rfl, rfl, rfl, rfl, rfl⟩

theorem ringFits_of_rxOf? {v owner : Nat} {r : RxRing} (h : rxOf? v owner = some r) : RingFits v := by
  unfold rxOf? at h
  dsimp only at h
  split at h
  · cases h
  next hlog =>
    split at h
    · cases h
    next hbase =>
      split at h
      · cases h
      next halign =>
        split at h
        · cases h
        next hcount =>
          rw [toNat_ofNat_slice] at halign
          push Not at hbase
          exact ⟨by omega, by omega, by omega, by omega, by omega, hbase.1, by simpa using hbase.2, by tauto, by omega⟩

theorem rxOf?_of_not_fits {v owner : Nat} (h : ¬RingFits v) : rxOf? v owner = none :=
  Option.eq_none_iff_forall_ne_some.2 fun _ hr => h (ringFits_of_rxOf? hr)

/-- The ring that `n` is after a write of RBEN: one whose bit is set stays or is read from its descriptor. -/
def State.rxAfter (s : State) (core dom v n : Nat) : Option RxRing :=
  if bit v n then
    (Tbl.find (s.core core).rx n).or
      (if beyondLs ((s.core core).rxDesc n + 63) then none else rxOf? (s.peek (.ls core ((s.core core).rxDesc n)) 64) dom)
  else none

/-- What the descriptors of a core's rings are read from. -/
def State.rxSource (s : State) (core : Nat) : Mem × Tbl Nat × Admin × Tbl W64 := (s.mem, s.lineKey, s.admin, (s.core core).creg)

/-- RBEN takes its new value for one ring. -/
def State.rbenOne (core dom v : Nat) (s : State) (n : Nat) : State :=
  let x := s.core core
  match Tbl.find x.rx n, bit v n with
  | some _, false => s.setCore core { x with rx := Tbl.erase x.rx n }
  | none, true =>
    let d := x.rxDesc n
    if beyondLs (d + 63) then s
    else
      match rxOf? (s.peek (.ls core d) 64) dom with
      | none => s
      | some r => s.setCore core { x with rx := Tbl.put x.rx n r }
  | _, _ => s

theorem State.rbenSet_eq (s : State) (core dom v : Nat) :
    s.rbenSet core dom v = (List.range 8).foldl (State.rbenOne core dom v) s := rfl

/-- RBEN for one ring: either nothing changes, or the ring is disabled or enabled. -/
theorem State.rbenOne_cases (s : State) (core dom v n : Nat) :
    (s.rbenOne core dom v n = s ∧ s.rxAfter core dom v n = Tbl.find (s.core core).rx n) ∨
    (s.rbenOne core dom v n = s.setCore core { s.core core with rx := Tbl.erase (s.core core).rx n } ∧ s.rxAfter core dom v n = none) ∨
    ∃ r, s.rbenOne core dom v n = s.setCore core { s.core core with rx := Tbl.put (s.core core).rx n r } ∧
      s.rxAfter core dom v n = some r := by
  cases hr : Tbl.find (s.core core).rx n <;> cases hb : bit v n
  case none.false => exact .inl (by simp [State.rbenOne, State.rxAfter, hr, hb])
  case some.false => exact .inr (.inl (by simp [State.rbenOne, State.rxAfter, hr, hb]))
  case some.true => exact .inl (by simp [State.rbenOne, State.rxAfter, hr, hb])
  case none.true =>
    cases hd : beyondLs ((s.core core).rxDesc n + 63)
    case true => exact .inl (by simp [State.rbenOne, State.rxAfter, hr, hb, hd])
    case false =>
      cases ho : rxOf? (s.peek (.ls core ((s.core core).rxDesc n)) 64) dom
      case none => exact .inl (by simp [State.rbenOne, State.rxAfter, hr, hb, hd, ho])
      case some r => exact .inr (.inr ⟨r, by simp [State.rbenOne, State.rxAfter, hr, hb, hd, ho]⟩)

theorem State.rbenOne_source (s : State) (core dom v n : Nat) : (s.rbenOne core dom v n).rxSource core = s.rxSource core := by
  obtain ⟨h, -⟩ | ⟨h, -⟩ | ⟨r, h, -⟩ := s.rbenOne_cases core dom v n <;> simp [h, State.rxSource]

theorem State.rbenOne_same (s : State) (core dom v n : Nat) :
    Tbl.find ((s.rbenOne core dom v n).core core).rx n = s.rxAfter core dom v n := by
  obtain ⟨h, e⟩ | ⟨h, e⟩ | ⟨r, h, e⟩ := s.rbenOne_cases core dom v n
  · rw [h, e]
  · rw [h, e, State.core_setCore_same]
    exact Tbl.find_erase_same ..
  · rw [h, e, State.core_setCore_same]
    exact Tbl.find_put_same ..

theorem State.rbenOne_other (s : State) (core dom v : Nat) {n m : Nat} (hm : m ≠ n) :
    Tbl.find ((s.rbenOne core dom v n).core core).rx m = Tbl.find (s.core core).rx m := by
  obtain ⟨h, -⟩ | ⟨h, -⟩ | ⟨r, h, -⟩ := s.rbenOne_cases core dom v n
  · rw [h]
  · rw [h, State.core_setCore_same]
    exact Tbl.find_erase_ne _ hm
  · rw [h, State.core_setCore_same]
    exact Tbl.find_put_ne _ _ hm

theorem State.rxAfter_congr {s t : State} {core dom v n : Nat} (h : t.rxSource core = s.rxSource core)
    (hn : Tbl.find (t.core core).rx n = Tbl.find (s.core core).rx n) : t.rxAfter core dom v n = s.rxAfter core dom v n := by
  simp only [State.rxSource, Prod.mk.injEq] at h
  obtain ⟨hmem, hkey, hadm, hcreg⟩ := h
  have hd : (t.core core).rxDesc n = (s.core core).rxDesc n := by simp only [Core.rxDesc, hcreg]
  have hkeys (m : Nat) : t.keyMat m = s.keyMat m := by rw [State.keyMat, hadm, State.keyMat]
  have hread (a k m : Nat) : t.readPa a k m = s.readPa a k m := by
    unfold State.readPa State.lineAs
    rw [hmem, hkey]
  simp only [State.rxAfter, hn, hd, State.peek, hkeys, hread]

/-- A fold of `rbenOne` over rings that differ gives each of them its value, whatever the others are given. -/
theorem State.rbenFold (core dom v : Nat) (l : List Nat) (hl : l.Nodup) (s : State) :
    (l.foldl (State.rbenOne core dom v) s).rxSource core = s.rxSource core ∧
    (∀ m ∉ l, Tbl.find ((l.foldl (State.rbenOne core dom v) s).core core).rx m = Tbl.find (s.core core).rx m) ∧
    ∀ m ∈ l, Tbl.find ((l.foldl (State.rbenOne core dom v) s).core core).rx m = s.rxAfter core dom v m := by
  induction l generalizing s with
  | nil => exact ⟨rfl, fun _ _ => rfl, fun _ h => absurd h List.not_mem_nil⟩
  | cons n l ih =>
    obtain ⟨hn, hl⟩ := List.nodup_cons.1 hl
    obtain ⟨hsrc, hout, hin⟩ := ih hl (s.rbenOne core dom v n)
    have hsrc1 := s.rbenOne_source core dom v n
    refine ⟨hsrc.trans hsrc1, fun m hm => ?_, fun m hm => ?_⟩
    · obtain ⟨hmn, hml⟩ := not_or.1 (mt List.mem_cons.2 hm)
      exact (hout m hml).trans (s.rbenOne_other core dom v hmn)
    · by_cases hmn : m = n
      · subst hmn
        exact (hout m hn).trans (s.rbenOne_same core dom v m)
      · rw [List.foldl_cons, hin m (List.mem_of_ne_of_mem hmn hm)]
        exact State.rxAfter_congr hsrc1 (s.rbenOne_other core dom v hmn)

theorem State.rxAfter_clear (s : State) {core dom v n : Nat} (hb : bit v n = false) : s.rxAfter core dom v n = none := by
  rw [State.rxAfter, hb]
  rfl

theorem State.rxAfter_stays {s : State} {core dom v n : Nat} {r : RxRing} (hb : bit v n = true)
    (hr : Tbl.find (s.core core).rx n = some r) : s.rxAfter core dom v n = some r := by
  rw [State.rxAfter, if_pos hb, hr, Option.some_or]

/-- A ring that becomes enabled is read from its descriptor, where that lies within LSCAP. -/
theorem State.rxAfter_reads {s : State} {core dom v n : Nat} (hb : bit v n = true) (hr : Tbl.find (s.core core).rx n = none) :
    s.rxAfter core dom v n = if beyondLs ((s.core core).rxDesc n + 63) then none
      else rxOf? (s.peek (.ls core ((s.core core).rxDesc n)) 64) dom := by
  rw [State.rxAfter, if_pos hb, hr, Option.none_or]

theorem State.find_rbenSet (s : State) (core dom v : Nat) {m : Nat} (hm : m < 8) :
    Tbl.find ((s.rbenSet core dom v).core core).rx m = s.rxAfter core dom v m :=
  (State.rbenFold core dom v _ List.nodup_range s).2.2 m (List.mem_range.2 hm)

theorem State.mem_rbenSet (s : State) (core dom v : Nat) : (s.rbenSet core dom v).mem = s.mem := by
  obtain ⟨hsrc, -⟩ := State.rbenFold core dom v _ List.nodup_range s
  simp only [State.rxSource, Prod.mk.injEq] at hsrc
  exact hsrc.1

theorem exec_rbenWrite {core k : Nat} {w : W64} (hc : core < 1536) (hk : k < 11) :
    Happens (.rbenWrite core k w) s (fun t => SameMem s t ∧ ∀ m, m < 8 →
      let d := (s.core core).rxDesc m
      let v := s.peek (.ls core d) 64
      (bit w.toNat m = false → Tbl.find (t.core core).rx m = none) ∧
      (bit w.toNat m = true → ∀ r, Tbl.find (s.core core).rx m = some r → Tbl.find (t.core core).rx m = some r) ∧
      (bit w.toNat m = true → Tbl.find (s.core core).rx m = none →
        (beyondLs (d + 63) = false ∧ RingFits v → ∃ r, Tbl.find (t.core core).rx m = some r ∧ RingRead v (s.core core).domain r) ∧
        (beyondLs (d + 63) = true ∨ ¬RingFits v → Tbl.find (t.core core).rx m = none))) := by
  refine ⟨_, eventOn_eq_next (by simp [ctxOk, hc, hk]) rfl, fun a => by rw [State.mem_rbenSet], fun m hm => ?_⟩
  intro d v
  rw [State.find_rbenSet s _ _ _ hm]
  refine ⟨s.rxAfter_clear, fun hb r hr => State.rxAfter_stays hb hr, fun hb hr => ?_⟩
  rw [State.rxAfter_reads hb hr]
  refine ⟨fun ⟨hd, hfit⟩ => ?_, fun hbad => ?_⟩
  · rw [if_neg (ne_true_of_eq_false hd)]
    exact rxOf?_of_fits hfit
  · split
    · rfl
    next hd => exact rxOf?_of_not_fits (hbad.resolve_left hd)

/-- Settles O53: each engine's move in the cases that the statement tells apart, and for RBEN each ring by itself. -/
theorem adminEvents : Obligations.AdminEvents := by
  unfold Obligations.AdminEvents
  intro s n
  refine ⟨fun q r hq hs => congrArg Host.Outcome.next (State.invEnd_waits hq hs), fun q r hq hs => exec_xlinvComplete hq hs,
    fun hq => congrArg Host.Outcome.next (State.invEnd_none hq), rfl, fun hn hf hd => exec_rngFillComplete hn hf hd,
    fun hn hm hr hd => exec_domainDisable hn hm hr hd, fun r hn hr => ?records,
    fun hn => ⟨_, eventOn_eq_next (decide_eq_true hn) rfl, List.mem_append_right _ List.mem_cons_self, fun _ => rfl⟩,
    fun m hn hd => exec_linkTraining hn hd, exec_linkRetrainComplete_asked, exec_linkRetrainComplete_down,
    exec_linkRetrainComplete_up, fun hn hm hl hd => exec_dieClockChange hn hm hl hd, exec_powerCapWindow, rfl,
    fun core k w hc hk => exec_rbenWrite hc hk⟩
  case records =>
    have he := exec_faultRecordAppend hn hr
    refine ⟨fun hl hf => he.trans (congrArg Host.Outcome.next (State.fqAppend_room hl hf)),
      fun hf hl => ⟨_, he.trans (congrArg Host.Outcome.next (State.fqAppend_latched hf hl)), ?_, fun _ => rfl⟩,
      fun hf hl => ⟨_, he.trans (congrArg Host.Outcome.next (State.fqAppend_lost hf hl)), ?_, rfl⟩⟩
    · exact Tbl.get_put_same ..
    · have hlt : (s.dregN (0x270040 + 8 * n) + 1) % 2 ^ 32 < 2 ^ 64 := by omega
      rw [State.dregN_setDreg_same, BitVec.toNat_ofNat]
      exact Nat.mod_eq_of_lt hlt

end Sys2Proof.Machine
end

/-! # Completion events (O47)

The first clause of the statement says nothing of the instructions of the LDS's window that have not issued (`Entry.left`). While
there are some, the value of a served request waits with its entry, which stays unfinished. -/

section
namespace Sys2Proof.Machine

/-- An LDS with a window of one instruction that has not issued (07 R129, R130). -/
def windowLds : Instr := .lds 1 2 0 0 1

/-- Its entry: the word is the first of the core's own local store. -/
def windowEntry : Entry where
  seq := 0
  instr := windowLds
  word := BitVec.ofNat 32 ((encodeNat windowLds).getD 0)
  pc := 0
  own := 0
  imm := none
  opd := 0
  opa := windowAddr 0 0
  opb := 0
  mask := 0
  hints := 0
  va := 0
  vb := 0
  left := 1
  await := false
  atEnd := false
  ext := []
  priv := false
  cyc := 0

/-- Context 0 of core 0 waits for its parked LDS, whose word is full and whose window is open. -/
def parkedInWindow : State :=
  { State.reset with
    cores := [(0, { Core.reset with ctxs := [(0, { Ctx.reset with
      life := .live, flow := { Ctx.reset.flow with pc := 4, inflight := [windowEntry], seq := 1 } })] })]
    net := { State.reset.net with parked := [(0, 0, 0, lsKey 0 0)] } }

theorem parkedInWindow_access : parkedInWindow.access ⟨(parkedInWindow.core 0).domain, false, 0⟩ windowEntry.opa 8 .rmw .fe =
    .ok (.ls 0 0) := by rfl

theorem serveWord_parkedInWindow :
    ((parkedInWindow.serveWord (lsKey 0 0) 1).ctx 0 0).flow.inflight = [{ windowEntry with await := true }] := by rfl

/-- Refutes O47: a parked LDS whose window is still open is served, but its register is written only when the window closes, so that it
stays among the context's unfinished instructions (07 R129, R130). -/
theorem not_completionEvents : ¬ Obligations.CompletionEvents := by
  unfold Obligations.CompletionEvents
  intro h
  obtain ⟨hlds, -⟩ := h parkedInWindow 0 0 (by decide) (by decide)
  obtain ⟨-, -, t, ht, hdone, -⟩ := hlds windowEntry 1 2 0 0 1 (lsKey 0 0) (.ls 0 0) rfl rfl rfl rfl rfl rfl (by decide) rfl
    parkedInWindow_access rfl rfl rfl
  have hserved : t = parkedInWindow.serveWord (lsKey 0 0) 1 := by
    injection ht with e
    exact e.symm
  rw [hserved, serveWord_parkedInWindow] at hdone
  cases hdone

end Sys2Proof.Machine
end

/-! # Words of messages, rings and streams (O25)

A long-latency word with a lookahead of 0 acts at its issue. `issue_did` says so once, for an effect that is a function of the state.
Each effect has a lemma of its own on a captured entry (`finSend_ok` and its neighbours), from which the words follow. -/

section
namespace Sys2Proof.Machine

/-! ### Nothing holds the issue -/

/-- The running context is at no loop level and no core follows another. -/
structure State.Lone (s : State) : Prop where
  loops : s.cx.flow.loops = []
  follow : s.cx.follow = none
  alone : s.alone

theorem State.alone_core {s : State} (h : s.alone) (c : Nat) : ((s.core c).ctx 0).follow = none := by
  obtain e | e := Tbl_get_mem Core.reset s.cores c
  · rw [State.core, e]
    rfl
  · exact h _ e

theorem State.alone_setCore {s : State} (h : s.alone) (c : Nat) {x : Core} (hx : (x.ctx 0).follow = none) : (s.setCore c x).alone := by
  intro p hp
  obtain rfl | hp := Tbl.mem_put s.cores c x p hp
  · exact hx
  · exact h p hp

theorem State.cx_setCc (s : State) {x : Core} (hx : x.ctxs = s.cc.ctxs) : (s.setCc x).cx = s.cx := by
  rw [State.setCc, State.cx, State.ctx, State.setCore_cur, State.core_setCore_same, Core.ctx, hx]
  rfl

theorem State.Lone.congr {s t : State} (h : s.Lone) (hcores : t.cores = s.cores) (hcur : t.cur = s.cur) : t.Lone := by
  have hcx : t.cx = s.cx := by rw [State.cx, State.ctx, State.core, hcores, hcur]; rfl
  exact ⟨hcx ▸ h.loops, hcx ▸ h.follow, fun p hp => h.alone p (hcores ▸ hp)⟩

theorem State.Lone.setCx {s : State} (h : s.Lone) {c : Ctx} (hl : c.flow.loops = []) (hf : c.follow = none) : (s.setCx c).Lone :=
  ⟨by rwa [State.cx_setCx], by rwa [State.cx_setCx], State.alone_setCx s c h.alone hf⟩

theorem State.Lone.setCc {s : State} (h : s.Lone) {x : Core} (hx : x.ctxs = s.cc.ctxs) : (s.setCc x).Lone := by
  have hcx := s.cx_setCc hx
  refine ⟨hcx ▸ h.loops, hcx ▸ h.follow, State.alone_setCore h.alone _ ?_⟩
  rw [Core.ctx, hx]
  exact State.alone_core h.alone s.cur.1

theorem State.lone_of_quiet {s : State} (hq : s.quiet = true) : s.Lone := by
  obtain ⟨-, -, hl, -, hf, -, ha, -⟩ := s.quiet_iff.1 hq
  exact ⟨hl, hf, ha⟩

/-! ### The context at the issue of a word -/

theorem Ctx.reserve_eq (c : Ctx) (h : Shape) : ∃ b, c.reserve h = { c with flow := { c.flow with bypass := b } } := by
  unfold Ctx.reserve
  split
  · split
    · split
      · exact ⟨_, rfl⟩
      · exact ⟨_, rfl⟩
    · exact ⟨_, rfl⟩
  · exact ⟨_, rfl⟩
  · exact ⟨_, rfl⟩
  · exact ⟨_, rfl⟩

theorem Flow.drained_eq (f : Flow) (h : Shape) : ∃ g, f.drained h = { f with gone := g } := by
  unfold Flow.drained
  split
  · exact ⟨_, rfl⟩
  · exact ⟨_, rfl⟩

/-- An issue changes the flow of the context alone, and of that neither the loop levels nor the stale registers. -/
theorem Ctx.issue_eq (c : Ctx) (h : Shape) : ∃ b g, c.issue h = { c with flow := { c.flow with
    pc := c.flow.pc + 4, chain := [], inflight := c.flow.inflight.map (fun e => { e with left := e.left - 1 }), gone := g,
    bypass := b, seq := c.flow.seq + 1 } } := by
  obtain ⟨b, hb⟩ : ∃ b, (if h.long then c.reserve h else c) = { c with flow := { c.flow with bypass := b } } := by
    split
    · exact c.reserve_eq h
    · exact ⟨_, rfl⟩
  obtain ⟨g, hg⟩ := Flow.drained_eq { c.flow with bypass := b } h
  exact ⟨b, (c.issue h).flow.gone, by simp only [Ctx.issue, hb, hg, Flow.issued]⟩

@[simp] theorem Ctx.issue_loops (c : Ctx) (h : Shape) : (c.issue h).flow.loops = c.flow.loops := by
  obtain ⟨b, g, e⟩ := c.issue_eq h
  rw [e]

theorem Ctx.issue_inflight (c : Ctx) (h : Shape) (hi : c.flow.inflight = []) : (c.issue h).flow.inflight = [] := by
  obtain ⟨b, g, e⟩ := c.issue_eq h
  rw [e, hi, List.map_nil]

@[simp] theorem Ctx.issue_follow (c : Ctx) (h : Shape) : (c.issue h).follow = c.follow := by
  obtain ⟨b, g, e⟩ := c.issue_eq h
  rw [e]

@[simp] theorem Ctx.issue_stores (c : Ctx) (h : Shape) : (c.issue h).stores = c.stores := by
  obtain ⟨b, g, e⟩ := c.issue_eq h
  rw [e]

@[simp] theorem Ctx.issue_held (c : Ctx) (h : Shape) : (c.issue h).held = c.held := by
  obtain ⟨b, g, e⟩ := c.issue_eq h
  rw [e]

@[simp] theorem Ctx.issue_stream (c : Ctx) (h : Shape) : (c.issue h).stream = c.stream := by
  obtain ⟨b, g, e⟩ := c.issue_eq h
  rw [e]

@[simp] theorem Ctx.issue_results (c : Ctx) (h : Shape) : (c.issue h).results = c.results := by
  obtain ⟨b, g, e⟩ := c.issue_eq h
  rw [e]

@[simp] theorem Ctx.issue_level (c : Ctx) (h : Shape) : (c.issue h).level = c.level := by
  obtain ⟨b, g, e⟩ := c.issue_eq h
  rw [e]

@[simp] theorem Ctx.issue_hpriv (c : Ctx) (h : Shape) : (c.issue h).hpriv = c.hpriv := by
  obtain ⟨b, g, e⟩ := c.issue_eq h
  rw [e]

/-- A word that writes no register leaves the context as one with no result of its own does. -/
theorem Ctx.issue_of_no_result (c : Ctx) (h : Shape) (hw : h.wr = []) (hg : c.flow.gone = []) : c.issue h = c.stepped := by
  have hr : c.reserve h = c := by rw [Ctx.reserve, hw]
  rw [Ctx.issue, hr, ite_self, Flow.drained_none _ _ hg]
  rfl

theorem State.Lone.issuedAs {s : State} (h : s.Lone) (sh : Shape) : (s.issuedAs sh).Lone :=
  h.setCx (by rw [Ctx.issue_loops, h.loops]) (by rw [Ctx.issue_follow, h.follow])

@[simp] theorem State.cx_issuedAs (s : State) (h : Shape) : (s.issuedAs h).cx = s.cx.issue h := State.cx_setCx ..

@[simp] theorem State.cur_issuedAs (s : State) (h : Shape) : (s.issuedAs h).cur = s.cur := rfl

theorem State.cc_setCx (s : State) (c : Ctx) : (s.setCx c).cc = s.cc.setCtx s.cur.2 c := State.core_setCore_same ..

theorem State.cc_issuedAs (s : State) (h : Shape) : (s.issuedAs h).cc = s.cc.setCtx s.cur.2 (s.cx.issue h) := s.cc_setCx _

theorem State.sendq_issuedAs (s : State) (h : Shape) : (s.issuedAs h).cc.sendq = s.cc.sendq := by
  rw [State.cc_issuedAs]
  rfl

theorem State.domain_issuedAs (s : State) (h : Shape) : (s.issuedAs h).cc.domain = s.cc.domain := by
  rw [State.cc_issuedAs]
  rfl

theorem State.who_issuedAs (s : State) (h : Shape) : (s.issuedAs h).who = s.who := by
  have hp : (s.issuedAs h).privOf s.cur.1 s.cur.2 = s.privOf s.cur.1 s.cur.2 := by
    have hc : (s.issuedAs h).ctx s.cur.1 s.cur.2 = s.cx.issue h := s.cx_issuedAs h
    have hd : ((s.issuedAs h).core s.cur.1).domain = (s.core s.cur.1).domain := State.core_setCtx_domain ..
    rw [State.privOf, hc, hd, Ctx.issue_level, Ctx.issue_hpriv]
    rfl
  rw [State.who, State.cur_issuedAs, hp, State.cc_issuedAs]
  rfl

theorem OwnBytes.issuedAs {s : State} {va : W64} {n : Nat} {l : Loc} (h : OwnBytes s va n l) (sh : Shape) :
    OwnBytes (s.issuedAs sh) va n l := by
  obtain ⟨h1, h2, hacc, hk⟩ := h
  exact ⟨h1, h2, by rw [State.who_issuedAs, State.issuedAs, State.access_setCx, hacc], hk⟩

/-! ### What a word at issue does -/

theorem State.stamp_setCx_self (t : State) : (t.setCx t.cx).stamp = t.stamp := by
  rw [State.stamp, State.cc_setCx_cycle, State.setCx_setCx, State.cx_setCx]
  rfl

/-- What the entry of a word holds: its operands and the privilege of its context (07 R130). -/
structure Entry.Holds (e : Entry) (s : State) (h : Shape) : Prop where
  seq : e.seq = s.cx.flow.seq
  opd : e.opd = (h.opd.map s.reg).getD 0
  opa : e.opa = (h.opa.map s.reg).getD 0
  opb : e.opb = (h.opb.map s.reg).getD 0

/-- An entry at the point where its word has issued and nothing else of its context is under way. -/
structure Entry.Fresh (e : Entry) (s : State) : Prop where
  priv : e.priv = s.privOf s.cur.1 s.cur.2
  inflight : s.cx.flow.inflight = []
  stores : s.cx.stores = []

theorem State.entryOf_fresh {s : State} (hq : s.quiet = true) (i : Instr) (word : Nat) (h h' : Shape) :
    (s.entryOf i word h).Fresh (s.issuedAs h') := by
  obtain ⟨-, hin, -, -, -, -, -, -, hst, -⟩ := s.quiet_iff.1 hq
  exact ⟨(congrArg Who.priv (s.who_issuedAs h')).symm, by rw [State.cx_issuedAs, Ctx.issue_inflight _ _ hin],
    by rw [State.cx_issuedAs, Ctx.issue_stores, hst]⟩

/-- A word of a quiet context that acts at its issue with the effect `f`. -/
theorem issue_did (s : State) (i : Instr) (eff : Eff) (f : State → State) (hq : s.quiet = true) (hg : s.guardOk i.shape.g = true)
    (hh : i.shape.home ≠ some 3) (hb : i.shape.barred = false) (hla : i.shape.la = 0)
    (he : ∀ e : Entry, e.Holds s i.shape → e.Fresh (s.issuedAs i.shape) →
      eff e (s.issuedAs i.shape) = .ok (.done, f (s.issuedAs i.shape)))
    (ht : (s.issuedAs i.shape).Lone → (f (s.issuedAs i.shape)).Lone) : issue i eff s = .next (s.did i f) := by
  have ht := ht ((State.lone_of_quiet hq).issuedAs _)
  rw [issue_quiet s _ i eff hq hg hh (.inr hb) hla (he _ ⟨rfl, rfl, rfl, rfl⟩ (State.entryOf_fresh hq _ _ _ _)) ht.loops
    (State.alone_setCx _ _ ht.alone ht.follow), State.stamp_setCx_self]
  rfl

theorem bind_ok {α β : Type} {m : M α} {f : α → M β} {s t : State} {x : α} (h : m s = .ok (x, t)) : (m >>= f) s = f x t := by
  simp only [bind, StateT.bind, Except.bind, h]

theorem plain_ok {f : Entry → M Unit} {e : Entry} {s t : State} (h : f e s = .ok ((), t)) : plain f e s = .ok (.done, t) :=
  bind_ok h

theorem ownOffset_ok {s : State} {va : W64} (h : ownWindow s.cur.1 va = true) : ownOffset va s = .ok (va.toNat % 2 ^ 20, s) := by
  rw [ownOffset, bind_ok (m := getCur) rfl, if_pos h]
  rfl

theorem alignTo_ok {s : State} {va : W64} {n code : Nat} (h : va.toNat % n = 0) : alignTo va n code s = .ok ((), s) := by
  rw [alignTo, if_neg (not_not.2 h)]
  rfl

theorem afterEarlier_ok {s : State} (e : Entry) (p : Entry → Bool) (h : s.cx.flow.inflight = []) :
    afterEarlier e p s = .ok ((), s) := by
  rw [afterEarlier, bind_ok (m := getCx) rfl, Ctx.hasEarlier, h]
  rfl

theorem State.who_eq {s : State} {e : Entry} (h : e.priv = s.privOf s.cur.1 s.cur.2) : e.who s = .ok (s.who, s) :=
  entry_who s s e h rfl rfl

/-! ### Messages (04 R67, R68, R74) -/

/-- The message that a word names can leave: a destination that exists, and whole doublewords in the local store of its own core. -/
structure Entry.Sendable (e : Entry) (s : State) (l : Loc) : Prop where
  dest : destBad e.opd.toNat = false
  aligned : e.opa.toNat % 8 = 0
  nonempty : e.opb.toNat ≠ 0
  whole : e.opb.toNat % 8 = 0
  own : OwnBytes s e.opa e.opb.toNat l

variable {s : State} {e : Entry} {l : Loc}

/-- The payload that SEND and SENDS capture. -/
theorem payload_ok {limit : Nat} (he : e.Fresh s) (hm : e.Sendable s l) (hn : e.opb.toNat ≤ limit) :
    payload e limit s = .ok (toBytes e.opb.toNat (s.peek l e.opb.toNat), s) := by
  obtain ⟨hdest, halign, hne, hwhole, how, hend, hacc, hk⟩ := hm
  rw [payload, if_neg (ne_true_of_eq_false hdest), bind_ok (ownOffset_ok how), bind_ok (alignTo_ok halign), if_neg (by omega),
    bind_ok (ownOffset_ok hend), bind_ok (State.who_eq he.priv), bind_ok (accessM_ok s s.who e.opa _ .read .ls l hacc),
    bind_ok (afterEarlier_ok e _ he.inflight), bind_ok (afterEarlier_ok e _ he.inflight), bind_ok (loadAt_key s s.who l _ hk he.stores)]
  rfl

theorem finSend_ok (he : e.Fresh s) (hm : e.Sendable s l) (hn : e.opb.toNat ≤ 4088) (hroom : s.cc.sendq.length < 16) :
    finSend e s = .ok (.done, s.setCc { s.cc with
      sendq := s.cc.sendq ++ [s.mkMsg e.opd (toBytes e.opb.toNat (s.peek l e.opb.toNat))] }) := by
  have hfree : ¬s.cc.sendRoom = 0 := Nat.sub_ne_zero_of_lt hroom
  refine plain_ok ?_
  rw [bind_ok (payload_ok he hm hn), bind_ok (m := getCc) rfl, if_neg hfree]

theorem finSends_ok (he : e.Fresh s) (hm : e.Sendable s l) (hn : e.opb.toNat ≤ 248) (hheld : s.cx.held.length < 64)
    (hroom : s.holds s.cur.1 < 64) :
    finSends e s = .ok (.done, s.setCx { s.cx with
      held := s.cx.held ++ [s.mkMsg e.opd (toBytes e.opb.toNat (s.peek l e.opb.toNat))] }) := by
  refine plain_ok ?_
  rw [bind_ok (payload_ok he hm hn), bind_ok (m := get) rfl, if_neg (not_le.2 hheld), if_neg (not_le.2 hroom)]

theorem finHoist_ok (he : e.Fresh s) (hroom : s.cx.held.length + s.cc.sendq.length ≤ 16) :
    finHoist e s = .ok (.done, (s.setCc { s.cc with sendq := s.cc.sendq ++ s.cx.held }).setCx { s.cx with held := [] }) := by
  have hfits : s.cx.held.length ≤ s.cc.sendRoom := by unfold Core.sendRoom; omega
  have hcx : (s.setCc { s.cc with sendq := s.cc.sendq ++ s.cx.held }).cx = s.cx := s.cx_setCc rfl
  rw [finHoist, bind_ok (afterEarlier_ok e _ he.inflight), bind_ok (m := getCc) rfl, bind_ok (m := getCx) rfl,
    bind_ok (m := modCc _) rfl, bind_ok (m := modCx _) rfl, if_pos hfits, List.take_of_length_le hfits,  hcx,
    List.drop_eq_nil_of_le hfits]
  rfl

theorem finStrike_ok (he : e.Fresh s) : finStrike e s = .ok (.done, s.setCx { s.cx with held := [] }) := by
  refine plain_ok ?_
  rw [bind_ok (afterEarlier_ok e _ he.inflight), modCx]

/-- The command of MCMD, from the 32 bytes `v` at wA (04 R74). -/
def Entry.remoteCmd (e : Entry) (s : State) (v : Nat) : RemoteCmd where
  target := bits e.opd.toNat 10 0
  score := s.cur.1
  sctx := s.cur.2
  sdom := s.cc.domain
  ensign := e.opb.toNat % 2 ^ 32
  word := BitVec.ofNat 32 (slice v 0 4)
  opd := BitVec.ofNat 64 (slice v 8 8)
  opa := BitVec.ofNat 64 (slice v 16 8)
  opb := BitVec.ofNat 64 (slice v 24 8)
  destWord := e.opd

theorem finMcmd_ok (he : e.Fresh s) (hplain : destPlain e.opd.toNat = true) (hdest : destBad e.opd.toNat = false)
    (hown : OwnBytes s e.opa 32 l) :
    finMcmd e s = .ok (.done, { s with net := { s.net with rcmds := s.net.rcmds ++ [e.remoteCmd s (s.peek l 32)] } }) := by
  obtain ⟨how, hend, hacc, hk⟩ := hown
  refine plain_ok ?_
  dsimp only
  rw [if_neg (by rw [hplain]; decide), if_neg (ne_true_of_eq_false hdest), bind_ok (ownOffset_ok how), bind_ok (ownOffset_ok (va := e.opa + 31) hend),
    bind_ok (State.who_eq he.priv), bind_ok (accessM_ok s s.who e.opa _ .read .ls l hacc),
    bind_ok (loadAt_key s s.who l _ hk he.stores)]
  rfl

theorem State.mkMsg_issuedAs (s : State) (h : Shape) (dest : W64) (p : List Byte) : (s.issuedAs h).mkMsg dest p = s.mkMsg dest p := by
  rw [State.mkMsg, State.domain_issuedAs]
  rfl

end Sys2Proof.Machine
end

section
namespace Sys2Proof.Machine

variable {s : State} {d a b g : Nat} {l : Loc}

/-- The message that SEND and SENDS make of the bytes at a place, to the destination in wD and as many as wB says. -/
def State.msgAt (s : State) (d b : Nat) (l : Loc) : Msg := s.mkMsg (s.reg d) (toBytes (s.reg b).toNat (s.peek l (s.reg b).toNat))

theorem exec_send_of_room (hq : s.quiet = true) (hg : s.guardOk g = true) (hd : destBad (s.reg d).toNat = false)
    (ha : (s.reg a).toNat % 8 = 0) (h0 : (s.reg b).toNat ≠ 0) (h8 : (s.reg b).toNat % 8 = 0)
    (hown : OwnBytes s (s.reg a) (s.reg b).toNat l) (hn : (s.reg b).toNat ≤ 4088) (hroom : s.cc.sendq.length < 16) :
    exec (.send d a b g 0) s = .next (s.did (.send d a b g 0)
      (fun u => u.setCc { u.cc with sendq := s.cc.sendq ++ [s.msgAt d b l] })) := by
  refine (exec_send d a b g 0 s).trans (issue_did s _ _ _ hq hg (by simp) (by simp [Shape.barred, Shape.reads]) rfl
      (fun e he hf => ?_) (fun ht => ht.setCc rfl))
  have hopd : e.opd = s.reg d := he.opd
  have hopa : e.opa = s.reg a := he.opa
  have hopb : e.opb = s.reg b := he.opb
  rw [← hopd] at hd
  rw [← hopa] at ha hown
  rw [← hopb] at h0 h8 hown hn
  rw [finSend_ok hf ⟨hd, ha, h0, h8, hown.issuedAs _⟩ hn (by rwa [State.sendq_issuedAs]), State.sendq_issuedAs, State.mkMsg_issuedAs,
    State.msgAt, hopd, hopb]
  rfl

theorem heldIn_cons (p : Nat × Ctx) (t : Tbl Ctx) : heldIn (p :: t) = p.2.held.length + heldIn t := by
  unfold heldIn
  rw [← List.sum_eq_foldl, ← List.sum_eq_foldl, List.map_cons, List.sum_cons]

/-- In a table that rises, a context that holds as many messages as the one it replaces leaves their number. -/
theorem heldIn_put {t : Tbl Ctx} {n : Nat} {c : Ctx} (ht : t.Pairwise (fun p q => p.1 < q.1))
    (hc : c.held.length = (Tbl.get Ctx.reset t n).held.length) : heldIn (Tbl.put t n c) = heldIn t := by
  induction t with
  | nil => exact (heldIn_cons _ _).trans hc
  | cons p r ih =>
    obtain ⟨k, x⟩ := p
    obtain ⟨hr, hp⟩ := List.pairwise_cons.1 ht
    simp only [Tbl.get] at hc
    simp only [Tbl.put]
    split
    next hk => rw [heldIn_cons, heldIn_cons, hc, if_pos hk]
    next hk =>
      rw [if_neg hk] at hc
      split
      next hlt =>
        rw [Tbl.get_of_lt _ _ _ fun q hq => hlt.trans (hr q hq)] at hc
        rw [heldIn_cons, hc]
        exact Nat.zero_add _
      next => rw [heldIn_cons, heldIn_cons, ih hp hc]

/-- Where its table of contexts rises, an issue leaves the number of messages that a core holds. -/
theorem State.holds_issuedAs (ht : Tbl.sorted s.cc.ctxs = true) (h : Shape) : (s.issuedAs h).holds s.cur.1 = s.holds s.cur.1 := by
  have hx : (s.issuedAs h).core s.cur.1 = s.cc.setCtx s.cur.2 (s.cx.issue h) := s.cc_issuedAs h
  rw [State.holds, hx, Core.setCtx, heldIn_put ((Tbl.sorted_iff _).1 ht) (by rw [Ctx.issue_held]; rfl)]
  rfl

theorem exec_sends_of_room (ht : Tbl.sorted s.cc.ctxs = true) (hq : s.quiet = true) (hg : s.guardOk g = true)
    (hd : destBad (s.reg d).toNat = false) (ha : (s.reg a).toNat % 8 = 0) (h0 : (s.reg b).toNat ≠ 0) (h8 : (s.reg b).toNat % 8 = 0)
    (hown : OwnBytes s (s.reg a) (s.reg b).toNat l) (hn : (s.reg b).toNat ≤ 248) (hheld : s.cx.held.length < 64)
    (hroom : s.holds s.cur.1 < 64) :
    exec (.sends d a b g 0) s = .next (s.did (.sends d a b g 0)
      (fun u => u.setCx { u.cx with held := s.cx.held ++ [s.msgAt d b l] })) := by
  refine (exec_sends d a b g 0 s).trans (issue_did s _ _ _ hq hg (by simp) (by simp [Shape.barred, Shape.reads]) rfl
      (fun e he hf => ?_)
    (fun ht => State.Lone.setCx ht ht.loops ht.follow))
  have hopd : e.opd = s.reg d := he.opd
  have hopa : e.opa = s.reg a := he.opa
  have hopb : e.opb = s.reg b := he.opb
  have hcx : (s.issuedAs (Instr.sends d a b g 0).shape).cx.held = s.cx.held := by rw [State.cx_issuedAs, Ctx.issue_held]
  rw [← hopd] at hd
  rw [← hopa] at ha hown
  rw [← hopb] at h0 h8 hown hn
  rw [finSends_ok hf ⟨hd, ha, h0, h8, hown.issuedAs _⟩ hn (by rwa [hcx])
    (by rwa [State.cur_issuedAs, State.holds_issuedAs ht]), hcx, State.mkMsg_issuedAs, State.msgAt, hopd, hopb]
  rfl

theorem exec_hoist_of_room (hq : s.quiet = true) (hg : s.guardOk g = true)
    (hroom : s.cx.held.length + s.cc.sendq.length ≤ 16) : exec (.hoist g) s = .next (s.did (.hoist g) (fun u =>
      (u.setCc { u.cc with sendq := s.cc.sendq ++ s.cx.held }).setCx { u.cx with held := [] })) := by
  refine (exec_hoist g s).trans (issue_did s _ _ _ hq hg (by simp) (by simp [Shape.barred, Shape.reads]) rfl
      (fun e _ hf => ?_) (fun ht => ?_))
  case refine_2 =>
    refine State.Lone.setCx (ht.setCc ?_) ht.loops ht.follow
    rfl
  have hheld : (s.issuedAs (Instr.hoist g).shape).cx.held = s.cx.held := by rw [State.cx_issuedAs, Ctx.issue_held]
  rw [finHoist_ok hf (by rwa [State.sendq_issuedAs, hheld]), State.sendq_issuedAs, hheld]

theorem exec_strike_of_quiet (hq : s.quiet = true) (hg : s.guardOk g = true) :
    exec (.strike g) s = .next (s.after { s.cx.stepped with held := [] }) := by
  obtain ⟨-, -, hl, -, hf, -, -, hgone, -⟩ := s.quiet_iff.1 hq
  have hcx : s.cx.issue (Instr.strike g).shape = s.cx.stepped := Ctx.issue_of_no_result _ _ rfl hgone
  refine (exec_strike g s).trans (issue_cx s _ _ _ hq hg (by simp) (.inr (by simp [Shape.barred, Shape.reads])) rfl
      ?_ hl hf)
  rw [finStrike_ok (State.entryOf_fresh hq _ _ _ _), State.cx_issuedAs, hcx]

/-- MCMD sends its command (04 R74). -/
theorem remoteCommand : Stated.RemoteCommand := by
  intro s d a b g l hq hg w v hplain hdest hown
  refine (exec_mcmd d a b g 0 s).trans (issue_did s _ _ _ hq hg (by simp) (by simp [Shape.barred, Shape.reads]) rfl
      (fun e he hf => ?_) (fun ht => ht.congr rfl rfl))
  have hopd : e.opd = s.reg d := he.opd
  have hopa : e.opa = s.reg a := he.opa
  have hopb : e.opb = s.reg b := he.opb
  rw [finMcmd_ok hf (by rwa [hopd]) (by rwa [hopd]) (hopa ▸ hown.issuedAs _), Entry.remoteCmd, State.domain_issuedAs, hopd, hopb]
  rfl

/-! ### A table of contexts that does not rise -/

/-- A message of eight zero bytes from context 0 of core 0 to the core itself. -/
def zeroMsg : Msg := State.reset.mkMsg 0 (toBytes 8 0)

/-- Context 0 of core 0 runs and holds 32 messages; the table of contexts lists it behind context 1. The doubleword at w1 is the first of
its own local store, and w2 is 8. -/
def unsortedHolder : State :=
  { State.reset with
    cores := [(0, { Core.reset with ctxs := [(1, Ctx.reset), (0, { Ctx.reset with
      life := .live, held := List.replicate 32 zeroMsg, rf := { Ctx.reset.rf with common := [(1, windowAddr 0 0), (2, 8)] } })] })] }

theorem ownBytes_unsortedHolder : OwnBytes unsortedHolder (unsortedHolder.reg 1) (unsortedHolder.reg 2).toNat (.ls 0 0) :=
  ⟨by decide, by decide, by rfl, rfl⟩

/-- The issue lists the context a second time, and so finds the hold buffer of the core full. -/
theorem holds_unsortedHolder : unsortedHolder.holds 0 = 32 ∧
    (unsortedHolder.issuedAs (Instr.sends 0 1 2 0 0).shape).holds 0 = 64 := ⟨by rfl, by rfl⟩

/-- So SENDS waits, where it should have held its message. -/
theorem sends_unsortedHolder : ∃ t, exec (.sends 0 1 2 0 0) unsortedHolder = .next t ∧ t.cx.held.length = 32 := ⟨_, rfl, rfl⟩

/-- Refutes O25, in its clause for SENDS alone: the word counts the messages that its core holds after its issue, over a table of contexts
that need not rise, so that the count may be higher than before. Where the table rises the clause holds (`exec_sends_of_room`), and those for
SEND, HOIST, STRIKE and MCMD hold everywhere (`exec_send_of_room`, `exec_hoist_of_room`, `exec_strike_of_quiet`, `remoteCommand`). -/
theorem not_messageWords : ¬ Obligations.MessageWords := by
  unfold Obligations.MessageWords
  rintro ⟨hsends, -⟩
  obtain ⟨hwords, -⟩ := hsends unsortedHolder 0 1 2 0 (.ls 0 0) (by decide) (by decide)
  obtain ⟨-, hheld⟩ := hwords (by decide) (by decide) (by decide) (by decide) ownBytes_unsortedHolder
  have hnext := hheld (by decide) (by decide) (by decide)
  obtain ⟨t, ht, hlen⟩ := sends_unsortedHolder
  rw [ht] at hnext
  injection hnext with e
  rw [e, State.did, State.stamp, State.cx_setCx, State.cx_setCx] at hlen
  exact absurd hlen (by rw [List.length_append]; decide)

end Sys2Proof.Machine
end

/-! # Arrivals at a core (O48)

An arrival changes the ring, the buffer, the queue or the pennant that it reaches. What stands before it, such as the message leaving its
sender's queue (`State.unsend`), touches none of these. -/

section
namespace Sys2Proof.Machine

variable {s : State}

/-! ### A message leaves the queue of its sender -/

theorem State.unsend_cases (s : State) (m : Msg) : s.unsend m = s ∨
    s.unsend m = s.setCore m.score { s.core m.score with sendq := (s.core m.score).sendq.drop 1 } := by
  unfold State.unsend
  dsimp only
  split
  · exact .inr rfl
  · exact .inl rfl

/-- Nothing of a core that does not depend on its send queue changes when a message leaves. -/
theorem State.core_unsend {α : Type} (s : State) (m : Msg) (n : Nat) (f : Core → α) (hf : ∀ (x : Core) q, f { x with sendq := q } = f x) :
    f ((s.unsend m).core n) = f (s.core n) := by
  obtain h | h := s.unsend_cases m
  · rw [h]
  · rw [h]
    by_cases hn : n = m.score
    · rw [hn, State.core_setCore_same, hf]
    · rw [State.core_setCore_ne _ _ _ _ hn]

theorem State.mem_unsend (s : State) (m : Msg) : (s.unsend m).mem = s.mem := by
  obtain h | h := s.unsend_cases m <;> rw [h]
  rfl

theorem State.admin_unsend (s : State) (m : Msg) : (s.unsend m).admin = s.admin := by
  obtain h | h := s.unsend_cases m <;> rw [h]
  rfl

theorem State.rx_unsend (s : State) (m : Msg) (n : Nat) : ((s.unsend m).core n).rx = (s.core n).rx :=
  s.core_unsend m n Core.rx fun _ _ => rfl

theorem State.creg_unsend (s : State) (m : Msg) (n : Nat) : ((s.unsend m).core n).creg = (s.core n).creg :=
  s.core_unsend m n Core.creg fun _ _ => rfl

theorem State.domain_unsend (s : State) (m : Msg) (n : Nat) : ((s.unsend m).core n).domain = (s.core n).domain :=
  s.core_unsend m n Core.domain fun _ _ => rfl

/-! ### Messages (04 R63, R71) -/

section
variable {m : Msg} {r : RxRing}

theorem exec_messageArrival (h : m.dest < 1536 ∧ m.ring < 8 ∧ m.score < 1536) :
    exec (.messageArrival m) s = .next (if s.receives m then ((s.unsend m).msgReach m).getD s else s) :=
  eventOn_eq_next (decide_eq_true h) rfl

theorem exec_messageArrival_early (h : m.dest < 1536 ∧ m.ring < 8 ∧ m.score < 1536) (hf : m.fab = true) (hd : s.devnum = none) :
    exec (.messageArrival m) s = .next s := by
  rw [exec_messageArrival h, if_neg (by simp [State.receives, hf, hd])]

theorem State.receives_of {m : Msg} (hr : m.fab = false ∨ s.devnum ≠ none) : s.receives m = true := by
  obtain hf | hd := hr
  · simp [State.receives, hf]
  · simp [State.receives, Option.isSome_iff_ne_none.2 hd]

/-- In a halt the message is held, or waits where the buffer is full. -/
theorem State.msgReach_halted (hh : s.admin.halting = some (s.core m.dest).domain) :
    (s.unsend m).msgReach m =
      if s.admin.heldBytes (m.dest / 384) + (m.payload.length + 8) ≤ 2 ^ 20 then some ((s.unsend m).hold (.msg m)) else none := by
  have hb : ((s.unsend m).admin.halting == some ((s.unsend m).core m.dest).domain) = true := by
    rw [s.admin_unsend, s.domain_unsend, hh, beq_self_eq_true]
  rw [State.msgReach, if_pos hb, Admin.fits, s.admin_unsend]
  exact if_congr decide_eq_true_iff rfl rfl

theorem State.msgReach_running (hh : ¬s.admin.halting = some (s.core m.dest).domain) :
    (s.unsend m).msgReach m = some ((s.unsend m).msgArrive m) := by
  rw [State.msgReach, s.admin_unsend, s.domain_unsend, if_neg (by simpa using hh)]

/-- A message takes the next slot of a ring with room. -/
theorem State.msgArrive_slot (hr : Tbl.find (s.core m.dest).rx m.ring = some r) (hdom : r.dom = 0 ∨ r.dom = m.sdom)
    (hlen : m.payload.length + 8 ≤ 2 ^ r.slotLog) (hroom : (r.tail - r.head).toNat < 2 ^ r.cntLog) (hovf : r.ovfTail = r.ovfHead)
    (heos : m.eos = false) : s.msgArrive m =
      (s.poke (.ls m.dest (r.base + r.tail.toNat % 2 ^ r.cntLog * 2 ^ r.slotLog)) (m.payload.length + 8)
        (msgHeader m + 2 ^ 64 * ofBytes m.payload)).setRx m.dest m.ring { r with tail := r.tail + 1 } := by
  unfold State.msgArrive
  simp only [hr]
  rw [if_neg (by tauto), if_neg (by omega), if_neg (by simp [heos]), if_pos ⟨hroom, hovf⟩]

/-- A message to a ring that is not enabled is dropped and counted. -/
theorem State.msgArrive_drop (hr : Tbl.find (s.core m.dest).rx m.ring = none) : s.msgArrive m = s.msgDrop m 0 := by
  unfold State.msgArrive
  simp only [hr]

/-- The record and the count of a message that no ring takes; memory is as before. -/
theorem State.msgDrop_counts (s : State) (m : Msg) :
    (m.dest, hwRec 0x03 0 m.ring (BitVec.ofNat 64 (m.sdev * 2 ^ 32 + m.score))) ∈ (s.msgDrop m 0).net.recs ∧
    Tbl.get 0 ((s.msgDrop m 0).core m.dest).creg 0x043 = Tbl.get 0 (s.core m.dest).creg 0x043 + 1 ∧ (s.msgDrop m 0).mem = s.mem := by
  refine ⟨List.mem_append_right _ List.mem_cons_self, ?_, rfl⟩
  unfold State.msgDrop
  dsimp only
  rw [if_pos rfl, State.core_setCore_same]
  exact Tbl.get_set_same ..

theorem exec_messageArrival_dropped (h : m.dest < 1536 ∧ m.ring < 8 ∧ m.score < 1536) (hr : s.receives m = true)
    (hrx : Tbl.find (s.core m.dest).rx m.ring = none) (hh : ¬s.admin.halting = some (s.core m.dest).domain) :
    Happens (.messageArrival m) s (fun t =>
      (m.dest, hwRec 0x03 0 m.ring (BitVec.ofNat 64 (m.sdev * 2 ^ 32 + m.score))) ∈ t.net.recs ∧
      Tbl.get 0 (t.core m.dest).creg 0x043 = Tbl.get 0 (s.core m.dest).creg 0x043 + 1 ∧ SameMem s t) := by
  obtain ⟨hrec, hcount, hmem⟩ := (s.unsend m).msgDrop_counts m
  refine ⟨_, exec_messageArrival h, ?_⟩
  rw [if_pos hr, State.msgReach_running hh, State.msgArrive_drop (by rwa [s.rx_unsend]), Option.getD_some]
  refine ⟨hrec, by rw [hcount, s.creg_unsend], fun x => ?_⟩
  rw [hmem, s.mem_unsend]

theorem exec_messageFail (h : m.score < 1536) : Happens (.messageFail m) s (fun t =>
    (m.score, ⟨0x04, 0, 0, m.sctx, 0, m.destWord &&& 0xFFFFFFFFFFFFF#64, false, 0⟩) ∈ t.net.recs ∧ SameMem s t) := by
  refine ⟨_, eventOn_eq_next (decide_eq_true h) rfl, List.mem_append_right _ List.mem_cons_self, fun x => ?_⟩
  rw [State.msgFail, State.post_mem, s.mem_unsend]

end

/-! ### Remote commands and records (04 R74, 05 R91) -/

theorem exec_remoteCommandArrival {c : RemoteCmd} (ht : c.target < 1536) (hs : c.score < 1536) :
    ∃ net, exec (.remoteCommandArrival c) s = .next (State.rcArrive { s with net := net } c) :=
  ⟨_, eventOn_eq_next (decide_eq_true ⟨ht, hs⟩) rfl⟩

/-- A command that the ensign table does not admit is refused, with a record to its sender. -/
theorem State.rcArrive_refused {c : RemoteCmd} (ha : (s.core c.target).admits c = false) : s.rcArrive c = s.mcReply c 0x07 0 := by
  unfold State.rcArrive
  dsimp only
  rw [ha]
  rfl

/-- One that it admits joins the buffer of four. -/
theorem State.rcArrive_admitted {c : RemoteCmd} {i : Instr} (ha : (s.core c.target).admits c = true) (hi : rcInstr c = some i)
    (hg : i.shape.g = 0) (hroom : (s.core c.target).rcbuf.length < 4) :
    s.rcArrive c = s.setCore c.target { s.core c.target with rcbuf := (s.core c.target).rcbuf ++ [c] } := by
  unfold State.rcArrive
  dsimp only
  rw [ha, hi]
  dsimp only
  rw [if_neg (by decide), if_neg (not_not.2 hg), if_neg (by omega)]

theorem State.recArrive_room {core : Nat} {r : EvRec} (hl : (s.core core).evq.length < 64)
    (ho : (s.core core).evhead = (s.core core).evtail) :
    s.recArrive core r = s.setCore core { s.core core with evq := (s.core core).evq ++ [{ r with held := false }] } := by
  unfold State.recArrive
  dsimp only
  rw [if_pos ⟨hl, ho⟩]

theorem exec_eventRecordArrival {core : Nat} {r : EvRec} (hc : core < 1536) (hl : (s.core core).evq.length < 64)
    (ho : (s.core core).evhead = (s.core core).evtail) : Happens (.eventRecordArrival core r) s (fun t =>
      (t.core core).evq = (s.core core).evq ++ [{ r with held := false }] ∧ SameMem s t) := by
  refine ⟨_, eventOn_eq_next (decide_eq_true hc) (State.recArrive_room hl ho), ?_, fun x => rfl⟩
  rw [State.core_setCore_same]
  rfl

/-! ### Hardware posts (14 R280) -/

/-- The domain for which the hardware posts: that of the first post on its way, or of the core. -/
def State.postDom (s : State) (core : Nat) (a : W64) : Nat :=
  ((s.net.posts.find? (fun p => p.1 == core && p.2.1 == a)).map (·.2.2.2)).getD (s.core core).domain

/-- A post is made in a state from which it may have been taken, and which is otherwise as before. -/
theorem State.postPennant_eq (s : State) (core : Nat) (a : W64) : ∃ posts q,
    s.postPennant core a = State.hwPost { s with net := { s.net with posts := posts } } core a q (s.postDom core a) := by
  unfold State.postPennant State.postDom
  cases s.net.posts.find? (fun p => p.1 == core && p.2.1 == a) with
  | none => exact ⟨s.net.posts, _, rfl⟩
  | some p => exact ⟨_, _, rfl⟩

theorem State.hwPost_misaligned {core q dom : Nat} {a : W64} (ha : a.toNat % 32 ≠ 0) :
    s.hwPost core a q dom = some (s.pnFail core 0 a) := by
  rw [State.hwPost, if_pos ha]

section
variable {core q dom : Nat} {a : W64} {l : Loc} (ha : a.toNat % 32 = 0) (hl : s.access (s.pnWho core dom) a 32 .rmw .fe = .ok l)
  (hb : pnBad (s.peek l 32) = false)
include ha hl hb

/-- A pennant whose counter is zero takes no join. -/
theorem State.hwPost_zero (hn : pnCount (s.peek l 32) = 0) : s.hwPost core a q dom = some (s.pnFail core 1 a) := by
  have hj : s.joinAt core q a l = .zero := by
    unfold State.joinAt
    dsimp only
    rw [if_neg (ne_true_of_eq_false hb), if_pos hn]
  unfold State.hwPost
  rw [if_neg (not_not.2 ha), hl]
  dsimp only
  rw [hj]

/-- A counter above one goes down by one. -/
theorem State.hwPost_counts (hn : 1 < pnCount (s.peek l 32)) : s.hwPost core a q dom =
    some (s.poke l 32 (pnWith (s.peek l 32) (pnCount (s.peek l 32) - 1) (pnQ (s.peek l 32)))) := by
  have hj : s.joinAt core q a l = .ok (pnCount (s.peek l 32) - 1)
      (s.poke l 32 (pnWith (s.peek l 32) (pnCount (s.peek l 32) - 1) (pnQ (s.peek l 32)))) := by
    unfold State.joinAt
    dsimp only
    rw [if_neg (ne_true_of_eq_false hb), if_neg (by omega), if_pos (by omega)]
  unfold State.hwPost
  rw [if_neg (not_not.2 ha), hl]
  dsimp only
  rw [hj]

end

theorem exec_hardwarePost {core : Nat} (hc : core < 1536) (a : W64) : ∃ posts q, exec (.hardwarePost core a) s =
    .next ((State.hwPost { s with net := { s.net with posts := posts } } core a q (s.postDom core a)).getD s) := by
  obtain ⟨posts, q, h⟩ := s.postPennant_eq core a
  exact ⟨posts, q, eventOn_eq_next (decide_eq_true hc) (congrArg (Option.getD · s) h)⟩

theorem State.rekey_net (s : State) (net : Net) (ln m : Nat) :
    State.rekey { s with net := net } ln m = { s.rekey ln m with net := net } := by
  unfold State.rekey
  dsimp only
  split
  · rfl
  · rfl

/-- What is on its way has no part in a write of memory. -/
theorem State.mem_poke_net (s : State) (net : Net) (l : Loc) (n v : Nat) :
    (State.poke { s with net := net } l n v).mem = (s.poke l n v).mem := by
  unfold State.poke
  cases l.key? with
  | none => rfl
  | some k =>
    dsimp only
    have hkeys := List.foldl_hom (l := linesOf k n) (init := s) (fun t : State => { t with net := net })
      (g₁ := fun t ln => t.rekey ln (s.keyMat l.mat)) (g₂ := fun t ln => t.rekey ln (s.keyMat l.mat))
      (fun t ln => t.rekey_net net ln _)
    rw [(heal_mem _ k n).1, (heal_mem _ k n).1]
    have hmem := congrArg State.mem hkeys
    exact congrArg (fun m => Mem.write m k n v) hmem

/-- Settles O48: what an arrival does in each of the cases that the statement tells apart. -/
theorem arrivalEvents : Obligations.ArrivalEvents := by
  unfold Obligations.ArrivalEvents
  intro s recd
  refine ⟨fun m hd hr hs => ?messages, fun c ht hs => ?commands, fun core r hc hl ho => exec_eventRecordArrival hc hl ho,
    fun core a hc => ?posts⟩
  case messages =>
    intro u n halts
    refine ⟨exec_messageArrival_early ⟨hd, hr, hs⟩, exec_messageFail hs, fun hrec => ?_⟩
    have hrec := State.receives_of hrec
    have harr := exec_messageArrival (s := s) ⟨hd, hr, hs⟩
    rw [if_pos hrec] at harr
    refine ⟨fun hh hfit => ?_, fun hh hfull => ?_, fun r hh hrx hdom hlen hroom hovf heos => ?_,
      fun hrx hh => exec_messageArrival_dropped ⟨hd, hr, hs⟩ hrec hrx hh⟩
    · rw [harr, State.msgReach_halted hh, if_pos hfit, Option.getD_some, State.hold, s.admin_unsend]
    · rw [harr, State.msgReach_halted hh, if_neg (not_le.2 hfull), Option.getD_none]
    · rw [harr, State.msgReach_running hh, State.msgArrive_slot (by rwa [s.rx_unsend]) hdom hlen hroom hovf heos, Option.getD_some]
  case commands =>
    obtain ⟨net, h⟩ := exec_remoteCommandArrival (s := s) ht hs
    refine ⟨fun ha => ⟨_, h, ?_⟩, fun i ha hi hg hroom => ⟨_, h, ?_⟩⟩
    · rw [State.rcArrive_refused (s := { s with net := net }) ha]
      exact ⟨List.mem_append_right _ List.mem_cons_self, rfl⟩
    · rw [State.rcArrive_admitted (s := { s with net := net }) ha hi hg hroom]
      exact congrArg Core.rcbuf (State.core_setCore_same ..)
  case posts =>
    intro dom
    obtain ⟨posts, q, h⟩ := exec_hardwarePost (s := s) hc a
    refine ⟨fun ha => ⟨_, h, ?_⟩, fun l ha (hl : s.access (s.pnWho core (s.postDom core a)) a 32 .rmw .fe = .ok l) hb => ?_⟩
    · rw [State.hwPost_misaligned (s := { s with net := { s.net with posts := posts } }) ha]
      exact List.mem_append_right _ List.mem_cons_self
    · intro n
      refine ⟨fun hn => ⟨_, h, ?_⟩, fun hn => ⟨_, h, ?_⟩⟩
      · rw [State.hwPost_zero (s := { s with net := { s.net with posts := posts } }) ha hl hb hn]
        exact ⟨List.mem_append_right _ List.mem_cons_self, fun _ => rfl⟩
      · rw [State.hwPost_counts (s := { s with net := { s.net with posts := posts } }) ha hl hb hn]
        exact s.mem_poke_net _ l 32 _

end Sys2Proof.Machine
end

/-! # Receive rings and bound streams (O26)

RBWAIT, RBADV and STBIND are words of a quiet context. STUNBIND and a vector word whose operand is the stream are words of a context that
is quiet but for its stream (`State.Calm`); `issue_calm` says what such a word does at its issue. -/

section
namespace Sys2Proof

/-- A write of a table keeps each of its entries but the one that it replaces. -/
theorem Tbl.mem_put_of_mem {α : Type} {t : Tbl α} {p : Nat × α} (n : Nat) (x : α) (h : p ∈ t) :
    p ∈ Tbl.put t n x ∨ ∀ d, Tbl.get d t n = p.2 := by
  induction t with
  | nil => exact absurd h List.not_mem_nil
  | cons y l ih =>
    obtain ⟨k, v⟩ := y
    simp only [Tbl.put]
    split
    next hk =>
      obtain rfl | h := List.mem_cons.1 h
      · exact .inr fun d => if_pos hk
      · exact .inl (List.mem_cons_of_mem _ h)
    next hk =>
      split
      · exact .inl (List.mem_cons_of_mem _ h)
      · obtain rfl | h := List.mem_cons.1 h
        · exact .inl List.mem_cons_self
        · exact (ih h).imp (List.mem_cons_of_mem _) fun hget d => (if_neg hk).trans (hget d)

end Sys2Proof
end

section
namespace Sys2Proof.Machine

variable {s : State}

/-! ### Writes of rings leave the contexts alone -/

/-- The cores and the running context of the state. -/
def State.seats (s : State) : Tbl Core × (Nat × Nat) := (s.cores, s.cur)

theorem State.seats_rekey (s : State) (ln m : Nat) : (s.rekey ln m).seats = s.seats := by
  unfold State.rekey
  split
  · rfl
  · rfl

theorem State.seats_heal (s : State) (a n : Nat) : (s.heal a n).seats = s.seats := by
  obtain ⟨-, hcores, -, -, hcur, -⟩ := heal_mem s a n
  rw [State.seats, hcores, hcur]
  rfl

theorem State.seats_poke (s : State) (l : Loc) (n v : Nat) : (s.poke l n v).seats = s.seats := by
  unfold State.poke
  split
  · rfl
  · exact (State.seats_heal ..).trans (foldl_keeps State.seats (fun s ln => State.seats_rekey s ln _) _ s)

theorem State.cores_poke (s : State) (l : Loc) (n v : Nat) : (s.poke l n v).cores = s.cores := congrArg Prod.fst (s.seats_poke l n v)

theorem State.cur_poke (s : State) (l : Loc) (n v : Nat) : (s.poke l n v).cur = s.cur := congrArg Prod.snd (s.seats_poke l n v)

theorem State.Lone.poke (h : s.Lone) (l : Loc) (n v : Nat) : (s.poke l n v).Lone := h.congr (s.cores_poke l n v) (s.cur_poke l n v)

/-- A ring that is stored changes its core alone, and of that neither the contexts nor the bindings. -/
theorem State.seats_setRx (s : State) (core n : Nat) (r : RxRing) :
    (s.setRx core n r).seats = (s.setCore core { s.core core with rx := Tbl.put (s.core core).rx n r }).seats := by
  unfold State.setRx
  dsimp only
  split
  · rfl
  · rw [State.seats_poke, State.seats_poke]

theorem State.Lone.setRx (h : s.Lone) (n : Nat) (r : RxRing) : (s.setRx s.cur.1 n r).Lone := by
  have hset : (s.setCc { s.cc with rx := Tbl.put s.cc.rx n r }).Lone := h.setCc rfl
  exact hset.congr (congrArg Prod.fst (s.seats_setRx ..)) (congrArg Prod.snd (s.seats_setRx ..))

/-! ### Results of long-latency words -/

theorem Ctx.fileW_loops (c : Ctx) (n : Nat) (v : W64) : (c.fileW n v).flow.loops = c.flow.loops := by
  unfold Ctx.fileW
  split <;> rfl

theorem Ctx.setWraw_follow (c : Ctx) (r : RegId) (v : W64) : (c.setWraw r v).follow = c.follow := by
  cases r <;> rfl

theorem Ctx.fileW_follow (c : Ctx) (n : Nat) (v : W64) : (c.fileW n v).follow = c.follow := by
  unfold Ctx.fileW
  split
  · rfl
  · exact Ctx.setWraw_follow ..

/-- A word of a quiet context that completes at its issue with a result in a w register. -/
theorem issue_result (s : State) (i : Instr) (eff : Eff) (d : Nat) (v : W64) (hq : s.quiet = true) (hg : s.guardOk i.shape.g = true)
    (hh : i.shape.home ≠ some 3) (hb : i.shape.barred = false) (hla : i.shape.la = 0)
    (he : ∀ e : Entry, e.Holds s i.shape → e.Fresh (s.issuedAs i.shape) →
      eff e (s.issuedAs i.shape) = .ok (.done, (s.issuedAs i.shape).setCx ((s.issuedAs i.shape).cx.finW e d v))) :
    issue i eff s = .next (s.result i d v) := by
  have hlone := State.lone_of_quiet hq
  refine issue_cx s (s.resultCx i.shape d v) i eff hq hg hh (.inr hb) hla ?_ ?_ ?_
  · rw [he _ ⟨rfl, rfl, rfl, rfl⟩ (State.entryOf_fresh hq _ _ _ _), State.cx_issuedAs]
    rfl
  · exact (Ctx.fileW_loops ..).trans ((Ctx.issue_loops ..).trans hlone.loops)
  · exact (Ctx.fileW_follow ..).trans ((Ctx.issue_follow ..).trans hlone.follow)

/-! ### RBWAIT, RBADV and STBIND (04 R72, R73) -/

variable {e : Entry} {r : RxRing}

theorem ringOn_ok {n : Nat} (hr : Tbl.find s.cc.rx n = some r) : ringOn n s = .ok (r, s) := by
  rw [ringOn, bind_ok (m := getCc) rfl, hr]
  rfl

theorem ringFree_ok {n : W64} (hn : n.toNat ≤ 7) (hr : Tbl.find s.cc.rx n.toNat = some r) (hb : Tbl.find s.cc.bound n.toNat = none) :
    ringFree n s = .ok (r, s) := by
  rw [ringFree, if_neg (not_lt.2 hn), bind_ok (ringOn_ok hr), bind_ok (m := getCc) rfl, hb]
  rfl

theorem takeRes_none (hres : s.cx.results = []) : takeRes e s = .ok (none, s) := by
  unfold takeRes
  dsimp only
  rw [hres]
  rfl

theorem promiseLimit_ok {w : W64} (h : w = 0 ∨ (s.cc.part.map (·.promise)).getD 0 = 0) : promiseLimit w s = .ok ((), s) := by
  unfold promiseLimit
  rw [if_neg (by rintro ⟨hw, hp⟩; obtain h | h := h; exact hw h; omega)]

theorem finRbwait_ok {d slot : Nat} {ovf : Bool} (hres : s.cx.results = []) (hn : e.opa.toNat ≤ 7)
    (hr : Tbl.find s.cc.rx e.opa.toNat = some r) (hb : Tbl.find s.cc.bound e.opa.toNat = none)
    (hlim : e.opb = 0 ∨ (s.cc.part.map (·.promise)).getD 0 = 0) (hcur : r.current = some (ovf, slot)) :
    finRbwait d e s = .ok (.done, s.setCx (s.cx.finW e d (if ovf then BitVec.ofNat 64 slot else windowAddr s.cur.1 slot))) := by
  refine plain_ok ?_
  rw [bind_ok (takeRes_none hres)]
  dsimp only
  rw [if_neg (not_lt.2 hn), bind_ok (promiseLimit_ok hlim), bind_ok (ringFree_ok hn hr hb),
    bind_ok (m := getCur) rfl, hcur]
  rfl

theorem finRbadv_ok (he : e.Fresh s) (hn : e.opa.toNat ≤ 7) (hr : Tbl.find s.cc.rx e.opa.toNat = some r)
    (hb : Tbl.find s.cc.bound e.opa.toNat = none) :
    finRbadv e s = .ok (.done, if r.current.isNone then s else s.setRx s.cur.1 e.opa.toNat r.advance) := by
  refine plain_ok ?_
  rw [bind_ok (ringFree_ok hn hr hb), bind_ok (m := getCur) rfl, bind_ok (afterEarlier_ok e _ he.inflight)]
  split
  · rfl
  · rfl

theorem State.cc_poke (s : State) (l : Loc) (n v : Nat) : (s.poke l n v).cc = s.cc := by
  rw [State.cc, State.core, s.cores_poke, s.cur_poke]
  rfl

theorem finStbind_ok (hn : e.opd.toNat ≤ 7) (hr : Tbl.find s.cc.rx e.opd.toNat = some r)
    (hb : Tbl.find s.cc.bound e.opd.toNat = none) (hst : s.cx.stream = none) :
    let p := if beyondLs (s.cc.rxDesc e.opd.toNat + 47) then s
      else s.poke (.ls s.cur.1 (s.cc.rxDesc e.opd.toNat + 40)) 8 e.opa.toNat
    let q := p.setCc { p.cc with bound := Tbl.put s.cc.bound e.opd.toNat s.cur.2 }
    finStbind e s = .ok (.done, q.setCx { q.cx with stream := some ⟨e.opd.toNat, e.opb.toNat % 2 ^ 8, 0⟩ }) := by
  intro p
  have hp : p.cc = s.cc := by
    unfold p
    split
    · rfl
    · exact s.cc_poke ..
  rw [← hp]
  refine plain_ok ?_
  rw [if_neg (not_lt.2 hn), bind_ok (ringOn_ok hr), bind_ok (m := getCc) rfl, bind_ok (m := getCx) rfl, hb, if_neg (by decide), hst,
    if_neg (by decide), bind_ok (m := getCur) rfl, bind_ok (m := pokeOwn _ _) rfl, bind_ok (m := modCc _) rfl]
  rfl

/-! ### A context that is quiet but for its stream -/

/-- The running context is quiet, but it may have a bound stream. -/
structure State.Calm (s : State) : Prop where
  chain : s.cx.flow.chain = []
  inflight : s.cx.flow.inflight = []
  gone : s.cx.flow.gone = []
  stale : s.cx.flow.stale = []
  vbusy : s.cc.vbusy = false
  vqueue : s.cc.vqueue = 0
  lone : s.Lone

theorem Core.vqueue_eq_zero_iff (x : Core) : x.vqueue = 0 ↔ ∀ p ∈ x.ctxs, p.2.flow.inflight.countP (·.queued) = 0 := by
  unfold Core.vqueue
  rw [← List.sum_eq_foldl, List.sum_eq_zero_iff, List.forall_mem_map]

theorem State.calm_of_unbound (hq : (s.setCx { s.cx with stream := none }).quiet = true) : s.Calm := by
  obtain ⟨hchain, hin, hloops, hstale, hfollow, -, halone, hgone, -, hvb, -, hvq⟩ := (State.quiet_iff _).1 hq
  rw [State.cx_setCx] at hchain hin hloops hstale hfollow hgone
  rw [State.cc_setCx] at hvb hvq
  refine ⟨hchain, hin, hgone, hstale, hvb, (Core.vqueue_eq_zero_iff _).2 fun p hp => ?_, hloops, hfollow, fun p hp => ?_⟩
  · obtain h | h := Tbl.mem_put_of_mem s.cur.2 { s.cx with stream := none } hp
    · exact (Core.vqueue_eq_zero_iff _).1 hvq p h
    · rw [← h Ctx.reset, ← Core.ctx]
      exact congrArg (List.countP _) hin
  · obtain h | h := Tbl.mem_put_of_mem s.cur.1 (s.cc.setCtx s.cur.2 { s.cx with stream := none }) hp
    · exact halone p h
    · rw [← h Core.reset]
      by_cases hk : s.cur.2 = 0
      · rw [← hk]
        exact hfollow
      · have hcore := State.alone_core halone s.cur.1
        rwa [State.setCx, State.setCtx, State.core_setCore_same, Core.ctx_setCtx_ne _ _ _ _ (Ne.symm hk)] at hcore

theorem guard_ok {g : Nat} (hg : s.guardOk g = true) : guard g s = .ok (true, s) := by
  unfold guard
  split
  · rfl
  next hn =>
    have hq : s.cx.qOf g = .val true := by simpa [State.guardOk, hn] using hg
    rw [rQ, hq]

/-- The checks before issue of a word with no HINT (02 R23, 07 R129 to R132). -/
theorem gate_calm (hc : s.Calm) (word : Nat) (h : Shape) (hg : s.guardOk h.g = true) (hh : h.home ≠ some 3)
    (hb : s.cx.level = 0 ∨ h.barred = false) : gate word h s = .ok (true, s) := by
  have hclosed : s.cx.flow.closed = false := by rw [Flow.closed, hc.inflight]; rfl
  have hdrains : s.cx.flow.drains h = false := by rw [Flow.drains, hc.inflight]; exact Bool.and_false _
  have haccepts : h.accepts [] = true := by simp [Shape.accepts, hh, b2n]
  have hunfit : h.unfit [] = false := by
    unfold Shape.unfit Shape.gathered
    cases h.imm <;> rfl
  have hbarred : ¬(¬s.cx.level = 0 ∧ h.barred = true) := by
    rintro ⟨hl, ht⟩
    obtain hb | hb := hb
    · exact hl hb
    · exact Bool.noConfusion (hb.symm.trans ht)
  have hend : s.cx.atEnd s.cx.flow.pc = false := by rw [Ctx.atEnd, hc.lone.loops]; rfl
  have hwindow (p : Entry → Bool) : s.cx.flow.inWindow p = none := by rw [Flow.inWindow, hc.inflight, hc.gone]; rfl
  have hprod : s.cx.notProduced h = false := by rw [Ctx.notProduced, hc.inflight]; rfl
  rw [gate, bind_ok (m := getCx) rfl]
  simp only [hclosed, hc.chain, haccepts, hunfit, hdrains]
  rw [if_neg (by decide), if_neg (by decide), if_neg (by decide), bind_ok (guard_ok hg)]
  simp [hbarred, hend, hwindow, hprod, hc.inflight]
  rfl

/-- What the issue of a word does in a context that is quiet but for its stream: its effect on what it captures. -/
theorem issue_calm {s0 t : State} {i : Instr} {eff : Eff} {e : Entry} (hc : s.Calm) (hg : s.guardOk i.shape.g = true)
    (hh : i.shape.home ≠ some 3) (hb : s.cx.level = 0 ∨ i.shape.barred = false) (hla : i.shape.la = 0)
    (hv : vqTrap s i.shape i ((encodeNat i).getD 0) eff = none)
    (hcap : capture i ((encodeNat i).getD 0) i.shape false s = .ok (e, s0)) (hend : e.atEnd = false)
    (he : eff (e.withLeft 0) (s0.setCx (s0.cx.issue i.shape)) = .ok (.done, t)) (ht : t.Lone) : issue i eff s = .next t.stamp := by
  have hrun : runEff s i.shape i ((encodeNat i).getD 0) eff = .next (t.setCx t.cx) := by
    unfold runEff
    simp [hv, hcap, hend, hla, hc.vbusy, hc.vqueue, he, Ctx.evalEnd_none _ _ ht.loops]
  unfold issue tryIssue issueWord
  simp only [State.following_none _ hc.lone.follow, State.heldByFollower_none _ hc.lone.alone, gate_calm hc _ _ hg hh hb, hrun]
  simp [Issued.outcome, State.stream_none _ _ _ _ (State.alone_setCx _ _ ht.alone ht.follow), State.stamp_setCx_self]

end Sys2Proof.Machine
end

section
namespace Sys2Proof.Machine

variable {s : State} {e : Entry} {r : RxRing} {k : Sys2Proof.Machine.Stream}

/-! ### STUNBIND (04 R73) -/

theorem finStunbind_unbound (hst : s.cx.stream = none) : finStunbind e s = .ok (.done, s) := by
  refine plain_ok ?_
  rw [hst]

/-- The end of a binding, with which a message that is partly consumed goes. -/
theorem finStunbind_bound (hst : s.cx.stream = some k) (hr : Tbl.find s.cc.rx k.ring = some r) :
    let p := if k.used = 0 then s else s.setRx s.cur.1 k.ring r.advance
    let q := p.setCc { p.cc with bound := Tbl.erase p.cc.bound k.ring }
    finStunbind e s = .ok (.done, q.setCx { q.cx with stream := none }) := by
  refine plain_ok ?_
  rw [hst]
  dsimp only
  rw [hr]

theorem State.Lone.rebind (h : s.Lone) (b : Tbl Nat) (st : Option Sys2Proof.Machine.Stream) :
    let q := s.setCc { s.cc with bound := b }
    (q.setCx { q.cx with stream := st }).Lone := by
  intro q
  have hq : q.Lone := h.setCc rfl
  exact State.Lone.setCx hq hq.loops hq.follow

theorem capture_stunbind (g w : Nat) (s : State) : ∃ e, capture (.stunbind g) w (Instr.stunbind g).shape false s = .ok (e, s) ∧
    e.atEnd = s.cx.atEnd s.cx.flow.pc := ⟨_, rfl, rfl⟩

theorem exec_stunbind_bound {g : Nat} (hg : s.guardOk g = true) (hst : s.cx.stream = some k)
    (hq : (s.setCx { s.cx with stream := none }).quiet = true) (hr : Tbl.find s.cc.rx k.ring = some r) :
    exec (.stunbind g) s = .next (s.did (.stunbind g) (fun u =>
      let p := if k.used = 0 then u else u.setRx s.cur.1 k.ring r.advance
      let q := p.setCc { p.cc with bound := Tbl.erase p.cc.bound k.ring }
      q.setCx { q.cx with stream := none })) := by
  have hc := State.calm_of_unbound hq
  obtain ⟨e, hcap, hend⟩ := capture_stunbind g ((encodeNat (.stunbind g)).getD 0) s
  have hrx : Tbl.find (s.issuedAs (Instr.stunbind g).shape).cc.rx k.ring = some r := by
    rw [State.cc_issuedAs]
    exact hr
  have heff := finStunbind_bound (e := e.withLeft 0) (s := s.issuedAs (Instr.stunbind g).shape)
    (by rw [State.cx_issuedAs, Ctx.issue_stream, hst]) hrx
  refine (exec_stunbind g s).trans (issue_calm hc hg (by simp) (.inr (by simp [Shape.barred, Shape.reads])) rfl
      ?_ hcap ?_ heff ?_)
  · simp [vqTrap, Ctx.readsVq]
  · rw [hend, Ctx.atEnd, hc.lone.loops]
    rfl
  · have hlone := hc.lone.issuedAs (Instr.stunbind g).shape
    have hp : (if k.used = 0 then s.issuedAs (Instr.stunbind g).shape
        else (s.issuedAs (Instr.stunbind g).shape).setRx s.cur.1 k.ring r.advance).Lone := by
      split
      · exact hlone
      · exact hlone.setRx k.ring r.advance
    exact hp.rebind _ _

/-- RBWAIT, RBADV, STBIND and STUNBIND (04 R72, R73). -/
theorem ringResults : Stated.RingResults := by
  intro s d a b g r hg hres
  refine ⟨fun hq hn hr hb => ⟨fun ovf slot hcur hlim => ?rbwait, ?rbadv⟩, fun hq hn hr hb => ?stbind, fun hq => ?stunbind,
    fun k hst hq hr => exec_stunbind_bound hg hst hq hr⟩
  case rbwait =>
    refine (exec_rbwait d a b g 0 s).trans (issue_result s _ _ d _ hq hg (by simp) (by simp [Shape.barred, Shape.reads]) rfl
      fun e he hf => ?_)
    have hopa : e.opa = s.reg a := he.opa
    have hopb : e.opb = s.reg b := he.opb
    rw [← hopa] at hn hr hb
    rw [← hopb] at hlim
    refine finRbwait_ok (by rw [State.cx_issuedAs, Ctx.issue_results, hres]) hn ?_ ?_ ?_ hcur <;> rw [State.cc_issuedAs]
    exacts [hr, hb, hlim]
  case rbadv =>
    refine (exec_rbadv a g s).trans (issue_did s _ _ _ hq hg (by simp) (by simp [Shape.barred, Shape.reads]) rfl
      (fun e he hf => ?_) (fun ht => ?_))
    · have hopa : e.opa = s.reg a := he.opa
      rw [← hopa] at hn hr hb ⊢
      refine finRbadv_ok hf hn ?_ ?_ <;> rw [State.cc_issuedAs]
      exacts [hr, hb]
    · split
      · exact ht
      · exact ht.setRx _ _
  case stbind =>
    refine (exec_stbind d a b g s).trans (issue_did s _ _ _ hq hg (by simp) (by simp [Shape.barred, Shape.reads]) rfl
      (fun e he hf => ?_) (fun ht => ?_))
    · have hopd : e.opd = s.reg d := he.opd
      have hopa : e.opa = s.reg a := he.opa
      have hopb : e.opb = s.reg b := he.opb
      obtain ⟨-, -, -, -, -, hst, -⟩ := s.quiet_iff.1 hq
      rw [← hopd] at hn hr hb ⊢
      rw [← hopa, ← hopb]
      have heff := finStbind_ok (e := e) (s := s.issuedAs (Instr.stbind d a b g).shape) (r := r) hn
      rw [State.cc_issuedAs] at heff
      exact heff hr hb (by rw [State.cx_issuedAs, Ctx.issue_stream, hst])
    · refine State.Lone.rebind ?_ _ _
      split
      · exact ht
      · exact ht.poke _ _ _
  case stunbind =>
    obtain ⟨-, -, hl, -, hf, hst, -, hgone, -⟩ := s.quiet_iff.1 hq
    have hcx : s.cx.issue (Instr.stunbind g).shape = s.cx.stepped := Ctx.issue_of_no_result _ _ rfl hgone
    refine (exec_stunbind g s).trans (issue_cx s _ _ _ hq hg (by simp) (.inr (by simp [Shape.barred, Shape.reads])) rfl
      ?_ hl hf)
    rw [finStunbind_unbound (by rw [State.cx_issuedAs, Ctx.issue_stream, hst]), State.issuedAs, hcx, State.setCx_setCx]

end Sys2Proof.Machine
end

section
namespace Sys2Proof.Machine

variable {s : State} {e : Entry} {r : RxRing} {k : Sys2Proof.Machine.Stream}

/-! ### The stream as an operand (04 R73, 02 R17) -/

theorem State.isLost_nil (hl : s.lost = []) (a n : Nat) : s.isLost a n = false := by
  rw [State.isLost, hl, List.any_eq_false]
  exact fun _ _ h => Bool.noConfusion h

/-- Bytes of a message in the local store, no line of which is lost. -/
theorem State.rxRead_ls (hl : s.lost = []) (core off o n : Nat) :
    s.rxRead core r (false, off) o n = .ok (s.peek (.ls core (off + o)) n) := by
  rw [State.rxRead, if_neg Bool.false_ne_true, State.isLost_nil hl, if_neg Bool.false_ne_true]

/-- The next bytes of the stream, where they stand in the current message and do not end it: nothing else changes. -/
theorem State.takeStream_inside {core ring used n m v : Nat} {slot : Bool × Nat} (fuel : Nat) (hr : Tbl.find (s.core core).rx ring = some r)
    (hcur : r.current = some slot) (hm : s.rxRead core r slot 0 8 = .ok m) (hv : s.rxRead core r slot (8 + used) n = .ok v)
    (hlen : used + n < m % 2 ^ 16) : s.takeStream core ring (fuel + 1) used n = .ok (some (v, used + n, s)) := by
  have hn : min n (m % 2 ^ 16 - used) = n := by omega
  simp only [State.takeStream, hr, hcur, hm, hn, hv, Nat.ne_of_lt hlen, if_true, if_false]

/-- The context with so many bytes of its message taken. -/
def Ctx.streamed (c : Ctx) (k : Sys2Proof.Machine.Stream) (used : Nat) : Ctx := { c with stream := some { k with used := used } }

theorem readVq_inside {off : Nat} (hst : s.cx.stream = some k) (hr : Tbl.find s.cc.rx k.ring = some r)
    (hcur : r.current = some (false, off)) (hl : s.lost = []) (hlen : k.used + 256 < s.peek (.ls s.cur.1 off) 8 % 2 ^ 16) :
    readVq s = .ok ((s.peek (.ls s.cur.1 (off + (8 + k.used))) 256, k.tag), s.setCx (s.cx.streamed k (k.used + 256))) := by
  unfold readVq
  rw [hst]
  dsimp only
  rw [State.takeStream_inside 255 hr hcur (State.rxRead_ls hl _ off 0 8) (State.rxRead_ls hl _ _ _ _) hlen]
  rfl

/-- The entry of a VMOV from the stream, of which it took `x` with tag `y`. -/
def State.streamEntry (s : State) (d : Nat) (t : Bool) (w x y : Nat) : Entry :=
  { s.entryOf (.vmov d 31 0 t) w (Instr.vmov d 31 0 t).shape with
    pc := s.cx.flow.start, hints := hintsNum s.cx.flow.chain, va := x, atEnd := s.cx.atEnd s.cx.flow.pc
    ext := [y, 0] ++ s.cx.vdestNow (some d) }

/-- A VMOV from the stream captures it, after what the read has done; a dry read takes nothing. -/
theorem capture_stream {dry : Bool} {x y w : Nat} {s' : State} (d : Nat) (t : Bool) (hst : s.cx.stream = some k)
    (hv : rVq dry s = .ok ((x, y), s')) :
    capture (.vmov d 31 0 t) w (Instr.vmov d 31 0 t).shape dry s = .ok (s'.streamEntry d t w x y, s') := by
  have hvec : rVec dry (Instr.vmov d 31 0 t).shape.va s = .ok ((x, y), s') := by
    change rVec dry (some (.src 31)) s = _
    rw [rVec, bind_ok (m := getCx) rfl, hst]
    exact hv
  rw [capture, bind_ok (m := rWo _) rfl, bind_ok (m := rWo _) rfl, bind_ok (m := rWo _) rfl, bind_ok (m := rMo _) rfl,
    bind_ok (m := List.forM _ touch) rfl, bind_ok hvec]
  rfl

/-- A word whose effect on what a dry read captures goes well raises no trap before it takes of the stream. -/
theorem vqTrap_of_effect {h : Shape} {i : Instr} {w : Nat} {eff : Eff} {s0 : State} {p : Fin × State}
    (hcap : capture i w h true s = .ok (e, s0)) (heff : eff e (s0.setCx (s0.cx.issue h)) = .ok p) : vqTrap s h i w eff = none := by
  unfold vqTrap
  split
  · rfl
  · rw [hcap]
    dsimp only
    rw [heff]

/-- VMOV under no mask, of an operand with a tag that a register may hold (09 R181). -/
theorem finVmov_ok {d a y : Nat} {t : Bool} (hta : e.ta 0 = y) (hy : y ∈ anyTag) : finVmov d a 0 t e s =
    .ok (.done, s.setCx (s.cx.writeV d (mapElems 0 e.mask (e.dst s.cx d) (fun j => (lane e.va j, 0))).1 y t)) := by
  subst hta
  refine plain_ok ?_
  rw [bind_ok (accept_run e s a anyTag (List.contains_iff_mem.2 hy)), laneOut, bind_ok (m := maskedTag _ _ _ _) rfl,
    bind_ok (m := getCx) rfl]
  rfl

/-- Under a mask of ones each lane is that of the operand. -/
theorem lane_mapElems (old x j : Nat) (hj : j < 64) :
    lane (mapElems 0 (BitVec.allOnes 64) old (fun i => (lane x i, 0))).1 j = lane x j := by
  have h := (mapElems_are 0 (BitVec.allOnes 64) old (fun i => (lane x i, 0))).1 j hj
  have hon : elemOn 0 (BitVec.allOnes 64) j = true := by
    rw [elemOn, if_neg (by decide), BitVec.getLsbD_allOnes]
    exact decide_eq_true hj
  rw [hon, if_pos rfl] at h
  exact h.trans (Nat.mod_mod _ _)

/-! ### A vector register after its write -/

theorem lastThree_concat (l : List Bypassed) (b : Bypassed) : ∃ l', lastThree (l ++ [b]) = l' ++ [b] :=
  ⟨l.drop ((l ++ [b]).length - 3), List.drop_append_of_le_length (by simp)⟩

/-- The value of the latest result of a register is in the bypass. -/
theorem Flow.bypassed_push (f : Flow) (b : Bypassed) : (f.push b).bypassed b.reg = some b.val := by
  obtain ⟨l', h⟩ := lastThree_concat f.bypass b
  rw [Flow.bypassed, Flow.push, h, List.filter_append]
  simp

theorem Flow.staleTag_freshen (f : Flow) (x : RegId) : (f.freshen x).staleTag x = none := by
  simp [Flow.staleTag, Flow.freshen]

theorem Flow.staleTag_markStale (f : Flow) (x : RegId) (tag : Nat) : (f.markStale x tag).staleTag x = some tag := by
  simp [Flow.staleTag, Flow.markStale]

theorem Ctx.vtagOf_writeV (c : Ctx) (n v tag : Nat) (t : Bool) : (c.writeV n v tag t).vtagOf n = tag := by
  cases t with
  | true => exact congrArg (Option.getD · _) (Flow.staleTag_markStale _ _ tag)
  | false =>
    have h : (c.writeV n v tag false).flow.staleTag (.v n) = none := Flow.staleTag_freshen _ _
    rw [Ctx.vtagOf, h]
    exact Tbl.get_set_same ..

/-- A vector register that has been written, transient or not, reads as its value. -/
theorem rV_writeV (c : Ctx) (n v tag : Nat) (t : Bool) (hs : s.cx.flow = (c.writeV n v tag t).flow)
    (hv : s.cx.vec = (c.writeV n v tag t).vec) : rV n s = .ok (v, s) := by
  unfold rV
  rw [hs, hv]
  cases t with
  | true =>
    have h : (c.writeV n v tag true).flow.staleTag (.v n) = some tag := Flow.staleTag_markStale _ _ tag
    have hb : (c.writeV n v tag true).flow.bypassed (.v n) = some v := Flow.bypassed_push c.flow ⟨.v n, none, v, tag⟩
    rw [h, hb]
  | false =>
    have h : (c.writeV n v tag false).flow.staleTag (.v n) = none := Flow.staleTag_freshen _ _
    rw [h]
    exact congrArg (fun x => Except.ok (x, s)) (Tbl.get_set_same ..)

/-- A VMOV from the stream: it takes the next bytes and writes them, with the tag of the binding. -/
theorem exec_vmov_stream {d off : Nat} {t : Bool} (hst : s.cx.stream = some k) (hc : s.Calm) (hlevel : s.cx.level = 0)
    (htag : k.tag ∈ anyTag) (hr : Tbl.find s.cc.rx k.ring = some r) (hcur : r.current = some (false, off)) (hl : s.lost = [])
    (hlen : k.used + 256 < s.peek (.ls s.cur.1 off) 8 % 2 ^ 16) :
    ∃ old, exec (.vmov d 31 0 t) s = .next (s.after (((s.cx.streamed k (k.used + 256)).issue (Instr.vmov d 31 0 t).shape).writeV d
      (mapElems 0 (BitVec.allOnes 64) old (fun j => (lane (s.peek (.ls s.cur.1 (off + (8 + k.used))) 256) j, 0))).1 k.tag t)) := by
  have hdry : rVq true s = .ok ((0, k.tag), s) := by
    rw [rVq, bind_ok (m := getCx) rfl, hst]
    rfl
  have hread : rVq false s =
      .ok ((s.peek (.ls s.cur.1 (off + (8 + k.used))) 256, k.tag), s.setCx (s.cx.streamed k (k.used + 256))) := by
    rw [rVq, bind_ok (m := getCx) rfl]
    exact readVq_inside hst hr hcur hl hlen
  have hcap := capture_stream (w := (encodeNat (.vmov d 31 0 t)).getD 0) d t hst hread
  have hloops : (s.cx.streamed k (k.used + 256)).flow.loops = [] := hc.lone.loops
  have hlone : (s.setCx (s.cx.streamed k (k.used + 256))).Lone := hc.lone.setCx hloops hc.lone.follow
  have hissued := hlone.issuedAs (Instr.vmov d 31 0 t).shape
  have hissue := issue_calm hc (by rfl) (by simp) (.inl hlevel) rfl
    (vqTrap_of_effect (capture_stream d t hst hdry) (finVmov_ok (d := d) (a := 31) (t := t) rfl htag)) hcap
    (by rw [State.streamEntry, Ctx.atEnd, State.cx_setCx, hloops]; rfl) (finVmov_ok rfl htag)
    (hissued.setCx ((writeV_loops ..).trans hissued.loops) ((writeV_follow ..).trans hissued.follow))
  rw [State.setCx_setCx, State.setCx_setCx, State.stamp_setCx, State.cx_setCx, State.cx_setCx] at hissue
  exact ⟨_, (exec_vmov d 31 0 t s).trans hissue⟩

/-- A vector result leaves the bound stream. -/
theorem Ctx.writeV_stream (c : Ctx) (n v tag : Nat) (t : Bool) : (c.writeV n v tag t).stream = c.stream := by
  cases t <;> rfl

/-- The next 256 bytes of the stream, with the tag of its binding (04 R73, 02 R17). -/
theorem streamOperand : Stated.StreamOperand := by
  intro s d t k r off hst hq hlevel htag hr hcur hlost hlen
  obtain ⟨old, hex⟩ := exec_vmov_stream (t := t) (d := d) hst (State.calm_of_unbound hq) hlevel htag hr hcur hlost hlen
  refine ⟨_, _, hex, ?_, fun j hj => lane_mapElems old _ j hj,
    rV_writeV ((s.cx.streamed k (k.used + 256)).issue (Instr.vmov d 31 0 t).shape) d _ k.tag t ?_ ?_, Ctx.vtagOf_writeV _ d _ k.tag t⟩
  · rw [Ctx.writeV_stream, Ctx.issue_stream, Ctx.streamed]
  · rw [State.after, State.cx_setCx]
  · rw [State.after, State.cx_setCx]

/-- Settles O26: the words of rings and bindings, and the stream as the operand of a VMOV. -/
theorem ringWords : Obligations.RingWords := by
  unfold Obligations.RingWords
  exact ⟨ringResults, streamOperand⟩

end Sys2Proof.Machine
end

/-! # Copy, matrix and ring engines move (O49)

Each move is an event of one engine: a lemma says what its condition gives, and the statement is put together from these. -/

section
namespace Sys2Proof.Machine

variable {s t : State} {core : Nat}

theorem eventIf_some {ok : Bool} {r : Option State} (hok : ok = true) (h : r = some t) : eventIf ok s r = .next t := by
  rw [eventIf, eventOn, if_pos hok, h, Option.getD_some]

theorem eventIf_none {ok : Bool} {r : Option State} (hok : ok = true) (h : r = none) : eventIf ok s r = .next s := by
  rw [eventIf, eventOn, if_pos hok, h, Option.getD_none]

/-! ### Copy commands (05 R78, R85, R86) -/

section
variable {c : Copy} {id : Nat}

/-- The first command whose bulk engine has room goes to that engine. -/
theorem exec_bulkQueueAdmit (hc : core < 1536)
    (h : (s.core core).copyq.find? (fun c => c.bulk && decide ((s.atEngine c false).length < 32)) = some c) :
    exec (.bulkQueueAdmit core) s = .next (s.setCore core { s.core core with
      copyq := (s.core core).copyq.filter (fun y => y.id != c.id)
      copyRun := (s.core core).copyRun ++ [{ c with id := s.copyId }] }) := by
  refine eventIf_some (decide_eq_true hc) ?_
  unfold State.bulkAdmit
  dsimp only
  rw [h]

/-- A command that turns to the next thing is still the same, and has started if it had. -/
theorem Copy.turn_same (c : Copy) : c.turn.id = c.id ∧ c.turn.started = c.started := by
  unfold Copy.turn
  split
  · exact ⟨rfl, rfl⟩
  · split
    · exact ⟨rfl, rfl⟩
    · split
      · exact ⟨rfl, rfl⟩
      · split <;> exact ⟨rfl, rfl⟩

/-- A command that may start does, and stands behind the others of its core. -/
theorem exec_copyCommandStart (hc : core < 1536) (h : (s.core core).copyWaiting.find? (fun c => c.id == id) = some c)
    (hmay : s.copyMayStart c = true) : exec (.copyCommandStart core id) s = .next (s.setCore core { s.core core with
      copyq := (s.core core).copyq.filter (fun y => y.id != id)
      copyRun := (s.core core).copyRun.filter (fun y => y.id != id) ++ [c.start] }) := by
  refine eventIf_some (decide_eq_true hc) ?_
  unfold State.copyStartId
  rw [h]
  dsimp only
  rw [hmay]
  rfl

/-- The state after the end of command `id` of a core, which `z` carried out: it has left its engine and its record arrives. -/
def State.copyEnded (core id : Nat) (z : State × Copy) : State :=
  (z.1.setCore core { z.1.core core with copyRun := (z.1.core core).copyRun.filter (fun y => y.id != id) }).recArrive core
    (z.2.record z.2.total)

variable (h : (s.core core).copyRun.find? (fun c => c.started && c.id == id) = some c) (hhalt : s.admin.halting ≠ some c.domain)
include h hhalt

theorem State.copyEndId_room (hroom : ((s.copyAll c).1.core core).evRoom = true) :
    s.copyEndId core id = some (State.copyEnded core id (s.copyAll c), (s.copyAll c).2.err.isSome) := by
  unfold State.copyEndId
  rw [h]
  dsimp only
  rw [if_neg hhalt, if_pos hroom]
  rfl

theorem State.copyEndId_full (hroom : ((s.copyAll c).1.core core).evRoom = false) (hdone : c.done = true) :
    s.copyEndId core id = none := by
  unfold State.copyEndId
  rw [h]
  dsimp only
  rw [if_neg hhalt, if_neg (ne_true_of_eq_false hroom), if_pos hdone]

theorem exec_copyCommandComplete_ok (hc : core < 1536) (hroom : ((s.copyAll c).1.core core).evRoom = true)
    (herr : (s.copyAll c).2.err = none) :
    exec (.copyCommandComplete core id) s = .next (State.copyEnded core id (s.copyAll c)) := by
  refine eventIf_some (decide_eq_true hc) ?_
  rw [State.copyEndId_room h hhalt hroom, herr]
  rfl

theorem exec_copyCommandFault_err (hc : core < 1536) (hroom : ((s.copyAll c).1.core core).evRoom = true)
    (herr : (s.copyAll c).2.err ≠ none) :
    exec (.copyCommandFault core id) s = .next (State.copyEnded core id (s.copyAll c)) := by
  refine eventIf_some (decide_eq_true hc) ?_
  rw [State.copyEndId_room h hhalt hroom, Option.isSome_iff_ne_none.2 herr]

/-- A command that has nothing left to do waits in its engine while its record finds no room. -/
theorem exec_copyCommandComplete_full (hc : core < 1536) (hroom : ((s.copyAll c).1.core core).evRoom = false) (hdone : c.done = true) :
    exec (.copyCommandComplete core id) s = .next s := by
  refine eventIf_none (decide_eq_true hc) ?_
  rw [State.copyEndId_full h hhalt hroom hdone]

end

/-! ### The matrix queue (10 R191, R192, 13 R252) -/

section
variable {k n : Nat} {q : MqEntry} {l : List MqEntry} {e e' : Entry} {m : Mx} {r : Res} {fl : Flags} {u : State}

/-- The entry with its effect in progress, and the others as they are. -/
def Ctx.awaiting (c : Ctx) (seq : Nat) : Ctx :=
  { c with flow := { c.flow with inflight := c.flow.inflight.map (fun y => if y.seq = seq then { y with await := true } else y) } }

theorem Ctx.await_of_awaiting (c : Ctx) (seq : Nat) : ∀ y ∈ (c.awaiting seq).flow.inflight, y.seq = seq → y.await = true := by
  intro y hy hseq
  obtain ⟨x, -, rfl⟩ := List.mem_map.1 hy
  split at hseq
  next h => rw [if_pos h]
  next h => exact absurd hseq h

/-- The state after the command of a context takes an entry of the queue. -/
def State.mxAdmitted (s : State) (core k : Nat) (e : Entry) : State :=
  let u := s.setCtx core k ((s.ctx core k).awaiting e.seq)
  u.setCore core { ((u.core core).mxWork false) with mq := (u.core core).mq ++ [⟨.ctx k e.seq, false, 0#5, .none, some e⟩] }

theorem State.mq_mxAdmitted (s : State) (core k : Nat) (e : Entry) :
    ((s.mxAdmitted core k e).core core).mq = (s.core core).mq ++ [⟨.ctx k e.seq, false, 0#5, .none, some e⟩] := by
  rw [State.mxAdmitted, State.core_setCore_same, State.setCtx, State.core_setCore_same]
  rfl

theorem State.ctx_mxAdmitted (s : State) (core k : Nat) (e : Entry) :
    (s.mxAdmitted core k e).ctx core k = (s.ctx core k).awaiting e.seq := by
  rw [State.mxAdmitted, State.ctx, State.core_setCore_same]
  exact State.ctx_setCtx_same ..

/-- The only command that seeks an entry of an empty queue finds one. -/
theorem State.mxAdmit_only {p : Nat × Entry} (hmq : (s.core core).mq = []) (hring : (s.core core).ring = none)
    (hrc : (s.core core).rcbuf = []) (hready : s.mxReady core = [p]) : s.mxAdmit core = some (s.mxAdmitted core p.1 p.2) := by
  have hformed : s.formedFor core = [] := by rw [State.formedFor, hring]
  have hfirst : [p].filter (fun x => [p].all (fun y => decide (x.2.cyc ≤ y.2.cyc))) = [p] := by simp
  unfold State.mxAdmit
  simp only [hformed, hring, hmq, hrc, hready]
  rw [if_neg (by decide), if_neg (by decide)]
  simp only [hfirst]
  rfl

/-- A meaning run for a context, and then a function of its result. -/
theorem State.runAs_bind {α β : Type} {f : M α} {x : α} (g : α → M β) {y : β} (h : s.runAs core k f = .ok (x, u))
    (hg : ∀ v, g x v = .ok (y, v)) : s.runAs core k (f >>= g) = .ok (y, u) := by
  unfold State.runAs at h ⊢
  cases hf : f { s with cur := (core, k) } with
  | error a => rw [hf] at h; cases h
  | ok p =>
    obtain ⟨z, v⟩ := p
    rw [hf] at h
    obtain ⟨rfl, rfl⟩ : z = x ∧ { v with cur := s.cur } = u := by injection h with h; injection h with h1 h2; exact ⟨h1, h2⟩
    rw [bind_ok hf, hg]

/-- A part of a command other than ACCLD is the whole of it, or a tile of a projection. -/
theorem runAs_mxPart (hi : ∀ d a b g la, e.instr ≠ .accld d a b g la) (h : s.runAs core k (m.run e) = .ok ((r, fl), u)) :
    s.runAs core k (mxPart m e) = .ok ((r, fl, if tiled e.instr ∧ 1 < e.opb.toNat then some e.nextTile else none), u) := by
  unfold mxPart
  split
  next heq => exact absurd heq (hi _ _ _ _ _)
  next => exact State.runAs_bind _ h fun _ => rfl

/-- A part of an ACCLD is a step of it. -/
theorem runAs_mxPart_accld {d a b g la : Nat} {w : Option (List Nat)} (hi : e.instr = .accld d a b g la)
    (h : s.runAs core k (accldStep e false) = .ok (w, u)) :
    s.runAs core k (mxPart m e) = .ok ((.none, 0#5, w.map (fun l => { e with ext := l })), u) := by
  unfold mxPart
  rw [hi]
  exact State.runAs_bind _ h fun _ => rfl

section
variable (hmq : (s.core core).mq = q :: l) (hstart : q.started = false) (hsrc : q.src = .ctx k n) (hent : q.entry = some e)
  (hm : mxOf e.instr = some m) (hturn : (s.core core).midway = false ∨ s.formedFor core = [])
include hmq hstart hsrc hent hm hturn

/-- The head of the queue has a part of its work done, and stands before the next. -/
theorem State.mxStart_part
    (h : (s.setCore core ((s.core core).mxWork (arrayWord e.instr))).runAs core k (mxPart m e) = .ok ((r, fl, some e'), u)) :
    s.mxStart core = some ((u.joinFlags core k fl).mxGoesOn core k q e') := by
  have hfree : ¬((s.core core).midway && !(s.formedFor core).isEmpty) = true := by
    obtain ht | ht := hturn <;> simp [ht]
  unfold State.mxStart
  simp only [hmq, hstart, hsrc]
  rw [if_neg (by decide)]
  unfold State.mxStartCmd
  simp only [hent, hsrc, hm]
  rw [if_neg hfree, h]

/-- The head of the queue has all that is left of its work done, and its result stands until it completes. -/
theorem State.mxStart_whole
    (h : (s.setCore core ((s.core core).mxWork (arrayWord e.instr))).runAs core k (mxPart m e) = .ok ((r, fl, none), u)) :
    s.mxStart core = some (u.mxHead core { q with started := true, flags := fl, res := r }) := by
  have hfree : ¬((s.core core).midway && !(s.formedFor core).isEmpty) = true := by
    obtain ht | ht := hturn <;> simp [ht]
  unfold State.mxStart
  simp only [hmq, hstart, hsrc]
  rw [if_neg (by decide)]
  unfold State.mxStartCmd
  simp only [hent, hsrc, hm]
  rw [if_neg hfree, h]

end
end

/-! ### A command completes (10 R192, 08 R163) -/

section
variable (c : Ctx) (fl : Flags) (r : Res)

theorem Ctx.lateFlags_cases : c.lateFlags fl = { c with hflags := c.hflags ||| fl } ∨
    c.lateFlags fl = { c with spec := { c.spec with fstat := c.spec.fstat ||| fl } } := by
  unfold Ctx.lateFlags Ctx.orFlags
  split
  · exact .inl rfl
  · split
    · exact .inr rfl
    · exact .inl rfl

@[simp] theorem Ctx.lateFlags_results : (c.lateFlags fl).results = c.results := by
  obtain h | h := c.lateFlags_cases fl <;> rw [h]

@[simp] theorem Ctx.lateFlags_flow : (c.lateFlags fl).flow = c.flow := by
  obtain h | h := c.lateFlags_cases fl <;> rw [h]

@[simp] theorem Ctx.lateFlags_owns (n : Nat) : (c.lateFlags fl).owns n = c.owns n := by
  obtain h | h := c.lateFlags_cases fl <;> rw [h] <;> rfl

/-- Flags of work for a live context are those that it reads. -/
theorem Ctx.lateFlags_live (h : c.life = .live) : (c.lateFlags fl).flags = c.flags ||| fl := by
  rw [Ctx.lateFlags, if_neg (by rw [h]; decide)]
  unfold Ctx.orFlags Ctx.flags
  by_cases hl : c.level = 0 <;> simp [hl]

/-- Flags of work for a context that has stopped wait for its resumption. -/
theorem Ctx.lateFlags_stopped (h : c.life = .stopped) : (c.lateFlags fl).hflags = c.hflags ||| fl := by
  rw [Ctx.lateFlags, if_pos h]

theorem Ctx.putRes_cases : ∃ v w p, c.putRes r = { c with vec := v, vpj := w, spec := { c.spec with pivmask := p } } := by
  cases r <;> exact ⟨_, _, _, rfl⟩

@[simp] theorem Ctx.putRes_results : (c.putRes r).results = c.results := by
  obtain ⟨v, w, p, h⟩ := c.putRes_cases r
  rw [h]

@[simp] theorem Ctx.putRes_owns (n : Nat) : (c.putRes r).owns n = c.owns n := by
  obtain ⟨v, w, p, h⟩ := c.putRes_cases r
  rw [h]
  rfl

@[simp] theorem Ctx.putRes_flags : (c.putRes r).flags = c.flags := by
  obtain ⟨v, w, p, h⟩ := c.putRes_cases r
  rw [h]
  rfl

@[simp] theorem Ctx.putRes_hflags : (c.putRes r).hflags = c.hflags := by
  obtain ⟨v, w, p, h⟩ := c.putRes_cases r
  rw [h]

end

section
variable {k n : Nat} {q : MqEntry} {l : List MqEntry}

/-- The context once its command at the head of the queue has completed: the flags of the work have joined it, its registers are those of
`f`, and the instruction has the result `r`. -/
def Ctx.completed (c : Ctx) (fl : Flags) (n : Nat) (f : Ctx → Ctx) (r : Res) : Ctx := (f (c.lateFlags fl)).receive n r

theorem State.setCtx_setCtx (s : State) (c k : Nat) (x y : Ctx) : (s.setCtx c k x).setCtx c k y = s.setCtx c k y := by
  simp [State.setCtx, State.setCore, State.core, Core.setCtx, Tbl.put_put]

theorem State.deliver_of_owns {r : Res} (h : (s.ctx core k).owns n = true) :
    s.deliver core k n r = s.setCtx core k ((s.ctx core k).receive n r) := if_pos h

theorem State.ctx_mxPop (s : State) (core k : Nat) : (s.mxPop core).ctx core k = s.ctx core k := by
  rw [State.mxPop, State.ctx, State.core_setCore_same]
  rfl

theorem State.joinFlags_mxPop (s : State) (core k : Nat) (fl : Flags) :
    (s.mxPop core).joinFlags core k fl = (s.mxPop core).setCtx core k ((s.ctx core k).lateFlags fl) := by
  rw [State.joinFlags, State.ctx_mxPop]

theorem mxWrite_of_ok {r : Res} (h : r.isFault = false) : mxWrite r = modCx (fun c => c.putRes r) := by
  cases r with
  | fault => cases h
  | _ => rfl

theorem State.runAs_modCx (s : State) (core k : Nat) (f : Ctx → Ctx) :
    s.runAs core k (modCx f) = .ok ((), s.setCtx core k (f (s.ctx core k))) := rfl

section
variable (hmq : (s.core core).mq = q :: l) (hstart : q.started = true) (hsrc : q.src = .ctx k n)
  (hacc : (s.core core).mxAccepted q k = true)
include hmq hstart hsrc hacc

/-- The instruction waits in its window for no more, and its result is written. -/
theorem State.mxEnd_written (hres : q.res.isFault = false)
    (hhere : (s.ctx core k).flow.inflight.any (fun e => e.seq == n && e.left == 0) = true) :
    s.mxEnd core = some ((s.mxPop core).setCtx core k ((s.ctx core k).completed q.flags n (·.putRes q.res) .none)) := by
  have hown : (s.ctx core k).owns n = true := by
    obtain ⟨e, he, hp⟩ := List.any_eq_true.1 hhere
    rw [Ctx.owns, List.any_eq_true.2 ⟨e, he, (Bool.and_eq_true _ _ ▸ hp).1⟩, Bool.true_or]
  unfold State.mxEnd
  simp only [hmq, hsrc]
  unfold State.mxEndCmd
  simp only [hstart, hsrc, hacc, State.joinFlags_mxPop, State.ctx_setCtx_same, Ctx.lateFlags_flow, hres, hhere, mxWrite_of_ok hres,
    State.runAs_modCx, State.setCtx_setCtx]
  rw [if_neg (by decide), if_neg (by decide), if_pos (by decide), State.deliver_of_owns (by simpa using hown), State.ctx_setCtx_same,
    State.setCtx_setCtx]
  rfl

/-- The instruction keeps its result, for the end of its window, for a return or for its trap. -/
theorem State.mxEnd_kept (h : q.res.isFault = true ∨ (s.ctx core k).flow.inflight.any (fun e => e.seq == n && e.left == 0) = false)
    (hown : (s.ctx core k).owns n = true) :
    s.mxEnd core = some ((s.mxPop core).setCtx core k ((s.ctx core k).completed q.flags n id q.res)) := by
  have hnot : ¬(!q.res.isFault && (s.ctx core k).flow.inflight.any (fun e => e.seq == n && e.left == 0)) = true := by
    obtain h | h := h <;> simp [h]
  unfold State.mxEnd
  simp only [hmq, hsrc]
  unfold State.mxEndCmd
  simp only [hstart, hsrc, hacc, State.joinFlags_mxPop, State.ctx_setCtx_same, Ctx.lateFlags_flow]
  rw [if_neg (by decide), if_neg (by decide), if_neg hnot, State.deliver_of_owns (by simpa using hown), State.ctx_setCtx_same,
    State.setCtx_setCtx]
  rfl

end

/-- Where the registers of the result leave results and flags alone, a completion takes the head out of the queue, gives the instruction
its result and joins the flags. -/
theorem State.completed_frame (fl : Flags) (f : Ctx → Ctx) (r : Res) (hmq : (s.core core).mq = q :: l)
    (hres : ∀ c, (f c).results = c.results) (hflags : ∀ c, (f c).flags = c.flags) (hhflags : ∀ c, (f c).hflags = c.hflags) :
    let c := s.ctx core k
    let t := (s.mxPop core).setCtx core k (c.completed fl n f r)
    (t.core core).mq = l ∧ (t.ctx core k).results = c.results ++ [(n, r)] ∧
      (c.life = .live → (t.ctx core k).flags = c.flags ||| fl) ∧
      (c.life = .stopped → c.level = 0 → (t.ctx core k).hflags = c.hflags ||| fl) := by
  intro c t
  have hmq : (t.core core).mq = l := by
    simp only [t, State.setCtx, State.mxPop, State.core_setCore_same, Core.setCtx, hmq]
    rfl
  have hctx : t.ctx core k = (f (c.lateFlags fl)).receive n r := State.ctx_setCtx_same ..
  rw [hctx]
  refine ⟨hmq, ?_, fun hl => ?_, fun hl _ => ?_⟩
  · rw [Ctx.receive, hres, Ctx.lateFlags_results]
  · exact (hflags _).trans (c.lateFlags_live fl hl)
  · exact (hhflags _).trans (c.lateFlags_stopped fl hl)

/-- The tile of a result that is written stands with its side area and its tag. -/
theorem Ctx.completed_tile (c : Ctx) (fl : Flags) (j v side : Nat) (tag : Tag) (r : Res) :
    let x := c.completed fl n (·.putRes (.tile j v side tag)) r
    Tbl.get 0 x.vec.x j = v ∧ Tbl.get 0 x.vec.side j = side ∧ x.xtagOf j = tag :=
  ⟨Tbl.get_set_same .., Tbl.get_set_same .., Tbl.get_set_same ..⟩

end

/-! ### Array level, BURST holds and rings (10 R204, R205, 11 R219, R220, R222) -/

theorem exec_arrayLevelRise (hc : core < 1536) (hb : (s.core core).mxBusy = true) (hl : (s.core core).mxlevel < s.admin.arrayCap) :
    exec (.arrayLevelRise core) s = .next (s.setCore core { s.core core with mxlevel := (s.core core).mxlevel + 1 }) :=
  eventOn_eq_next (decide_eq_true hc) (if_pos ⟨hb, hl⟩)

theorem exec_arrayLevelFall (hc : core < 1536) (hb : (s.core core).mxBusy = false) :
    exec (.arrayLevelFall core) s = .next (s.setCore core { s.core core with mxlevel := (s.core core).mxlevel - 1 }) :=
  eventOn_eq_next (decide_eq_true hc) (if_neg (ne_true_of_eq_false hb))

theorem exec_burstHoldExpire (hc : core < 1536) :
    exec (.burstHoldExpire core) s = .next (s.setCore core { s.core core with burst := 0 }) :=
  eventOn_eq_next (decide_eq_true hc) rfl

theorem exec_ringTaskComplete {q : MqEntry} {l : List MqEntry} {n : Option Nat} {w : W64} {i : Nat} {t : Bool} {sc : W32} {ta tb : Tag}
    (hc : core < 1536) (hmq : (s.core core).mq = q :: l) (hsrc : q.src = .ring n w i t sc ta tb) (hstart : q.started = true) :
    exec (.ringTaskComplete core) s = .next (s.ringEnd core q n w.toNat i) := by
  refine eventIf_some (decide_eq_true hc) ?_
  unfold State.ringTaskEnd
  simp only [hmq, hsrc, hstart]
  rfl

section
variable {g : Ring}

theorem exec_ringBeatEnd (hc : core < 1536) (hg : Tbl.find s.rings core = some g) (hover : s.beatOver core g = true)
    (hready : s.partnersReady (ringMembers g.cfg.toNat core) = true) : exec (.ringBeatEnd core) s = .next (s.ringBoundary core) := by
  refine eventIf_some (decide_eq_true hc) ?_
  unfold State.ringBeat
  simp only [hg, hover, hready]
  rfl

theorem exec_ringIdle (hc : core < 1536) (hg : Tbl.find s.rings core = some g) (hrun : g.running = true) (hfly : g.flying = []) :
    exec (.ringIdle core) s = .next ((s.setRing core { g with running := false }).ringDone core) := by
  refine eventIf_some (decide_eq_true hc) ?_
  unfold State.ringRest
  simp only [hg, hrun, hfly]
  rfl

end

/-- Settles O49: each move of an engine in turn. -/
theorem engineEvents : Obligations.EngineEvents := by
  unfold Obligations.EngineEvents
  intro s core hc x
  refine ⟨fun c h => ?bulk, fun id c h hmay => ?start, fun id c h hhalt => ?ended, fun e hmq hring hrc hready => ?queue,
    fun q l k n e m r fl u hmq hstart hsrc hent hm hturn hi hrun => ?part,
    fun q l k n e d a b g la w u hmq hstart hsrc hent hi hturn hrun => ?accld,
    fun q l k n hmq hstart hsrc hacc => ?completes, exec_arrayLevelRise hc, exec_arrayLevelFall hc, exec_burstHoldExpire hc,
    fun q l n w i t sc ta tb hmq hsrc hstart => exec_ringTaskComplete hc hmq hsrc hstart,
    fun g hg => ⟨exec_ringBeatEnd hc hg, exec_ringIdle hc hg⟩⟩
  case bulk =>
    exact ⟨_, exec_bulkQueueAdmit hc h, congrArg Core.copyRun (State.core_setCore_same ..),
      congrArg Core.copyq (State.core_setCore_same ..), fun _ => rfl⟩
  case start =>
    refine ⟨_, exec_copyCommandStart hc h hmay, fun _ => rfl, c.start, ?_, ?_, ?_⟩
    · rw [Copy.start, (Copy.turn_same _).1]
      simpa using List.find?_some h
    · rw [Copy.start, (Copy.turn_same _).2]
    · exact congrArg Core.copyRun (State.core_setCore_same ..)
  case ended =>
    intro z u ended
    exact ⟨exec_copyCommandComplete_ok h hhalt hc, exec_copyCommandFault_err h hhalt hc, exec_copyCommandComplete_full h hhalt hc⟩
  case queue =>
    refine ⟨_, eventIf_some (decide_eq_true hc) (State.mxAdmit_only hmq hring hrc hready), ?_, ?_⟩
    · rw [State.mq_mxAdmitted, hmq, List.nil_append]
    · rw [State.ctx_mxAdmitted]
      exact Ctx.await_of_awaiting _ _
  case part =>
    have hpart := runAs_mxPart hi hrun
    split
    next h =>
      rw [if_pos h] at hpart
      exact eventIf_some (decide_eq_true hc) (State.mxStart_part hmq hstart hsrc hent hm hturn hpart)
    next h =>
      rw [if_neg h] at hpart
      exact eventIf_some (decide_eq_true hc) (State.mxStart_whole hmq hstart hsrc hent hm hturn hpart)
  case accld =>
    have hm : mxOf e.instr = some mxOfAccld := by rw [hi]; rfl
    have harr : arrayWord e.instr = false := by rw [hi]; rfl
    have hrun : (s.setCore core (x.mxWork (arrayWord e.instr))).runAs core k (accldStep e false) = .ok (w, u) := by rwa [harr]
    have hpart := runAs_mxPart_accld (m := mxOfAccld) hi hrun
    cases w with
    | some ext => exact eventIf_some (decide_eq_true hc) (State.mxStart_part hmq hstart hsrc hent hm hturn hpart)
    | none => exact eventIf_some (decide_eq_true hc) (State.mxStart_whole hmq hstart hsrc hent hm hturn hpart)
  case completes =>
    intro c here ends
    refine ⟨fun hres hhere => ⟨_, eventIf_some (decide_eq_true hc) (State.mxEnd_written hmq hstart hsrc hacc hres hhere), ?_, ?_⟩,
      fun h hown => ⟨_, eventIf_some (decide_eq_true hc) (State.mxEnd_kept hmq hstart hsrc hacc ?_ hown), ?_⟩⟩
    · exact State.completed_frame _ _ _ hmq (fun _ => Ctx.putRes_results ..) (fun _ => Ctx.putRes_flags ..) (fun _ => Ctx.putRes_hflags ..)
    · intro j v side tag htile
      rw [State.ctx_setCtx_same, htile]
      exact Ctx.completed_tile ..
    · exact h
    · exact State.completed_frame _ _ _ hmq (fun _ => rfl) (fun _ => rfl) (fun _ => rfl)

end Sys2Proof.Machine
end

/-! # Copy commands and CPWAIT (O27)

The five words of copies end in the same way: the command is placed (`State.Places`), and so each is settled by what its own checks let
through. -/

section
namespace Sys2Proof.Machine

variable {s t : State} {e : Entry} {l : Loc}

/-! ### The release of a copy command (05 R84) -/

theorem State.sending_issuedAs (s : State) (h : Shape) (fab : Bool) : (s.issuedAs h).sending fab = s.sending fab := by
  rw [State.sending, State.sendq_issuedAs]
  rfl

theorem State.Sent.issuedAs (hs : s.Sent) (h : Shape) : (s.issuedAs h).Sent := (s.sending_issuedAs h true).trans hs

/-- With no store and no message on its way, a release at less than system scope has nothing to wait for. -/
theorem State.nearWaits_of_sent (hs : s.Sent) (hst : s.cx.stores = []) : s.nearWaits = false := by
  have hnear : s.sending false = false := by
    refine List.any_eq_false.2 fun m hm hp => List.any_eq_false.1 hs m hm ?_
    simp only [Bool.and_eq_true] at hp ⊢
    exact ⟨hp.1, rfl⟩
  rw [State.nearWaits, hst, hnear]
  rfl

theorem nearRelease_ok (hs : s.Sent) (hst : s.cx.stores = []) : nearRelease s = .ok ((), s) := by
  rw [nearRelease, bind_ok (m := get) rfl, State.nearWaits_of_sent hs hst]
  rfl

theorem copyRelease_ok (he : e.Fresh s) (hs : s.Sent) (p : Entry → Bool) : copyRelease e p s = .ok ((), s) := by
  rw [copyRelease, bind_ok (nearRelease_ok hs he.stores), afterEarlier_ok e p he.inflight]

theorem State.copyUnreleased_of_sent (he : e.Fresh s) (hs : s.Sent) (p : Entry → Bool) : s.copyUnreleased e p = false := by
  rw [State.copyUnreleased, State.nearWaits_of_sent hs he.stores, Ctx.hasEarlier, he.inflight]
  rfl

/-! ### Placing a command (05 R79, R81) -/

variable {k : Copy}

/-- The state `t` after command `k` finds its place: its record is posted where it copies no bytes, else it stands at the tail of a queue
with room. -/
def State.Places (s : State) (k : Copy) (t : State) : Prop :=
  (k.total = 0 ∧ t = s.post s.cur.1 (k.record 0)) ∨
  (k.total ≠ 0 ∧ s.cc.copyq.length < 2 ∧ t = s.setCc { s.cc with copyq := s.cc.copyq ++ [{ k with id := s.copyId }] })

theorem enqueue_ok (hp : s.Places k t) : enqueue k s = .ok (true, t) := by
  obtain ⟨h0, rfl⟩ | ⟨h0, hroom, rfl⟩ := hp
  · exact if_pos h0
  · exact (if_neg h0).trans (if_neg (not_le.2 hroom))

theorem enqueueWait_ok (he : e.Fresh s) (hs : s.Sent) (hp : s.Places k t) : enqueueWait e k s = .ok ((), t) := by
  rw [enqueueWait, bind_ok (copyRelease_ok he hs _), bind_ok (enqueue_ok hp)]
  rfl

theorem enqueueHeld_ok (r : Nat) (he : e.Fresh s) (hs : s.Sent) (hp : s.Places k t) : enqueueHeld e r k s = .ok (.done, t) := by
  rw [enqueueHeld, bind_ok (m := get) rfl, State.copyUnreleased_of_sent he hs, if_neg (by decide), bind_ok (enqueue_ok hp)]
  rfl

/-- A word of a quiet context that acts at its issue with the effect `f`, of which all that is captured may be told. -/
theorem issue_did_of_entry (s : State) (i : Instr) (eff : Eff) (f : State → State) (hq : s.quiet = true)
    (hg : s.guardOk i.shape.g = true) (hh : i.shape.home ≠ some 3) (hb : i.shape.barred = false) (hla : i.shape.la = 0)
    (he : ∀ w, eff (s.entryOf i w i.shape) (s.issuedAs i.shape) = .ok (.done, f (s.issuedAs i.shape)))
    (ht : (s.issuedAs i.shape).Lone → (f (s.issuedAs i.shape)).Lone) : issue i eff s = .next (s.did i f) := by
  have ht := ht ((State.lone_of_quiet hq).issuedAs _)
  rw [issue_quiet s _ i eff hq hg hh (.inr hb) hla (he _) ht.loops (State.alone_setCx _ _ ht.alone ht.follow), State.stamp_setCx_self]
  rfl

/-- What a word places is told by its effect at the issue. -/
theorem placed_of_places {i : Instr} {eff : Eff} (hi : exec i s = issue i eff s) (hq : s.quiet = true)
    (hg : s.guardOk i.shape.g = true) (hh : i.shape.home ≠ some 3) (hb : i.shape.barred = false) (hla : i.shape.la = 0)
    (he : ∀ w t, (s.issuedAs i.shape).Sent → (s.issuedAs i.shape).Places k t →
      eff (s.entryOf i w i.shape) (s.issuedAs i.shape) = .ok (.done, t)) : Placed i s k := by
  have hcopyq : (s.issuedAs i.shape).cc.copyq = s.cc.copyq := by
    rw [State.cc_issuedAs]
    rfl
  refine fun hs => ⟨fun h0 => ?_, fun h0 hroom => ?_⟩
  · exact hi.trans (issue_did_of_entry s i eff _ hq hg hh hb hla (fun w => he w _ (hs.issuedAs _) (.inl ⟨h0, rfl⟩))
      fun h => h.congr rfl rfl)
  · exact hi.trans (issue_did_of_entry s i eff _ hq hg hh hb hla
      (fun w => he w _ (hs.issuedAs _) (.inr ⟨h0, hcopyq ▸ hroom, by rw [hcopyq]⟩)) fun h => h.setCc rfl)

/-! ### The checks of a command (05 R77, R81) -/

/-- A control word that is well formed for its addresses. -/
structure CtlOk (c : Nat) (dst src : W64) : Prop where
  ctl : ctlBad c = false
  eng : engBad c dst src = false
  dst : dst.toNat % 8 = 0
  src : src.toNat % 8 = 0
  len : ctlLen c % 8 = 0

theorem copyAlign_ok {c : Nat} (h : CtlOk c e.opd e.opa) (pre : Bool) : copyAlign e c pre false s = .ok ((), s) := by
  rw [copyAlign, if_neg (not_not.2 h.dst), if_neg (not_not.2 h.src), if_neg (by simp [h.len])]

/-- The command that an entry makes is that of its context. -/
theorem mkCopy_issued (s : State) (i : Instr) (w : Nat) (h h' : Shape) (form : Nat) (ctl : W64) :
    mkCopy (s.entryOf i w h) form ctl (s.issuedAs h') =
      .ok (s.copyOf form ctl (s.entryOf i w h).opd (s.entryOf i w h).opa, s.issuedAs h') := by
  rw [mkCopy, State.domain_issuedAs]
  rfl

theorem finCp_ok (he : e.Fresh s) (hs : s.Sent) (hc : CtlOk e.opb.toNat e.opd e.opa) (hrop : ctlRop e.opb.toNat = 0)
    (hk : mkCopy e 0 e.opb s = .ok (k, s)) (hp : s.Places k t) : finCp e s = .ok (.done, t) := by
  refine plain_ok ?_
  rw [if_neg (by simp [hc.ctl, hc.eng, hrop]), bind_ok (copyAlign_ok hc true), bind_ok hk, enqueueWait_ok he hs hp]

theorem cpred_ok {ordered : Bool} (he : e.Fresh s) (hs : s.Sent) (hc : CtlOk e.opb.toNat e.opd e.opa) (hrop : ctlRop e.opb.toNat ≠ 0)
    (hred : redOk e.opb.toNat ordered = true)
    (hdesc : let f := s.cx.fOf (bits e.opb.toNat 39 36); ctlFmt e.opb.toNat = 6 → descValid f.toNat = true ∧ descKind f.toNat = 0)
    (hk : mkCopy e (if ordered then 3 else 4) e.opb s = .ok (k, s))
    (hp : s.Places { k with desc := s.cx.fOf (bits e.opb.toNat 39 36) } t) : cpred e ordered s = .ok ((), t) := by
  unfold cpred
  dsimp only
  rw [if_neg (by simp [hc.ctl, hc.eng, hrop, hred]), bind_ok (copyAlign_ok hc true), bind_ok (m := getCx) rfl,
    if_neg (fun h => h.2 (hdesc h.1)), bind_ok hk, BitVec.ofNat_toNat, BitVec.setWidth_eq, enqueueWait_ok he hs hp]

/-! ### Records in local store (05 R80, R81) -/

theorem copyRecord_ok (he : e.Fresh s) (halign : e.opb.toNat % 8 = 0) (hown : OwnBytes s e.opb 32 l) :
    copyRecord e s = .ok (s.peek l 32, s) := by
  obtain ⟨how, hend, hacc, hkey⟩ := hown
  rw [copyRecord, if_neg (not_not.2 halign), bind_ok (ownOffset_ok how), bind_ok (ownOffset_ok (va := e.opb + 31) hend),
    bind_ok (State.who_eq he.priv), bind_ok (accessM_ok s s.who e.opb 32 .read .ls l hacc), loadAt_key s s.who l 32 hkey he.stores]

/-- An entry that holds no record reads it. -/
theorem heldRecord_unheld (hext : e.ext.drop 2 = []) (read : M Nat) : heldRecord e read = read := by
  rw [heldRecord, hext]

/-- A record of a copy: its control word is well formed and copies, and it has fewer than 2^32 bytes. -/
structure RecordOk (v : Nat) (dst src : W64) : Prop where
  ctl : CtlOk (slice v 0 8) dst src
  rop : ctlRop (slice v 0 8) = 0
  bytes : slice v 8 4 * ctlLen (slice v 0 8) < 2 ^ 32

section
variable (he : e.Fresh s) (hs : s.Sent) (hext : e.ext.drop 2 = []) (hleft : e.left = 0) {v : Nat}
  (hread : copyRecord e s = .ok (v, s)) (hv : RecordOk v e.opd e.opa)
include he hs hext hleft hread hv

theorem finCp2d_ok (hzero : slice v 12 4 = 0) (hd : slice v 16 8 % 8 = 0) (hsrc : slice v 24 8 % 8 = 0)
    (hk : mkCopy e 1 (BitVec.ofNat 64 (slice v 0 8)) s = .ok (k, s))
    (hp : s.Places { k with
      rows := slice v 8 4, dstride := BitVec.ofNat 64 (slice v 16 8), sstride := BitVec.ofNat 64 (slice v 24 8) } t) :
    finCp2d e s = .ok (.done, t) := by
  obtain ⟨hc, hrop, hlt⟩ := hv
  rw [finCp2d, heldRecord_unheld hext, bind_ok hread, if_neg (not_not.2 hleft)]
  have halign : copyAlign e (slice v 0 8) false (slice v 16 8 % 8 != 0 || slice v 24 8 % 8 != 0) s = .ok ((), s) := by
    rw [hd, hsrc]
    exact copyAlign_ok hc false
  rw [if_neg (by simpa [hc.ctl, hc.eng, hrop, hzero] using hlt), bind_ok halign, bind_ok hk, enqueueHeld_ok v he hs hp]

theorem finCpidx_ok (hmode : slice v 12 1 ≤ 1) (hzero : slice v 13 3 = 0) (hzero' : slice v 24 8 = 0) (hidx : slice v 16 8 % 4 = 0)
    (hk : mkCopy e 2 (BitVec.ofNat 64 (slice v 0 8)) s = .ok (k, s))
    (hp : s.Places { k with rows := slice v 8 4, idx := BitVec.ofNat 64 (slice v 16 8), mode := slice v 12 1 } t) :
    finCpidx e s = .ok (.done, t) := by
  obtain ⟨hc, hrop, hlt⟩ := hv
  rw [finCpidx, heldRecord_unheld hext, bind_ok hread, if_neg (not_not.2 hleft)]
  have halign : copyAlign e (slice v 0 8) false (slice v 16 8 % 4 != 0) s = .ok ((), s) := by
    rw [hidx]
    exact copyAlign_ok hc false
  rw [if_neg (by simpa [hc.ctl, hc.eng, hrop, hzero, hzero', hmode] using hlt), bind_ok halign, bind_ok hk, enqueueHeld_ok v he hs hp]

end

/-! ### CPWAIT (05 R83) -/

/-- A wait of the context for tag `tag`, or for every tag, counts a command with tag `x` (05 R83). -/
def cpTagHit (w : W64) (x : Nat) : Bool := w.toNat / 2 ^ 8 % 2 == 1 || x == w.toNat % 2 ^ 8

theorem cpTagHit_iff (w : W64) (x : Nat) : cpTagHit w x = true ↔ w.toNat / 2 ^ 8 % 2 = 1 ∨ x = w.toNat % 2 ^ 8 := by
  rw [cpTagHit, Bool.or_eq_true, beq_iff_eq, beq_iff_eq]

/-- Where no earlier copy of the context with the tag is unfinished, and no record of one is on its way, the wait is over. -/
theorem finCpwait_ok (he : e.Fresh s)
    (hcopies : ∀ k ∈ s.cc.copies, k.ctx = s.cur.2 → k.seq < e.seq → ¬cpTagHit e.opa (ctlTag k.ctl.toNat) = true)
    (hrecs : ∀ r ∈ s.net.recs, r.1 = s.cur.1 → r.2.kind = 1 ∨ r.2.kind = 2 → r.2.ctx = s.cur.2 → r.2.seq < e.seq →
      ¬cpTagHit e.opa r.2.tag = true) : finCpwait e s = .ok (.done, s) := by
  have hc : s.cc.copies.any (fun c => c.ctx == s.cur.2 && decide (c.seq < e.seq) && cpTagHit e.opa (ctlTag c.ctl.toNat)) = false := by
    refine List.any_eq_false.2 fun k hk hp => ?_
    simp only [Bool.and_eq_true, beq_iff_eq, decide_eq_true_iff] at hp
    obtain ⟨⟨hctx, hseq⟩, hhit⟩ := hp
    exact hcopies k hk hctx hseq hhit
  have hr : s.net.recs.any (fun r => r.1 == s.cur.1 && (r.2.kind == 1 || r.2.kind == 2) && r.2.ctx == s.cur.2
      && decide (r.2.seq < e.seq) && cpTagHit e.opa r.2.tag) = false := by
    refine List.any_eq_false.2 fun r hr hp => ?_
    simp only [Bool.and_eq_true, Bool.or_eq_true, beq_iff_eq, decide_eq_true_iff] at hp
    obtain ⟨⟨⟨⟨hcore, hkind⟩, hctx⟩, hseq⟩, hhit⟩ := hp
    exact hrecs r hr hcore hkind hctx hseq hhit
  refine plain_ok ?_
  rw [bind_ok (m := getCc) rfl, bind_ok (m := getCur) rfl, bind_ok (afterEarlier_ok e _ he.inflight)]
  refine if_neg ?_
  rw [Bool.or_eq_true]
  rintro (h | h)
  · exact Bool.noConfusion (hc.symm.trans h)
  · exact Bool.noConfusion (hr.symm.trans h)

/-! ### The words -/

section
variable {d a b g : Nat}

theorem State.fOf_issuedAs (s : State) (h : Shape) (n : Nat) : (s.issuedAs h).cx.fOf n = s.cx.fOf n := by
  obtain ⟨b, g, e⟩ := s.cx.issue_eq h
  rw [State.cx_issuedAs, e]
  rfl

variable (hq : s.quiet = true) (hg : s.guardOk g = true)
include hq hg

theorem exec_cp_placed (hc : CtlOk (s.reg b).toNat (s.reg d) (s.reg a)) (hrop : ctlRop (s.reg b).toNat = 0) :
    Placed (.cp d a b g 0) s (s.copyOf 0 (s.reg b) (s.reg d) (s.reg a)) :=
  placed_of_places (exec_cp d a b g 0 s) hq hg (by simp) (by simp [Shape.barred, Shape.reads]) rfl fun _ _ hs hp =>
    finCp_ok (State.entryOf_fresh hq _ _ _ _) hs hc hrop (mkCopy_issued ..) hp

/-- What both reductions ask of their control word, and of the descriptor that it names. -/
structure RedOk (s : State) (c : Nat) (dst src : W64) (ordered : Bool) : Prop where
  ctl : CtlOk c dst src
  rop : ctlRop c ≠ 0
  row : redOk c ordered = true
  desc : ctlFmt c = 6 → descValid (s.cx.fOf (bits c 39 36)).toNat = true ∧ descKind (s.cx.fOf (bits c 39 36)).toNat = 0

theorem exec_cpredO_placed (h : RedOk s (s.reg b).toNat (s.reg d) (s.reg a) true) : Placed (.cpredO d a b g 0) s
    { s.copyOf 3 (s.reg b) (s.reg d) (s.reg a) with desc := s.cx.fOf (bits (s.reg b).toNat 39 36) } := by
  refine placed_of_places (exec_cpredO d a b g 0 s) hq hg (by simp) (by simp [Shape.barred, Shape.reads]) rfl fun _ _ hs hp => ?_
  obtain ⟨hc, hrop, hrow, hdesc⟩ := h
  rw [← s.fOf_issuedAs (Instr.cpredO d a b g 0).shape] at hp hdesc
  exact plain_ok (cpred_ok (State.entryOf_fresh hq _ _ _ _) hs hc hrop hrow hdesc (mkCopy_issued ..) hp)

theorem exec_cpredU_placed (h : RedOk s (s.reg b).toNat (s.reg d) (s.reg a) false) : Placed (.cpredU d a b g 0) s
    { s.copyOf 4 (s.reg b) (s.reg d) (s.reg a) with desc := s.cx.fOf (bits (s.reg b).toNat 39 36) } := by
  refine placed_of_places (exec_cpredU d a b g 0 s) hq hg (by simp) (by simp [Shape.barred, Shape.reads]) rfl fun _ _ hs hp => ?_
  obtain ⟨hc, hrop, hrow, hdesc⟩ := h
  rw [← s.fOf_issuedAs (Instr.cpredU d a b g 0).shape] at hp hdesc
  exact plain_ok (cpred_ok (State.entryOf_fresh hq _ _ _ _) hs hc hrop hrow hdesc (mkCopy_issued ..) hp)

section
variable (halign : (s.reg b).toNat % 8 = 0) (hown : OwnBytes s (s.reg b) 32 l) (hv : RecordOk (s.peek l 32) (s.reg d) (s.reg a))
include halign hown hv

theorem exec_cp2d_placed (hzero : slice (s.peek l 32) 12 4 = 0) (hd : slice (s.peek l 32) 16 8 % 8 = 0)
    (hsrc : slice (s.peek l 32) 24 8 % 8 = 0) : Placed (.cp2d d a b g 0) s
      { s.copyOf 1 (BitVec.ofNat 64 (slice (s.peek l 32) 0 8)) (s.reg d) (s.reg a) with
        rows := slice (s.peek l 32) 8 4, dstride := BitVec.ofNat 64 (slice (s.peek l 32) 16 8)
        sstride := BitVec.ofNat 64 (slice (s.peek l 32) 24 8) } :=
  placed_of_places (exec_cp2d d a b g 0 s) hq hg (by simp) (by simp [Shape.barred, Shape.reads]) rfl fun _ _ hs hp =>
    have hf := State.entryOf_fresh hq _ _ _ _
    finCp2d_ok hf hs rfl rfl (copyRecord_ok hf halign (hown.issuedAs _)) hv hzero hd hsrc (mkCopy_issued ..) hp

theorem exec_cpidx_placed (hmode : slice (s.peek l 32) 12 1 ≤ 1) (hzero : slice (s.peek l 32) 13 3 = 0)
    (hzero' : slice (s.peek l 32) 24 8 = 0) (hidx : slice (s.peek l 32) 16 8 % 4 = 0) : Placed (.cpidx d a b g 0) s
      { s.copyOf 2 (BitVec.ofNat 64 (slice (s.peek l 32) 0 8)) (s.reg d) (s.reg a) with
        rows := slice (s.peek l 32) 8 4, idx := BitVec.ofNat 64 (slice (s.peek l 32) 16 8), mode := slice (s.peek l 32) 12 1 } :=
  placed_of_places (exec_cpidx d a b g 0 s) hq hg (by simp) (by simp [Shape.barred, Shape.reads]) rfl fun _ _ hs hp =>
    have hf := State.entryOf_fresh hq _ _ _ _
    finCpidx_ok hf hs rfl rfl (copyRecord_ok hf halign (hown.issuedAs _)) hv hmode hzero hzero' hidx (mkCopy_issued ..) hp

end

theorem exec_cpwait_over
    (hcopies : ∀ k ∈ s.cc.copies, k.ctx = s.cur.2 → k.seq < s.cx.flow.seq → ¬cpTagHit (s.reg a) (ctlTag k.ctl.toNat) = true)
    (hrecs : ∀ r ∈ s.net.recs, r.1 = s.cur.1 → r.2.kind = 1 ∨ r.2.kind = 2 → r.2.ctx = s.cur.2 → r.2.seq < s.cx.flow.seq →
      ¬cpTagHit (s.reg a) r.2.tag = true) : exec (.cpwait a g 0) s = .next (s.after s.cx.stepped) := by
  obtain ⟨-, -, hl, -, hf, -, -, hgone, -⟩ := s.quiet_iff.1 hq
  have hcx : s.cx.issue (Instr.cpwait a g 0).shape = s.cx.stepped := Ctx.issue_of_no_result _ _ rfl hgone
  have hcc : (s.issuedAs (Instr.cpwait a g 0).shape).cc.copies = s.cc.copies := by
    rw [State.cc_issuedAs]
    rfl
  rw [← hcc] at hcopies
  refine (exec_cpwait a g 0 s).trans (issue_cx s _ _ _ hq hg (by simp) (.inr (by simp [Shape.barred, Shape.reads])) rfl ?_ hl hf)
  have hfin (w : Nat) := finCpwait_ok (s := s.issuedAs (Instr.cpwait a g 0).shape)
    (e := s.entryOf (.cpwait a g 0) w (Instr.cpwait a g 0).shape) (State.entryOf_fresh hq _ _ _ _) hcopies hrecs
  rw [hfin, State.issuedAs, hcx, State.setCx_setCx]

end

/-- Settles O27: each word by what its checks let through, and a wait that nothing holds. -/
theorem copyWords : Obligations.CopyWords := by
  unfold Obligations.CopyWords
  intro s d a b g l hq hg dst src c v c2 whole
  have hctl {x : Nat} (hx : whole x) : CtlOk x dst src := by
    obtain ⟨hbad, heng, hdst, hsrc, hlen⟩ := hx
    exact ⟨hbad, heng, hdst, hsrc, hlen⟩
  refine ⟨fun hw hrop => exec_cp_placed hq hg (hctl hw) hrop, ?reductions, ?records, ?wait⟩
  case reductions =>
    intro hw hrop _ f hdesc
    exact ⟨fun hred => exec_cpredO_placed hq hg ⟨hctl hw, hrop, hred, hdesc⟩,
      fun hred => exec_cpredU_placed hq hg ⟨hctl hw, hrop, hred, hdesc⟩⟩
  case records =>
    intro halign hown hw hrop hlt
    have hv : RecordOk v dst src := ⟨hctl hw, hrop, hlt⟩
    exact ⟨exec_cp2d_placed hq hg halign hown hv, exec_cpidx_placed hq hg halign hown hv⟩
  case wait =>
    intro hit hcopies hrecs
    refine exec_cpwait_over hq hg (fun k hk hctx hseq hhit => ?_) fun r hr hcore hkind hctx hseq hhit => ?_
    · exact hcopies k hk hctx hseq ((cpTagHit_iff ..).1 hhit)
    · exact hrecs r hr hcore hkind hctx hseq ((cpTagHit_iff ..).1 hhit)

end Sys2Proof.Machine
end

/-! # Words that write w registers at their issue, and event records (O28) -/

section
namespace Sys2Proof.Machine

/-! ### Reads of w registers after writes (07 R121, R128) -/

section
variable (c : Ctx) (n m : Nat) (v : W64)

/-- A w register of a context; w0 is 0 (07 R121). -/
def Ctx.wreg (c : Ctx) (n : Nat) : W64 :=
  match c.wloc n with
  | none => 0
  | some r => c.wraw r

theorem State.reg_eq_wreg (s : State) (n : Nat) : s.reg n = s.cx.wreg n := rfl

/-- Nothing but the places of scalar registers, the bypass and the stale registers differs between two contexts. -/
def Ctx.Writes (c c' : Ctx) : Prop := ∃ common base stack hw byp st, c' = { c with
  rf := { c.rf with common := common, base := base, stack := stack }, hw := hw, flow := { c.flow with bypass := byp, stale := st } }

variable {c}

theorem Ctx.Writes.refl : c.Writes c := ⟨_, _, _, _, _, _, rfl⟩

theorem Ctx.Writes.trans {c' c'' : Ctx} (h : c.Writes c') (h' : c'.Writes c'') : c.Writes c'' := by
  obtain ⟨_, _, _, _, _, _, rfl⟩ := h
  obtain ⟨_, _, _, _, _, _, rfl⟩ := h'
  exact ⟨_, _, _, _, _, _, rfl⟩

theorem Ctx.Writes.wloc {c' : Ctx} (h : c.Writes c') : c'.wloc n = c.wloc n := by
  obtain ⟨_, _, _, _, _, _, rfl⟩ := h
  rfl

theorem Ctx.Writes.loops_follow {c' : Ctx} (h : c.Writes c') : c'.flow.loops = c.flow.loops ∧ c'.follow = c.follow := by
  obtain ⟨_, _, _, _, _, _, rfl⟩ := h
  exact ⟨rfl, rfl⟩

variable (c)

theorem Ctx.fileW_writes : c.Writes (c.fileW n v) := by
  unfold Ctx.fileW
  split
  · exact .refl
  next r _ => cases r <;> exact ⟨_, _, _, _, _, _, rfl⟩

theorem Ctx.finW_writes (e : Entry) : c.Writes (c.finW e n v) := (c.fileW_writes n v).trans ⟨_, _, _, _, _, _, rfl⟩

/-- What a place holds after a write of it. -/
theorem Ctx.wraw_setWraw_wloc {r : RegId} (h : c.wloc n = some r) : (c.setWraw r v).wraw r = v := by
  unfold Ctx.wloc at h
  split_ifs at h <;> cases h <;> exact Tbl.get_set_same ..

/-- The places of two w registers are two. -/
theorem Ctx.wraw_setWraw_wloc_ne {r r' : RegId} (h : c.wloc n = some r) (h' : c.wloc m = some r') (hne : m ≠ n) :
    (c.setWraw r v).wraw r' = c.wraw r' := by
  unfold Ctx.wloc at h h'
  split_ifs at h <;> split_ifs at h' <;> cases h <;> cases h' <;>
    simp (disch := omega) only [Ctx.setWraw, Ctx.wraw, Tbl.get_set_ne]

theorem Ctx.wreg_fileW_same (hn : n ≠ 0) : (c.fileW n v).wreg n = v := by
  have hw := (c.fileW_writes n v).wloc n
  cases hr : c.wloc n with
  | none =>
    unfold Ctx.wloc at hr
    split_ifs at hr
    contradiction
  | some r =>
    rw [Ctx.wreg, hw, hr]
    rw [Ctx.fileW, hr]
    exact c.wraw_setWraw_wloc n v hr

theorem Ctx.wreg_fileW_ne (h : m ≠ n) : (c.fileW n v).wreg m = c.wreg m := by
  have hw := (c.fileW_writes n v).wloc m
  rw [Ctx.wreg, Ctx.wreg, hw]
  cases hm : c.wloc m with
  | none => rfl
  | some r' =>
    unfold Ctx.fileW
    cases hr : c.wloc n with
    | none => rfl
    | some r => exact c.wraw_setWraw_wloc_ne n m v hr hm h

theorem Ctx.wreg_finW_same (c : Ctx) (e : Entry) (n : Nat) (v : W64) (hn : n ≠ 0) : (c.finW e n v).wreg n = v :=
  c.wreg_fileW_same n v hn

theorem Ctx.wreg_finW_ne (c : Ctx) (e : Entry) {n m : Nat} (v : W64) (h : m ≠ n) : (c.finW e n v).wreg m = c.wreg m :=
  c.wreg_fileW_ne n m v h

@[simp] theorem Ctx.wreg_issue (c : Ctx) (h : Shape) (n : Nat) : (c.issue h).wreg n = c.wreg n := by
  obtain ⟨b, g, e⟩ := c.issue_eq h
  rw [e]
  rfl

theorem Ctx.issue_vec_spec (c : Ctx) (h : Shape) : (c.issue h).vec = c.vec ∧ (c.issue h).spec = c.spec := by
  obtain ⟨b, g, e⟩ := c.issue_eq h
  rw [e]
  exact ⟨rfl, rfl⟩

end

/-! ### Completion at the issue (07 R129) -/

section
variable {s t u p : State} {i : Instr} {eff : Eff} {e : Entry}

/-- A word of a quiet context whose effect at the issue writes no more of its context than w registers completes, and the next state is that
of its effect, in which the context has the cycle of its issue. -/
theorem completes_of_writes {q : State → Prop} (hi : exec i s = issue i eff s) (hq : s.quiet = true)
    (hg : s.guardOk i.shape.g = true) (hh : i.shape.home ≠ some 3) (hb : i.shape.barred = false) (hla : i.shape.la = 0)
    (he : eff (s.entryOf i ((encodeNat i).getD 0) i.shape) (s.issuedAs i.shape) = .ok (.done, t)) (hcur : t.cur = s.cur)
    (halone : t.alone) (hw : (s.cx.issue i.shape).Writes t.cx) (hp : ∀ n, q (t.setCx { t.cx with last := n, passed := 0 })) :
    Completes i s q := by
  obtain ⟨-, hin, hl, -, hf, -⟩ := s.quiet_iff.1 hq
  obtain ⟨_, _, hissue⟩ := s.cx.issue_eq i.shape
  obtain ⟨_, _, _, _, _, _, hcx⟩ := hissue ▸ hw
  have hloops : t.cx.flow.loops = [] := by rw [hcx]; exact hl
  have hfollow : t.cx.follow = none := by rw [hcx]; exact hf
  have hnext : exec i s = .next t.stamp := by
    rw [hi, issue_quiet s t i eff hq hg hh (.inr hb) hla he hloops (State.alone_setCx t _ halone hfollow), State.stamp_setCx_self]
  refine ⟨t.stamp, hnext, ?_, hp _⟩
  have hstamp : t.stamp.cx = { t.cx with last := t.cc.cycle, passed := 0 } := State.cx_setCx ..
  rw [Ran, hstamp, hcx]
  refine ⟨hcur, rfl, rfl, rfl, ?_⟩
  exact List.map_eq_nil_iff.2 hin

/-- The same where the effect replaces the running context of a state `p` by `c`. -/
theorem completes_setCx {q : State → Prop} {c : Ctx} (hi : exec i s = issue i eff s) (hq : s.quiet = true)
    (hg : s.guardOk i.shape.g = true) (hh : i.shape.home ≠ some 3) (hb : i.shape.barred = false) (hla : i.shape.la = 0)
    (hlone : p.Lone) (hcur : p.cur = s.cur) (hcx : p.cx = s.cx.issue i.shape) (hw : p.cx.Writes c)
    (he : eff (s.entryOf i ((encodeNat i).getD 0) i.shape) (s.issuedAs i.shape) = .ok (.done, p.setCx c))
    (hp : ∀ n, q (p.setCx { c with last := n, passed := 0 })) : Completes i s q := by
  obtain ⟨hl, hf⟩ := hw.loops_follow
  have hout : (p.setCx c).cx = c := State.cx_setCx ..
  refine completes_of_writes hi hq hg hh hb hla he hcur (hlone.setCx (hl.trans hlone.loops) (hf.trans hlone.follow)).alone
    (by rwa [hout, ← hcx]) fun n => ?_
  rw [hout, State.setCx_setCx]
  exact hp n

theorem State.reg_setCx_stamped (p : State) (c : Ctx) (n m : Nat) : (p.setCx { c with last := n, passed := 0 }).reg m = c.wreg m := by
  rw [State.reg_eq_wreg, State.cx_setCx]
  rfl

theorem sameVecSpec_of_writes {h : Shape} {c : Ctx} (hw : (s.cx.issue h).Writes c) : c.vec = s.cx.vec ∧ c.spec = s.cx.spec := by
  obtain ⟨hv, hs⟩ := s.cx.issue_vec_spec h
  obtain ⟨_, _, _, _, _, _, rfl⟩ := hw
  exact ⟨hv, hs⟩

end

/-! ### The words of a record (05 R93) -/

section
variable (c : Ctx) (e : Entry) (d a v : Nat)

/-- The context once the words of record `v` are written: word 1 to wA, and word 0 to wD, where that is another register. -/
def Ctx.evOut : Ctx :=
  if d = a then c.finW e d (BitVec.ofNat 64 (v / 2 ^ 64))
  else (c.fileW a (BitVec.ofNat 64 (v / 2 ^ 64))).finW e d (if d = 0 then 0 else BitVec.ofNat 64 (v % 2 ^ 64))

theorem evOut_ok (s : State) : evOut e d a v s = .ok ((), s.setCx (s.cx.evOut e d a v)) := by
  unfold evOut Ctx.evOut
  split
  · rfl
  · rw [bind_ok (m := modCx _) rfl, wFin, modCx, State.cx_setCx, State.setCx_setCx]

theorem Ctx.evOut_writes : c.Writes (c.evOut e d a v) := by
  unfold Ctx.evOut
  split
  · exact c.finW_writes d _ e
  · exact (c.fileW_writes a _).trans (Ctx.finW_writes _ d _ e)

theorem Ctx.wreg_evOut_second (ha : a ≠ 0) : (c.evOut e d a v).wreg a = BitVec.ofNat 64 (v / 2 ^ 64) := by
  unfold Ctx.evOut
  split
  next h => rw [h, Ctx.wreg_finW_same _ _ _ _ ha]
  next h => rw [Ctx.wreg_finW_ne _ _ _ (Ne.symm h), Ctx.wreg_fileW_same _ _ _ ha]

theorem Ctx.wreg_evOut_first (hd : d ≠ 0) (h : d ≠ a) : (c.evOut e d a v).wreg d = BitVec.ofNat 64 (v % 2 ^ 64) := by
  rw [Ctx.evOut, if_neg h, Ctx.wreg_finW_same _ _ _ _ hd, if_neg hd]

theorem Ctx.wreg_evOut_ne {n : Nat} (hd : n ≠ d) (ha : n ≠ a) : (c.evOut e d a v).wreg n = c.wreg n := by
  unfold Ctx.evOut
  split
  · exact Ctx.wreg_finW_ne _ _ _ hd
  · rw [Ctx.wreg_finW_ne _ _ _ hd, Ctx.wreg_fileW_ne _ _ _ _ ha]

end

/-! ### Taking a record (05 R91 to R93) -/

section
variable {s t : State} {e : Entry} {d a : Nat}

theorem evPopM_queued {r : EvRec} {q : List EvRec} (h : s.cc.evq = r :: q) :
    evPopM s = .ok (some (evNum r), s.setCc { s.cc with evq := q }) := by
  have ht : s.evTake = .ok (some (evNum r, s.setCc { s.cc with evq := q })) := by
    unfold State.evTake
    dsimp only
    rw [h]
  rw [evPopM, ht]

theorem evPopM_empty (h : s.cc.evq = []) (ho : s.cc.evhead = s.cc.evtail) : evPopM s = .ok (none, s) := by
  have ht : s.evTake = .ok none := by
    unfold State.evTake
    dsimp only
    rw [h]
    exact if_pos ho
  rw [evPopM, ht]

theorem evPopM_overflow {v : Nat} (h : s.cc.evq = []) (ho : s.cc.evhead ≠ s.cc.evtail)
    (hv : s.vread ⟨s.cc.evdom, true, s.cur.1⟩ (s.cc.evSlot s.cc.evhead) 16 = .ok v) :
    evPopM s = .ok (some v, s.setCc { s.cc with evhead := s.cc.evhead + 1 }) := by
  have ht : s.evTake = .ok (some (v, s.setCc { s.cc with evhead := s.cc.evhead + 1 })) := by
    unfold State.evTake
    dsimp only
    rw [h]
    dsimp only
    rw [if_neg ho, hv]
  rw [evPopM, ht]

theorem controlOnly_ok (h : s.cur.2 = 0) : controlOnly s = .ok ((), s) := if_pos h

theorem finEvpop_ok {o : Option Nat} {v : Nat} (h0 : s.cur.2 = 0) (h : evPopM s = .ok (o, t)) (hv : o.getD 0 = v) :
    finEvpop d a e s = .ok (.done, t.setCx (t.cx.evOut e d a v)) := by
  refine plain_ok ?_
  rw [bind_ok (controlOnly_ok h0), bind_ok h, evOut_ok, hv]

theorem finEvwait_ok {v : Nat} (h0 : s.cur.2 = 0) (hlim : e.opb = 0 ∨ (s.cc.part.map (·.promise)).getD 0 = 0)
    (hres : s.cx.results = []) (h : evPopM s = .ok (some v, t)) :
    finEvwait d a e s = .ok (.done, t.setCx (t.cx.evOut e d a v)) := by
  refine plain_ok ?_
  rw [bind_ok (controlOnly_ok h0), bind_ok (promiseLimit_ok hlim), bind_ok (takeRes_none hres)]
  dsimp only
  rw [bind_ok h]
  exact evOut_ok ..

end

/-! ### A part of the core that a word replaces beside its context -/

section
variable (s : State) (h : Shape) (c : Ctx)

theorem State.setCx_issuedAs : (s.issuedAs h).setCx c = s.setCx c := State.setCx_setCx ..

/-- A change `f` of a core that is not about its contexts and a new running context may come in either order, and the issue of the word
is no more to be seen. -/
theorem State.setCc_issuedAs_setCx (f : Core → Core) (hf : ∀ x k y, (f (Core.setCtx x k y)) = (f x).setCtx k y) :
    ((s.issuedAs h).setCc (f (s.issuedAs h).cc)).setCx c = (s.setCc (f s.cc)).setCx c := by
  have hput (x : Core) (k : Nat) (y z : Ctx) : (x.setCtx k y).setCtx k z = x.setCtx k z := by
    rw [Core.setCtx, Core.setCtx, Tbl.put_put]
    rfl
  have hset (t : State) (n : Nat) (x y : Core) : (t.setCore n x).setCore n y = t.setCore n y := by
    rw [State.setCore, State.setCore, Tbl.put_put]
    rfl
  have hcx (t : State) (x : Core) : (t.setCc x).setCx c = t.setCc (x.setCtx t.cur.2 c) := by
    rw [State.setCx, State.setCtx, State.setCc, State.setCore_cur, State.core_setCore_same, hset]
    rfl
  rw [hcx, hcx, State.cc_issuedAs, hf, State.cur_issuedAs, hput]
  exact hset ..

/-- The hardware's reads for a core do not rest on its contexts. -/
theorem State.vread_setCtx (n k : Nat) (w : Who) (va len : Nat) : (s.setCtx n k c).vread w va len = s.vread w va len := by
  have hfail (va : W64) (m : Nat) (a : Acc) (f : Flt) : (s.setCtx n k c).failAddr w va m a f = s.failAddr w va m a f := by
    rw [State.failAddr, State.xlate_setCtx]
    rfl
  unfold State.vread
  simp only [State.access_setCtx, hfail, State.peek_setCtx]

end

/-! ### The words of records -/

section
variable {s u p : State} {d a b g v : Nat} {e : Entry} {i : Instr} {eff : Eff}

/-- The words of record `v` stand in wD and wA, no other register of the context is changed, and the rest of the state is as in `u`. -/
def State.Taken (s : State) (d a v : Nat) (u t : State) : Prop :=
  (d ≠ 0 → d ≠ a → t.reg d = BitVec.ofNat 64 (v % 2 ^ 64)) ∧ (a ≠ 0 → t.reg a = BitVec.ofNat 64 (v / 2 ^ 64)) ∧
  (∀ n, n < 32 → n ≠ d → n ≠ a → t.reg n = s.reg n) ∧ SameVecSpec s t ∧ ∃ c, t = u.setCx c

/-- A word that takes record `v` at its issue, and leaves as in `p` what is not of its context, as in `u`. -/
theorem completes_taken (hi : exec i s = issue i eff s) (hq : s.quiet = true) (hg : s.guardOk i.shape.g = true)
    (hh : i.shape.home ≠ some 3) (hb : i.shape.barred = false) (hla : i.shape.la = 0) (hlone : p.Lone) (hcur : p.cur = s.cur)
    (hcx : p.cx = s.cx.issue i.shape) (hu : ∀ c, p.setCx c = u.setCx c)
    (he : eff (s.entryOf i ((encodeNat i).getD 0) i.shape) (s.issuedAs i.shape) = .ok (.done, p.setCx (p.cx.evOut e d a v))) :
    Completes i s (s.Taken d a v u) := by
  have hw : p.cx.Writes (p.cx.evOut e d a v) := p.cx.evOut_writes e d a v
  refine completes_setCx hi hq hg hh hb hla hlone hcur hcx hw he fun n => ?_
  refine ⟨fun hd hne => ?_, fun ha => ?_, fun m _ hd ha => ?_, ?_, _, hu _⟩
  · rw [State.reg_setCx_stamped, Ctx.wreg_evOut_first _ _ _ _ _ hd hne]
  · rw [State.reg_setCx_stamped, Ctx.wreg_evOut_second _ _ _ _ _ ha]
  · rw [State.reg_setCx_stamped, Ctx.wreg_evOut_ne _ _ _ _ _ hd ha, hcx, Ctx.wreg_issue]
    rfl
  · rw [SameVecSpec, State.cx_setCx]
    exact sameVecSpec_of_writes (c := p.cx.evOut e d a v) (by rwa [← hcx])

/-- A word that takes record `v` at its issue and changes its core as `f` does, beside its context. -/
theorem completes_taken_setCc (hi : exec i s = issue i eff s) (hq : s.quiet = true) (hg : s.guardOk i.shape.g = true)
    (hh : i.shape.home ≠ some 3) (hb : i.shape.barred = false) (hla : i.shape.la = 0) (f : Core → Core)
    (hf : ∀ x k y, (f (Core.setCtx x k y)) = (f x).setCtx k y) (hctxs : ∀ x, (f x).ctxs = x.ctxs)
    (he : let p := (s.issuedAs i.shape).setCc (f (s.issuedAs i.shape).cc)
      eff (s.entryOf i ((encodeNat i).getD 0) i.shape) (s.issuedAs i.shape) = .ok (.done, p.setCx (p.cx.evOut e d a v))) :
    Completes i s (s.Taken d a v (s.setCc (f s.cc))) := by
  have hlone := (State.lone_of_quiet hq).issuedAs i.shape
  refine completes_taken hi hq hg hh hb hla (hlone.setCc (hctxs _)) rfl ?_ (fun c => State.setCc_issuedAs_setCx s _ c f hf) he
  rw [State.cx_setCc _ (hctxs _), State.cx_issuedAs]

theorem evPopM_issuedAs {r : EvRec} {q : List EvRec} (hev : s.cc.evq = r :: q) (h : Shape) : evPopM (s.issuedAs h) =
    .ok (some (evNum r), (s.issuedAs h).setCc { (s.issuedAs h).cc with evq := q }) :=
  evPopM_queued (by rw [State.cc_issuedAs]; exact hev)

/-- EVPOST to a core that it may name. -/
theorem finEvpost_ok (hbad : destBad e.opd.toNat = false) (hplain : destPlain e.opd.toNat = true) :
    finEvpost e s = .ok (.done, s.post (bits e.opd.toNat 10 0) ⟨0x09, e.opb.toNat % 2 ^ 8, 0,
      if bits e.opd.toNat 10 0 = s.cur.1 then s.cur.2 else 15, e.opb.toNat / 2 ^ 32, e.opa, false, 0⟩) := by
  refine plain_ok ?_
  rw [if_neg (by simp [hbad, hplain])]

section
variable (hq : s.quiet = true) (hg : s.guardOk g = true)
include hq hg

theorem exec_evpost_did (hbad : destBad (s.reg d).toNat = false) (hplain : destPlain (s.reg d).toNat = true) :
    exec (.evpost d a b g) s = .next (s.did (.evpost d a b g) (fun u => u.post (bits (s.reg d).toNat 10 0)
      ⟨0x09, (s.reg b).toNat % 2 ^ 8, 0, if bits (s.reg d).toNat 10 0 = s.cur.1 then s.cur.2 else 15,
        (s.reg b).toNat / 2 ^ 32, s.reg a, false, 0⟩)) :=
  (exec_evpost d a b g s).trans (issue_did_of_entry s _ _ _ hq hg (by simp) (by simp [Shape.barred, Shape.reads]) rfl
    (fun _ => finEvpost_ok hbad hplain) fun h => h.congr rfl rfl)

variable (h0 : s.cur.2 = 0)
include h0

section
variable {r : EvRec} {q : List EvRec} (hev : s.cc.evq = r :: q)
include hev

theorem exec_evpop_queued : Completes (.evpop d a g) s (s.Taken d a (evNum r) (s.setCc { s.cc with evq := q })) :=
  completes_taken_setCc (exec_evpop d a g s) hq hg (by simp) (by simp [Shape.barred, Shape.reads]) rfl
    (fun x => { x with evq := q }) (fun _ _ _ => rfl) (fun _ => rfl) (finEvpop_ok h0 (evPopM_issuedAs hev _) Option.getD_some)

theorem exec_evwait_queued (hlim : s.reg b = 0 ∨ (s.cc.part.map (·.promise)).getD 0 = 0) (hres : s.cx.results = []) :
    Completes (.evwait d a b g 0) s (s.Taken d a (evNum r) (s.setCc { s.cc with evq := q })) :=
  completes_taken_setCc (exec_evwait d a b g 0 s) hq hg (by simp) (by simp [Shape.barred, Shape.reads]) rfl
    (fun x => { x with evq := q }) (fun _ _ _ => rfl) (fun _ => rfl)
    (finEvwait_ok h0 (by rw [State.cc_issuedAs]; exact hlim) (by rw [State.cx_issuedAs, Ctx.issue_results, hres]) (evPopM_issuedAs hev _))

end

section
variable (hev : s.cc.evq = [])
include hev

theorem exec_evpop_empty (ho : s.cc.evhead = s.cc.evtail) : Completes (.evpop d a g) s (s.Taken d a 0 s) := by
  refine completes_taken (exec_evpop d a g s) hq hg (by simp) (by simp [Shape.barred, Shape.reads]) rfl
    ((State.lone_of_quiet hq).issuedAs _) rfl (State.cx_issuedAs ..) (fun c => State.setCx_issuedAs s _ c)
    (finEvpop_ok h0 (evPopM_empty ?_ ?_) Option.getD_none)
  · rw [State.cc_issuedAs]
    exact hev
  · rw [State.cc_issuedAs]
    exact ho

theorem exec_evpop_overflow (ho : s.cc.evhead ≠ s.cc.evtail)
    (hv : s.vread ⟨s.cc.evdom, true, s.cur.1⟩ (s.cc.evSlot s.cc.evhead) 16 = .ok v) :
    Completes (.evpop d a g) s (s.Taken d a v (s.setCc { s.cc with evhead := s.cc.evhead + 1 })) := by
  refine completes_taken_setCc (exec_evpop d a g s) hq hg (by simp) (by simp [Shape.barred, Shape.reads]) rfl
    (fun x => { x with evhead := x.evhead + 1 }) (fun _ _ _ => rfl) (fun _ => rfl)
    (finEvpop_ok h0 (evPopM_overflow ?_ ?_ ?_) Option.getD_some)
  · rw [State.cc_issuedAs]
    exact hev
  · rw [State.cc_issuedAs]
    exact ho
  · rw [State.cc_issuedAs]
    exact (State.vread_setCtx ..).trans hv

end
end
end

/-- Settles O28: a record comes from the queue, or from the overflow area where the queue is empty, or there is none. -/
theorem eventWords : Obligations.EventWords := by
  unfold Obligations.EventWords
  intro s d a b g hq hg _ _ takes
  refine ⟨?queued, fun h0 => exec_evpop_empty hq hg h0, ?overflow, exec_evpost_did hq hg⟩
  case queued =>
    intro h0 r q hev
    exact ⟨exec_evpop_queued hq hg h0 hev, exec_evwait_queued hq hg h0 hev⟩
  case overflow =>
    intro h0 hev ho v hv
    exact exec_evpop_overflow hq hg h0 hev ho hv

end Sys2Proof.Machine
end

/-! # Full-empty words (O13) -/

section
namespace Sys2Proof.Machine

/-! ### The word of a full-empty access (05 R88) -/

section
variable {s t : State} {e : Entry} {l : Loc} {k : Nat}

theorem releaseAt_ok (ord scope : Nat) (hs : s.Sent) (hst : s.cx.stores = []) (hpf : s.cx.postFail = none) :
    releaseAt ord scope s = .ok ((), s) := by
  have hsys : sysRelease s = .ok ((), s) := by
    have hs : s.sending true = false := hs
    rw [sysRelease, bind_ok (m := getCx) rfl, bind_ok (m := get) rfl, if_neg (by simp [hst, hs]), hpf]
    rfl
  unfold releaseAt
  split_ifs
  · exact hsys
  · exact nearRelease_ok hs hst
  · rfl

theorem ownFirst_ok (n : Nat) (hk : l.key?.isSome = true) (hst : s.cx.stores = []) : ownFirst l n s = .ok ((), s) := by
  rw [ownFirst, State.tgt_key s l hk]
  dsimp only
  rw [Ctx.inWay_nil _ _ _ hst]
  rfl

/-- What an entry needs for its full-empty access to the word at key `k` to be made. -/
structure Entry.FeAt (e : Entry) (s : State) (l : Loc) (k : Nat) : Prop where
  fresh : e.Fresh s
  sent : s.Sent
  clean : s.cx.postFail = none
  aligned : e.opa.toNat % 8 = 0
  access : s.access s.who e.opa 8 .rmw .fe = .ok l
  key : l.key? = some k

theorem feLoc_ok (ord scope : Nat) (h : e.FeAt s l k) : feLoc e ord scope s = .ok (k, s) := by
  obtain ⟨hf, hs, hpf, hal, hacc, hk⟩ := h
  have hk' : l.key?.isSome = true := by rw [hk]; rfl
  rw [feLoc, bind_ok (alignTo_ok hal), bind_ok (releaseAt_ok ord scope hs hf.stores hpf), bind_ok (State.who_eq hf.priv),
    bind_ok (accessM_ok s s.who e.opa 8 .rmw .fe l hacc), bind_ok (ownFirst_ok 8 hk' hf.stores), hk]
  rfl

theorem State.entryOf_feAt {a : Nat} (h : AtomicPlace s a 8 k .fe l) {i : Instr} (w : Nat) (ha : i.shape.opa = some a) :
    (s.entryOf i w i.shape).FeAt (s.issuedAs i.shape) l k := by
  have hopa : (s.entryOf i w i.shape).opa = s.reg a := by
    show (i.shape.opa.map s.reg).getD 0 = _
    rw [ha]
    rfl
  obtain ⟨hq, hs, hpf, hal, hacc, hk, -, -⟩ := h
  refine ⟨State.entryOf_fresh hq _ _ _ _, hs.issuedAs _, ?_, by rwa [hopa], ?_, hk⟩
  · obtain ⟨b, g, e⟩ := s.cx.issue_eq i.shape
    rw [State.cx_issuedAs, e]
    exact hpf
  · rw [hopa, State.who_issuedAs, State.issuedAs, State.access_setCx, hacc]

/-! ### The effects -/

section
variable (d ord scope : Nat) (take : Bool) (h : e.FeAt s l k) (hp : s.net.parked = [])
include h hp

/-- The word is full: it is read, and LDS.E empties it. -/
theorem ldsEff_full (hfull : s.isEmpty k = false) : ldsEff d ord scope take e s =
    .ok (.done, let p := if take then s.setFe k true else s; p.setCx (p.cx.finW e d (BitVec.ofNat 64 (s.peek l 8)))) := by
  have hk' : l.key?.isSome = true := by rw [h.key]; rfl
  have hnet (me : Nat × Nat × Nat × Nat) :
      (modify fun s => { s with net := { s.net with parked := s.net.parked.erase me } } : M Unit) s = .ok ((), s) := by
    have hsame : s.net.parked.erase me = s.net.parked := by rw [hp]; rfl
    refine congrArg (fun x => Except.ok ((), x)) ?_
    dsimp only
    rw [hsame]
  rw [ldsEff, bind_ok (feLoc_ok ord scope h), bind_ok (m := get) rfl]
  dsimp only
  rw [hfull, if_neg (by simp [hp]), bind_ok (State.who_eq h.fresh.priv),
    bind_ok (accessM_ok s s.who e.opa 8 .rmw .fe l h.access), bind_ok (loadAt_key s s.who l 8 hk' h.fresh.stores),
    bind_ok (hnet _)]
  cases take <;> rfl

/-- The word is empty: the request is parked at its home. -/
theorem ldsEff_empty (hempty : s.isEmpty k = true) : ldsEff d ord scope take e s =
    .ok (.stay, { s with net := { s.net with parked := [(s.cur.1, s.cur.2, e.seq, k)] } }) := by
  rw [ldsEff, bind_ok (feLoc_ok ord scope h), bind_ok (m := get) rfl]
  dsimp only
  rw [hempty, if_pos (by simp), if_neg (by simp [hp]), hp]
  rfl

/-- The word is stored and full, and no request waits to be served. -/
theorem finStf_ok : finStf ord scope e s = .ok (.done, (s.poke l 8 e.opd.toNat).setFe k false) := by
  refine plain_ok ?_
  rw [bind_ok (feLoc_ok ord scope h), bind_ok (State.who_eq h.fresh.priv), bind_ok (accessM_ok s s.who e.opa 8 .rmw .fe l h.access)]
  refine congrArg (fun x => Except.ok ((), x)) ?_
  dsimp only
  rw [hp]
  rfl

omit hp in
theorem finSete_ok : finSete ord scope e s = .ok (.done, s.setFe k true) := by
  refine plain_ok ?_
  rw [bind_ok (feLoc_ok ord scope h)]
  rfl

end

@[simp] theorem State.isEmpty_setFe (s : State) (k : Nat) (b : Bool) : (s.setFe k b).isEmpty k = b := Tbl.get_set_same ..

end

/-! ### A word that stays in flight with its request made (07 R129) -/

/-- A word of a quiet context whose effect at the issue leaves it in flight. -/
theorem issue_stay (s t : State) (i : Instr) (eff : Eff) (hq : s.quiet = true) (hg : s.guardOk i.shape.g = true)
    (hh : i.shape.home ≠ some 3) (hb : i.shape.barred = false) (hla : i.shape.la = 0)
    (he : eff (s.entryOf i ((encodeNat i).getD 0) i.shape) (s.issuedAs i.shape) = .ok (.stay, t)) (hlone : t.Lone) :
    issue i eff s = .next (t.setCx (t.cx.enter (s.entryOf i ((encodeNat i).getD 0) i.shape))).stamp := by
  obtain ⟨-, -, -, -, hf, hstream, ha, -, -, hv, -, hvq⟩ := s.quiet_iff.1 hq
  have hent : (s.entryOf i ((encodeNat i).getD 0) i.shape).withLeft 0 = s.entryOf i ((encodeNat i).getD 0) i.shape := by
    rw [State.entryOf, hla]
    rfl
  have hcapture := hent ▸ capture_quiet s i ((encodeNat i).getD 0) i.shape false hq
  have hrun : runEff s i.shape i ((encodeNat i).getD 0) eff =
      .next (t.setCx (t.cx.enter (s.entryOf i ((encodeNat i).getD 0) i.shape))) := by
    rw [runEff, vqTrap_none s _ _ _ _ hstream]
    dsimp only
    rw [hcapture]
    dsimp only
    rw [hv, hvq, hla, ite_self, hent, if_neg (by simp)]
    rw [State.issuedAs] at he
    rw [he]
    rfl
  have halone := State.alone_setCx t (t.cx.enter (s.entryOf i ((encodeNat i).getD 0) i.shape)) hlone.alone hlone.follow
  rw [issue, tryIssue, issueWord, State.following_none _ hf]
  dsimp only
  rw [State.heldByFollower_none _ ha, gate_quiet s _ _ hq hg hh (.inr hb)]
  dsimp only
  rw [if_pos rfl, hrun]
  simp [Issued.outcome, State.stream_none _ _ _ _ halone]

/-! ### The words -/

section
variable {s p : State} {i : Instr} {eff : Eff} {e : Entry} {d a ord scope k : Nat} {l : Loc}

theorem Completes.imp {q q' : State → Prop} (h : Completes i s q) (hqq : ∀ t, q t → q' t) : Completes i s q' := by
  obtain ⟨t, hexec, hran, hq⟩ := h
  exact ⟨t, hexec, hran, hqq t hq⟩

section
variable (hi : exec i s = issue i eff s) (hq : s.quiet = true) (hg : s.guardOk i.shape.g = true) (hh : i.shape.home ≠ some 3)
  (hb : i.shape.barred = false) (hla : i.shape.la = 0) (hlone : p.Lone) (hcur : p.cur = s.cur) (hcx : p.cx = s.cx.issue i.shape)
include hi hq hg hh hb hla hlone hcur hcx

/-- A word that writes the result `v` to wD at its issue, and of the rest of the state makes `p`. -/
theorem completes_finW {v : W64}
    (he : eff (s.entryOf i ((encodeNat i).getD 0) i.shape) (s.issuedAs i.shape) = .ok (.done, p.setCx (p.cx.finW e d v))) :
    Completes i s (fun t => (d ≠ 0 → t.reg d = v) ∧ RegsBut d s t ∧ t.mem = p.mem ∧ t.fe = p.fe) := by
  refine completes_setCx hi hq hg hh hb hla hlone hcur hcx (p.cx.finW_writes d v e) he fun n => ⟨fun hd => ?_, fun m hm => ?_, rfl, rfl⟩
  · rw [State.reg_setCx_stamped, Ctx.wreg_finW_same _ _ _ _ hd]
  · rw [State.reg_setCx_stamped, Ctx.wreg_finW_ne _ _ _ hm, hcx, Ctx.wreg_issue]
    rfl

/-- A word that writes no register and makes `p` at its issue. -/
theorem completes_regs
    (he : eff (s.entryOf i ((encodeNat i).getD 0) i.shape) (s.issuedAs i.shape) = .ok (.done, p)) :
    Completes i s (fun t => (∀ r, t.reg r = s.reg r) ∧ t.mem = p.mem ∧ t.fe = p.fe) := by
  refine completes_of_writes hi hq hg hh hb hla he hcur hlone.alone (hcx ▸ .refl) fun n => ⟨fun r => ?_, rfl, rfl⟩
  rw [State.reg_eq_wreg, State.cx_setCx]
  exact (congrArg (·.wreg r) hcx).trans (Ctx.wreg_issue ..)

end

theorem exec_stf_stored (h : AtomicPlace s a 8 k .fe l) (hp : s.net.parked = []) :
    Completes (.stf d a ord scope 0) s (fun t =>
      (∀ j, j < 8 → Mem.byte t.mem (k + j) = BitVec.ofNat 8 ((s.reg d).toNat / 2 ^ (8 * j))) ∧ SameOutside k 8 s t ∧
      t.isEmpty k = false ∧ ∀ r, t.reg r = s.reg r) := by
  have hlone := (State.lone_of_quiet h.quiet).issuedAs (Instr.stf d a ord scope 0).shape
  have hpoke := poke_mem (s.issuedAs (Instr.stf d a ord scope 0).shape) l k 8 (s.reg d).toNat h.key h.mat
  obtain ⟨hpmem, hcores, -, -, hcur, -, -⟩ := hpoke
  have hcx : ((s.issuedAs (Instr.stf d a ord scope 0).shape).poke l 8 (s.reg d).toNat).cx =
      s.cx.issue (Instr.stf d a ord scope 0).shape := by
    rw [State.cx, State.ctx, State.core, hcores, hcur]
    exact State.cx_issuedAs ..
  have hlone : (((s.issuedAs (Instr.stf d a ord scope 0).shape).poke l 8 (s.reg d).toNat).setFe k false).Lone :=
    (hlone.poke l 8 _).congr rfl rfl
  refine (completes_regs (exec_stf d a ord scope 0 s) h.quiet rfl (by simp) (by simp [Shape.barred, Shape.reads]) rfl
    hlone hcur hcx (finStf_ok ord scope (State.entryOf_feAt h _ rfl) hp)).imp fun t ht => ?_
  obtain ⟨hregs, hmem, hfe⟩ := ht
  have hmem : t.mem = Mem.write s.mem k 8 (s.reg d).toNat := hmem.trans hpmem
  refine ⟨fun j hj => ?_, fun x hx => ?_, ?_, hregs⟩
  · rw [hmem, Mem.byte_write_in _ _ _ _ _ (by omega) (by omega), Nat.add_sub_cancel_left]
  · rw [hmem, Mem.byte_write_out _ _ _ _ _ hx]
  · rw [State.isEmpty, hfe]
    exact State.isEmpty_setFe ..

theorem exec_sete_emptied (h : AtomicPlace s a 8 k .fe l) :
    Completes (.sete a ord scope 0) s (fun t => t.isEmpty k = true ∧ SameMem s t ∧ ∀ r, t.reg r = s.reg r) := by
  have hlone : ((s.issuedAs (Instr.sete a ord scope 0).shape).setFe k true).Lone :=
    ((State.lone_of_quiet h.quiet).issuedAs _).congr rfl rfl
  refine (completes_regs (exec_sete a ord scope 0 s) h.quiet rfl (by simp) (by simp [Shape.barred, Shape.reads]) rfl
    hlone rfl (State.cx_issuedAs ..) (finSete_ok ord scope (State.entryOf_feAt h _ rfl))).imp fun t ht => ?_
  obtain ⟨hregs, hmem, hfe⟩ := ht
  exact ⟨by rw [State.isEmpty, hfe]; exact State.isEmpty_setFe .., fun x => congrArg (Mem.byte · x) hmem, hregs⟩

/-! The two loads, LDS with `take` false and LDS.E with `take` true -/

section
variable {take : Bool} (hi : exec i s = issue i (ldsEff d ord scope take) s) (hg : i.shape.g = 0) (ha : i.shape.opa = some a)
  (hh : i.shape.home ≠ some 3) (hb : i.shape.barred = false) (hla : i.shape.la = 0) (h : AtomicPlace s a 8 k .fe l)
  (hp : s.net.parked = [])
include hi hg ha hh hb hla h hp

/-- A load of a full word returns it, and leaves it empty where it takes it. -/
theorem load_full (hfull : s.isEmpty k = false) : Completes i s (fun t =>
    (d ≠ 0 → t.reg d = BitVec.ofNat 64 (s.peek l 8)) ∧ RegsBut d s t ∧ t.isEmpty k = take ∧ SameMem s t) := by
  have hlone := (State.lone_of_quiet h.quiet).issuedAs i.shape
  have hcx := s.cx_issuedAs i.shape
  have heff (w : Nat) := ldsEff_full d ord scope take (State.entryOf_feAt h w ha) hp hfull
  have hg : s.guardOk i.shape.g = true := by rw [hg]; rfl
  cases take with
  | false =>
    refine (completes_finW hi h.quiet hg hh hb hla hlone rfl hcx (heff _)).imp fun t ht => ?_
    obtain ⟨hd, hregs, hmem, hfe⟩ := ht
    exact ⟨hd, hregs, by rw [State.isEmpty, hfe]; exact hfull, fun x => congrArg (Mem.byte · x) hmem⟩
  | true =>
    have hlone : ((s.issuedAs i.shape).setFe k true).Lone := hlone.congr rfl rfl
    refine (completes_finW hi h.quiet hg hh hb hla hlone rfl hcx (heff _)).imp fun t ht => ?_
    obtain ⟨hd, hregs, hmem, hfe⟩ := ht
    exact ⟨hd, hregs, by rw [State.isEmpty, hfe]; exact State.isEmpty_setFe .., fun x => congrArg (Mem.byte · x) hmem⟩

/-- A load of an empty word is parked. -/
theorem load_empty (hempty : s.isEmpty k = true) :
    ∃ t, exec i s = .next t ∧ t.net.parked = [(s.cur.1, s.cur.2, s.cx.flow.seq, k)] ∧ t.cx.flow.inflight.length = 1 ∧
      t.isEmpty k = true ∧ SameMem s t ∧ (∀ n, t.reg n = s.reg n) ∧ SameVecSpec s t := by
  obtain ⟨-, hin, -⟩ := s.quiet_iff.1 h.quiet
  have hlone := (State.lone_of_quiet h.quiet).issuedAs i.shape
  have hrun := hi.trans (issue_stay s _ i _ h.quiet (by rw [hg]; rfl) hh hb hla
    (ldsEff_empty d ord scope take (State.entryOf_feAt h _ ha) hp hempty) (hlone.congr rfl rfl))
  refine ⟨_, hrun, rfl, ?_, hempty, fun _ => rfl, fun n => ?_, ?_⟩
  · rw [State.stamp, State.cx_setCx, State.cx_setCx]
    show ((s.issuedAs i.shape).cx.flow.inflight ++ [_]).length = 1
    rw [State.cx_issuedAs, Ctx.issue_inflight _ _ hin]
    rfl
  · rw [State.reg_eq_wreg, State.stamp, State.cx_setCx, State.cx_setCx]
    exact (congrArg (·.wreg n) (State.cx_issuedAs ..)).trans (Ctx.wreg_issue ..)
  · rw [SameVecSpec, State.stamp, State.cx_setCx, State.cx_setCx]
    exact (State.cx_issuedAs s i.shape) ▸ s.cx.issue_vec_spec i.shape

end
end

/-- Settles O13: a full word is read, stored or emptied at the issue, and a load of an empty word is parked. -/
theorem fullEmptyWords : Obligations.FullEmptyWords := by
  unfold Obligations.FullEmptyWords
  constructor
  · intro s d a ord scope k l _ h hp
    refine ⟨fun hfull => ⟨?lds, ?ldsE⟩, exec_stf_stored h hp, exec_sete_emptied h⟩
    case lds => exact load_full (exec_lds d a ord scope 0 s) rfl rfl (by simp) (by simp [Shape.barred, Shape.reads]) rfl h hp hfull
    case ldsE => exact load_full (exec_ldsE d a ord scope 0 s) rfl rfl (by simp) (by simp [Shape.barred, Shape.reads]) rfl h hp hfull
  · rintro s d a ord scope k l h hp hempty i (rfl | rfl)
    · exact load_empty (exec_lds d a ord scope 0 s) rfl rfl (by simp) (by simp [Shape.barred, Shape.reads]) rfl h hp hempty
    · exact load_empty (exec_ldsE d a ord scope 0 s) rfl rfl (by simp) (by simp [Shape.barred, Shape.reads]) rfl h hp hempty

end Sys2Proof.Machine
end

/-! # The issue of loads, stores, atomics and transfers (O10, O11, O12, O14, O15, O16)

With a lookahead of 0 and nothing of the context under way, each of these words has its effect at its issue. `Issues` gathers what
that takes of the word and of the state; its lemmas say what the next state is, by what the effect changes. -/

section
namespace Sys2Proof.Machine

variable {s p t : State} {i : Instr} {eff : Eff}

/-- Two contexts go on from the same place: at one address, in one loop level and handler, with the same words unfinished. -/
structure Ctx.SamePlace (c c' : Ctx) : Prop where
  life : c'.life = c.life
  level : c'.level = c.level
  pc : c'.flow.pc = c.flow.pc
  inflight : c'.flow.inflight = c.flow.inflight
  loops : c'.flow.loops = c.flow.loops
  follow : c'.follow = c.follow

theorem Ctx.SamePlace.refl (c : Ctx) : c.SamePlace c := ⟨rfl, rfl, rfl, rfl, rfl, rfl⟩

theorem Ctx.SamePlace.trans {c c' c'' : Ctx} (h : c.SamePlace c') (h' : c'.SamePlace c'') : c.SamePlace c'' :=
  ⟨h'.life.trans h.life, h'.level.trans h.level, h'.pc.trans h.pc, h'.inflight.trans h.inflight, h'.loops.trans h.loops,
    h'.follow.trans h.follow⟩

theorem Ctx.Writes.samePlace {c c' : Ctx} (h : c.Writes c') : c.SamePlace c' := by
  obtain ⟨_, _, _, _, _, _, rfl⟩ := h
  exact ⟨rfl, rfl, rfl, rfl, rfl, rfl⟩

/-- A quiet context issues the word, of which `eff` is the effect, and nothing holds it. -/
structure Issues (s : State) (i : Instr) (eff : Eff) : Prop where
  issued : exec i s = issue i eff s
  quiet : s.quiet = true
  guard : s.guardOk i.shape.g = true
  home : i.shape.home ≠ some 3
  level : s.cx.level = 0 ∨ i.shape.barred = false
  la : i.shape.la = 0

/-- The effect of the word at its issue makes the state `p`. -/
def Makes (s : State) (i : Instr) (eff : Eff) (p : State) : Prop :=
  eff (s.entryOf i ((encodeNat i).getD 0) i.shape) (s.issuedAs i.shape) = .ok (.done, p)

/-- The word completes where its effect leaves the context at its place. -/
theorem Issues.completes {q : State → Prop} (h : Issues s i eff) (he : Makes s i eff t) (hcur : t.cur = s.cur) (halone : t.alone)
    (hp : (s.cx.issue i.shape).SamePlace t.cx) (ht : q t.stamp) : Completes i s q := by
  obtain ⟨-, hin, hl, -, hf, -⟩ := s.quiet_iff.1 h.quiet
  obtain ⟨hlife, hlevel, hpc, hinfl, hloops, hfollow⟩ := hp
  obtain ⟨_, _, hissue⟩ := s.cx.issue_eq i.shape
  rw [hissue] at hlife hlevel hpc hinfl hloops hfollow
  have hnext : exec i s = .next t.stamp := by
    rw [h.issued, issue_quiet s t i eff h.quiet h.guard h.home h.level h.la he (hloops.trans hl)
      (State.alone_setCx t _ halone (hfollow.trans hf)), State.stamp_setCx_self]
  have hstamp : t.stamp.cx = { t.cx with last := t.cc.cycle, passed := 0 } := State.cx_setCx ..
  refine ⟨t.stamp, hnext, ?_, ht⟩
  rw [Ran, hstamp]
  exact ⟨hcur, hlife, hlevel, hpc, hinfl.trans (List.map_eq_nil_iff.2 hin)⟩

/-- The state `p` differs from that after the issue of a word in other parts than the contexts. -/
structure Beside (s : State) (h : Shape) (p : State) : Prop where
  cur : p.cur = s.cur
  lone : p.Lone
  cx : p.cx = s.cx.issue h

theorem beside_issuedAs (hq : s.quiet = true) (h : Shape) : Beside s h (s.issuedAs h) :=
  ⟨rfl, (State.lone_of_quiet hq).issuedAs h, s.cx_issuedAs h⟩

theorem Beside.congr {h : Shape} (hp : Beside s h p) (hcores : t.cores = p.cores) (hcur : t.cur = p.cur) : Beside s h t := by
  refine ⟨hcur.trans hp.cur, hp.lone.congr hcores hcur, ?_⟩
  rw [State.cx, State.ctx, State.core, hcores, hcur]
  exact hp.cx

theorem Beside.poke {h : Shape} (hp : Beside s h p) (l : Loc) (n v : Nat) : Beside s h (p.poke l n v) :=
  hp.congr (State.cores_poke ..) (State.cur_poke ..)

/-- A word that changes nothing of its context but the place. -/
theorem Issues.completes_frame (h : Issues s i eff) (hp : Beside s i.shape p) (he : Makes s i eff p) : Completes i s (fun t =>
      t.mem = p.mem ∧ t.fe = p.fe ∧ t.dreg = p.dreg ∧ t.net = p.net ∧ (∀ r, t.reg r = s.reg r) ∧ SameVecSpec s t) := by
  refine h.completes he hp.cur hp.lone.alone (hp.cx ▸ .refl _) ⟨rfl, rfl, rfl, rfl, fun r => ?_, ?_⟩
  · rw [State.stamp, State.reg_setCx_stamped, hp.cx, Ctx.wreg_issue]
    rfl
  · rw [SameVecSpec, State.stamp, State.cx_setCx, hp.cx]
    exact s.cx.issue_vec_spec i.shape

/-- A word that leaves its running context as `c` and changes nothing else. -/
theorem Issues.after {c : Ctx} (h : Issues s i eff) (he : Makes s i eff ((s.issuedAs i.shape).setCx c))
    (hc : (s.cx.issue i.shape).SamePlace c) : exec i s = .next (s.after c) := by
  have hlone := State.lone_of_quiet h.quiet
  exact h.issued.trans (issue_cx s c i eff h.quiet h.guard h.home h.level h.la he (by rw [hc.loops, Ctx.issue_loops, hlone.loops])
    (by rw [hc.follow, Ctx.issue_follow, hlone.follow]))

/-- A word with a result in a w register. -/
theorem Issues.result {d : Nat} {v : W64} (h : Issues s i eff)
    (he : Makes s i eff ((s.issuedAs i.shape).setCx
      ((s.cx.issue i.shape).finW (s.entryOf i ((encodeNat i).getD 0) i.shape) d v))) : exec i s = .next (s.result i d v) :=
  h.after (c := (s.cx.issue i.shape).finW (s.entryOf i ((encodeNat i).getD 0) i.shape) d v) he (Ctx.finW_writes ..).samePlace

/-- A word with no effect and no result. -/
theorem Issues.stepped (h : Issues s i eff) (hw : i.shape.wr = []) (he : Makes s i eff (s.issuedAs i.shape)) :
    exec i s = .next (s.after s.cx.stepped) := by
  have hissue := s.cx.issue_of_no_result i.shape hw (s.quiet_gone h.quiet)
  refine h.after ?_ (hissue ▸ .refl _)
  rwa [State.issuedAs, State.setCx_setCx, ← hissue]

/-! ### Accesses of the entry -/

theorem State.access_issuedAs (s : State) (h : Shape) (va : W64) (n : Nat) (a : Acc) (c : ACls) :
    (s.issuedAs h).access (s.issuedAs h).who va n a c = s.access s.who va n a c := by
  rw [State.who_issuedAs, State.issuedAs, State.access_setCx]

theorem State.peek_issuedAs (s : State) (h : Shape) (l : Loc) (n : Nat) : (s.issuedAs h).peek l n = s.peek l n := State.peek_setCx ..

theorem State.mbusy_issuedAs (s : State) (h : Shape) : (s.issuedAs h).cc.mbusy = s.cc.mbusy := by
  rw [State.cc_issuedAs]
  rfl

section
variable {e : Entry} {l : Loc} {va : W64} {n : Nat}

/-- Places in memory and local store are in no order (16 R322). -/
theorem inOrder_key (e : Entry) (n : Nat) (a : Acc) (hk : l.key?.isSome = true) : inOrder e l n a s = .ok ((), s) := by
  cases l with
  | hbm | cxl | ls => rfl
  | fab | host | reg => cases hk

theorem loadM_ok (he : e.Fresh s) (hacc : s.access s.who va n .read .ls = .ok l) (hk : l.key?.isSome = true) :
    loadM e va n s = .ok (s.peek l n, s) := by
  rw [loadM, bind_ok (State.who_eq he.priv), bind_ok (accessM_ok s _ _ _ _ _ l hacc), bind_ok (inOrder_key e n _ hk),
    loadAt_key s _ l n hk he.stores]

theorem storeM_ok (v : Nat) (he : e.Fresh s) (hacc : s.access s.who va n .write .ls = .ok l) (hk : l.key?.isSome = true)
    (hm : s.cc.mbusy = false) : storeM e va n v s = .ok ((), s.poke l n (v % 2 ^ (8 * n))) := by
  rw [storeM, bind_ok (State.who_eq he.priv), bind_ok (accessM_ok s _ _ _ _ _ l hacc), bind_ok (inOrder_key e n _ hk),
    storeAt_key s _ _ l n _ hk he.stores hm]

end

/-! ### What one write of memory leaves -/

/-- The `n` bytes at key `k` read as those of `v`, and every other byte as before. -/
def Written (k n v : Nat) (s t : State) : Prop :=
  (∀ j, j < n → Mem.byte t.mem (k + j) = BitVec.ofNat 8 (v / 2 ^ (8 * j))) ∧ SameOutside k n s t

theorem written_of_mem {k n v : Nat} (h : t.mem = Mem.write s.mem k n v) : Written k n v s t := by
  refine ⟨fun j hj => ?_, fun x hx => ?_⟩
  · rw [h, Mem.byte_write_in _ _ _ _ _ (by omega) (by omega), Nat.add_sub_cancel_left]
  · rw [h, Mem.byte_write_out _ _ _ _ _ hx]

/-- A write of a number takes its `n` low-order bytes alone. -/
theorem Mem.write_mod (m : Mem) (k n v : Nat) : Mem.write m k n (v % 2 ^ (8 * n)) = Mem.write m k n v := by
  rw [Mem.write, Nat.mod_mod]
  rfl

/-- A word that stores the low-order `n` bytes of `v` at key `k` and changes no register. -/
theorem Issues.completes_poke {l : Loc} {k n v : Nat} (h : Issues s i eff) (hk : l.key? = some k)
    (hm : ∀ ln ∈ linesOf k n, Tbl.get 0 s.lineKey ln = s.keyMat l.mat)
    (he : Makes s i eff ((s.issuedAs i.shape).poke l n (v % 2 ^ (8 * n)))) : Completes i s (fun t =>
      (Written k n v s t ∧ t.fe = s.fe ∧ t.dreg = s.dreg ∧ t.net = s.net) ∧ (∀ r, t.reg r = s.reg r) ∧ SameVecSpec s t) := by
  obtain ⟨hpmem, -, hpfe, -, -, hpdreg, hpnet⟩ := poke_mem (s.issuedAs i.shape) l k n (v % 2 ^ (8 * n)) hk hm
  refine (h.completes_frame ((beside_issuedAs h.quiet _).poke ..) he).imp fun t ht => ?_
  obtain ⟨hmem, hfe, hdreg, hnet, hregs, hvec⟩ := ht
  rw [Mem.write_mod] at hpmem
  exact ⟨⟨written_of_mem (hmem.trans hpmem), hfe.trans hpfe, hdreg.trans hpdreg, hnet.trans hpnet⟩, hregs, hvec⟩

end Sys2Proof.Machine
end

/-! # Scalar loads and stores (O10, O11) -/

section
namespace Sys2Proof.Machine

variable {s : State} {i : Instr} {e : Entry} {l : Loc}

/-! ### The effective address (06 R109) -/

/-- A field read as two's complement is its word's integer. -/
theorem w64OfInt_signed (n f : Nat) (hn : 0 < n) : w64OfInt (signed n f) = (BitVec.ofNat n f).signExtend 64 := by
  have hpow : 2 ^ n = 2 * 2 ^ (n - 1) := by rw [← Nat.pow_succ', Nat.succ_eq_add_one, Nat.sub_add_cancel hn]
  have hint : signed n f = (BitVec.ofNat n f).toInt := by
    rw [signed, BitVec.toInt_eq_toNat_cond, BitVec.toNat_ofNat]
    exact if_congr (by omega) rfl rfl
  rw [hint]
  rfl

theorem szBytes_of_lt {sz : Nat} (h : sz < 4) : szBytes sz = 2 ^ sz := by rw [szBytes, Nat.mod_eq_of_lt h]

section
variable {off n code d : Nat} {ea : W64} (himm : e.imm = none)
  (hea : e.opa + (BitVec.ofNat 8 off).signExtend 64 * BitVec.ofNat 64 n = ea) (hlt : ea.toNat < 2 ^ 52) (hal : ea.toNat % n = 0)
include himm hea hlt hal

theorem effAddr_ok : effAddr e off n code s = .ok (ea, s) := by
  have hoff : e.immOf 8 off = (BitVec.ofNat 8 off).signExtend 64 := by
    rw [Entry.immOf, himm]
    exact w64OfInt_signed 8 off (by decide)
  rw [effAddr, hoff, hea, if_neg (not_le.2 hlt), bind_ok (alignTo_ok hal)]
  rfl

/-- LD and LDN, of which `f` is the extension. -/
theorem scalarLoad_ok (f : Nat → W64) (he : e.Fresh s) (hacc : s.access s.who ea n .read .ls = .ok l) (hk : l.key?.isSome = true) :
    plain (fun e => do
      let ea ← effAddr e off n code
      let v ← loadM e ea n
      wFin e d (f v)) e s = .ok (.done, s.setCx (s.cx.finW e d (f (s.peek l n)))) :=
  plain_ok (by rw [bind_ok (effAddr_ok himm hea hlt hal), bind_ok (loadM_ok he hacc hk)]; rfl)

/-- ST. -/
theorem scalarStore_ok {v : W64} (hv : e.opd = v) (he : e.Fresh s) (hacc : s.access s.who ea n .write .ls = .ok l)
    (hk : l.key?.isSome = true) (hm : s.cc.mbusy = false) :
    plain (fun e => do
      let ea ← effAddr e off n code
      storeM e ea n e.opd.toNat) e s = .ok (.done, s.poke l n (v.toNat % 2 ^ (8 * n))) :=
  plain_ok (by rw [hv, bind_ok (effAddr_ok himm hea hlt hal), storeM_ok _ he hacc hk hm])

end

/-- Settles O10: the load passes its checks, reads the bytes at its address and writes them, extended, to wD. -/
theorem loadResults : Obligations.LoadResults := by
  unfold Obligations.LoadResults
  intro s d a off sz home l hq hh hoff hsz n ea hlt hal hacc hk
  have hn : szBytes sz = n := szBytes_of_lt hsz
  have hacc (h : Shape) := (s.access_issuedAs h ea n .read .ls).trans hacc
  constructor
  · refine Issues.result (eff := finLd d off sz) ⟨exec_ld .., hq, rfl, by simpa using hh, .inr rfl, rfl⟩ ?_
    rw [Makes, finLd, hn, ← State.cx_issuedAs]
    exact scalarLoad_ok (ea := ea) rfl rfl hlt hal (sextB n) (State.entryOf_fresh hq _ _ _ _) (hacc _) hk
  · refine Issues.result (eff := finLdn d off sz) ⟨exec_ldn .., hq, rfl, by simpa using hh, .inr rfl, rfl⟩ ?_
    rw [Makes, finLdn, hn, ← State.cx_issuedAs]
    exact scalarLoad_ok (ea := ea) rfl rfl hlt hal (BitVec.ofNat 64) (State.entryOf_fresh hq _ _ _ _) (hacc _) hk

/-- Settles O11: the store passes its checks and writes the bytes of wD at its address. -/
theorem storeResults : Obligations.StoreResults := by
  unfold Obligations.StoreResults
  intro s d a off sz home k l hq hh hoff hsz n ea hlt hal hacc hk hm
  have hn : szBytes sz = n := szBytes_of_lt hsz
  have h : Issues s (.st d a off sz home 0) (finSt off sz) := ⟨exec_st .., hq, rfl, by simpa using hh, .inr rfl, rfl⟩
  refine (h.completes_poke (v := (s.reg d).toNat) hk hm ?_).imp ?_
  · rw [Makes, finSt, hn]
    exact scalarStore_ok (ea := ea) rfl rfl hlt hal rfl (State.entryOf_fresh hq _ _ _ _) ((s.access_issuedAs ..).trans hacc)
      (by rw [hk]; rfl) ((s.mbusy_issuedAs _).trans (s.quiet_mbusy hq))
  · rintro t ⟨⟨⟨hin, hout⟩, hfe, hdreg, hnet⟩, hregs, hvec⟩
    exact ⟨hin, hout, hregs, hvec, hfe, hdreg, hnet⟩

end Sys2Proof.Machine
end

/-! # Ordered accesses, fences, prefetches and NOP (O16) -/

section
namespace Sys2Proof.Machine

variable {s : State} {i : Instr} {eff : Eff} {e : Entry} {l : Loc}

/-! ### Ordered accesses (06 R116) -/

@[simp] theorem Ctx.issue_postFail (c : Ctx) (h : Shape) : (c.issue h).postFail = c.postFail := by
  obtain ⟨b, g, e⟩ := c.issue_eq h
  rw [e]

theorem State.postFail_issuedAs (s : State) (h : Shape) : (s.issuedAs h).cx.postFail = s.cx.postFail := by
  rw [State.cx_issuedAs, Ctx.issue_postFail]

/-- The bytes that an ordered access or an atomic moves. -/
def wordBytes (sz : Nat) : Nat := if sz = 0 then 4 else 8

theorem finLdo_ok (d sz : Nat) (he : e.Fresh s) (hlt : e.opa.toNat < 2 ^ 52) (hal : e.opa.toNat % wordBytes sz = 0)
    (hacc : s.access s.who e.opa (wordBytes sz) .read .ls = .ok l) (hk : l.key?.isSome = true) :
    finLdo d sz e s = .ok (.done, s.setCx (s.cx.finW e d (sextB (wordBytes sz) (s.peek l (wordBytes sz))))) := by
  refine plain_ok ?_
  rw [if_neg (not_le.2 hlt), ← wordBytes, bind_ok (alignTo_ok hal), bind_ok (loadM_ok he hacc hk)]
  rfl

theorem finSto_ok (sz rel scope : Nat) {v : W64} (hv : e.opd = v) (he : e.Fresh s) (hs : s.Sent) (hpf : s.cx.postFail = none)
    (hlt : e.opa.toNat < 2 ^ 52) (hal : e.opa.toNat % wordBytes sz = 0)
    (hacc : s.access s.who e.opa (wordBytes sz) .write .ls = .ok l) (hk : l.key?.isSome = true) (hm : s.cc.mbusy = false) :
    finSto sz rel scope e s = .ok (.done, s.poke l (wordBytes sz) (v.toNat % 2 ^ (8 * wordBytes sz))) := by
  refine plain_ok ?_
  rw [if_neg (not_le.2 hlt), ← wordBytes, bind_ok (alignTo_ok hal), bind_ok (releaseAt_ok _ _ hs he.stores hpf),
    storeM_ok _ he hacc hk hm, hv]

theorem orderedAccessResults : Stated.OrderedAccessResults := by
  intro s d a sz ord scope hq hpf n hlt hal
  have hfresh (i : Instr) (w : Nat) := State.entryOf_fresh hq i w i.shape i.shape
  constructor
  · intro l hacc hk
    refine Issues.result (eff := finLdo d sz) ⟨exec_ldo .., hq, rfl, by simp, .inr rfl, rfl⟩ ?_
    rw [Makes, ← State.cx_issuedAs]
    exact finLdo_ok d sz (hfresh _ _) hlt hal ((s.access_issuedAs ..).trans hacc) hk
  · intro l hs hacc k hk hm
    have h : Issues s (.sto d a sz ord scope 0) (finSto sz ord scope) := ⟨exec_sto .., hq, rfl, by simp, .inr rfl, rfl⟩
    refine (h.completes_poke (v := (s.reg d).toNat) hk hm ?_).imp ?_
    · exact finSto_ok sz ord scope rfl (hfresh _ _) (hs.issuedAs _) ((s.postFail_issuedAs _).trans hpf) hlt hal
        ((s.access_issuedAs ..).trans hacc) (by rw [hk]; rfl) ((s.mbusy_issuedAs _).trans (s.quiet_mbusy hq))
    · rintro t ⟨⟨⟨hin, hout⟩, hfe, -, -⟩, hregs, hvec⟩
      exact ⟨hin, hout, hregs, hvec, hfe⟩

/-! ### Prefetches (06 R110) -/

theorem State.tlbFill_cases (s : State) (core dom va : Nat) : s.tlbFill core dom va = s ∨
    ∃ micro ctlb, s.tlbFill core dom va = { s.setCore core { s.core core with micro := micro } with ctlb := ctlb } := by
  unfold State.tlbFill
  split
  · exact .inl rfl
  · dsimp only
    exact .inr ⟨_, _, rfl⟩

/-- A prefetch changes nothing, or the translations of its core and its cluster alone. -/
theorem prefetch_cases (e : Entry) (off : Nat) (s : State) : prefetch e off s = .ok ((), s) ∨
    ∃ micro ctlb, prefetch e off s = .ok ((), { s.setCc { s.cc with micro := micro } with ctlb := ctlb }) := by
  unfold prefetch
  dsimp only
  split
  · exact .inl rfl
  · split
    · obtain h | ⟨micro, ctlb, h⟩ := s.tlbFill_cases s.cur.1 s.cc.domain (prefAddr e off).toNat
      · exact .inl (by rw [h])
      · exact .inr ⟨micro, ctlb, by rw [h]; rfl⟩
    · exact .inl rfl

/-- A prefetch loads at most a translation. -/
theorem Issues.completes_prefetch {off : Nat} (h : Issues s i (plain fun e => prefetch e off)) : Completes i s (fun t =>
    SameMem s t ∧ (∀ r, t.reg r = s.reg r) ∧ SameVecSpec s t ∧ t.fe = s.fe ∧ t.dreg = s.dreg) := by
  have hissued := beside_issuedAs h.quiet i.shape
  have hsame {p : State}
      (he : prefetch (s.entryOf i ((encodeNat i).getD 0) i.shape) off (s.issuedAs i.shape) = .ok ((), p))
      (hp : Beside s i.shape p) (hmem : p.mem = s.mem) (hfe : p.fe = s.fe) (hdreg : p.dreg = s.dreg) :=
    (h.completes_frame hp (plain_ok he)).imp fun t ⟨hm, hf, hd, _, hregs, hvec⟩ =>
      (⟨fun x => congrArg (Mem.byte · x) (hm.trans hmem), hregs, hvec, hf.trans hfe, hd.trans hdreg⟩ :
        SameMem s t ∧ (∀ r, t.reg r = s.reg r) ∧ SameVecSpec s t ∧ t.fe = s.fe ∧ t.dreg = s.dreg)
  obtain he | ⟨micro, ctlb, he⟩ := prefetch_cases (s.entryOf i ((encodeNat i).getD 0) i.shape) off (s.issuedAs i.shape)
  · exact hsame he hissued rfl rfl rfl
  · have hctxs : ({ (s.issuedAs i.shape).cc with micro := micro } : Core).ctxs = (s.issuedAs i.shape).cc.ctxs := rfl
    exact hsame he ⟨rfl, (hissued.lone.setCc hctxs).congr rfl rfl, (State.cx_setCc _ hctxs).trans hissued.cx⟩ rfl rfl rfl

/-! ### FENCE and NOP (06 R118, 07 R144) -/

theorem sysRelease_ok (hs : s.Sent) (hst : s.cx.stores = []) (hpf : s.cx.postFail = none) : sysRelease s = .ok ((), s) :=
  releaseAt_ok 2 4 hs hst hpf

theorem finFence_ok (ord : Nat) {scope : Nat} (he : e.Fresh s) (hs : s.Sent) (hpf : scope ≠ 4 ∨ s.cx.postFail = none) :
    finFence ord scope e s = .ok (.done, s) := by
  refine plain_ok ?_
  by_cases h4 : scope = 4
  · rw [if_pos h4]
    exact sysRelease_ok hs he.stores (hpf.resolve_left (not_not.2 h4))
  · rw [if_neg h4, releaseAt, if_neg h4]
    split
    · exact nearRelease_ok hs he.stores
    · rfl

theorem prefetchFenceNop : Stated.PrefetchFenceNop := by
  intro s a off home ord scope hq hh
  refine ⟨?_, fun hs hpf => ?_, ?_⟩
  · rintro i (rfl | rfl)
    · exact Issues.completes_prefetch ⟨exec_prefTlb .., hq, rfl, by simpa using hh, .inr rfl, rfl⟩
    · exact Issues.completes_prefetch ⟨exec_prefMsc .., hq, rfl, by simpa using hh, .inr rfl, rfl⟩
  · refine Issues.stepped (eff := finFence ord scope) ⟨exec_fence .., hq, rfl, by simp, .inr rfl, rfl⟩ rfl ?_
    exact finFence_ok ord (State.entryOf_fresh hq _ _ _ _) (hs.issuedAs _) (by rwa [State.postFail_issuedAs])
  · exact Issues.stepped (eff := finNop) ⟨exec_nop _, hq, rfl, by simp, .inr rfl, rfl⟩ rfl rfl

/-- Settles O16: the ordered accesses pass their release and are then as LD and ST; the others have no effect that is stated. -/
theorem orderedWords : Obligations.OrderedWords := ⟨orderedAccessResults, prefetchFenceNop⟩

end Sys2Proof.Machine
end

/-! # Atomic words (O12) -/

section
namespace Sys2Proof.Machine

/-! ### Memory as its bytes (00 R1) -/

/-- What is read from keys that start at `c` is a multiple of the place of `c`. -/
theorem Mem.read_dvd {m : Mem} {a c n : Nat} (h : ∀ p ∈ m, c ≤ p.1) : 2 ^ (8 * (c - a)) ∣ Mem.read m a n := by
  induction m with
  | nil => exact Nat.dvd_zero _
  | cons p m ih =>
    obtain ⟨k, b⟩ := p
    have hk : c ≤ k := h (k, b) List.mem_cons_self
    rw [Mem.read]
    refine Nat.dvd_add ?_ (ih fun p hp => h p (List.mem_cons_of_mem _ hp))
    split
    · exact Dvd.dvd.mul_left (Nat.pow_dvd_pow 2 (by omega)) _
    · exact Nat.dvd_zero _

/-- Byte `j` of a multiple of `2 ^ (8 * (j + 1))`, and of one with a byte of less place added. -/
theorem byte_of_dvd {i j b v : Nat} (hb : b < 256) (hi : i ≤ j) (hv : 2 ^ (8 * (i + 1)) ∣ v) :
    (b * 2 ^ (8 * i) + v) / 2 ^ (8 * j) % 256 = if i = j then b else v / 2 ^ (8 * j) % 256 := by
  obtain ⟨q, rfl⟩ := hv
  have hpow : 2 ^ (8 * (i + 1)) = 2 ^ (8 * i) * 256 := by rw [Nat.mul_add, Nat.pow_add]
  have hpos : 0 < 2 ^ (8 * i) := Nat.two_pow_pos _
  have hsum : b * 2 ^ (8 * i) + 2 ^ (8 * (i + 1)) * q = 2 ^ (8 * i) * (b + 256 * q) := by rw [hpow]; ring
  have hj : 2 ^ (8 * j) = 2 ^ (8 * i) * 2 ^ (8 * (j - i)) := by rw [← Nat.pow_add]; congr 1; omega
  split
  next h =>
    subst h
    rw [hsum, Nat.mul_div_cancel_left _ hpos, Nat.add_mul_mod_self_left, Nat.mod_eq_of_lt hb]
  next h =>
    have hji : 2 ^ (8 * (j - i)) = 256 * 2 ^ (8 * (j - i - 1)) := by
      rw [← Nat.pow_add 2 8]; congr 1; omega
    have hv : 2 ^ (8 * (i + 1)) * q = 2 ^ (8 * i) * (256 * q) := by rw [hpow, Nat.mul_assoc]
    rw [hsum, hv, hj, Nat.mul_div_mul_left _ _ hpos, Nat.mul_div_mul_left _ _ hpos, hji, ← Nat.div_div_eq_div_mul,
      ← Nat.div_div_eq_div_mul, Nat.add_mul_div_left _ _ (by decide), Nat.div_eq_of_lt hb, Nat.zero_add,
      Nat.mul_div_cancel_left _ (by decide)]

/-- A number that is read from rising keys has the bytes that stand there. -/
theorem Mem.read_byte {m : Mem} (hm : m.Pairwise (fun p q => p.1 < q.1)) {a n j : Nat} (hj : j < n) :
    Mem.read m a n / 2 ^ (8 * j) % 256 = (Mem.byte m (a + j)).toNat := by
  induction m with
  | nil => rw [Mem.read, Nat.zero_div]; rfl
  | cons p m ih =>
    obtain ⟨k, b⟩ := p
    obtain ⟨hlt, hm⟩ := List.pairwise_cons.1 hm
    have ih := ih hm
    obtain hbelow | hbelow := Nat.lt_or_ge (a + j) k
    · have hkeys : ∀ p ∈ (k, b) :: m, a + j + 1 ≤ p.1 := List.forall_mem_cons.2 ⟨hbelow, fun p hp => hbelow.trans (hlt p hp)⟩
      have hdvd := Mem.read_dvd (a := a) (n := n) hkeys
      rw [Nat.add_assoc, Nat.add_sub_cancel_left] at hdvd
      rw [Mem.byte, Tbl.get_of_lt _ _ _ hkeys, ← Nat.zero_add (Mem.read _ a n), ← Nat.zero_mul (2 ^ (8 * j)),
        byte_of_dvd (by decide) le_rfl hdvd, if_pos rfl]
      rfl
    · rw [Mem.read, Mem.byte, Tbl.get]
      obtain hout | hin := Nat.lt_or_ge k a
      · rw [if_neg (by omega), Nat.zero_add, ih, if_neg (by omega)]
        rfl
      · have hdvd := Mem.read_dvd (a := a) (n := n) (c := k + 1) hlt
        rw [Nat.succ_sub hin] at hdvd
        rw [if_pos (by omega), byte_of_dvd b.isLt (by omega) hdvd, ih]
        by_cases hk : k = a + j
        · rw [if_pos (by omega), if_pos hk]
        · rw [if_neg (by omega), if_neg hk]
          rfl

variable {s p : State} {i : Instr} {eff : Eff} {e : Entry} {l : Loc} {k n : Nat} {c : ACls}

/-- Under the key material that its lines have, a place reads as memory stands. -/
theorem State.peek_of_mat (hk : l.key? = some k) (hm : ∀ ln ∈ linesOf k n, Tbl.get 0 s.lineKey ln = s.keyMat l.mat) :
    s.peek l n = Mem.read s.mem k n := by
  have hall : ((linesOf k n).all fun ln => Tbl.get 0 s.lineKey ln == s.keyMat l.mat) = true :=
    List.all_eq_true.2 fun ln hln => beq_iff_eq.2 (hm ln hln)
  rw [State.peek, hk]
  exact if_pos hall

/-- What stands in memory counts as written there. -/
theorem written_peek (hk : l.key? = some k) (hm : ∀ ln ∈ linesOf k n, Tbl.get 0 s.lineKey ln = s.keyMat l.mat) (hwf : MemOk s)
    (hmem : p.mem = s.mem) : Written k n (s.peek l n) s p := by
  refine ⟨fun j hj => ?_, fun x _ => by rw [hmem]⟩
  obtain ⟨hrise, -⟩ := (Memory.wf_iff _).1 hwf
  refine BitVec.eq_of_toNat_eq ?_
  rw [BitVec.toNat_ofNat, State.peek_of_mat hk hm, Mem.read_byte hrise hj, hmem]

/-! ### A read-modify-write at the home of the word (06 R114) -/

/-- What an entry needs for its read-modify-write of the `n` bytes at key `k` to be made. -/
structure Entry.RmwAt (e : Entry) (s : State) (n : Nat) (c : ACls) (l : Loc) (k : Nat) : Prop where
  fresh : e.Fresh s
  sent : s.Sent
  clean : s.cx.postFail = none
  aligned : e.opa.toNat % n = 0
  access : s.access s.who e.opa n .rmw c = .ok l
  key : l.key? = some k

theorem State.entryOf_rmwAt {a : Nat} (h : AtomicPlace s a n k c l) (w : Nat) (ha : i.shape.opa = some a) :
    (s.entryOf i w i.shape).RmwAt (s.issuedAs i.shape) n c l k := by
  have hopa : (s.entryOf i w i.shape).opa = s.reg a := by
    show (i.shape.opa.map s.reg).getD 0 = _
    rw [ha]
    rfl
  obtain ⟨hq, hs, hpf, hal, hacc, hk, -, -⟩ := h
  exact ⟨State.entryOf_fresh hq _ _ _ _, hs.issuedAs _, (s.postFail_issuedAs _).trans hpf, by rwa [hopa],
    by rw [hopa, State.access_issuedAs, hacc], hk⟩

section
variable (h : e.RmwAt s n c l k) (ord scope : Nat) {f : Nat → Option Nat}
include h

/-- The old value is read, and the new one, where there is one, is written. -/
theorem rmwM_ok : rmwM e e.opa n c (releaseAt ord scope) f s =
    .ok (s.peek l n, (f (s.peek l n)).elim s fun v => s.poke l n (v % 2 ^ (8 * n))) := by
  have hk : l.key?.isSome = true := by rw [h.key]; rfl
  rw [rmwM, bind_ok (State.who_eq h.fresh.priv), bind_ok (accessM_ok s _ _ _ _ _ l h.access), bind_ok (ownFirst_ok n hk h.fresh.stores),
    bind_ok (loadAt_key s _ l n hk h.fresh.stores)]
  cases f (s.peek l n) with
  | none => rfl
  | some v =>
    dsimp only
    rw [bind_ok (releaseAt_ok ord scope h.sent h.fresh.stores h.clean), bind_ok (m := get) rfl, State.tgt_key s l hk]
    rfl

theorem rmwM_written {v : Nat} (hf : f (s.peek l n) = some v) : rmwM e e.opa n c (releaseAt ord scope) f s =
    .ok (s.peek l n, s.poke l n (v % 2 ^ (8 * n))) := by
  rw [rmwM_ok h, hf]
  rfl

theorem rmwM_kept (hf : f (s.peek l n) = none) : rmwM e e.opa n c (releaseAt ord scope) f s = .ok (s.peek l n, s) := by
  rw [rmwM_ok h, hf]
  rfl

end

/-! ### A result and flags (06 R114, 08 R163) -/

theorem Ctx.wreg_orFlags (c : Ctx) (fl : Flags) (n : Nat) : (c.orFlags fl).wreg n = c.wreg n := by
  unfold Ctx.orFlags
  split <;> rfl

theorem Ctx.samePlace_orFlags (c : Ctx) (fl : Flags) : c.SamePlace (c.orFlags fl) := by
  unfold Ctx.orFlags
  split <;> exact ⟨rfl, rfl, rfl, rfl, rfl, rfl⟩

/-- A word that writes `v` to wD, joins flags, and stores `new` at key `k`. -/
theorem Issues.atomicAt {d new : Nat} {v : W64} {fl : Flags} (h : Issues s i eff) (hp : Beside s i.shape p) (hfe : p.fe = s.fe)
    (hmem : Written k n new s p)
    (he : Makes s i eff (p.setCx ((p.cx.orFlags fl).finW (s.entryOf i ((encodeNat i).getD 0) i.shape) d v))) :
    AtomicAt s i d k n new v := by
  generalize s.entryOf i ((encodeNat i).getD 0) i.shape = e at he
  have hplace := (p.cx.samePlace_orFlags fl).trans ((p.cx.orFlags fl).finW_writes d v e).samePlace
  have hout : (p.setCx ((p.cx.orFlags fl).finW e d v)).cx = (p.cx.orFlags fl).finW e d v := State.cx_setCx ..
  refine h.completes he hp.cur (hp.lone.setCx (hplace.loops.trans hp.lone.loops) (hplace.follow.trans hp.lone.follow)).alone
    (by rwa [hout, ← hp.cx]) ⟨hmem.1, hmem.2, fun hd => ?_, fun m hm => ?_, ?_, hfe⟩
  · rw [State.stamp, State.reg_setCx_stamped, hout, Ctx.wreg_finW_same _ _ _ _ hd]
  · rw [State.stamp, State.reg_setCx_stamped, hout, Ctx.wreg_finW_ne _ _ _ hm, Ctx.wreg_orFlags, hp.cx, Ctx.wreg_issue]
    rfl
  · obtain ⟨_, _, _, _, _, _, hw⟩ := (p.cx.orFlags fl).finW_writes d v e
    rw [State.stamp, State.cx_setCx, hout, hw]
    exact (orFlags_vec ..).trans ((congrArg Ctx.vec hp.cx).trans (s.cx.issue_vec_spec i.shape).1)

/-- A write of the `n` bytes of `new` in an atomic word. -/
theorem Beside.poke_written {h : Shape} (hp : Beside s h (s.issuedAs h)) {new v : Nat} (hk : l.key? = some k)
    (hm : ∀ ln ∈ linesOf k n, Tbl.get 0 s.lineKey ln = s.keyMat l.mat) (hv : v % 2 ^ (8 * n) = new % 2 ^ (8 * n)) :
    Beside s h ((s.issuedAs h).poke l n (v % 2 ^ (8 * n))) ∧ ((s.issuedAs h).poke l n (v % 2 ^ (8 * n))).fe = s.fe ∧
      Written k n new s ((s.issuedAs h).poke l n (v % 2 ^ (8 * n))) := by
  obtain ⟨hmem, -, hfe, -⟩ := poke_mem (s.issuedAs h) l k n (v % 2 ^ (8 * n)) hk hm
  refine ⟨hp.poke .., hfe, written_of_mem (hmem.trans ?_)⟩
  rw [hv, Mem.write_mod]
  rfl

/-! ### The words -/

/-- A word on one word of memory: nothing of its shape holds its issue. -/
theorem issues_of_atomic {a d : Nat} {b : Option Nat} {wr : List RegName} (hi : exec i s = issue i eff s) (hq : s.quiet = true)
    (hshape : i.shape = { long := true, opd := some d, opa := some a, opb := b, wr := wr })
    (hwr : wr = [] ∨ wr = [.w d]) : Issues s i eff := by
  refine ⟨hi, hq, ?_, ?_, .inr ?_, ?_⟩
  all_goals rw [hshape]
  · rfl
  · simp
  · obtain rfl | rfl := hwr <;> cases b <;> rfl

section
variable {d a sz ord scope new : Nat} {sgn : Bool} {f : Nat → Nat → Nat → Nat × Flags}

theorem amo_ok (h : e.RmwAt s (wordBytes sz) .amo l k) :
    let n := wordBytes sz
    let r := f n (s.peek l n) (e.opd.toNat % 2 ^ (8 * n))
    let p := s.poke l n (r.1 % 2 ^ (8 * n))
    amo e d sz ord scope sgn f s = .ok ((), p.setCx ((p.cx.orFlags r.2).finW e d
      (if sgn then sextB n (s.peek l n) else BitVec.ofNat 64 (s.peek l n)))) := by
  intro n r p
  have hrmw := rmwM_written h ord scope (f := fun old => some (f n old (e.opd.toNat % 2 ^ (8 * n))).1) rfl
  rw [amo, ← wordBytes, bind_ok (alignTo_ok h.aligned), bind_ok hrmw, bind_ok (m := raiseFlags _) rfl]
  rw [wFin, modCx, State.cx_setCx, State.setCx_setCx]

/-- An atomic that gives `f` of the old value and the operand, and returns the old value. -/
theorem amo_atomicAt (h : AtomicPlace s a (wordBytes sz) k .amo l)
    (hi : exec i s = issue i (plain fun e => amo e d sz ord scope sgn f) s)
    (hshape : i.shape = { long := true, opd := some d, opa := some a, wr := [.w d] })
    (hnew : (f (wordBytes sz) (s.peek l (wordBytes sz)) ((s.reg d).toNat % 2 ^ (8 * wordBytes sz))).1 % 2 ^ (8 * wordBytes sz) =
      new % 2 ^ (8 * wordBytes sz)) :
    AtomicAt s i d k (wordBytes sz) new
      (if sgn then sextB (wordBytes sz) (s.peek l (wordBytes sz)) else BitVec.ofNat 64 (s.peek l (wordBytes sz))) := by
  have hiss := issues_of_atomic hi h.quiet hshape (.inr rfl)
  obtain ⟨hp, hfe, hmem⟩ := (beside_issuedAs h.quiet i.shape).poke_written h.key h.mat hnew
  have hopd : (s.entryOf i ((encodeNat i).getD 0) i.shape).opd = s.reg d := by rw [hshape]; rfl
  have heff := amo_ok (d := d) (ord := ord) (scope := scope) (sgn := sgn) (f := f)
    (State.entryOf_rmwAt h ((encodeNat i).getD 0) (by rw [hshape]))
  rw [hopd] at heff
  exact hiss.atomicAt hp hfe hmem (plain_ok heff)

theorem integerAtomics : Stated.IntegerAtomics := by
  intro s d a sz ord scope k l _ n h old x sv uv
  exact ⟨amo_atomicAt h (exec_amoSwap ..) rfl rfl, amo_atomicAt h (exec_amoAdd ..) rfl rfl, amo_atomicAt h (exec_amoAnd ..) rfl rfl,
    amo_atomicAt h (exec_amoOr ..) rfl rfl, amo_atomicAt h (exec_amoXor ..) rfl rfl, amo_atomicAt h (exec_amoMin ..) rfl rfl,
    amo_atomicAt h (exec_amoMax ..) rfl rfl, amo_atomicAt h (exec_amoMinu ..) rfl rfl, amo_atomicAt h (exec_amoMaxu ..) rfl rfl⟩

theorem finCas_written (h : e.RmwAt s (wordBytes sz) .amo l k) (d ord scope : Nat)
    (heq : s.peek l (wordBytes sz) = e.opd.toNat % 2 ^ (8 * wordBytes sz)) :
    let n := wordBytes sz
    let p := s.poke l n (e.opb.toNat % 2 ^ (8 * n) % 2 ^ (8 * n))
    finCas d sz ord scope e s = .ok (.done, p.setCx (p.cx.finW e d (sextB n (s.peek l n)))) := by
  refine plain_ok ?_
  rw [← wordBytes, bind_ok (alignTo_ok h.aligned), bind_ok (rmwM_written h ord scope (if_pos heq))]
  rfl

theorem finCas_kept (h : e.RmwAt s (wordBytes sz) .amo l k) (d ord scope : Nat)
    (hne : s.peek l (wordBytes sz) ≠ e.opd.toNat % 2 ^ (8 * wordBytes sz)) :
    finCas d sz ord scope e s = .ok (.done, s.setCx (s.cx.finW e d (sextB (wordBytes sz) (s.peek l (wordBytes sz))))) := by
  refine plain_ok ?_
  rw [← wordBytes, bind_ok (alignTo_ok h.aligned), bind_ok (rmwM_kept h ord scope (if_neg hne))]
  rfl

/-- CAS where the old value is the one expected, and where it is not. -/
theorem cas_atomicAt (h : AtomicPlace s a (wordBytes sz) k .amo l) (ord scope : Nat) :
    let n := wordBytes sz
    AtomicAt s (.cas d a sz ord scope 0) d k n
      (if s.peek l n = (s.reg d).toNat % 2 ^ (8 * n) then (s.reg (d + 1)).toNat % 2 ^ (8 * n) else s.peek l n)
      (sextB n (s.peek l n)) := by
  intro n
  have hiss : Issues s (.cas d a sz ord scope 0) (finCas d sz ord scope) :=
    issues_of_atomic (exec_cas ..) h.quiet (shape_cas ..) (.inr rfl)
  have hat := State.entryOf_rmwAt (i := .cas d a sz ord scope 0) h ((encodeNat (.cas d a sz ord scope 0)).getD 0) rfl
  have hissued := beside_issuedAs h.quiet (Instr.cas d a sz ord scope 0).shape
  split
  next heq =>
    obtain ⟨hp, hfe, hmem⟩ := hissued.poke_written (v := (s.reg (d + 1)).toNat % 2 ^ (8 * n)) h.key h.mat rfl
    refine hiss.atomicAt (fl := 0) hp hfe hmem ?_
    rw [Makes, orFlags_zero]
    exact finCas_written hat d ord scope heq
  next hne =>
    refine hiss.atomicAt (fl := 0) hissued rfl (written_peek h.key h.mat h.mem rfl) ?_
    rw [Makes, orFlags_zero]
    exact finCas_kept hat d ord scope hne

/-- The cell `old` with the F32 number of `x` added (08 R170). -/
def cellSum (old : Nat) (x : W64) : Nat := ofBytes (cellAdd (toBytes 64 old) (fF32.decode (x.toNat % 2 ^ 32)))

theorem finAmoFaddX_ok (h : e.RmwAt s 64 .cell l k) (ord scope : Nat) :
    finAmoFaddX ord scope e s = .ok (.done, s.poke l 64 (cellSum (s.peek l 64) e.opd % 2 ^ (8 * 64))) := by
  refine plain_ok ?_
  have hrmw := rmwM_written h ord scope (f := fun old => some (cellSum old e.opd)) rfl
  exact (bind_ok (alignTo_ok h.aligned)).trans (bind_ok hrmw)

theorem amoFaddX_atomicAt (h : AtomicPlace s a 64 k .cell l) (ord scope : Nat) :
    AtomicAt s (.amoFaddX d a ord scope 0) 0 k 64 (cellSum (s.peek l 64) (s.reg d) % 2 ^ 512) 0 := by
  have hiss : Issues s (.amoFaddX d a ord scope 0) (finAmoFaddX ord scope) :=
    issues_of_atomic (exec_amoFaddX ..) h.quiet (shape_amoFaddX ..) (.inl rfl)
  have hat := State.entryOf_rmwAt (i := .amoFaddX d a ord scope 0) h ((encodeNat (.amoFaddX d a ord scope 0)).getD 0) rfl
  have hmod (v : Nat) : v % 2 ^ 512 % 2 ^ (8 * 64) = v % 2 ^ (8 * 64) := by
    rw [show 8 * 64 = 512 from rfl, Nat.mod_mod]
  refine (hiss.completes_poke (v := cellSum (s.peek l 64) (s.reg d) % 2 ^ 512) h.key h.mat ?_).imp fun t ht => ?_
  · rw [Makes, hmod]
    exact finAmoFaddX_ok hat ord scope
  · obtain ⟨⟨⟨hin, hout⟩, hfe, -, -⟩, hregs, hvec, -⟩ := ht
    exact ⟨hin, hout, fun h0 => absurd rfl h0, fun m _ => hregs m, hvec, hfe⟩

end

theorem amoFmt_wordBytes (sz : Nat) : amoFmt (wordBytes sz) = if sz = 0 then fF32 else fF64 := by
  rw [wordBytes]
  split <;> rfl

theorem floatAtomicsAndCas : Stated.FloatAtomicsAndCas := by
  intro s d a sz ord scope k l _ n
  refine ⟨fun h => ?_, fun h => amoFaddX_atomicAt h ord scope⟩
  intro old x f
  have hf : amoFmt n = f := amoFmt_wordBytes sz
  refine ⟨amo_atomicAt h (exec_amoFadd ..) rfl ?_, amo_atomicAt h (exec_amoFmin ..) rfl ?_, amo_atomicAt h (exec_amoFmax ..) rfl ?_,
    cas_atomicAt h ord scope⟩
  · exact hf ▸ (Nat.mod_mod _ _).symm
  · exact hf ▸ (Nat.mod_mod _ _).symm
  · exact hf ▸ (Nat.mod_mod _ _).symm

/-- Settles O12: each atomic reads, changes and writes its word at its issue; a CAS that fails leaves the bytes that it read. -/
theorem atomicWords : Obligations.AtomicWords := ⟨integerAtomics, floatAtomicsAndCas⟩

end Sys2Proof.Machine
end

/-! # Vector loads and stores (O14) -/

section
namespace Sys2Proof.Machine

/-! ### Lanes of a vector -/

/-- The lanes of a number by its part above lane `i`, lane `i`, and its part below. -/
theorem lane_split (hi i j : Nat) {x lo : Nat} (hx : x < 2 ^ 32) (hlo : lo < 2 ^ (32 * i)) :
    lane (2 ^ (32 * i) * (2 ^ 32 * hi + x) + lo) j = if j < i then lane lo j else if j = i then x else lane hi (j - i - 1) := by
  have hpow {m n : Nat} (h : m < n) : 2 ^ (32 * n) = 2 ^ (32 * m) * (2 ^ 32 * 2 ^ (32 * (n - m - 1))) := by
    rw [← Nat.pow_add, ← Nat.pow_add]
    congr 1
    omega
  have hpos (m : Nat) : 0 < 2 ^ m := Nat.two_pow_pos m
  have hdiv : (2 ^ (32 * i) * (2 ^ 32 * hi + x) + lo) / 2 ^ (32 * i) = 2 ^ 32 * hi + x := by
    rw [Nat.mul_add_div (hpos _), Nat.div_eq_of_lt hlo, Nat.add_zero]
  unfold lane
  split
  next h => rw [hpow h, Nat.mul_assoc, Nat.mul_assoc, Nat.mul_add_div (hpos _), Nat.mul_add_mod]
  next h =>
    split
    next heq => rw [heq, hdiv, Nat.mul_add_mod, Nat.mod_eq_of_lt hx]
    next hne =>
      rw [hpow (show i < j by omega), ← Nat.div_div_eq_div_mul, hdiv, ← Nat.div_div_eq_div_mul, Nat.mul_add_div (hpos _),
        Nat.div_eq_of_lt hx, Nat.add_zero]

theorem lane_setLane (v i x j : Nat) : lane (setLane v i x) j = if j = i then x % 2 ^ 32 else lane v j := by
  have hpow : 2 ^ (32 * (i + 1)) = 2 ^ (32 * i) * 2 ^ 32 := by rw [Nat.mul_add, Nat.pow_add]
  have hlane : lane v i < 2 ^ 32 := Nat.mod_lt _ (Nat.two_pow_pos _)
  have hx : x % 2 ^ 32 < 2 ^ 32 := Nat.mod_lt _ (Nat.two_pow_pos _)
  have hlo : v % 2 ^ (32 * i) < 2 ^ (32 * i) := Nat.mod_lt _ (Nat.two_pow_pos _)
  have hv : v = 2 ^ (32 * i) * (2 ^ 32 * (v / 2 ^ (32 * (i + 1))) + lane v i) + v % 2 ^ (32 * i) := by
    rw [hpow, ← Nat.div_div_eq_div_mul, lane, Nat.div_add_mod, Nat.div_add_mod]
  have hset : setLane v i x = 2 ^ (32 * i) * (2 ^ 32 * (v / 2 ^ (32 * (i + 1))) + x % 2 ^ 32) + v % 2 ^ (32 * i) := by
    have hsum : v = 2 ^ (32 * i) * (2 ^ 32 * (v / 2 ^ (32 * (i + 1)))) + v % 2 ^ (32 * i) + lane v i * 2 ^ (32 * i) := by
      conv_lhs => rw [hv]
      ring
    rw [setLane]
    conv_lhs => enter [1, 1]; rw [hsum]
    rw [Nat.add_sub_cancel]
    ring
  rw [hset, lane_split _ _ _ hx hlo]
  conv_rhs => rw [hv, lane_split _ _ _ hlane hlo]
  obtain h | h | h := Nat.lt_trichotomy j i
  · rw [if_pos h, if_neg h.ne, if_pos h]
  · rw [if_neg (by omega), if_pos h, if_pos h]
  · rw [if_neg h.not_gt, if_neg h.ne', if_neg h.ne', if_neg h.not_gt, if_neg h.ne']

theorem lane_foldl_setLane (g : Nat → Nat) (l : List Nat) (v j : Nat) :
    lane (l.foldl (fun v i => setLane v i (g i)) v) j = if j ∈ l then g j % 2 ^ 32 else lane v j := by
  induction l generalizing v with
  | nil => simp
  | cons i l ih =>
    rw [List.foldl_cons, ih, lane_setLane]
    by_cases hj : j = i
    · subst hj
      simp
    · simp [hj]

theorem mem_activeLanes {m : W64} {j : Nat} : j ∈ activeLanes m ↔ j < 64 ∧ m.getLsbD j = true := by
  rw [activeLanes, List.mem_filter, List.mem_range]

theorem activeLanes_rise (m : W64) : (activeLanes m).Pairwise (· < ·) := List.pairwise_lt_range.filter _

/-- The active lanes of a mask, each with its address. -/
def lanesAt (m : W64) (va : Nat → W64) : List (Nat × W64) := (activeLanes m).map fun i => (i, va i)

variable {s t p : State} {i : Instr} {eff : Eff} {e : Entry} {d m tag : Nat} {l : Nat → Loc} {va : Nat → W64}

/-- The place of every lane of a list is checked. -/
theorem laneLocs_ok (e : Entry) (w : Who) (a : Acc) {as : List (Nat × W64)}
    (h : ∀ p ∈ as, s.access w p.2 4 a .ls = .ok (l p.1) ∧ (l p.1).key?.isSome = true) :
    laneLocs e w a as s = .ok (as.map fun p => (p.1, p.2, l p.1), s) := by
  unfold laneLocs
  induction as with
  | nil => rfl
  | cons p as ih =>
    obtain ⟨hacc, hk⟩ := h p List.mem_cons_self
    have hhead : (do
        let l ← accessM w p.2 4 a .ls
        inOrder e l 4 a
        pure (p.1, p.2, l) : M (Nat × W64 × Loc)) s = .ok ((p.1, p.2, l p.1), s) := by
      rw [bind_ok (accessM_ok s _ _ _ _ _ _ hacc), bind_ok (inOrder_key e 4 a hk)]
      rfl
    rw [List.mapM_cons, bind_ok hhead, bind_ok (ih fun q hq => h q (List.mem_cons_of_mem _ hq))]
    rfl

/-! ### Vector loads (06 R111, R113) -/

/-- What each lane reads is a function `f` of its address, as is what was read before. -/
theorem loadLanes_ok (w : Who) (f : W64 → Nat) (hst : s.cx.stores = []) {ls : List (Nat × W64 × Loc)}
    (hls : ∀ p ∈ ls, p.2.2.key?.isSome = true ∧ s.peek p.2.2 4 = f p.2.1) {seen : List (W64 × Nat)}
    (hseen : ∀ p ∈ seen, p.2 = f p.1) (v : Nat) :
    loadLanes w ls seen v s = .ok (ls.foldl (fun v p => setLane v p.1 (f p.2.1)) v, s) := by
  induction ls generalizing seen v with
  | nil => rfl
  | cons p ls ih =>
    obtain ⟨i, va, l⟩ := p
    obtain ⟨hk, hf⟩ := hls _ List.mem_cons_self
    have ih := fun seen => ih (fun q hq => hls q (List.mem_cons_of_mem _ hq)) (seen := seen)
    rw [loadLanes, List.foldl_cons]
    cases hfind : seen.find? fun p => p.1 == va with
    | some q =>
      have hva : q.1 = va := eq_of_beq (List.find?_some (p := fun p : W64 × Nat => p.1 == va) hfind)
      dsimp only
      rw [ih seen hseen, hseen q (List.mem_of_find?_eq_some hfind), hva]
    | none =>
      dsimp only
      rw [bind_ok (loadAt_key s w l 4 hk hst), ih _ (List.forall_mem_cons.2 ⟨hf, hseen⟩)]
      rw [← hf]

/-- What a load of 4 bytes at an address gives, 0 where it faults. -/
def State.wordAt (s : State) (va : W64) : Nat := (s.access s.who va 4 .read .ls).toOption.elim 0 (s.peek · 4)

/-- The contents of a vector with the active lanes loaded from their addresses. -/
def State.lanesLoaded (s : State) (m : W64) (va : Nat → W64) (v : Nat) : Nat :=
  (activeLanes m).foldl (fun v j => setLane v j (s.wordAt (va j))) v

/-- The context after a long-latency result in a vector register. -/
def Ctx.finV (c : Ctx) (e : Entry) (d v tag : Nat) : Ctx :=
  { c.fileV d v tag with flow := (c.fileV d v tag).flow.fillResult e.seq v tag }

/-- The active lanes are at `l` and can be accessed. -/
def LanesAt (s : State) (m : W64) (a : Acc) (va : Nat → W64) (l : Nat → Loc) : Prop :=
  ∀ j, j < 64 → m.getLsbD j = true → (l j).key?.isSome = true ∧ s.access s.who (va j) 4 a .ls = .ok (l j)

theorem LanesAt.issuedAs {m : W64} {a : Acc} (h : LanesAt s m a va l) (sh : Shape) : LanesAt (s.issuedAs sh) m a va l :=
  fun j hj hm => ⟨(h j hj hm).1, (s.access_issuedAs sh _ _ _ _).trans (h j hj hm).2⟩

theorem LanesAt.laneLocs {m : W64} {a : Acc} (h : LanesAt s m a va l) (e : Entry) :
    laneLocs e s.who a (lanesAt m va) s = .ok ((activeLanes m).map fun j => (j, va j, l j), s) := by
  refine (laneLocs_ok (l := l) e s.who a fun p hp => ?_).trans (by rw [lanesAt, List.map_map]; rfl)
  obtain ⟨j, hj, rfl⟩ := List.mem_map.1 hp
  obtain ⟨hj, hm⟩ := mem_activeLanes.1 hj
  exact (h j hj hm).symm

theorem vectorLoad_ok {m : W64} (h : LanesAt s m .read va l) (he : e.Fresh s) (hm : s.cc.mbusy = false) {x y old dtag : Nat}
    (hext : e.ext = [x, y, dtag, old]) : vectorLoad e d tag (lanesAt m va) s =
      .ok (.done, s.setCx (s.cx.finV e d (s.lanesLoaded m va old) tag)) := by
  have hdst : e.dst s.cx d = old := by rw [Entry.dst, hext]; rfl
  have htaken : e.ext.getD 4 0 = 0 := by rw [hext]; rfl
  have hlanes : ∀ p ∈ (activeLanes m).map (fun j => (j, va j, l j)), p.2.2.key?.isSome = true ∧ s.peek p.2.2 4 = s.wordAt p.2.1 := by
    rintro p hp
    obtain ⟨j, hj, rfl⟩ := List.mem_map.1 hp
    obtain ⟨hj, hm⟩ := mem_activeLanes.1 hj
    obtain ⟨hk, hacc⟩ := h j hj hm
    exact ⟨hk, by rw [State.wordAt, hacc]; rfl⟩
  have hload := loadLanes_ok s.who s.wordAt he.stores hlanes (seen := []) (by simp) old
  rw [List.foldl_map] at hload
  rw [vectorLoad, bind_ok (State.who_eq he.priv), bind_ok (h.laneLocs e), bind_ok (m := getCx) rfl, bind_ok (m := getCc) rfl,
    hm, htaken, hdst, if_pos (by rfl), bind_ok hload]
  rfl

theorem maskedTag_ok {want : Nat} (h : m = 0 ∨ e.ext.getD 2 (s.cx.vtagOf d) = want) : maskedTag m d want e s = .ok ((), s) := by
  rw [maskedTag, bind_ok (m := getCx) rfl, if_neg fun hn => h.elim hn.1 hn.2]
  rfl

/-- What the entry of a word with a vector destination, or with no destination, keeps beside its fields. -/
theorem State.ext_entryOf (hq : s.quiet = true) (w : Nat) {h : Shape} (hex : h.ex = []) :
    (h.wr = [.v d] → (s.entryOf i w h).ext = [(s.vcap h.va).2, (s.vcap h.vb).2, s.vtag d, s.vreg d]) ∧
      (h.wr = [] → (s.entryOf i w h).ext = [(s.vcap h.va).2, (s.vcap h.vb).2]) := by
  obtain ⟨-, -, -, hstale, -⟩ := s.quiet_iff.1 hq
  refine ⟨fun hwr => ?_, fun hwr => ?_⟩
  · have hdest : s.cx.vdestNow h.vdest = [s.vtag d, s.vreg d] := by
      rw [Shape.vdest, hwr]
      simp [Ctx.vdestNow, vtagOf_quiet s _ hstale, Flow.staleTag, hstale, State.vreg]
    rw [State.entryOf, hdest, hex]
    rfl
  · rw [State.entryOf, Shape.vdest, hwr, hex]
    rfl

/-- A word that leaves its running context as `c` and changes nothing else completes. -/
theorem Issues.completes_after {q : State → Prop} {c : Ctx} (h : Issues s i eff) (he : Makes s i eff ((s.issuedAs i.shape).setCx c))
    (hc : (s.cx.issue i.shape).SamePlace c) (hs : q (s.after c)) : Completes i s q := by
  have hout : ((s.issuedAs i.shape).setCx c).cx = c := State.cx_setCx ..
  have hlone := ((State.lone_of_quiet h.quiet).issuedAs i.shape)
  have hstamp : ((s.issuedAs i.shape).setCx c).stamp = s.after c := by
    rw [State.setCx_issuedAs, State.stamp_setCx]
  refine h.completes he rfl (hlone.setCx ?_ ?_).alone (by rwa [hout]) (by rwa [hstamp])
  · exact hc.loops.trans (by rw [← hlone.loops, State.cx_issuedAs])
  · exact hc.follow.trans (by rw [← hlone.follow, State.cx_issuedAs])

theorem Ctx.samePlace_finV (c : Ctx) (e : Entry) (d v tag : Nat) : c.SamePlace (c.finV e d v tag) := ⟨rfl, rfl, rfl, rfl, rfl, rfl⟩

/-- The active lanes of vector register `d` are loaded, and nothing else changes. -/
def VectorLoaded (s : State) (d m tag : Nat) (l : Nat → Loc) (t : State) : Prop :=
  (∀ j, j < 64 → lane (t.vreg d) j = if (s.mreg m).getLsbD j then s.peek (l j) 4 % 2 ^ 32 else lane (s.vreg d) j) ∧
  t.vtag d = tag ∧ (∀ n, n ≠ d → t.vreg n = s.vreg n ∧ t.vtag n = s.vtag n) ∧ (∀ r, t.reg r = s.reg r) ∧
  t.cx.vec.m = s.cx.vec.m ∧ t.cx.vec.x = s.cx.vec.x ∧ t.cx.spec = s.cx.spec ∧ SameElse s t

theorem lane_lanesLoaded {mask : W64} (h : LanesAt s mask .read va l) (v : Nat) {j : Nat} (hj : j < 64) :
    lane (s.lanesLoaded mask va v) j = if mask.getLsbD j then s.peek (l j) 4 % 2 ^ 32 else lane v j := by
  rw [State.lanesLoaded, lane_foldl_setLane]
  by_cases hm : mask.getLsbD j = true
  · obtain ⟨-, hacc⟩ := h j hj hm
    rw [if_pos (mem_activeLanes.2 ⟨hj, hm⟩), if_pos hm, State.wordAt, hacc]
    rfl
  · rw [if_neg fun hmem => hm (mem_activeLanes.1 hmem).2, if_neg hm]

/-- A word that loads the active lanes of wD's vector register. -/
theorem Issues.completes_vectorLoad (h : Issues s i eff) (hl : LanesAt s (s.mreg m) .read va l)
    (he : Makes s i eff ((s.issuedAs i.shape).setCx ((s.cx.issue i.shape).finV (s.entryOf i ((encodeNat i).getD 0) i.shape) d
      (s.lanesLoaded (s.mreg m) va (s.vreg d)) tag))) : Completes i s (VectorLoaded s d m tag l) := by
  obtain ⟨hvec, hspec⟩ := s.cx.issue_vec_spec i.shape
  have hout : (s.after ((s.cx.issue i.shape).finV (s.entryOf i ((encodeNat i).getD 0) i.shape) d
      (s.lanesLoaded (s.mreg m) va (s.vreg d)) tag)).cx.vec = { s.cx.vec with
        v := Tbl.set 0 s.cx.vec.v d (s.lanesLoaded (s.mreg m) va (s.vreg d)), vtag := Tbl.set 0 s.cx.vec.vtag d tag } := by
    rw [State.after, State.cx_setCx, ← hvec]
    rfl
  refine h.completes_after he (Ctx.samePlace_finV ..) ⟨fun j hj => ?_, ?_, fun n hn => ⟨?_, ?_⟩, fun r => ?_, ?_, ?_, ?_, _, rfl⟩
  · rw [← lane_lanesLoaded hl _ hj, State.vreg, hout, Tbl.get_set_same]
  · rw [State.vtag, hout, Tbl.get_set_same]
  · rw [State.vreg, hout]
    exact Tbl.get_set_ne _ _ _ _ _ _ hn
  · rw [State.vtag, hout]
    exact Tbl.get_set_ne _ _ _ _ _ _ hn
  · rw [State.after, State.reg_setCx_stamped]
    exact s.cx.wreg_issue i.shape r
  · rw [hout]
  · rw [hout]
  · rw [State.after, State.cx_setCx]
    exact hspec

theorem State.lanesLoaded_issuedAs (s : State) (h : Shape) (mask : W64) (va : Nat → W64) (v : Nat) :
    (s.issuedAs h).lanesLoaded mask va v = s.lanesLoaded mask va v := by
  have hword (a : W64) : (s.issuedAs h).wordAt a = s.wordAt a := by
    rw [State.wordAt, State.access_issuedAs]
    rfl
  simp only [State.lanesLoaded, hword]

/-- The address of lane `j` of a contiguous vector. -/
def rowAddr (base : W64) (j : Nat) : W64 := base + BitVec.ofNat 64 (4 * j)

/-- The address of lane `j` that an index vector names. -/
def indexAddr (base : W64) (idx j : Nat) : W64 := base + w64OfInt (4 * signed 32 (lane idx j))

/-- What the entry of a vector load or store holds for its lanes to move at once (06 R111). -/
structure Entry.VecAt (e : Entry) (s : State) (base mask : W64) : Prop where
  fresh : e.Fresh s
  idle : s.cc.mbusy = false
  opa : e.opa = base
  mask : e.mask = mask
  aligned : base.toNat % 4 = 0

theorem State.entryOf_vecAt {a : Nat} (hq : s.quiet = true) (hal : (s.reg a).toNat % 4 = 0) (ha : i.shape.opa = some a)
    (hm : i.shape.mask = some m) (w : Nat) : (s.entryOf i w i.shape).VecAt (s.issuedAs i.shape) (s.reg a) (s.mreg m) := by
  refine ⟨State.entryOf_fresh hq _ _ _ _, (s.mbusy_issuedAs _).trans (s.quiet_mbusy hq), ?_, ?_, hal⟩
  · rw [State.entryOf, ha]
    rfl
  · rw [State.entryOf, hm]
    rfl

section
variable {cls vi x y tag old : Nat} {base mask : W64} (h : e.VecAt s base mask) (hext : e.ext = [x, y, tag, old])
include h hext

theorem finLdv_ok (hl : LanesAt s mask .read (rowAddr base) l) (htag : m = 0 ∨ tag = ldvTag cls) : finLdv d m cls e s =
    .ok (.done, s.setCx (s.cx.finV e d (s.lanesLoaded mask (rowAddr base) old) (ldvTag cls))) := by
  obtain ⟨he, hm, rfl, rfl, hal⟩ := h
  rw [finLdv, bind_ok (alignTo_ok hal), bind_ok (maskedTag_ok (by rwa [hext]))]
  exact vectorLoad_ok hl he hm hext

theorem finGather_ok {idx : Nat} (hva : e.va = idx) (hidx : x = 5) (hl : LanesAt s mask .read (indexAddr base idx) l)
    (htag : m = 0 ∨ tag = gatherTag cls) : finGather d vi m cls e s =
      .ok (.done, s.setCx (s.cx.finV e d (s.lanesLoaded mask (indexAddr base idx) old) (gatherTag cls))) := by
  obtain ⟨he, hm, rfl, rfl, hal⟩ := h
  subst hva
  rw [finGather, bind_ok (m := getCx) rfl, if_neg (by rw [hext, hidx]; exact not_not.2 rfl), bind_ok (maskedTag_ok (by rwa [hext])),
    bind_ok (alignTo_ok hal)]
  exact vectorLoad_ok hl he hm hext

end

theorem vectorLoads : Stated.VectorLoads := by
  intro s d a vi m cls l hq hlevel _ hal got
  refine ⟨fun hl htag => ?_, fun hidx hl htag => ?_⟩
  · have hiss : Issues s (.ldv d a m cls 0) (finLdv d m cls) := ⟨exec_ldv .., hq, rfl, by simp, .inl hlevel, rfl⟩
    have hlanes : LanesAt s (s.mreg m) .read (rowAddr (s.reg a)) l := hl
    refine hiss.completes_vectorLoad hlanes ?_
    rw [Makes, ← State.lanesLoaded_issuedAs, ← State.cx_issuedAs]
    exact finLdv_ok (State.entryOf_vecAt hq hal rfl rfl _) ((State.ext_entryOf hq _ rfl).1 rfl) (hlanes.issuedAs _) htag
  · have hiss : Issues s (.gather d a vi m cls 0) (finGather d vi m cls) := ⟨exec_gather .., hq, rfl, by simp, .inl hlevel, rfl⟩
    have hlanes : LanesAt s (s.mreg m) .read (indexAddr (s.reg a) (s.vreg vi)) l := hl
    refine hiss.completes_vectorLoad hlanes ?_
    rw [Makes, ← State.lanesLoaded_issuedAs, ← State.cx_issuedAs]
    exact finGather_ok (State.entryOf_vecAt hq hal rfl rfl _) ((State.ext_entryOf hq _ rfl).1 rfl) rfl hidx (hlanes.issuedAs _) htag

end Sys2Proof.Machine
end

/-! # Several writes of memory in one word (O14, O15) -/

section
namespace Sys2Proof.Machine

/-- A write of the `n` low-order bytes of `v` at a place. -/
structure Poke where
  loc : Loc
  n : Nat
  v : Nat

/-- The key of its first byte. -/
def Poke.key (w : Poke) : Nat := w.loc.key?.getD 0

/-- The byte at key `x` is none of those that it writes. -/
def Poke.Misses (w : Poke) (x : Nat) : Prop := x < w.key ∨ w.key + w.n ≤ x

/-- Its place is in memory or local store, and its lines have the key material of the place. -/
structure Poke.Keyed (w : Poke) (s : State) : Prop where
  place : w.loc.key?.isSome = true
  mat : ∀ ln ∈ linesOf w.key w.n, Tbl.get 0 s.lineKey ln = s.keyMat w.loc.mat

def State.pokes (s : State) (ws : List Poke) : State := ws.foldl (fun s w => s.poke w.loc w.n w.v) s

def Mem.writeAll (m : Mem) (ws : List Poke) : Mem := ws.foldl (fun m w => Mem.write m w.key w.n w.v) m

variable {s p : State} {i : Instr} {eff : Eff} {ws : List Poke} {w : Poke} {x : Nat}

theorem Poke.Keyed.key_eq (h : w.Keyed s) : w.loc.key? = some w.key := by
  obtain ⟨k, hk⟩ := Option.isSome_iff_exists.1 h.place
  rw [Poke.key, hk]
  rfl

theorem Poke.Keyed.poke {w' : Poke} (h : w.Keyed s) (h' : w'.Keyed s) : w.Keyed (s.poke w'.loc w'.n w'.v) := by
  obtain ⟨-, -, -, hline, -⟩ := poke_mem s w'.loc _ w'.n w'.v h'.key_eq h'.mat
  refine ⟨h.place, ?_⟩
  rw [hline, State.keyMat, State.admin_poke]
  exact h.mat

theorem State.poke_mod (s : State) (l : Loc) (n v : Nat) : s.poke l n (v % 2 ^ (8 * n)) = s.poke l n v := by
  unfold State.poke
  simp only [Mem.write_mod]

theorem State.pokes_mem (h : ∀ w ∈ ws, w.Keyed s) : (s.pokes ws).mem = Mem.writeAll s.mem ws ∧ (s.pokes ws).fe = s.fe := by
  induction ws generalizing s with
  | nil => exact ⟨rfl, rfl⟩
  | cons w ws ih =>
    obtain ⟨hw, hws⟩ := List.forall_mem_cons.1 h
    obtain ⟨hmem, -, hfe, -⟩ := poke_mem s w.loc _ w.n w.v hw.key_eq hw.mat
    obtain ⟨ihmem, ihfe⟩ := ih fun w' h' => (hws w' h').poke hw
    exact ⟨ihmem.trans (by rw [hmem]; rfl), ihfe.trans hfe⟩

theorem Mem.byte_writeAll_out {m : Mem} (h : ∀ w ∈ ws, w.Misses x) : Mem.byte (Mem.writeAll m ws) x = Mem.byte m x := by
  induction ws generalizing m with
  | nil => rfl
  | cons w ws ih =>
    obtain ⟨hw, hws⟩ := List.forall_mem_cons.1 h
    exact (ih hws).trans (Mem.byte_write_out _ _ _ _ _ hw)

/-- A byte of one of the writes that no later one reaches. -/
theorem Mem.byte_writeAll_last {m : Mem} {l r : List Poke} {b : Nat} (hb : b < w.n) (hr : ∀ w' ∈ r, w'.Misses (w.key + b)) :
    Mem.byte (Mem.writeAll m (l ++ w :: r)) (w.key + b) = BitVec.ofNat 8 (w.v / 2 ^ (8 * b)) := by
  rw [Mem.writeAll, List.foldl_append, List.foldl_cons]
  refine (Mem.byte_writeAll_out hr).trans ?_
  rw [Mem.byte_write_in _ _ _ _ _ (by omega) (by omega), Nat.add_sub_cancel_left]

theorem Beside.pokes {h : Shape} (hp : Beside s h p) (ws : List Poke) : Beside s h (p.pokes ws) := by
  induction ws generalizing p with
  | nil => exact hp
  | cons w ws ih => exact ih (hp.poke ..)

/-- A word that writes memory in several places and changes no register. -/
theorem Issues.completes_pokes (h : Issues s i eff) (hw : ∀ w ∈ ws, w.Keyed s) (he : Makes s i eff ((s.issuedAs i.shape).pokes ws)) :
    Completes i s (fun t => t.mem = Mem.writeAll s.mem ws ∧ (∀ r, t.reg r = s.reg r) ∧ SameVecSpec s t ∧ t.fe = s.fe) := by
  have hkeyed : ∀ w ∈ ws, w.Keyed (s.issuedAs i.shape) := fun w hmem => ⟨(hw w hmem).place, (hw w hmem).mat⟩
  obtain ⟨hpmem, hpfe⟩ := State.pokes_mem hkeyed
  refine (h.completes_frame ((beside_issuedAs h.quiet _).pokes ws) he).imp fun t ht => ?_
  obtain ⟨hmem, hfe, -, -, hregs, hvec⟩ := ht
  exact ⟨hmem.trans hpmem, hregs, hvec, hfe.trans hpfe⟩

/-- A store of the state writes memory at once (16 R317). -/
structure State.StoresAtOnce (s : State) : Prop where
  stores : s.cx.stores = []
  idle : s.cc.mbusy = false

theorem State.StoresAtOnce.poke (h : s.StoresAtOnce) (l : Loc) (n v : Nat) : (s.poke l n v).StoresAtOnce := by
  have hcc : (s.poke l n v).cc = s.cc := s.cc_poke l n v
  refine ⟨?_, by rw [hcc]; exact h.idle⟩
  rw [State.cx, State.ctx, State.core, State.cores_poke, State.cur_poke]
  exact h.stores

theorem State.StoresAtOnce.pokes (h : s.StoresAtOnce) (ws : List Poke) : (s.pokes ws).StoresAtOnce := by
  induction ws generalizing s with
  | nil => exact h
  | cons w ws ih => exact ih (h.poke ..)

theorem Entry.Fresh.storesAtOnce {e : Entry} (he : e.Fresh s) (hm : s.cc.mbusy = false) : s.StoresAtOnce := ⟨he.stores, hm⟩

end Sys2Proof.Machine
end

/-! # Vector stores (O14) -/

section
namespace Sys2Proof.Machine

variable {s : State} {i : Instr} {eff : Eff} {e : Entry} {m v : Nat} {l : Nat → Loc} {va : Nat → W64}

/-- The writes of lanes: each distinct address once, with its highest lane (06 R113). -/
def lanePokes (v : Nat) : List (Nat × W64 × Loc) → List Poke
  | [] => []
  | p :: r => if r.any (fun q => q.2.1 == p.2.1) then lanePokes v r else ⟨p.2.2, 4, lane v p.1⟩ :: lanePokes v r

theorem storeLanes_ok (w : Who) (v : Nat) {ls : List (Nat × W64 × Loc)} (hk : ∀ p ∈ ls, p.2.2.key?.isSome = true)
    (hs : s.StoresAtOnce) : storeLanes w v ls s = .ok ((), s.pokes (lanePokes v ls)) := by
  induction ls generalizing s with
  | nil => rfl
  | cons p ls ih =>
    obtain ⟨j, va, l⟩ := p
    obtain ⟨hp, hls⟩ := List.forall_mem_cons.1 hk
    rw [storeLanes, lanePokes]
    dsimp only
    split
    · exact ih hls hs
    · rw [bind_ok (storeAt_key s w va l 4 _ hp hs.stores hs.idle), ih hls (hs.poke ..)]
      rfl

theorem mem_lanePokes {ls : List (Nat × W64 × Loc)} {w : Poke} (h : w ∈ lanePokes v ls) :
    ∃ p ∈ ls, w = ⟨p.2.2, 4, lane v p.1⟩ := by
  induction ls with
  | nil => cases h
  | cons p ls ih =>
    rw [lanePokes] at h
    split at h
    · obtain ⟨q, hq, hw⟩ := ih h
      exact ⟨q, List.mem_cons_of_mem _ hq, hw⟩
    · obtain rfl | h := List.mem_cons.1 h
      · exact ⟨p, List.mem_cons_self, rfl⟩
      · obtain ⟨q, hq, hw⟩ := ih h
        exact ⟨q, List.mem_cons_of_mem _ hq, hw⟩

/-- The last lane of an address is written, and after it only lanes behind it. -/
theorem lanePokes_append (v : Nat) (l r : List (Nat × W64 × Loc)) {p : Nat × W64 × Loc} (hp : ∀ q ∈ r, q.2.1 ≠ p.2.1) :
    ∃ l', lanePokes v (l ++ p :: r) = l' ++ ⟨p.2.2, 4, lane v p.1⟩ :: lanePokes v r := by
  induction l with
  | nil =>
    have hlast : (r.any fun q => q.2.1 == p.2.1) = false := List.any_eq_false.2 fun q hq => by simpa using hp q hq
    exact ⟨[], by rw [List.nil_append, lanePokes, if_neg (by rw [hlast]; decide)]; rfl⟩
  | cons q l ih =>
    obtain ⟨l', hl⟩ := ih
    rw [List.cons_append, lanePokes, hl]
    split
    · exact ⟨l', rfl⟩
    · exact ⟨_ :: l', rfl⟩

/-- The writes of the active lanes of the contents `v`. -/
def laneWrites (v : Nat) (mask : W64) (va : Nat → W64) (l : Nat → Loc) : List Poke :=
  lanePokes v ((activeLanes mask).map fun j => (j, va j, l j))

theorem mem_laneWrites {mask : W64} {w : Poke} (h : w ∈ laneWrites v mask va l) :
    ∃ j ∈ activeLanes mask, w = ⟨l j, 4, lane v j⟩ := by
  obtain ⟨p, hp, rfl⟩ := mem_lanePokes h
  obtain ⟨j, hj, rfl⟩ := List.mem_map.1 hp
  exact ⟨j, hj, rfl⟩

/-- The last active lane of an address is written, and after it only higher ones. -/
theorem laneWrites_split (v : Nat) (l : Nat → Loc) {mask : W64} {j : Nat} (hj : j ∈ activeLanes mask)
    (hlast : ∀ j' ∈ activeLanes mask, j < j' → va j' ≠ va j) :
    ∃ before after, laneWrites v mask va l = before ++ ⟨l j, 4, lane v j⟩ :: after ∧
      ∀ w ∈ after, ∃ j' ∈ activeLanes mask, va j' ≠ va j ∧ w = ⟨l j', 4, lane v j'⟩ := by
  obtain ⟨low, high, hsplit⟩ := List.append_of_mem hj
  have hrise := activeLanes_rise mask
  rw [hsplit] at hrise
  obtain ⟨-, hhigh, -⟩ := List.pairwise_append.1 hrise
  have hne : ∀ j' ∈ high, j' ∈ activeLanes mask ∧ va j' ≠ va j := fun j' hj' => by
    have hmem : j' ∈ activeLanes mask := by
      rw [hsplit]
      exact List.mem_append_right _ (List.mem_cons_of_mem _ hj')
    exact ⟨hmem, hlast j' hmem ((List.pairwise_cons.1 hhigh).1 j' hj')⟩
  obtain ⟨before, hbefore⟩ := lanePokes_append v (low.map fun j => (j, va j, l j)) (high.map fun j => (j, va j, l j))
    (p := (j, va j, l j)) (by
      intro q hq
      obtain ⟨j', hj', rfl⟩ := List.mem_map.1 hq
      exact (hne j' hj').2)
  refine ⟨before, _, by rw [laneWrites, hsplit, List.map_append, List.map_cons, hbefore], fun w hw => ?_⟩
  obtain ⟨p, hp, rfl⟩ := mem_lanePokes hw
  obtain ⟨j', hj', rfl⟩ := List.mem_map.1 hp
  exact ⟨j', (hne j' hj').1, (hne j' hj').2, rfl⟩

/-- The lane of the mask is active. -/
def LaneOn (s : State) (m j : Nat) : Prop := j < 64 ∧ (s.mreg m).getLsbD j = true

/-- The active lanes of `v` stand in memory, the higher where two have one address, and nothing else changes. -/
def VectorStored (s : State) (m v : Nat) (va : Nat → W64) (k : Nat → Nat) (t : State) : Prop :=
  (∀ j, LaneOn s m j → (∀ j', LaneOn s m j' → j < j' → va j' ≠ va j) →
    ∀ b, b < 4 → Mem.byte t.mem (k j + b) = BitVec.ofNat 8 (lane v j / 2 ^ (8 * b))) ∧
  (∀ x, (∀ j, LaneOn s m j → x < k j ∨ k j + 4 ≤ x) → Mem.byte t.mem x = Mem.byte s.mem x) ∧
  (∀ r, t.reg r = s.reg r) ∧ SameVecSpec s t ∧ t.fe = s.fe

section
variable {k : Nat → Nat}
  (hl : ∀ j, LaneOn s m j → (l j).key? = some (k j) ∧ s.access s.who (va j) 4 .write .ls = .ok (l j) ∧
    ∀ ln ∈ linesOf (k j) 4, Tbl.get 0 s.lineKey ln = s.keyMat (l j).mat)
include hl

theorem lanesAt_of_keys : LanesAt s (s.mreg m) .write va l := fun j hj hm => by
  obtain ⟨hk, hacc, -⟩ := hl j ⟨hj, hm⟩
  exact ⟨by rw [hk]; rfl, hacc⟩

/-- A word that stores the active lanes of `v`. -/
theorem Issues.completes_vectorStore (h : Issues s i eff)
    (hd : ∀ j j', LaneOn s m j → LaneOn s m j' → va j = va j' ∨ k j + 4 ≤ k j' ∨ k j' + 4 ≤ k j)
    (he : Makes s i eff ((s.issuedAs i.shape).pokes (laneWrites v (s.mreg m) va l))) : Completes i s (VectorStored s m v va k) := by
  have hkey {j : Nat} (hj : LaneOn s m j) : (⟨l j, 4, lane v j⟩ : Poke).key = k j := by
    rw [Poke.key, (hl j hj).1]
    rfl
  have hkeyed : ∀ w ∈ laneWrites v (s.mreg m) va l, w.Keyed s := fun w hw => by
    obtain ⟨j, hj, rfl⟩ := mem_laneWrites hw
    have hj := mem_activeLanes.1 hj
    obtain ⟨hk, -, hmat⟩ := hl j hj
    exact ⟨by rw [hk]; rfl, by rw [hkey hj]; exact hmat⟩
  refine (h.completes_pokes hkeyed he).imp fun t ⟨hmem, hsame⟩ => ⟨fun j hj hlast b hb => ?_, fun x hx => ?_, hsame⟩
  · obtain ⟨before, after, hsplit, hafter⟩ := laneWrites_split v l (mem_activeLanes.2 hj)
      fun j' hj' => hlast j' (mem_activeLanes.1 hj')
    rw [hmem, hsplit, ← hkey hj]
    refine Mem.byte_writeAll_last hb fun w hw => ?_
    obtain ⟨j', hj', hne, rfl⟩ := hafter w hw
    have hj' := mem_activeLanes.1 hj'
    rw [Poke.Misses, hkey hj, hkey hj']
    have := (hd j j' hj hj').resolve_left hne.symm
    dsimp only
    omega
  · rw [hmem]
    refine Mem.byte_writeAll_out fun w hw => ?_
    obtain ⟨j, hj, rfl⟩ := mem_laneWrites hw
    have hj := mem_activeLanes.1 hj
    rw [Poke.Misses, hkey hj]
    exact hx j hj

end

section
variable {base mask : W64} (h : e.VecAt s base mask) (hva : e.va = v)
include h hva

theorem laneStores_ok (hl : LanesAt s mask .write va l) : (do
      let w ← e.who
      let ls ← laneLocs e w .write (lanesAt mask va)
      storeLanes w e.va ls : M Unit) s = .ok ((), s.pokes (laneWrites v mask va l)) := by
  rw [bind_ok (State.who_eq h.fresh.priv), bind_ok (hl.laneLocs e), hva]
  refine storeLanes_ok _ _ (fun p hp => ?_) (h.fresh.storesAtOnce h.idle)
  obtain ⟨j, hj, rfl⟩ := List.mem_map.1 hp
  obtain ⟨hj, hm⟩ := mem_activeLanes.1 hj
  exact (hl j hj hm).1

theorem finStv_ok (hl : LanesAt s mask .write (rowAddr base) l) :
    finStv e s = .ok (.done, s.pokes (laneWrites v mask (rowAddr base) l)) := by
  have hstore := laneStores_ok h hva hl
  obtain ⟨-, -, rfl, rfl, hal⟩ := h
  exact plain_ok ((bind_ok (alignTo_ok hal)).trans hstore)

theorem finScatter_ok {vi idx x y : Nat} (hext : e.ext = [x, y]) (hidx : y = 5) (hvb : e.vb = idx)
    (hl : LanesAt s mask .write (indexAddr base idx) l) :
    finScatter vi e s = .ok (.done, s.pokes (laneWrites v mask (indexAddr base idx) l)) := by
  have hstore := laneStores_ok h hva hl
  obtain ⟨-, -, rfl, rfl, hal⟩ := h
  subst hvb
  refine plain_ok ?_
  rw [bind_ok (m := getCx) rfl, if_neg (by rw [hext, hidx]; exact not_not.2 rfl), bind_ok (alignTo_ok hal)]
  exact hstore

end

theorem vectorStores : Stated.VectorStores := by
  intro s d a vi m l k hq hlevel hal on put
  refine ⟨fun hl hd => ?_, fun hidx hl hd => ?_⟩
  · have hiss : Issues s (.stv d a m 0) finStv := ⟨exec_stv .., hq, rfl, by simp, .inl hlevel, rfl⟩
    refine hiss.completes_vectorStore (v := s.vreg d) hl hd ?_
    exact finStv_ok (State.entryOf_vecAt hq hal rfl rfl _) rfl ((lanesAt_of_keys hl).issuedAs _)
  · have hiss : Issues s (.scatter d a vi m 0) (finScatter vi) := ⟨exec_scatter .., hq, rfl, by simp, .inl hlevel, rfl⟩
    refine hiss.completes_vectorStore (v := s.vreg d) hl hd ?_
    exact finScatter_ok (State.entryOf_vecAt hq hal rfl rfl _) rfl ((State.ext_entryOf (d := d) hq _ rfl).2 rfl) hidx rfl
      ((lanesAt_of_keys hl).issuedAs _)

/-- Settles O14: the active lanes move one by one, and lanes of one address read one word and write their highest. -/
theorem vectorTransfers : Obligations.VectorTransfers := ⟨vectorLoads, vectorStores⟩

end Sys2Proof.Machine
end

/-! # Tile loads and stores (O15)

The pieces of a range are places in memory or local store, so nothing keeps them in order, whatever the entry, and a context with its
memory path idle moves them at once. -/

section
namespace Sys2Proof.Machine

variable {s t : State} {i : Instr} {eff : Eff} {e : Entry} {ps : List (Nat × Nat × Loc)} {d x y : Nat}

/-! ### Pieces of a range (06 R112) -/

theorem allInOrder_ok (e : Entry) (a : Acc) (hk : ∀ p ∈ ps, p.2.2.key?.isSome = true) : allInOrder e a ps s = .ok ((), s) := by
  unfold allInOrder
  induction ps with
  | nil => rfl
  | cons p ps ih =>
    obtain ⟨hp, hps⟩ := List.forall_mem_cons.1 hk
    exact (bind_ok (inOrder_key e p.2.1 a hp)).trans (ih hps)

/-- The places of a range are those of any entry, before the issue of a word and after it. -/
theorem locsOf_issuedAs {w : Who} {va : W64} {n : Nat} {a : Acc} (e' : Entry) (h : Shape)
    (hk : ∀ p ∈ ps, p.2.2.key?.isSome = true) (hlocs : locsOf e w va n a s = .ok (ps, t)) :
    locsOf e' w va n a (s.issuedAs h) = .ok (ps, s.issuedAs h) := by
  have hxlate (p : W64) : (s.issuedAs h).xlate w p a = s.xlate w p a := State.xlate_setCtx ..
  unfold locsOf at hlocs ⊢
  simp only [hxlate]
  split at hlocs
  next r hr =>
    have hps : r = ps := by
      cases ho : allInOrder e a r s with
      | error _ => rw [ho] at hlocs; cases hlocs
      | ok _ => rw [ho] at hlocs; cases hlocs; rfl
    subst hps
    split
    next r' hr' =>
      have hrr : r' = r := Except.ok.inj (hr'.symm.trans hr)
      rw [hrr, allInOrder_ok e' a hk]
      rfl
    next hr' => cases hr'.symm.trans hr
  next => cases hlocs

/-- The number that the pieces of a range hold. -/
def State.pieceValue (s : State) (ps : List (Nat × Nat × Loc)) : Nat :=
  (ps.map (fun p => s.peek p.2.2 p.2.1 * 2 ^ (8 * p.1))).foldr (· + ·) 0

theorem loadPieces_ok (w : Who) (hst : s.cx.stores = []) (hk : ∀ p ∈ ps, p.2.2.key?.isSome = true) :
    loadPieces w ps s = .ok (s.pieceValue ps, s) := by
  induction ps with
  | nil => rfl
  | cons p ps ih =>
    obtain ⟨off, n, l⟩ := p
    obtain ⟨hp, hps⟩ := List.forall_mem_cons.1 hk
    have hload := loadAt_key s w l n hp hst
    cases l with
    | hbm | cxl | ls =>
      rw [loadPieces, bind_ok hload, bind_ok (ih hps)]
      rfl
    | fab | host | reg => cases hp

/-- The writes of a number in the pieces of a range. -/
def piecePokes (v : Nat) (ps : List (Nat × Nat × Loc)) : List Poke :=
  (ps.filter fun p => p.2.1 != 0).map fun p => ⟨p.2.2, p.2.1, v / 2 ^ (8 * p.1)⟩

theorem Loc.plus_zero (l : Loc) : l.plus 0 = l := by cases l <;> rfl

/-- The parts in which a store moves a piece are one, unless it is empty. -/
theorem storePiece_ok (w : Who) (va : W64) (v off n : Nat) {l : Loc} (hk : l.key?.isSome = true) (hs : s.StoresAtOnce) :
    (List.range (n / n)).forM (fun j => storeAt w (va + BitVec.ofNat 64 (off + n * j)) (l.plus (n * j)) n (slice v (off + n * j) n)) s =
      .ok ((), s.pokes (piecePokes v [(off, n, l)])) := by
  obtain rfl | hn := Nat.eq_zero_or_pos n
  · rfl
  · have hone : List.range (n / n) = [0] := by rw [Nat.div_self hn]; rfl
    have hwrites : piecePokes v [(off, n, l)] = [⟨l, n, v / 2 ^ (8 * off)⟩] := by
      rw [piecePokes, List.filter_cons_of_pos (by simpa using hn.ne')]
      rfl
    rw [hone, hwrites]
    refine (bind_ok (storeAt_key s w _ _ n _ (by rwa [Nat.mul_zero, Loc.plus_zero]) hs.stores hs.idle)).trans ?_
    rw [Nat.mul_zero, Loc.plus_zero, Nat.add_zero, slice, State.poke_mod]
    rfl

theorem storePieces_ok (w : Who) (va : W64) (v : Nat) (hk : ∀ p ∈ ps, p.2.2.key?.isSome = true) (hs : s.StoresAtOnce) :
    storePieces w va v ps s = .ok ((), s.pokes (piecePokes v ps)) := by
  induction ps generalizing s with
  | nil => rfl
  | cons p ps ih =>
    obtain ⟨off, n, l⟩ := p
    obtain ⟨hp, hps⟩ := List.forall_mem_cons.1 hk
    have hunit : l.unit false n = n := by
      cases l with
      | hbm | cxl | ls => rfl
      | fab | host | reg => cases hp
    have hsplit : piecePokes v ((off, n, l) :: ps) = piecePokes v [(off, n, l)] ++ piecePokes v ps := by
      rw [piecePokes, ← List.singleton_append, List.filter_append, List.map_append]
      rfl
    rw [storePieces, bind_ok (m := getCc) rfl, hs.idle, hunit, bind_ok (storePiece_ok w va v off n hp hs), ih hps (hs.pokes _), hsplit]
    simp only [State.pokes, List.foldl_append]

/-! ### Tile loads -/

theorem Ctx.xlDesc_issue (c : Ctx) (h : Shape) (d : Nat) : (c.issue h).xlDesc d = c.xlDesc d := by
  obtain ⟨_, _, e⟩ := c.issue_eq h
  rw [e]
  rfl

theorem ldxTag_ok (e : Entry) {scaled : Bool} (hv : descValid (s.cx.xlDesc d).2 = true) (hkind : descKind (s.cx.xlDesc d).2 ≤ 5)
    (hs : scaled = true → descKind (s.cx.xlDesc d).2 = 0) : ldxTag e d scaled s = .ok (descTag (s.cx.xlDesc d).2 scaled, s) := by
  have hbad : (!descValid (s.cx.xlDesc d).2 || decide (5 < descKind (s.cx.xlDesc d).2)) = false := by
    rw [hv, decide_eq_false (not_lt.2 hkind)]
    rfl
  have hscaled : (scaled && descKind (s.cx.xlDesc d).2 != 0) = false := by
    cases scaled with
    | false => rfl
    | true => rw [hs rfl]; rfl
  rw [ldxTag, bind_ok (m := getCx) rfl]
  dsimp only
  rw [hbad, hscaled]
  rfl

/-- What the entry of a tile load or store holds for its bytes to move at once (06 R112). -/
structure Entry.TileAt (e : Entry) (s : State) (base : W64) : Prop where
  fresh : e.Fresh s
  idle : s.cc.mbusy = false
  opa : e.opa = base
  aligned : base.toNat % 64 = 0

theorem State.entryOf_tileAt {a : Nat} (hq : s.quiet = true) (hal : (s.reg a).toNat % 64 = 0) (ha : i.shape.opa = some a) (w : Nat) :
    (s.entryOf i w i.shape).TileAt (s.issuedAs i.shape) (s.reg a) := by
  refine ⟨State.entryOf_fresh hq _ _ _ _, (s.mbusy_issuedAs _).trans (s.quiet_mbusy hq), ?_, hal⟩
  rw [State.entryOf, ha]
  rfl

section
variable {base : W64} (h : e.TileAt s base) (hk : ∀ p ∈ ps, p.2.2.key?.isSome = true)
include h hk

theorem tileLoad_ok {n : Nat} {fin : Nat → M Unit} (htaken : e.ext.getD 2 0 = 0)
    (hlocs : locsOf e s.who base n .read s = .ok (ps, s)) (hfin : fin (s.pieceValue ps) s = .ok ((), t)) :
    tileLoad e n fin s = .ok (.done, t) := by
  obtain ⟨he, hm, rfl, -⟩ := h
  rw [tileLoad, bind_ok (State.who_eq he.priv), bind_ok hlocs, bind_ok (m := getCc) rfl, bind_ok (loadPieces_ok s.who he.stores hk),
    hm, htaken, if_pos (by rfl), bind_ok hfin]
  rfl

theorem finLdx_ok (htaken : e.ext.getD 2 0 = 0) (hlocs : locsOf e s.who base 4096 .read s = .ok (ps, s)) {f : Nat}
    (hf : (s.cx.xlDesc d).2 = f) (hv : descValid f = true) (hkind : descKind f ≤ 5) : finLdx d e s = .ok (.done, s.setCx
      (s.cx.writeX d (slice (s.pieceValue ps) 0 4096) (neutral (descTag f false)) (descTag f false))) := by
  subst hf
  have hload := tileLoad_ok (fin := fun v => modCx fun c =>
    c.writeX d (slice v 0 4096) (neutral (descTag (s.cx.xlDesc d).2 false)) (descTag (s.cx.xlDesc d).2 false)) h hk htaken hlocs rfl
  obtain ⟨-, -, rfl, hal⟩ := h
  rw [finLdx, bind_ok (alignTo_ok hal), bind_ok (ldxTag_ok e hv hkind (by simp)), hload]

theorem finLdxSc_ok (htaken : e.ext.getD 2 0 = 0) (hlocs : locsOf e s.who base 4608 .read s = .ok (ps, s)) {f : Nat}
    (hf : (s.cx.xlDesc d).2 = f) (hv : descValid f = true) (hkind : descKind f = 0) : finLdxSc d e s = .ok (.done, s.setCx
      (s.cx.writeX d (slice (s.pieceValue ps) 0 4096) (slice (s.pieceValue ps) 4096 512) (descTag f true))) := by
  subst hf
  have hload := tileLoad_ok (fin := fun v => modCx fun c =>
    c.writeX d (slice v 0 4096) (slice v 4096 512) (descTag (s.cx.xlDesc d).2 true)) h hk htaken hlocs rfl
  obtain ⟨-, -, rfl, hal⟩ := h
  rw [finLdxSc, bind_ok (alignTo_ok hal), bind_ok (ldxTag_ok e hv (by rw [hkind]; decide) fun _ => hkind), hload]

/-! ### Tile stores -/

theorem finStx_ok {side : Nat} (hext : e.ext = [0, 0, x, side]) (hlocs : locsOf e s.who base 4096 .write s = .ok (ps, s)) :
    finStx d e s = .ok (.done, s.pokes (piecePokes x ps)) := by
  obtain ⟨he, hm, rfl, hal⟩ := h
  refine plain_ok ?_
  rw [bind_ok (alignTo_ok hal), bind_ok (State.who_eq he.priv), bind_ok hlocs, bind_ok (m := getCx) rfl, hext]
  exact storePieces_ok _ _ _ hk (he.storesAtOnce hm)

theorem finStxSc_ok {side : Nat} (hext : e.ext = [0, 0, x, side]) (hlocs : locsOf e s.who base 4608 .write s = .ok (ps, s)) :
    finStxSc d e s = .ok (.done, s.pokes (piecePokes (x + 2 ^ 32768 * side) ps)) := by
  obtain ⟨he, hm, rfl, hal⟩ := h
  refine plain_ok ?_
  rw [bind_ok (alignTo_ok hal), bind_ok (State.who_eq he.priv), bind_ok hlocs, bind_ok (m := getCx) rfl, hext]
  exact storePieces_ok _ _ _ hk (he.storesAtOnce hm)

end

theorem mem_piecePokes {w : Poke} (h : w ∈ piecePokes x ps) : ∃ p ∈ ps, w = ⟨p.2.2, p.2.1, x / 2 ^ (8 * p.1)⟩ := by
  obtain ⟨p, hp, rfl⟩ := List.mem_map.1 h
  exact ⟨p, (List.mem_filter.1 hp).1, rfl⟩

/-- The key of a piece. -/
def pieceKey (p : Nat × Nat × Loc) : Nat := p.2.2.key?.getD 0

/-- The bytes of `x` stand in the pieces of a range, and nothing else changes. -/
def TileStored (s : State) (ps : List (Nat × Nat × Loc)) (x : Nat) (t : State) : Prop :=
  (∀ p ∈ ps, ∀ b, b < p.2.1 → Mem.byte t.mem (pieceKey p + b) = BitVec.ofNat 8 (x / 2 ^ (8 * (p.1 + b)))) ∧
  (∀ y, (∀ p ∈ ps, y < pieceKey p ∨ pieceKey p + p.2.1 ≤ y) → Mem.byte t.mem y = Mem.byte s.mem y) ∧
  (∀ r, t.reg r = s.reg r) ∧ SameVecSpec s t ∧ t.fe = s.fe

/-- A word that stores `x` in pieces that do not overlap. -/
theorem Issues.completes_tileStore (h : Issues s i eff) (hk : ∀ p ∈ ps, p.2.2.key?.isSome = true)
    (hm : ∀ p ∈ ps, ∀ ln ∈ linesOf (pieceKey p) p.2.1, Tbl.get 0 s.lineKey ln = s.keyMat p.2.2.mat)
    (hd : ps.Pairwise fun p q => pieceKey p + p.2.1 ≤ pieceKey q ∨ pieceKey q + q.2.1 ≤ pieceKey p)
    (he : Makes s i eff ((s.issuedAs i.shape).pokes (piecePokes x ps))) : Completes i s (TileStored s ps x) := by
  have hkeyed : ∀ w ∈ piecePokes x ps, w.Keyed s := fun w hw => by
    obtain ⟨p, hp, rfl⟩ := mem_piecePokes hw
    exact ⟨hk p hp, hm p hp⟩
  refine (h.completes_pokes hkeyed he).imp fun t ⟨hmem, hsame⟩ => ⟨fun p hp b hb => ?_, fun y hy => ?_, hsame⟩
  · obtain ⟨before, after, rfl⟩ := List.append_of_mem hp
    obtain ⟨-, hafter, -⟩ := List.pairwise_append.1 hd
    have hsplit : piecePokes x (before ++ p :: after) =
        piecePokes x before ++ ⟨p.2.2, p.2.1, x / 2 ^ (8 * p.1)⟩ :: piecePokes x after := by
      rw [piecePokes, List.filter_append, List.map_append, List.filter_cons_of_pos (by simpa using Nat.ne_of_gt (Nat.zero_lt_of_lt hb))]
      rfl
    rw [hmem, hsplit, Nat.mul_add, Nat.pow_add, ← Nat.div_div_eq_div_mul]
    refine Mem.byte_writeAll_last (w := ⟨p.2.2, p.2.1, x / 2 ^ (8 * p.1)⟩) hb fun w hw => ?_
    obtain ⟨q, hq, rfl⟩ := mem_piecePokes hw
    have hpq : pieceKey p + p.2.1 ≤ pieceKey q ∨ pieceKey q + q.2.1 ≤ pieceKey p := (List.pairwise_cons.1 hafter).1 q hq
    show pieceKey p + b < pieceKey q ∨ pieceKey q + q.2.1 ≤ pieceKey p + b
    omega
  · rw [hmem]
    refine Mem.byte_writeAll_out fun w hw => ?_
    obtain ⟨p, hp, rfl⟩ := mem_piecePokes hw
    exact hy p hp

/-! ### The words -/

theorem slice_eq {off n a b : Nat} (v : Nat) (ha : 8 * off = a) (hb : 8 * n = b) : slice v off n = v / 2 ^ a % 2 ^ b := by
  rw [slice, ha, hb]

/-- Settles O15: the pieces of the tile, which lie in memory and local store, are read and written at once. -/
theorem tileTransfers : Obligations.TileTransfers := by
  unfold Obligations.TileTransfers
  intro s d a e ps hq hlevel _ hal hk f v
  have hlocs {e : Entry} {n : Nat} {acc : Acc} (e' : Entry) (h : Shape) (hl : locsOf e s.who (s.reg a) n acc s = .ok (ps, s)) :
      locsOf e' (s.issuedAs h).who (s.reg a) n acc (s.issuedAs h) = .ok (ps, s.issuedAs h) :=
    (s.who_issuedAs h).symm ▸ locsOf_issuedAs e' h hk hl
  have hdesc (h : Shape) : ((s.issuedAs h).cx.xlDesc d).2 = f := by rw [State.cx_issuedAs, Ctx.xlDesc_issue]
  have hbytes : slice v 0 4096 = v % 2 ^ 32768 := by rw [slice_eq v rfl rfl, Nat.pow_zero, Nat.div_one]
  refine ⟨fun hl hv hkind => ?_, fun hl hv hkind => ?_, fun hm hd => ⟨fun hl => ?_, fun hl => ?_⟩⟩
  · have hiss : Issues s (.ldx d a 0) (finLdx d) := ⟨exec_ldx .., hq, rfl, by simp, .inl hlevel, rfl⟩
    refine hiss.after ?_ ⟨rfl, rfl, rfl, rfl, rfl, rfl⟩
    rw [Makes, ← hbytes, ← State.cx_issuedAs]
    exact finLdx_ok (State.entryOf_tileAt hq hal rfl _) hk rfl (hlocs _ _ hl) (hdesc _) hv hkind
  · have hiss : Issues s (.ldxSc d a 0) (finLdxSc d) := ⟨exec_ldxSc .., hq, rfl, by simp, .inl hlevel, rfl⟩
    refine hiss.after ?_ ⟨rfl, rfl, rfl, rfl, rfl, rfl⟩
    rw [Makes, ← hbytes, ← slice_eq v (off := 4096) (n := 512) rfl rfl, ← State.cx_issuedAs]
    exact finLdxSc_ok (State.entryOf_tileAt hq hal rfl _) hk rfl (hlocs _ _ hl) (hdesc _) hv hkind
  · have hiss : Issues s (.stx d a 0) (finStx d) := ⟨exec_stx .., hq, rfl, by simp, .inl hlevel, rfl⟩
    exact hiss.completes_tileStore hk hm hd (finStx_ok (State.entryOf_tileAt hq hal rfl _) hk rfl (hlocs _ _ hl))
  · have hiss : Issues s (.stxSc d a 0) (finStxSc d) := ⟨exec_stxSc .., hq, rfl, by simp, .inl hlevel, rfl⟩
    exact hiss.completes_tileStore hk hm hd (finStxSc_ok (State.entryOf_tileAt hq hal rfl _) hk rfl (hlocs _ _ hl))

end Sys2Proof.Machine
end

/-! # The issue of a word by a context that nothing holds (07 R126 to R132)

`Issuable` says that nothing holds a word of a given shape. What its issue makes of the effect is said once each for a word that completes
(`Issuable.acts`), for one that traps before it has any effect (`Issuable.traps`) and for a transfer (`Issuable.goes`). -/

section
namespace Sys2Proof.Machine

variable {s t : State}

/-! ### A trap leaves no core following another -/

theorem State.alone_congr (h : s.alone) (hc : t.cores = s.cores) : t.alone := by
  unfold State.alone
  rw [hc]
  exact h

theorem State.alone_setCtx (h : s.alone) (core k : Nat) {c : Ctx} (hc : c.follow = none) : (s.setCtx core k c).alone := by
  refine State.alone_setCore h core ?_
  by_cases hk : k = 0
  · rw [hk, Core.ctx_setCtx_same]
    exact hc
  · rw [Core.ctx_setCtx_ne _ _ _ _ (Ne.symm hk)]
    exact State.alone_core h core

/-- A write of a core that keeps its contexts. -/
theorem State.alone_setCore_ctxs (h : s.alone) (core : Nat) {x : Core} (hx : x.ctxs = (s.core core).ctxs) : (s.setCore core x).alone := by
  refine State.alone_setCore h core ?_
  rw [Core.ctx, hx]
  exact State.alone_core h core

/-- A write of a context that keeps whom it follows. -/
theorem State.alone_setCtx_follow (h : s.alone) (core k : Nat) {c : Ctx} (hc : c.follow = (s.ctx core k).follow) :
    (s.setCtx core k c).alone := by
  refine State.alone_setCore h core ?_
  by_cases hk : k = 0
  · subst hk
    rw [Core.ctx_setCtx_same, hc]
    exact State.alone_core h core
  · rw [Core.ctx_setCtx_ne _ _ _ _ (Ne.symm hk)]
    exact State.alone_core h core

/-- The hardware's writes for a core change no core. -/
theorem ExceptOk.cores_vwrite (w : Who) (va n v : Nat) : ExceptOk (fun t => t.cores = s.cores ∧ t.cur = s.cur) (s.vwrite w va n v) := by
  unfold State.vwrite
  refine .foldl (fun _ _ h => ?_) (.ok ⟨rfl, rfl⟩)
  dsimp only
  split
  · exact h
  · split
    · exact .error
    · obtain ⟨hcores, hcur⟩ := ExceptOk.of_ok rfl h
      exact .ite .error (.ok ⟨(State.cores_poke ..).trans hcores, (State.cur_poke ..).trans hcur⟩)

theorem State.alone_vwrite {w : Who} {va n v : Nat} (h : s.alone) (ht : s.vwrite w va n v = .ok t) : t.alone :=
  State.alone_congr h (ExceptOk.of_ok ht (ExceptOk.cores_vwrite w va n v)).1

theorem ExceptOk.alone_vwrite {w : Who} {va n v : Nat} (h : s.alone) : ExceptOk State.alone (s.vwrite w va n v) := by
  cases e : s.vwrite w va n v with
  | error _ => exact .error
  | ok t => exact .ok (State.alone_vwrite h e)

theorem State.alone_land (h : s.alone) (core k : Nat) (x : Store) : (s.land core k x).alone := by
  unfold State.land
  refine State.alone_setCtx_follow ?_ core k rfl
  split
  · exact h
  · exact State.alone_congr h (State.cores_poke ..)

theorem State.alone_landStores (h : s.alone) (core k : Nat) : (s.landStores core k).alone :=
  List.foldlRecOn _ _ h fun _ ht x _ => State.alone_land ht core k x

theorem State.alone_stopTiles (h : s.alone) (core k : Nat) : (s.stopTiles core k).alone := by
  unfold State.stopTiles
  dsimp only
  split
  · refine State.alone_setCtx_follow ?_ core k rfl
    refine State.alone_setCore_ctxs h core ?_
    rfl
  · exact h

theorem State.alone_unpark (h : s.alone) (core k : Nat) : (s.unpark core k).alone := h

theorem State.alone_postFault (h : s.alone) (d : Nat) (r : FaultRec) : (s.postFault d r).alone := h

theorem State.alone_kill (h : s.alone) (core k : Nat) (hd : FrameHdr) (es : List (Entry × Bool)) : (s.kill core k hd es).alone := by
  unfold State.kill
  dsimp only
  refine State.alone_postFault (State.alone_setCore_ctxs (State.alone_setCtx (State.alone_unpark ?_ core k) core k ?_) core ?_) _ _
  rotate_left
  · rfl
  · rfl
  cases e : s.vwrite (s.hwWho core) (s.cimg core k + frameOff 2) 10752 (frameNum hd es) with
  | error _ =>
    dsimp only
    split
    · split
      · next e1 => exact State.alone_vwrite h e1
      · exact h
    · exact h
  | ok s1 =>
    have h1 := State.alone_vwrite h e
    dsimp only
    split
    · split
      · next e1 => exact State.alone_vwrite h1 e1
      · exact h1
    · exact h1

theorem ExceptOk.alone_flushFrames {core k stk : Nat} {c : Ctx} (h : s.alone) (hc : c.follow = none) :
    ExceptOk State.alone (s.flushFrames core k c stk) := by
  unfold State.flushFrames
  refine .foldl (fun _ _ h1 => ?_) (.ok (State.alone_setCtx h core k hc))
  split
  · exact h1
  · have h2 := ExceptOk.of_ok rfl h1
    exact .alone_vwrite h2

theorem ExceptOk.alone_saveLevel {core k : Nat} {hd : FrameHdr} {es : List (Entry × Bool)} (h : s.alone)
    (hc : (s.ctx core k).follow = none) : ExceptOk State.alone (s.saveLevel core k hd es) := by
  unfold State.saveLevel
  extract_lets c img w
  have hregs : ∀ stk, ExceptOk State.alone (if c.level = 0 then
        match s.vwrite w (img + 0x40) 0xB440 c.imageNum with
        | .error e => .error e
        | .ok s => s.flushFrames core k c (stk / 128 * 128)
      else s.vwrite w (img + 0x13600 + 512 * (c.level - 1)) 512 c.handlerNum) := by
    intro stk
    refine .ite ?_ (.alone_vwrite h)
    split
    · exact .error
    · next e => exact .alone_flushFrames (State.alone_vwrite h e) hc
  split
  · exact .error
  · split
    · exact .error
    · next e => exact .alone_vwrite (ExceptOk.of_ok e (hregs _))

/-- A trap ends following of its context and begins none. -/
theorem State.alone_takeTrap (h : s.alone) (core k : Nat) (q : TrapReq) : (s.takeTrap core k q).alone := by
  have h0 : ((s.landStores core k).stopTiles core k).alone := State.alone_stopTiles (State.alone_landStores h core k) core k
  unfold State.takeTrap
  generalize (s.landStores core k).stopTiles core k = s1 at h0
  extract_lets z c0 f c s2 es hd fatal
  have hc : c.follow = none := rfl
  have h2 : s2.alone := State.alone_unpark (State.alone_setCtx h0 core k hc) core k
  have hf2 : (s2.ctx core k).follow = none := (congrArg Ctx.follow (State.ctx_setCtx_same s1 core k c)).trans hc
  have hfatal {z : State} (hz : z.alone) (h' : FrameHdr) : (fatal z h').alone := State.alone_kill hz core k h' es
  clear_value c s2
  split
  · exact hfatal h2 _
  · split
    · exact hfatal h2 _
    · next e =>
      have h3 := ExceptOk.of_ok e (ExceptOk.alone_saveLevel h2 hf2)
      split
      · exact hfatal h3 _
      · exact hfatal h3 _
      · exact hfatal h3 _
      · extract_lets entry
        split
        · exact hfatal h3 _
        · split
          · exact hfatal h3 _
          · next e4 => exact State.alone_setCtx (State.alone_vwrite h3 e4) core k hc

end Sys2Proof.Machine
end

section
namespace Sys2Proof.Machine

variable {s t : State} {h : Shape} {word : Nat} {run : State → Issued} {i : Instr} {eff : Eff}

/-! ### Issue: the gate and what stands behind it -/

/-- A word that passes the gate. -/
theorem issueWord_runs (hl : s.Lone) (hg : gate word h s = .ok (true, s)) (hr : run s = .next t) (ht : t.alone) :
    (issueWord s h word run).outcome s = .next t.stamp := by
  unfold issueWord
  simp only [State.following_none _ hl.follow, State.heldByFollower_none _ hl.alone, hg, hr]
  simp [Issued.outcome, State.stream_none _ _ _ _ ht]

/-- A word whose guard is false consumes its place (02 R26). -/
theorem issueWord_passes (hl : s.Lone) (hgone : s.cx.flow.gone = []) (hg : gate word h s = .ok (false, s)) :
    (issueWord s h word run).outcome s = .next (s.after s.cx.stepped) := by
  have hstepped : { s.cx with flow := { (s.cx.flow.drained h).issued with seq := s.cx.flow.seq + 1 } } = s.cx.stepped := by
    rw [Flow.drained_none _ _ hgone]
    rfl
  have halone : (s.setCx s.cx.stepped).alone := State.alone_setCx s _ hl.alone hl.follow
  unfold issueWord
  simp only [State.following_none _ hl.follow, State.heldByFollower_none _ hl.alone, hg, hstepped,
    Ctx.evalEnd_none s.cx.stepped _ hl.loops]
  simp [Issued.outcome, State.stream_none _ _ _ _ halone, State.stamp_setCx]

theorem State.stamp_stamp (s : State) : s.stamp.stamp = s.stamp := by
  show (s.setCx _).stamp = _
  rw [State.stamp_setCx]
  rfl

theorem State.trapHere_stamp (s : State) (c : Cause) (code : Nat) (aux : W64) : (s.trapHere c code aux).stamp = s.trapHere c code aux :=
  State.stamp_stamp _

/-- A word that traps at the gate. -/
theorem issueWord_stops {c : Cause} {code : Nat} {aux : W64} {p : Bool} (hl : s.Lone)
    (hg : gate word h s = .error (.trap c code aux p)) :
    (issueWord s h word run).outcome s = .next (s.trapHere c code aux).stamp := by
  unfold issueWord
  simp only [State.following_none _ hl.follow, State.heldByFollower_none _ hl.alone, hg, State.trapHere_stamp]
  simp [Issued.outcome]

/-- Nothing of the running context is under way but a HINT chain. -/
structure State.Idle (s : State) : Prop where
  inflight : s.cx.flow.inflight = []
  gone : s.cx.flow.gone = []
  stale : s.cx.flow.stale = []
  stream : s.cx.stream = none
  stores : s.cx.stores = []
  mbusy : s.cc.mbusy = false
  lone : s.Lone

theorem State.idle_of_quiet (hq : s.quiet = true) : s.Idle := by
  obtain ⟨-, hin, -, hstale, -, hstream, -, hgone, hst, -, hmb, -⟩ := s.quiet_iff.1 hq
  exact ⟨hin, hgone, hstale, hstream, hst, hmb, State.lone_of_quiet hq⟩

/-- What the gate asks of a context with no unfinished instruction and no window: the guard, and then whether a handler may run the word. -/
theorem gate_unwindowed (hl : s.Lone) (hin : s.cx.flow.inflight = []) (hgone : s.cx.flow.gone = []) (word : Nat)
    (hacc : h.accepts s.cx.flow.chain = true) (hfit : h.unfit s.cx.flow.chain = false) :
    gate word h s = (guard h.g >>= fun g =>
      if !g then pure false else if s.cx.level ≠ 0 && h.barred then trapPre .prot 0x3E 0 else pure true) s := by
  have hclosed : s.cx.flow.closed = false := by rw [Flow.closed, hin]; rfl
  have hdrains : s.cx.flow.drains h = false := by rw [Flow.drains, hin]; exact Bool.and_false _
  have hend : s.cx.atEnd s.cx.flow.pc = false := by rw [Ctx.atEnd, hl.loops]; rfl
  have hwindow (p : Entry → Bool) : s.cx.flow.inWindow p = none := by rw [Flow.inWindow, hin, hgone]; rfl
  have hprod : s.cx.notProduced h = false := by rw [Ctx.notProduced, hin]; rfl
  rw [gate, bind_ok (m := getCx) rfl]
  simp only [hclosed, hacc, hfit, hdrains, hend, hwindow, hprod, hin]
  simp

theorem gate_idle (hs : s.Idle) (word : Nat) (hacc : h.accepts s.cx.flow.chain = true) (hfit : h.unfit s.cx.flow.chain = false) :
    gate word h s = (guard h.g >>= fun g =>
      if !g then pure false else if s.cx.level ≠ 0 && h.barred then trapPre .prot 0x3E 0 else pure true) s :=
  gate_unwindowed hs.lone hs.inflight hs.gone word hacc hfit

/-- Nothing holds the issue of a word of this shape, behind the HINTs that stand before it. -/
structure Issuable (s : State) (h : Shape) : Prop where
  idle : s.Idle
  accepts : h.accepts s.cx.flow.chain = true
  fits : h.unfit s.cx.flow.chain = false
  guard : s.guardOk h.g = true
  level : s.cx.level = 0 ∨ h.barred = false
  unit : h.vword = false ∨ s.cc.vbusy = false ∧ s.cc.vqueue = 0

theorem Shape.accepts_nil (hh : h.home ≠ some 3) : h.accepts [] = true := by simp [Shape.accepts, hh, b2n]

theorem Shape.unfit_nil (h : Shape) : h.unfit [] = false := by
  unfold Shape.unfit Shape.gathered
  cases h.imm <;> rfl

theorem issuable_of_quiet (hq : s.quiet = true) (hg : s.guardOk h.g = true) (hh : h.home ≠ some 3)
    (hl : s.cx.level = 0 ∨ h.barred = false) : Issuable s h := by
  obtain ⟨hchain, -, -, -, -, -, -, -, -, hvb, -, hvq⟩ := s.quiet_iff.1 hq
  exact ⟨State.idle_of_quiet hq, by rw [hchain]; exact Shape.accepts_nil hh, by rw [hchain]; exact h.unfit_nil, hg, hl, .inr ⟨hvb, hvq⟩⟩

theorem Issuable.gate (hi : Issuable s h) (word : Nat) : gate word h s = .ok (true, s) := by
  rw [gate_idle hi.idle word hi.accepts hi.fits, bind_ok (guard_ok hi.guard)]
  obtain hl | hb := hi.level
  · simp [hl]
    rfl
  · simp [hb]
    rfl

/-- The entry that a word captures behind its HINTs (02 R24, R25). -/
def State.entryAt (s : State) (i : Instr) (word : Nat) (h : Shape) : Entry :=
  { s.entryOf i word h with
    pc := s.cx.flow.start, imm := (h.gathered s.cx.flow.chain).map w64OfInt, hints := hintsNum s.cx.flow.chain, left := 0 }

theorem State.entryAt_fresh (hs : s.Idle) (i : Instr) (word : Nat) (h h' : Shape) : (s.entryAt i word h).Fresh (s.issuedAs h') :=
  ⟨(congrArg Who.priv (s.who_issuedAs h')).symm, by rw [State.cx_issuedAs, Ctx.issue_inflight _ _ hs.inflight],
    by rw [State.cx_issuedAs, Ctx.issue_stores, hs.stores]⟩

theorem capture_idle (hs : s.Idle) (i : Instr) (word : Nat) (h : Shape) (dry : Bool) :
    capture i word h dry s = .ok (s.entryAt i word h, s) := by
  have hm : rMo h.mask s = .ok ((h.mask.map s.mreg).getD 0, s) := by
    cases h.mask with
    | none => rfl
    | some n => exact rM_quiet s n hs.stale
  have hva := rVec_quiet s dry h.va hs.stale hs.stream
  have hvb := rVec_quiet s dry h.vb hs.stale hs.stream
  unfold capture
  rw [bind_ok (rWo_quiet s _ hs.stale), bind_ok (rWo_quiet s _ hs.stale), bind_ok (rWo_quiet s _ hs.stale), bind_ok hm,
    bind_ok (touches_quiet s _ hs.stale), State.entryAt, State.entryOf]
  rw [bind_ok hva]
  dsimp only
  rw [bind_ok hvb, bind_ok (m := getCx) rfl, bind_ok (m := getCur) rfl, bind_ok (m := get) rfl, State.captured_cx, Ctx.atEnd,
    hs.lone.loops]
  rfl

/-- A word that does not go through the vector unit, or finds it idle. -/
theorem Issuable.unqueued (hi : Issuable s h) : (h.vword && (s.cc.vbusy || s.cc.vqueue != 0)) = false := by
  obtain hv | ⟨hvb, hvq⟩ := hi.unit
  · simp [hv]
  · simp [hvb, hvq]

/-- A word whose effect at its issue completes: the next state is that of the effect (07 R129). -/
theorem Issuable.acts (hi : Issuable s h) (hla : h.la = 0) (he : eff (s.entryAt i word h) (s.issuedAs h) = .ok (.done, t))
    (ht : t.Lone) : (issueWord s h word fun s => runEff s h i word eff).outcome s = .next t.stamp := by
  have hrun : runEff s h i word eff = .next (t.setCx t.cx) := by
    have hend : (s.entryAt i word h).atEnd = false := rfl
    have hleft : (s.entryAt i word h).withLeft 0 = s.entryAt i word h := rfl
    rw [State.issuedAs] at he
    unfold runEff
    simp only [vqTrap_none s _ _ _ _ hi.idle.stream, capture_idle hi.idle, hend, hla, hi.unqueued]
    simp [hleft, he, Ctx.evalEnd_none _ _ ht.loops]
  rw [issueWord_runs hi.idle.lone (hi.gate word) hrun (State.alone_setCx _ _ ht.alone ht.follow), State.stamp_setCx_self]

theorem State.alone_stamp (h : t.alone) : t.stamp.alone := State.alone_setCtx_follow h _ _ rfl

theorem State.alone_trapHere (h : s.alone) (c : Cause) (code : Nat) (aux : W64) : (s.trapHere c code aux).alone :=
  State.alone_stamp (State.alone_takeTrap h _ _ _)

/-- A word whose effect at its issue traps before the issue (18 R341). -/
theorem Issuable.traps {c : Cause} {code : Nat} {aux : W64} (hi : Issuable s h) (hla : h.la = 0)
    (he : eff (s.entryAt i word h) (s.issuedAs h) = .error (.trap c code aux true)) :
    (issueWord s h word fun s => runEff s h i word eff).outcome s = .next (s.trapHere c code aux).stamp := by
  have hrun : runEff s h i word eff = .next (s.trapHere c code aux) := by
    have hend : (s.entryAt i word h).atEnd = false := rfl
    have hleft : (s.entryAt i word h).withLeft 0 = s.entryAt i word h := rfl
    rw [State.issuedAs] at he
    unfold runEff
    simp only [vqTrap_none s _ _ _ _ hi.idle.stream, capture_idle hi.idle, hend, hla, hi.unqueued]
    simp [hleft, he]
  exact issueWord_runs hi.idle.lone (hi.gate word) hrun (State.alone_trapHere hi.idle.lone.alone _ _ _)

/-- A transfer whose check lets it pass and whose effect completes (07 R141 to R143). -/
theorem Issuable.goes {pre : M Unit} {jump : Entry → M W64} {n : W64} (hi : Issuable s h) (hpre : pre s = .ok ((), s))
    (he : jump (s.entryAt .nop 0 h) (s.issuedAs h) = .ok (n, t)) (ht : t.alone) (hf : t.cx.follow = none) :
    (issueWord s h word fun s => runJump s h pre jump).outcome s =
      .next (t.setCx { t.cx with flow := { t.cx.flow with pc := n } }).stamp := by
  have hrun : runJump s h pre jump = .next (t.setCx { t.cx with flow := { t.cx.flow with pc := n } }) := by
    rw [State.issuedAs] at he
    unfold runJump
    simp only [hpre, capture_idle hi.idle, he]
  exact issueWord_runs hi.idle.lone (hi.gate word) hrun (State.alone_setCx _ _ ht hf)

/-- A transfer that traps, before its operands are read or at its effect. -/
theorem Issuable.balks {pre : M Unit} {jump : Entry → M W64} {c : Cause} {code : Nat} {aux : W64} {p : Bool} (hi : Issuable s h)
    (he : pre s = .error (.trap c code aux p) ∨
      pre s = .ok ((), s) ∧ jump (s.entryAt .nop 0 h) (s.issuedAs h) = .error (.trap c code aux p)) :
    (issueWord s h word fun s => runJump s h pre jump).outcome s = .next (s.trapHere c code aux).stamp := by
  have hrun : runJump s h pre jump = .next (s.trapHere c code aux) := by
    rw [State.issuedAs] at he
    unfold runJump
    obtain hpre | ⟨hpre, he⟩ := he
    · simp only [hpre]
    · simp only [hpre, capture_idle hi.idle, he]
  exact issueWord_runs hi.idle.lone (hi.gate word) hrun (State.alone_trapHere hi.idle.lone.alone _ _ _)

end Sys2Proof.Machine
end

section
namespace Sys2Proof.Machine

variable {s : State} {h : Shape} {word : Nat} {i : Instr} {eff : Eff}

theorem State.issuedAs_short (hs : s.Idle) (hshort : h.long = false) : s.issuedAs h = s.setCx s.cx.stepped := by
  simp [State.issuedAs, Ctx.issue, Ctx.stepped, hshort, Flow.drained_none _ _ hs.gone]

/-- A word that leaves its context as `c` and changes nothing else. -/
theorem Issuable.after {c : Ctx} (hi : Issuable s h) (hla : h.la = 0)
    (he : eff (s.entryAt i word h) (s.issuedAs h) = .ok (.done, (s.issuedAs h).setCx c)) (hl : c.flow.loops = []) (hf : c.follow = none) :
    (issueWord s h word fun s => runEff s h i word eff).outcome s = .next (s.after c) := by
  rw [State.issuedAs, State.setCx_setCx] at he
  rw [hi.acts hla he (hi.idle.lone.setCx hl hf), State.stamp_setCx]

/-- A word that writes a w register, transient or not. -/
theorem Issuable.wrote {d : Nat} {t : Bool} (v : Entry → W64) (hi : Issuable s h) (hshort : h.long = false) (hla : h.la = 0) :
    (issueWord s h word fun s => runEff s h i word (plain fun e => wW d (v e) t)).outcome s =
      .next (s.wrote d (v (s.entryAt i word h)) t) := by
  refine hi.after hla ?_ ((writeW_loops ..).trans hi.idle.lone.loops) ((writeW_follow ..).trans hi.idle.lone.follow)
  rw [State.issuedAs_short hi.idle hshort, plain_ok (f := fun e => wW d (v e) t) (t := _) rfl, State.cx_setCx]

/-- An instruction that is not long-latency and writes a w register. -/
theorem exec_wrote {d : Nat} {t : Bool} {v : Entry → W64} {x : W64} (hx : exec i s = issue i (plain fun e => wW d (v e) t) s)
    (hi : Issuable s i.shape) (hshort : i.shape.long = false) (hla : i.shape.la = 0)
    (hv : v (s.entryAt i ((encodeNat i).getD 0) i.shape) = x) : exec i s = .next (s.wrote d x t) :=
  hv ▸ hx.trans (hi.wrote v hshort hla)

end Sys2Proof.Machine
end

/-! # Integer operations of one and two operands (O1, O2) -/

section
namespace Sys2Proof.Machine

variable {s : State} {i : Instr} {d a b g n : Nat} {t : Bool} {x y : W64}

theorem boolW_eq (p : Prop) [Decidable p] : boolW (decide p) = if p then 1 else 0 := by
  by_cases hp : p <;> simp [boolW, hp]

/-- The result `f` of two operands. -/
theorem exec_twoOperands (f : W64 → W64 → W64) (hq : s.quiet = true) (hg : s.guardOk g = true)
    (hsh : i.shape = { g := g, opa := some a, opb := some b, wr := [.w d] })
    (hx : exec i s = issue i (plain fun e => wW d (f e.opa e.opb) t) s) (hv : f (s.reg a) (s.reg b) = x) :
    exec i s = .next (s.wrote d x t) := by
  have hi : Issuable s i.shape := issuable_of_quiet hq (by rwa [hsh]) (by simp [hsh]) (.inr (by rw [hsh]; rfl))
  exact exec_wrote hx hi (by rw [hsh]) (by rw [hsh]) (by rw [hsh]; exact hv)

/-- Settles O1: each operation is a function of its operands, which is that of the table. -/
theorem aluTwoOperands : Obligations.AluTwoOperands := by
  unfold Obligations.AluTwoOperands
  intro s d a b t g hq hg
  have two {i : Instr} {x : W64} (f : W64 → W64 → W64) := exec_twoOperands (i := i) (d := d) (a := a) (b := b) (t := t) (x := x) f hq hg
  refine ⟨two (· + ·) rfl rfl rfl, two (· - ·) rfl rfl rfl, two (· &&& ·) rfl rfl rfl, two (· ||| ·) rfl rfl rfl,
    two (· ^^^ ·) rfl rfl rfl, two (fun x y => x &&& ~~~y) rfl rfl rfl, two (fun x y => x <<< (y.toNat % 64)) rfl rfl rfl,
    two (fun x y => x >>> (y.toNat % 64)) rfl rfl rfl, two sraW rfl rfl rfl, two rorW rfl rfl rfl,
    two (fun x y => boolW (x.slt y)) rfl rfl (boolW_eq _), two (fun x y => boolW (x.ult y)) rfl rfl (boolW_eq _),
    two (fun x y => if y.slt x then y else x) rfl rfl ?_, two (fun x y => if x.slt y then y else x) rfl rfl ?_,
    two (fun x y => if y.ult x then y else x) rfl rfl ?_, two (fun x y => if x.ult y then y else x) rfl rfl ?_,
    two (· * ·) rfl rfl rfl, two (fun x y => w64OfInt (x.toInt * y.toInt / 2 ^ 64)) rfl rfl rfl,
    two (fun x y => BitVec.ofNat 64 (x.toNat * y.toNat / 2 ^ 64)) rfl rfl rfl, two (fun x y => x * 2 + y) rfl rfl rfl,
    two (fun x y => x * 4 + y) rfl rfl rfl, two (fun x y => x * 8 + y) rfl rfl rfl⟩
  · simp only [BitVec.slt, decide_eq_true_eq, ← not_le, ite_not]
  · simp only [BitVec.slt, decide_eq_true_eq]
  · simp only [BitVec.ult, decide_eq_true_eq, ← not_le, ite_not]
  · simp only [BitVec.ult, decide_eq_true_eq]

/-- The result `f` of one operand. -/
theorem exec_oneOperand (f : W64 → W64) (hq : s.quiet = true) (hg : s.guardOk g = true)
    (hsh : i.shape = { g := g, opa := some a, wr := [.w d] }) (hx : exec i s = issue i (plain fun e => wW d (f e.opa) t) s)
    (hv : f (s.reg a) = x) : exec i s = .next (s.wrote d x t) := by
  have hi : Issuable s i.shape := issuable_of_quiet hq (by rwa [hsh]) (by simp [hsh]) (.inr (by rw [hsh]; rfl))
  exact exec_wrote hx hi (by rw [hsh]) (by rw [hsh]) (by rw [hsh]; exact hv)

theorem clzW_eq (h : (x = 0 ∧ n = 64) ∨ (n < 64 ∧ 2 ^ (63 - n) ≤ x.toNat ∧ x.toNat < 2 ^ (64 - n))) : clzW x = n := by
  obtain ⟨rfl, rfl⟩ | ⟨hn, hlo, hhi⟩ := h
  · rfl
  · have hpos : 0 < x.toNat := lt_of_lt_of_le (Nat.two_pow_pos _) hlo
    have hne : x ≠ 0 := by rintro rfl; exact absurd hpos (by decide)
    have hlog : x.toNat.log2 = 63 - n :=
      (Nat.log2_eq_iff hpos.ne').2 ⟨hlo, by rwa [show 63 - n + 1 = 64 - n by omega]⟩
    rw [clzW, if_neg hne, hlog]
    omega

/-- The first one bit from bit `j` on stands `k` bits further. -/
theorem ctzFrom_eq {m k : Nat} (hk : k < m) : ∀ {j : Nat}, (∀ l, l < k → x.getLsbD (j + l) = false) → x.getLsbD (j + k) = true →
    ctzFrom x j m = k := by
  induction k generalizing m with
  | zero =>
    intro j _ hone
    obtain ⟨m, rfl⟩ := Nat.exists_eq_add_of_lt hk
    rw [Nat.zero_add, ctzFrom, if_pos (by simpa using hone)]
  | succ k ih =>
    intro j hzero hone
    obtain ⟨m, rfl⟩ : ∃ m', m = m' + 1 := ⟨m - 1, by omega⟩
    have hj : x.getLsbD j = false := hzero 0 (Nat.succ_pos _)
    have hrest : ctzFrom x (j + 1) m = k := by
      refine ih (by omega) (fun l hl => ?_) ?_
      · rw [Nat.add_right_comm]
        exact hzero (l + 1) (by omega)
      · rwa [Nat.add_right_comm]
    rw [ctzFrom, hj, if_neg (by decide), hrest, Nat.add_comm]

theorem ctzFrom_zero (j m : Nat) : ctzFrom 0 j m = m := by
  induction m generalizing j with
  | zero => rfl
  | succ m ih =>
    have hbit : (0 : W64).getLsbD j = false := BitVec.getLsbD_zero
    rw [ctzFrom, hbit, if_neg (by decide), ih, Nat.add_comm]

theorem ctzW_eq (h : (x = 0 ∧ n = 64) ∨ (n < 64 ∧ x.getLsbD n = true ∧ x.toNat % 2 ^ n = 0)) : ctzW x = n := by
  obtain ⟨rfl, rfl⟩ | ⟨hn, hone, hzero⟩ := h
  · exact ctzFrom_zero 0 64
  · refine ctzFrom_eq hn (fun l hl => ?_) (by rwa [Nat.zero_add])
    have hbit := Nat.testBit_mod_two_pow x.toNat n l
    rw [hzero, Nat.zero_testBit, decide_eq_true hl, Bool.true_and] at hbit
    rw [Nat.zero_add]
    exact hbit.symm

theorem sextW_eq (hn : 0 < n) (x : W64) : sextW n x = (x.setWidth n).signExtend 64 := by
  rw [sextW, w64OfInt_signed n x.toNat hn, BitVec.ofNat_toNat]

/-- Settles O2: each operation is a function of its operand, which is that of the table. -/
theorem aluOneOperand : Obligations.AluOneOperand := by
  unfold Obligations.AluOneOperand
  intro s d a t g hq hg
  have one {i : Instr} {x : W64} (f : W64 → W64) := exec_oneOperand (i := i) (d := d) (a := a) (t := t) (x := x) f hq hg
  refine ⟨fun n hn => one (fun x => BitVec.ofNat 64 (clzW x)) rfl rfl (congrArg _ (clzW_eq hn)),
    fun n hn => one (fun x => BitVec.ofNat 64 (ctzW x)) rfl rfl (congrArg _ (ctzW_eq hn)),
    one (fun x => BitVec.ofNat 64 (popcW x)) rfl rfl rfl, one (sextW 8) rfl rfl (sextW_eq (by decide) _),
    one (sextW 16) rfl rfl (sextW_eq (by decide) _), one (sextW 32) rfl rfl (sextW_eq (by decide) _),
    one (fun x => BitVec.ofNat 64 (x.toNat % 2 ^ 32)) rfl rfl ?_⟩
  exact BitVec.eq_of_toNat_eq (by simp)

end Sys2Proof.Machine
end

/-! # Frame of the scalar results (O5) -/

section
namespace Sys2Proof.Machine

variable {s u : State} {c : Ctx} {n m d : Nat} {v : W64} {t : Bool} {r : RegId}

/-! ### What a write of a w register leaves to be read (07 R128) -/

theorem Ctx.writeW_writes (c : Ctx) (n : Nat) (v : W64) (t : Bool) : c.Writes (c.writeW n v t) := by
  unfold Ctx.writeW
  cases c.wloc n with
  | none => exact .refl
  | some r =>
    cases t with
    | true => exact ⟨_, _, _, _, _, _, rfl⟩
    | false => cases r <;> exact ⟨_, _, _, _, _, _, rfl⟩

theorem Ctx.writeW_transient (hr : c.wloc n = some r) :
    c.writeW n v true = { c with flow := (c.flow.push ⟨r, none, v.toNat, 0⟩).markStale r 0 } := by
  rw [Ctx.writeW, hr]
  rfl

theorem Ctx.writeW_filed (hr : c.wloc n = some r) :
    c.writeW n v false = { c.setWraw r v with flow := (c.flow.push ⟨r, none, v.toNat, 0⟩).freshen r } := by
  rw [Ctx.writeW, hr]
  cases r <;> rfl

/-- The number of the w register that a place holds. -/
def Ctx.regAt (c : Ctx) : RegId → Nat
  | .common n | .base n | .hand n => n
  | .frame d j => if d = c.rf.cwp then j + 16 else j
  | .v _ | .vq | .m _ | .x _ | .s _ | .f _ => 0

theorem Ctx.regAt_wloc (hr : c.wloc n = some r) : c.regAt r = n := by
  unfold Ctx.wloc at hr
  split_ifs at hr with h0 hlevel h8 h16 hcwp
  case neg =>
    cases hr
    exact if_neg (by omega : ¬ c.rf.cwp - 1 = c.rf.cwp)
  case neg =>
    cases hr
    rw [Ctx.regAt, if_pos rfl]
    omega
  all_goals
    cases hr
    rfl

/-- The places of two w registers are two. -/
theorem Ctx.wloc_ne {r' : RegId} (hr : c.wloc n = some r) (hr' : c.wloc m = some r') (h : m ≠ n) : r' ≠ r := by
  rintro rfl
  exact h ((Ctx.regAt_wloc hr').symm.trans (Ctx.regAt_wloc hr))

theorem Ctx.wreg_writeW_ne (c : Ctx) (v : W64) (t : Bool) (h : m ≠ n) : (c.writeW n v t).wreg m = c.wreg m := by
  rw [Ctx.wreg, Ctx.wreg, (c.writeW_writes n v t).wloc m]
  cases hm : c.wloc m with
  | none => rfl
  | some r' =>
    cases hr : c.wloc n with
    | none => rw [Ctx.writeW, hr]
    | some r =>
      cases t with
      | true => rw [Ctx.writeW_transient hr]; rfl
      | false => rw [Ctx.writeW_filed hr]; exact c.wraw_setWraw_wloc_ne n m v hr hm h

/-- A register of which no write was transient is read from its place. -/
theorem rW_of_fresh (h : ∀ r, u.cx.wloc n = some r → u.cx.flow.staleTag r = none) : rW n u = .ok (u.reg n, u) := by
  unfold rW State.reg
  cases hw : u.cx.wloc n with
  | none => rfl
  | some r => simp [h r hw]

/-- A register of which the latest write was transient is read from the bypass. -/
theorem rW_of_bypassed {k : Nat} (hr : u.cx.wloc n = some r) (hk : u.cx.flow.staleTag r = some k)
    (hv : u.cx.flow.bypassed r = some v.toNat) : rW n u = .ok (v, u) := by
  simp [rW, hr, hk, hv]

/-- The register that a write leaves stale, if any. -/
theorem Ctx.staleTag_writeW (hc : c.flow.stale = []) (n : Nat) (v : W64) (t : Bool) (r : RegId) :
    (c.writeW n v t).flow.staleTag r = if t = true ∧ c.wloc n = some r then some 0 else none := by
  cases hr : c.wloc n with
  | none => simp [Ctx.writeW, hr, Flow.staleTag, hc]
  | some r' =>
    cases t with
    | true =>
      rw [Ctx.writeW_transient hr]
      by_cases h : r' = r
      · simp [Flow.staleTag, Flow.markStale, h]
      · simp [Flow.staleTag, Flow.markStale, Flow.freshen, Flow.push, hc, h]
    | false => simp [Ctx.writeW_filed hr, Flow.staleTag, Flow.freshen, Flow.push, hc]

section
variable (hc : c.flow.stale = []) (hu : u.cx = { c.writeW n v t with last := u.cx.last, passed := u.cx.passed })
include hc hu

theorem staleTag_of_writeW (r : RegId) : u.cx.flow.staleTag r = if t = true ∧ c.wloc n = some r then some 0 else none := by
  rw [hu]
  exact Ctx.staleTag_writeW hc n v t r

omit hc in
theorem wloc_of_writeW (m : Nat) : u.cx.wloc m = c.wloc m := by
  rw [hu]
  exact (c.writeW_writes n v t).wloc m

omit hc in
theorem reg_of_writeW (m : Nat) : u.reg m = (c.writeW n v t).wreg m := by
  rw [State.reg_eq_wreg, hu]
  rfl

/-- After its write by a context without stale registers, wD reads as what was written. -/
theorem rW_writeW_same (hn : n ≠ 0) : rW n u = .ok (v, u) := by
  obtain ⟨r, hr⟩ : ∃ r, c.wloc n = some r := by
    rw [Ctx.wloc, if_neg hn]
    split_ifs <;> exact ⟨_, rfl⟩
  cases t with
  | true =>
    refine rW_of_bypassed ((wloc_of_writeW hu n).trans hr) (by rw [staleTag_of_writeW hc hu, if_pos ⟨rfl, hr⟩]) ?_
    rw [hu, Ctx.writeW_transient hr]
    exact Flow.bypassed_push c.flow ⟨r, none, v.toNat, 0⟩
  | false =>
    have hv : (c.writeW n v false).wreg n = v := by
      rw [Ctx.wreg, (c.writeW_writes n v false).wloc n, hr, Ctx.writeW_filed hr]
      exact c.wraw_setWraw_wloc n v hr
    rw [rW_of_fresh fun r' _ => by rw [staleTag_of_writeW hc hu, if_neg fun h => Bool.noConfusion h.1], reg_of_writeW hu, hv]

/-- Every other w register reads as before. -/
theorem rW_writeW_ne (hm : m ≠ n) : rW m u = .ok (c.wreg m, u) := by
  have hfresh (r : RegId) (hr : u.cx.wloc m = some r) : u.cx.flow.staleTag r = none := by
    rw [wloc_of_writeW hu] at hr
    rw [staleTag_of_writeW hc hu, if_neg fun h => Ctx.wloc_ne h.2 hr hm rfl]
  rw [rW_of_fresh hfresh, reg_of_writeW hu, Ctx.wreg_writeW_ne _ _ _ hm]

end

/-! ### What a word that writes w registers alone leaves -/

/-- The vector and special registers, the guard slots and memory are as before, and the context goes on at the next address. -/
theorem after_of_writes {h : Shape} (hin : s.cx.flow.inflight = []) (hw : (s.cx.issue h).Writes c) :
    SameElse s (s.after c) ∧ SameVecSpec s (s.after c) ∧ (s.after c).cx.flow.q = s.cx.flow.q ∧ SameMem s (s.after c) ∧ Ran s (s.after c) := by
  have hcx : (s.after c).cx = { c with last := s.cc.cycle, passed := 0 } := State.cx_setCx ..
  obtain ⟨_, _, hissue⟩ := s.cx.issue_eq h
  rw [hissue] at hw
  obtain ⟨_, _, _, _, _, _, rfl⟩ := hw
  rw [SameVecSpec, Ran, hcx]
  exact ⟨⟨_, rfl⟩, ⟨rfl, rfl⟩, rfl, fun _ => rfl, rfl, rfl, rfl, rfl, List.map_eq_nil_iff.2 hin⟩

/-- Settles O5: both results write w registers alone, and the bypass serves a transient one. -/
theorem scalarFrame : Obligations.ScalarFrame := by
  unfold Obligations.ScalarFrame
  intro s d v t i hq _ _
  obtain ⟨-, hin, -, hstale, -, -, -, hgone, -⟩ := s.quiet_iff.1 hq
  have hstepped : s.cx.issue {} = s.cx.stepped := s.cx.issue_of_no_result {} rfl hgone
  obtain ⟨helse, hvec, hslots, hmem, hran⟩ := after_of_writes (h := {}) (c := s.cx.stepped.writeW d v t) hin
    (by rw [hstepped]; exact s.cx.stepped.writeW_writes d v t)
  obtain ⟨helse', hvec', hslots', hmem', hran'⟩ := after_of_writes (c := s.resultCx i.shape d v) hin
    ((Ctx.fileW_writes ..).trans ⟨_, _, _, _, _, _, rfl⟩)
  have hfresh : s.cx.stepped.flow.stale = [] := hstale
  have hcx : (s.wrote d v t).cx = { s.cx.stepped.writeW d v t with last := (s.wrote d v t).cx.last, passed := (s.wrote d v t).cx.passed } := by
    rw [State.wrote, State.after, State.cx_setCx]
  have hfiled (n : Nat) : (s.result i d v).reg n = ((s.cx.issue i.shape).fileW d v).wreg n := State.reg_setCx_stamped ..
  refine ⟨rfl, rfl, fun hd _ => ⟨rW_writeW_same hfresh hcx hd, ?_⟩, fun n _ hn => ⟨rW_writeW_ne (c := s.cx.stepped) hfresh hcx hn, ?_⟩,
    helse, helse', hvec, hvec', hslots, hslots', hmem, hmem', hran, hran'⟩
  · rw [hfiled, Ctx.wreg_fileW_same _ _ _ hd]
  · rw [hfiled, Ctx.wreg_fileW_ne _ _ _ _ hn, Ctx.wreg_issue]
    rfl

end Sys2Proof.Machine
end

/-! # Division (O4) -/

section
namespace Sys2Proof.Machine

variable {s : State} {i : Instr} {d a b : Nat} {x : W64}

/-- A long-latency word with the result `f` of two operands. -/
theorem exec_quotient (f : W64 → W64 → W64) (hq : s.quiet = true)
    (hsh : i.shape = { la := 0, opa := some a, opb := some b, wr := [.w d], long := true })
    (hx : exec i s = issue i (plain fun e => wFin e d (f e.opa e.opb)) s) (hv : f (s.reg a) (s.reg b) = x) :
    exec i s = .next (s.result i d x) := by
  refine Issues.result (eff := plain fun e => wFin e d (f e.opa e.opb)) ⟨hx, hq, by rw [hsh]; rfl, by simp [hsh], .inr (by rw [hsh]; rfl),
    by rw [hsh]⟩ ?_
  rw [Makes, plain_ok (f := fun e => wFin e d (f e.opa e.opb)) (t := _) rfl, State.cx_issuedAs, ← hv, hsh]
  rfl

/-- Settles O4: each operation is a function of its operands, which is that of the table. -/
theorem divisionResults : Obligations.DivisionResults := by
  unfold Obligations.DivisionResults
  intro s d a b hq
  refine ⟨exec_quotient divW hq rfl rfl rfl, exec_quotient divuW hq rfl rfl ?_, exec_quotient remW hq rfl rfl rfl,
    exec_quotient remuW hq rfl rfl ?_⟩
  · rw [divuW, ← BitVec.toNat_udiv, BitVec.ofNat_toNat, BitVec.setWidth_eq]
  · rw [remuW, ← BitVec.toNat_umod, BitVec.ofNat_toNat, BitVec.setWidth_eq]

end Sys2Proof.Machine
end

/-! # Immediate operations, with and without HINTs (O3) -/

section
namespace Sys2Proof.Machine

variable {s t : State} {h : Shape} {i : Instr} {eff : Eff} {e : Entry} {d a n f imm sh word : Nat} {x v : W64} {ps dies : List Nat}

/-! ### The gathered immediate (02 R24) -/

/-- What a HINT adds to the gathered immediate. -/
def Hint.payload? : Hint → Option Nat
  | .imm p => some p
  | .home _ | .mod _ => none

/-- A chain of home HINTs, then immediate HINTs. -/
def hintChain (dies ps : List Nat) : List Hint := dies.map Hint.home ++ ps.map Hint.imm

theorem payloads_hintChain (dies ps : List Nat) : (hintChain dies ps).filterMap Hint.payload? = ps := by
  have hdies : (dies.map Hint.home).filterMap Hint.payload? = [] := by
    rw [List.filterMap_map]
    exact List.filterMap_eq_nil_iff.2 fun _ _ => rfl
  have himms : (ps.map Hint.imm).filterMap Hint.payload? = ps := by
    rw [List.filterMap_map]
    exact List.filterMap_some ..
  rw [hintChain, List.filterMap_append, hdies, himms, List.nil_append]

theorem Shape.gathered_eq (himm : h.imm = some (n, f)) (chain : List Hint) : h.gathered chain =
    if chain.filterMap Hint.payload? = [] then none
    else some (signed (n + 22 * (chain.filterMap Hint.payload?).length) (f + 2 ^ n * ofLanes 22 (chain.filterMap Hint.payload?))) := by
  unfold Shape.gathered
  rw [himm]
  rfl

theorem foldr_indexed_eq_ofLanes (hps : ∀ p ∈ ps, p < 2 ^ 22) (k : Nat) :
    ((indexed k ps).map (fun (k, p) => p * 2 ^ (n + 22 * k))).foldr (· + ·) 0 = 2 ^ (n + 22 * k) * ofLanes 22 ps := by
  induction ps generalizing k with
  | nil => rfl
  | cons p ps ih =>
    rw [indexed, List.map_cons, List.foldr_cons, ih (fun q hq => hps q (List.mem_cons_of_mem _ hq)), ofLanes,
      Nat.mod_eq_of_lt (hps p (List.mem_cons_self ..)), show n + 22 * (k + 1) = n + 22 * k + 22 by ring, pow_add _ _ 22]
    ring

theorem Shape.gathered_hintChain (himm : h.imm = some (n, f)) (hps : ∀ p ∈ ps, p < 2 ^ 22) :
    h.gathered (hintChain dies ps) = if ps = [] then none else some (gatheredImm n f ps) := by
  rw [Shape.gathered_eq himm, payloads_hintChain, gatheredImm, foldr_indexed_eq_ofLanes hps]
  rfl

/-- A HINT that names a home. -/
def Hint.isHome : Hint → Bool
  | .home _ => true
  | _ => false

/-- A HINT that modifies its consumer. -/
def Hint.isMod : Hint → Bool
  | .mod _ => true
  | _ => false

theorem Shape.accepts_of_counts {chain : List Hint} (himm : h.imm.isSome = true) (hmod : chain.countP Hint.isMod = 0)
    (hhome : chain.countP Hint.isHome = b2n (h.home == some 3)) : h.accepts chain = true := by
  have heq : h.accepts chain = (chain.countP Hint.isHome == b2n (h.home == some 3) &&
      (chain.countP Hint.isMod == 0 || (h.nt && chain.countP Hint.isMod == 1)) && (_ || h.imm.isSome)) := rfl
  rw [heq, hmod, hhome, himm]
  simp

theorem Shape.accepts_hintChain (himm : h.imm.isSome = true) (hhome : dies.length = b2n (h.home == some 3)) (ps : List Nat) :
    h.accepts (hintChain dies ps) = true := by
  have hcount (p : Hint → Bool) (mk : Nat → Hint) (b : Bool) (hb : ∀ x, p (mk x) = b) (l : List Nat) :
      (l.map mk).countP p = if b then l.length else 0 := by
    rw [List.countP_map, show p ∘ mk = fun _ => b from funext hb]
    cases b <;> simp
  refine Shape.accepts_of_counts himm ?_ ?_
  · rw [hintChain, List.countP_append, hcount _ _ false fun _ => rfl, hcount _ _ false fun _ => rfl]
    rfl
  · rw [hintChain, List.countP_append, hcount _ _ true fun _ => rfl, hcount _ _ false fun _ => rfl, ← hhome]
    rfl

/-! ### A context behind its HINTs -/

theorem State.alone_of_setCx {c : Ctx} (h : (s.setCx c).alone) (hf : s.cx.follow = none) : s.alone := by
  intro p hp
  obtain hm | hm := Tbl.mem_put_of_mem s.cur.1 (s.cc.setCtx s.cur.2 c) hp
  · exact h p hm
  · rw [← hm Core.reset]
    by_cases hk : s.cur.2 = 0
    · rw [← hk]
      exact hf
    · have hcore := State.alone_core h s.cur.1
      rwa [State.setCx, State.setCtx, State.core_setCore_same, Core.ctx_setCtx_ne _ _ _ _ (Ne.symm hk)] at hcore

theorem State.idle_of_unchained (hq : (s.setCx { s.cx with flow := { s.cx.flow with chain := [] } }).quiet = true) : s.Idle := by
  obtain ⟨-, hin, hloops, hstale, hfollow, hstream, halone, hgone, hst, -, hmb, -⟩ := (State.quiet_iff _).1 hq
  rw [State.cx_setCx] at hin hloops hstale hfollow hstream hgone hst
  rw [State.cc_setCx] at hmb
  exact ⟨hin, hgone, hstale, hstream, hst, hmb, hloops, hfollow, State.alone_of_setCx halone hfollow⟩

/-- An idle context stands behind the HINTs of a word that takes an immediate, with the payloads `ps`. -/
structure Hinted (s : State) (h : Shape) (n f : Nat) (ps : List Nat) : Prop where
  idle : s.Idle
  imm : h.imm = some (n, f)
  payloads : ∀ p ∈ ps, p < 2 ^ 22
  chain : ∃ dies, s.cx.flow.chain = hintChain dies ps ∧ dies.length = b2n (h.home == some 3)

theorem Hinted.accepts (hh : Hinted s h n f ps) : h.accepts s.cx.flow.chain = true := by
  obtain ⟨dies, hchain, hlen⟩ := hh.chain
  rw [hchain]
  exact Shape.accepts_hintChain (by rw [hh.imm]; rfl) hlen ps

theorem Hinted.gathered (hh : Hinted s h n f ps) :
    h.gathered s.cx.flow.chain = if ps = [] then none else some (gatheredImm n f ps) := by
  obtain ⟨dies, hchain, -⟩ := hh.chain
  rw [hchain, Shape.gathered_hintChain hh.imm hh.payloads]

theorem Hinted.immOf (hh : Hinted s h n f ps) (i : Instr) (word : Nat) :
    (s.entryAt i word h).immOf n f = w64OfInt (gatheredImm n f ps) := by
  have himm : (s.entryAt i word h).imm = (h.gathered s.cx.flow.chain).map w64OfInt := rfl
  rw [Entry.immOf, himm, hh.gathered]
  by_cases hps : ps = []
  · subst hps
    rfl
  · rw [if_neg hps]
    rfl

theorem Hinted.issuable (hh : Hinted s h n f ps) (hlo : -(2 ^ 63) ≤ gatheredImm n f ps) (hhi : gatheredImm n f ps < 2 ^ 63)
    (hg : s.guardOk h.g = true) (hb : h.barred = false) (hv : h.vword = false) : Issuable s h := by
  refine ⟨hh.idle, hh.accepts, ?_, hg, .inr hb, .inl hv⟩
  rw [Shape.unfit, hh.gathered]
  by_cases hps : ps = []
  · rw [if_pos hps]
  · rw [if_neg hps]
    exact decide_eq_false (not_or.2 ⟨not_lt.2 hlo, not_le.2 hhi⟩)

/-- A gathered immediate that does not fit in 64 bits (02 R24). -/
theorem Hinted.illegal (hh : Hinted s h n f ps) (hv : gatheredImm n f ps < -(2 ^ 63) ∨ 2 ^ 63 ≤ gatheredImm n f ps) (hps : ps ≠ [])
    (run : State → Issued) :
    (issueWord s h word run).outcome s = .next (s.trapHere .illegal 0 (BitVec.ofNat 64 word)).stamp := by
  have hclosed : s.cx.flow.closed = false := by rw [Flow.closed, hh.idle.inflight]; rfl
  have hunfit : h.unfit s.cx.flow.chain = true := by
    rw [Shape.unfit, hh.gathered, if_neg hps]
    exact decide_eq_true hv
  refine issueWord_stops (p := true) hh.idle.lone ?_
  rw [gate, bind_ok (m := getCx) rfl]
  simp only [hclosed, hunfit]
  simp [trapPre]

/-! ### The operations -/

/-- The operations with an immediate of the value `x`. -/
def ImmediateExecs (s : State) (d a imm g : Nat) (x : W64) : Prop :=
  exec (.addi d a imm g) s = .next (s.wrote d (s.reg a + x) false) ∧
  exec (.andi d a imm g) s = .next (s.wrote d (s.reg a &&& x) false) ∧
  exec (.ori d a imm g) s = .next (s.wrote d (s.reg a ||| x) false) ∧
  exec (.xori d a imm g) s = .next (s.wrote d (s.reg a ^^^ x) false) ∧
  exec (.slti d a imm g) s = .next (s.wrote d (if (s.reg a).toInt < x.toInt then 1 else 0) false) ∧
  exec (.sltiu d a imm g) s = .next (s.wrote d (if (s.reg a).toNat < x.toNat then 1 else 0) false) ∧
  exec (.movi d imm g) s = .next (s.wrote d x false)

/-- The result `f` of an operand and an immediate. -/
theorem exec_immediate {g : Nat} (f : W64 → W64 → W64) {y : W64} (hi : Issuable s i.shape)
    (hsh : i.shape = { g := g, opa := some a, imm := some (13, imm), wr := [.w d] })
    (hx : exec i s = issue i (plain fun e => wW d (f e.opa (e.immOf 13 imm))) s)
    (himm : (s.entryAt i ((encodeNat i).getD 0) i.shape).immOf 13 imm = x) (hv : f (s.reg a) x = y) :
    exec i s = .next (s.wrote d y false) := by
  have hopa : (s.entryAt i ((encodeNat i).getD 0) i.shape).opa = s.reg a := by rw [hsh]; rfl
  exact exec_wrote hx hi (by rw [hsh]) (by rw [hsh]) (by rw [hopa, himm, hv])

theorem immediateExecs {g : Nat} (hi : ∀ {h : Shape}, h.imm = some (13, imm) → h.home = none → h.g = g → h.barred = false →
      h.vword = false → Issuable s h)
    (himm : ∀ {h : Shape} (i : Instr) (word : Nat), h.imm = some (13, imm) → h.home = none →
      (s.entryAt i word h).immOf 13 imm = x) : ImmediateExecs s d a imm g x := by
  have one {i : Instr} {y : W64} (f : W64 → W64 → W64)
      (hsh : i.shape = { g := g, opa := some a, imm := some (13, imm), wr := [.w d] }) :=
    exec_immediate (y := y) f (hi (h := i.shape) (by rw [hsh]) (by rw [hsh]) (by rw [hsh]) (by rw [hsh]; rfl) (by rw [hsh]; rfl)) hsh
      (x := x)
  have him (i : Instr) (hsh : i.shape = { g := g, opa := some a, imm := some (13, imm), wr := [.w d] }) :=
    himm (h := i.shape) i ((encodeNat i).getD 0) (by rw [hsh]) (by rw [hsh])
  refine ⟨one (· + ·) rfl rfl (him _ rfl) rfl, one (· &&& ·) rfl rfl (him _ rfl) rfl, one (· ||| ·) rfl rfl (him _ rfl) rfl,
    one (· ^^^ ·) rfl rfl (him _ rfl) rfl, one (fun x y => boolW (x.slt y)) rfl rfl (him _ rfl) (boolW_eq _),
    one (fun x y => boolW (x.ult y)) rfl rfl (him _ rfl) (boolW_eq _), ?_⟩
  exact exec_wrote (i := .movi d imm g) (v := fun e => e.immOf 13 imm) rfl (hi rfl rfl rfl rfl rfl) rfl rfl (himm _ _ rfl rfl)

theorem immediateResults : Stated.ImmediateResults := by
  intro s d a imm sh g hq hg himm hsh
  have hs := State.idle_of_quiet hq
  have hchain : s.cx.flow.chain = hintChain [] [] := (s.quiet_iff.1 hq).1
  obtain ⟨haddi, handi, hori, hxori, hslti, hsltiu, hmovi⟩ :
      ImmediateExecs s d a imm g ((BitVec.ofNat 13 imm).signExtend 64) := by
    refine immediateExecs (fun _ hhome hg' hb _ => issuable_of_quiet hq (hg' ▸ hg) (by simp [hhome]) (.inr hb))
      fun {h} i word himm hhome => ?_
    have hh : Hinted s h 13 imm [] := ⟨hs, himm, by simp, [], hchain, by rw [hhome]; rfl⟩
    rw [hh.immOf, ← w64OfInt_signed 13 imm (by decide)]
    rfl
  have shift {i : Instr} {y : W64} (f : W64 → W64) := exec_oneOperand (i := i) (d := d) (a := a) (t := false) (x := y) f hq hg
  have hmod : (BitVec.ofNat 64 sh).toNat % 64 = sh := by
    rw [BitVec.toNat_ofNat]
    omega
  refine ⟨haddi, handi, hori, hxori, hslti, hsltiu, shift (fun x => x <<< (sh % 64)) rfl rfl ?_,
    shift (fun x => x >>> (sh % 64)) rfl rfl ?_, shift (fun x => sraW x (BitVec.ofNat 64 sh)) rfl rfl ?_,
    shift (fun x => rorW x (BitVec.ofNat 64 sh)) rfl rfl ?_, hmovi⟩
  · rw [Nat.mod_eq_of_lt hsh]
  · rw [Nat.mod_eq_of_lt hsh]
  · rw [sraW, hmod]
  · rw [rorW, hmod]

/-! ### Loads and stores behind HINTs (06 R109, 02 R25) -/

theorem effAddr_of_sum {off code : Nat} {ea : W64} (hea : e.opa + e.immOf 8 off * BitVec.ofNat 64 n = ea) (hlt : ea.toNat < 2 ^ 52)
    (hal : ea.toNat % n = 0) : effAddr e off n code s = .ok (ea, s) := by
  rw [effAddr, hea, if_neg (not_le.2 hlt), bind_ok (alignTo_ok hal)]
  rfl

/-- A word whose effect at its issue is a result in a w register. -/
theorem Issuable.result (hi : Issuable s h) (hla : h.la = 0)
    (he : eff (s.entryAt i word h) (s.issuedAs h) =
      .ok (.done, (s.issuedAs h).setCx ((s.issuedAs h).cx.finW (s.entryAt i word h) d v))) :
    (issueWord s h word fun s => runEff s h i word eff).outcome s = .next (s.after (s.resultCx h d v)) := by
  have hplace := (Ctx.finW_writes (c := s.cx.issue h) (e := s.entryAt i word h) (n := d) (v := v)).samePlace
  rw [State.cx_issuedAs] at he
  exact hi.after (c := (s.cx.issue h).finW (s.entryAt i word h) d v) hla he
    (hplace.loops.trans ((Ctx.issue_loops ..).trans hi.idle.lone.loops))
    (hplace.follow.trans ((Ctx.issue_follow ..).trans hi.idle.lone.follow))

/-- A word that changes nothing of its context but the place. -/
theorem Issuable.completes_frame {p : State} (hi : Issuable s i.shape) (hla : i.shape.la = 0) (hx : exec i s = issue i eff s)
    (hp : Beside s i.shape p) (he : eff (s.entryAt i ((encodeNat i).getD 0) i.shape) (s.issuedAs i.shape) = .ok (.done, p)) :
    Completes i s (fun t => t.mem = p.mem ∧ t.fe = p.fe ∧ (∀ r, t.reg r = s.reg r) ∧ SameVecSpec s t) := by
  refine ⟨p.stamp, hx.trans (hi.acts hla he hp.lone), ?_, rfl, rfl, fun r => ?_, ?_⟩
  · have hstamp : p.stamp.cx = { p.cx with last := p.cc.cycle, passed := 0 } := State.cx_setCx ..
    obtain ⟨_, _, hissue⟩ := s.cx.issue_eq i.shape
    rw [Ran, hstamp, hp.cx, Ctx.issue_inflight _ _ hi.idle.inflight, hissue]
    exact ⟨hp.cur, rfl, rfl, rfl, rfl⟩
  · rw [State.stamp, State.reg_setCx_stamped, hp.cx, Ctx.wreg_issue]
    rfl
  · rw [SameVecSpec, State.stamp, State.cx_setCx, hp.cx]
    exact s.cx.issue_vec_spec i.shape

section
variable {off sz home : Nat} {ea : W64} {l : Loc} (hsz : szBytes sz = n)
  (hea : s.reg a + w64OfInt (gatheredImm 8 off ps) * BitVec.ofNat 64 n = ea) (hlt : ea.toNat < 2 ^ 52) (hal : ea.toNat % n = 0)
  (hlo : -(2 ^ 63) ≤ gatheredImm 8 off ps) (hhi : gatheredImm 8 off ps < 2 ^ 63)
include hsz hea hlt hal hlo hhi

/-- A load behind HINTs, of which `f` is the extension. -/
theorem Hinted.loads (f : Nat → W64) (hh : Hinted s i.shape 8 off ps)
    (hsh : i.shape = { long := true, la := 0, opa := some a, imm := some (8, off), home := some home, nt := true, wr := [.w d] })
    (hx : exec i s = issue i (plain fun e => do
      let ea ← effAddr e off (szBytes sz) 0x34
      let v ← loadM e ea (szBytes sz)
      wFin e d (f v)) s) (hacc : s.access s.who ea n .read .ls = .ok l) (hk : l.key?.isSome = true) :
    exec i s = .next (s.result i d (f (s.peek l n))) := by
  have hi : Issuable s i.shape := hh.issuable hlo hhi (by rw [hsh]; rfl) (by rw [hsh]; rfl) (by rw [hsh]; rfl)
  have haddr : (s.entryAt i ((encodeNat i).getD 0) i.shape).opa + (s.entryAt i ((encodeNat i).getD 0) i.shape).immOf 8 off *
      BitVec.ofNat 64 n = ea := by
    rw [hh.immOf, ← hea, hsh]
    rfl
  refine hx.trans (hi.result (by rw [hsh]) (plain_ok ?_))
  rw [hsz, bind_ok (effAddr_of_sum haddr hlt hal),
    bind_ok (loadM_ok (State.entryAt_fresh hh.idle _ _ _ _) ((s.access_issuedAs ..).trans hacc) hk), State.peek_issuedAs]
  rfl

/-- A store behind HINTs. -/
theorem Hinted.stores {k : Nat} (hh : Hinted s (Instr.st d a off sz home 0).shape 8 off ps)
    (hacc : s.access s.who ea n .write .ls = .ok l) (hk : l.key? = some k)
    (hm : ∀ ln ∈ linesOf k n, Tbl.get 0 s.lineKey ln = s.keyMat l.mat) :
    Completes (.st d a off sz home 0) s (fun t => Written k n (s.reg d).toNat s t ∧ (∀ r, t.reg r = s.reg r) ∧ SameVecSpec s t ∧
      t.fe = s.fe) := by
  have hi : Issuable s (Instr.st d a off sz home 0).shape := hh.issuable hlo hhi rfl rfl rfl
  have haddr := hea
  rw [← hh.immOf (.st d a off sz home 0) ((encodeNat (.st d a off sz home 0)).getD 0)] at haddr
  have hissued : Beside s (Instr.st d a off sz home 0).shape (s.issuedAs (Instr.st d a off sz home 0).shape) :=
    ⟨rfl, hh.idle.lone.issuedAs _, s.cx_issuedAs _⟩
  obtain ⟨hpmem, -, hpfe, -⟩ := poke_mem (s.issuedAs (Instr.st d a off sz home 0).shape) l k n
    ((s.reg d).toNat % 2 ^ (8 * n)) hk hm
  rw [Mem.write_mod] at hpmem
  refine (hi.completes_frame rfl (exec_st ..) (hissued.poke l n ((s.reg d).toNat % 2 ^ (8 * n))) (plain_ok ?_)).imp
    fun t ⟨hmem, hfe, hregs, hvec⟩ => ⟨written_of_mem (hmem.trans hpmem), hregs, hvec, hfe.trans hpfe⟩
  rw [hsz, bind_ok (effAddr_of_sum haddr hlt hal)]
  exact storeM_ok _ (State.entryAt_fresh hh.idle _ _ _ _) ((s.access_issuedAs ..).trans hacc) (by rw [hk]; rfl)
    ((s.mbusy_issuedAs _).trans hh.idle.mbusy)

end

theorem hintedImmediate : Stated.HintedImmediate := by
  intro s d a g homes ps _ hps hchain hq
  have hs := State.idle_of_unchained hq
  constructor
  · rintro imm - rfl
    have hh {h : Shape} (himm : h.imm = some (13, imm)) (hhome : h.home = none) : Hinted s h 13 imm ps :=
      ⟨hs, himm, hps, [], hchain, by rw [hhome]; rfl⟩
    refine ⟨fun hlo hhi hg => ?_, fun hv hne i hi => ?_⟩
    · exact immediateExecs (fun himm hhome hg' hb hv => (hh himm hhome).issuable hlo hhi (hg' ▸ hg) hb hv)
        fun i word himm hhome => (hh himm hhome).immOf i word
    · simp only [List.mem_cons, List.not_mem_nil, or_false] at hi
      obtain rfl | rfl | rfl | rfl | rfl | rfl | rfl := hi <;> exact (hh rfl rfl).illegal hv hne _
  · intro off sz home l hoff hsz hhome n v ea hlt hal hlo hhi
    have hn : szBytes sz = n := szBytes_of_lt hsz
    have hh {h : Shape} (himm : h.imm = some (8, off)) (hh : h.home = some home) : Hinted s h 8 off ps := by
      obtain ⟨hne, rfl⟩ | ⟨rfl, die, rfl⟩ := hhome
      · exact ⟨hs, himm, hps, [], hchain, by simp [hh, hne, b2n]⟩
      · exact ⟨hs, himm, hps, [die], hchain, by rw [hh]; rfl⟩
    refine ⟨fun hacc hk => ⟨?_, ?_⟩, fun k hacc hk hm => ?_⟩
    · exact Hinted.loads hn rfl hlt hal hlo hhi (sextB n) (hh rfl rfl) rfl (by rw [exec_ld, finLd, hn]) hacc hk
    · exact Hinted.loads hn rfl hlt hal hlo hhi (BitVec.ofNat 64) (hh rfl rfl) rfl (exec_ldn ..) hacc hk
    · refine (Hinted.stores hn rfl hlt hal hlo hhi (hh rfl rfl) hacc hk hm).imp fun t ⟨⟨hin, hout⟩, hregs, hvec, hfe⟩ => ?_
      exact ⟨hin, hout, hregs, hvec, hfe⟩

/-- Settles O3: the entry captures the gathered immediate, of which each operation is a function. -/
theorem immediateWords : Obligations.ImmediateWords := ⟨immediateResults, hintedImmediate⟩

end Sys2Proof.Machine
end

/-! # Guard slots (O6) -/

section
namespace Sys2Proof.Machine

variable {s t : State} {i : Instr} {eff : Eff} {d a b g n : Nat} {oa ob : Option Nat} {v : QSlot} {x y : Bool}

@[simp] theorem setQ_loops (c : Ctx) (n : Nat) (v : QSlot) : (c.setQ n v).flow.loops = c.flow.loops := by
  unfold Ctx.setQ
  split <;> rfl

@[simp] theorem setQ_follow (c : Ctx) (n : Nat) (v : QSlot) : (c.setQ n v).follow = c.follow := by
  unfold Ctx.setQ
  split <;> rfl

theorem rQ_val (h : s.cx.qOf n = .val x) : rQ n s = .ok (x, s) := by
  unfold rQ
  rw [h]

theorem rQ_empty (h : s.cx.qOf n = .empty) : rQ n s = .error (.trap .prot 0x16 (BitVec.ofNat 64 n) true) := by
  unfold rQ
  rw [h]

/-- A word that writes guard slot `d`. -/
theorem exec_guardSlot (hq : s.quiet = true) (hg : s.guardOk g = true) (hsh : i.shape = { g := g, opa := oa, opb := ob })
    (hb : i.shape.barred = false) (hx : exec i s = issue i eff s)
    (he : eff (s.entryAt i ((encodeNat i).getD 0) i.shape) (s.setCx s.cx.stepped) =
      .ok (.done, (s.setCx s.cx.stepped).setCx ((s.setCx s.cx.stepped).cx.setQ d v))) :
    exec i s = .next (s.after (s.cx.stepped.setQ d v)) := by
  have hi : Issuable s i.shape := issuable_of_quiet hq (by rwa [hsh]) (by simp [hsh]) (.inr hb)
  have hissued : s.issuedAs i.shape = s.setCx s.cx.stepped := State.issuedAs_short hi.idle (by rw [hsh])
  refine hx.trans (hi.after (c := s.cx.stepped.setQ d v) (by rw [hsh]) ?_ ((setQ_loops ..).trans hi.idle.lone.loops)
    ((setQ_follow ..).trans hi.idle.lone.follow))
  rw [hissued, he, State.cx_setCx]

/-- A comparison `f` of two registers. -/
theorem exec_qset (f : W64 → W64 → Bool) (hq : s.quiet = true) (hg : s.guardOk g = true)
    (hsh : i.shape = { g := g, opa := some a, opb := some b }) (hx : exec i s = issue i (plain fun e => wQ d (f e.opa e.opb)) s)
    (hv : f (s.reg a) (s.reg b) = x) : exec i s = .next (s.after (s.cx.stepped.setQ d (.val x))) := by
  refine exec_guardSlot hq hg hsh (by rw [hsh]; rfl) hx ?_
  rw [hsh, ← hv]
  rfl

/-- A combination `f` of two slots. -/
theorem exec_qlogic (f : Bool → Bool → Bool) (hq : s.quiet = true) (hg : s.guardOk g = true) (hsh : i.shape = { g := g })
    (hx : exec i s = issue i (plain fun _ => rQ a >>= fun x => rQ b >>= fun y => wQ d (f x y)) s)
    (ha : s.cx.stepped.qOf a = .val x) (hb : s.cx.stepped.qOf b = .val y) :
    exec i s = .next (s.after (s.cx.stepped.setQ d (.val (f x y)))) := by
  rw [← State.cx_setCx s s.cx.stepped] at ha hb
  refine exec_guardSlot (oa := none) (ob := none) hq hg hsh (by rw [hsh]; rfl) hx (plain_ok ?_)
  rw [bind_ok (rQ_val ha), bind_ok (rQ_val hb)]
  rfl

/-- A word that writes `v`, whatever it reads. -/
theorem exec_qconst (v : QSlot) (hq : s.quiet = true) (hg : s.guardOk g = true) (hsh : i.shape = { g := g })
    (hx : exec i s = issue i (plain fun _ => modCx fun c => c.setQ d v) s) :
    exec i s = .next (s.after (s.cx.stepped.setQ d v)) :=
  exec_guardSlot (oa := none) (ob := none) hq hg hsh (by rw [hsh]; rfl) hx (plain_ok rfl)

/-- The negation of a slot. -/
theorem exec_qnot_val (hq : s.quiet = true) (hg : s.guardOk g = true) (ha : s.cx.stepped.qOf a = .val x) :
    exec (.qnot d a g) s = .next (s.after (s.cx.stepped.setQ d (.val (!x)))) := by
  rw [← State.cx_setCx s s.cx.stepped] at ha
  refine exec_guardSlot (g := g) (oa := none) (ob := none) hq hg rfl rfl (eff := finQnot d a) rfl (plain_ok ?_)
  rw [bind_ok (rQ_val ha)]
  rfl

theorem guardSlotResults : Stated.GuardSlotResults := by
  intro s d a b g x y hq hg _
  have set {i : Instr} {x : Bool} (f : W64 → W64 → Bool) := exec_qset (i := i) (d := d) (a := a) (b := b) (x := x) f hq hg
  have logic {i : Instr} (f : Bool → Bool → Bool) := exec_qlogic (i := i) (d := d) (a := a) (b := b) (x := x) (y := y) f hq hg
  have const {i : Instr} (v : QSlot) := exec_qconst (i := i) (d := d) v hq hg
  refine ⟨fun ha hb => ⟨logic (fun x y => x && y) rfl rfl ha hb, logic (fun x y => x || y) rfl rfl ha hb,
      logic (fun x y => x != y) rfl rfl ha hb, logic (fun x y => x && !y) rfl rfl ha hb,
      exec_qnot_val hq hg ha⟩,
    set (fun x y => x == y) rfl rfl rfl, set (fun x y => x != y) rfl rfl rfl, set (fun x y => x.slt y) rfl rfl rfl,
    set (fun x y => !x.slt y) rfl rfl ?_, set (fun x y => x.ult y) rfl rfl rfl, set (fun x y => !x.ult y) rfl rfl ?_,
    const (.val true) rfl rfl,
    const (.val false) rfl rfl, const .empty rfl rfl, rfl, rfl, rfl, rfl, rfl, rfl, rfl, rfl, rfl, rfl, rfl, rfl, rfl, rfl⟩
  · rw [BitVec.slt, ← decide_not]
    exact decide_eq_decide.2 not_lt
  · rw [BitVec.ult, ← decide_not]
    exact decide_eq_decide.2 not_lt

/-! ### A false guard (02 R26) -/

/-- A word with a guard goes through the gate: its execution is that of `issueWord`, which is so for no event and for no SYS word. -/
theorem exec_guarded (i : Instr) (hg : i.shape.g ≠ 0) (s : State) :
    ∃ run, exec i s = (issueWord s i.shape ((encodeNat i).getD 0) run).outcome s := by
  cases i <;> (try exact absurd rfl hg)
  all_goals exact ⟨_, rfl⟩

theorem gate_guard (hq : s.quiet = true) {h : Shape} (hh : h.home ≠ some 3) (word : Nat) :
    gate word h s = (guard h.g >>= fun g =>
      if !g then pure false else if s.cx.level ≠ 0 && h.barred then trapPre .prot 0x3E 0 else pure true) s := by
  have hchain : s.cx.flow.chain = [] := (s.quiet_iff.1 hq).1
  exact gate_idle (State.idle_of_quiet hq) word (by rw [hchain]; exact Shape.accepts_nil hh) (by rw [hchain]; exact h.unfit_nil)

theorem falseGuard : Stated.FalseGuard := by
  intro s i hq hg hh hslot
  obtain ⟨run, hx⟩ := exec_guarded i hg s
  have hs := State.idle_of_quiet hq
  have hguard : guard i.shape.g s = .ok (false, s) := by rw [guard, if_neg hg, rQ_val hslot]
  refine hx.trans (issueWord_passes hs.lone hs.gone ?_)
  rw [gate_guard hq hh, bind_ok hguard]
  rfl

/-- Settles O6: each word sets its slot to a function of what it reads, and the gate stops a word whose guard is false. -/
theorem guardWords : Obligations.GuardWords := ⟨guardSlotResults, falseGuard⟩

end Sys2Proof.Machine
end

/-! # Branches and jumps (O7) -/

section
namespace Sys2Proof.Machine

variable {s t : State} {h : Shape} {i : Instr} {c : Ctx} {e : Entry} {a b g disp : Nat} {n : W64} {pre : M Unit} {go : Entry → M W64}

/-- A transfer that leaves its context as `c` but for the next address, and changes nothing else. -/
theorem Issuable.departs (hi : Issuable s h) (hshort : h.long = false) (hpre : pre s = .ok ((), s))
    (he : go (s.entryAt .nop 0 h) (s.setCx s.cx.stepped) = .ok (n, (s.setCx s.cx.stepped).setCx c)) (hf : c.follow = none) :
    (issueWord s h word fun s => runJump s h pre go).outcome s = .next (s.after { c with flow := { c.flow with pc := n } }) := by
  rw [← State.issuedAs_short hi.idle hshort, State.issuedAs, State.setCx_setCx] at he
  rw [hi.goes hpre he (State.alone_setCx _ _ hi.idle.lone.alone hf) (by rw [State.cx_setCx]; exact hf), State.setCx_setCx,
    State.stamp_setCx, State.cx_setCx]

/-- A transfer that changes nothing but the next address. -/
theorem Issuable.leaves (hi : Issuable s h) (hshort : h.long = false) (hpre : pre s = .ok ((), s))
    (he : go (s.entryAt .nop 0 h) (s.setCx s.cx.stepped) = .ok (n, s.setCx s.cx.stepped)) :
    (issueWord s h word fun s => runJump s h pre go).outcome s = .next (s.went n) :=
  hi.departs hshort hpre (by rw [he, State.setCx_setCx]) hi.idle.lone.follow

theorem leaveLoops_none (hl : c.flow.loops = []) (t : W64) : c.leaveLoops t = c := by
  rw [Ctx.leaveLoops, hl]
  show { c with flow := { c.flow with loops := [] } } = c
  rw [← hl]

theorem goTo_unlooped (hl : c.flow.loops = []) (t : W64) : goTo t (s.setCx c) = .ok (t, s.setCx c) := by
  show Except.ok (t, (s.setCx c).setCx ((s.setCx c).cx.leaveLoops t)) = _
  rw [State.cx_setCx, leaveLoops_none hl, State.setCx_setCx]

theorem branch_unlooped (hl : c.flow.loops = []) (taken : Bool) (disp : Nat) (e : Entry) :
    branch taken disp e (s.setCx c) = .ok (if taken then target e.own 13 disp else e.own + 4, s.setCx c) := by
  cases taken
  · rfl
  · exact goTo_unlooped hl _

/-- A branch on a comparison `f` of two registers. -/
theorem exec_branch (f : W64 → W64 → Bool) (hq : s.quiet = true) (hsh : i.shape = { opa := some a, opb := some b, transfer := true })
    (hx : exec i s = jump i (fun e => branch (f e.opa e.opb) disp e) s)
    (hv : (if f (s.reg a) (s.reg b) then target s.cx.flow.pc 13 disp else s.cx.flow.pc + 4) = n) : exec i s = .next (s.went n) := by
  have hi : Issuable s i.shape := issuable_of_quiet hq (by rw [hsh]; rfl) (by simp [hsh]) (.inr (by rw [hsh]; rfl))
  refine hx.trans (hi.leaves (by rw [hsh]) rfl ?_)
  rw [branch_unlooped (c := s.cx.stepped) hi.idle.lone.loops, ← hv, hsh]
  rfl

/-- A branch on a guard slot. -/
theorem exec_branchQ (f : Bool → Bool) {q : Bool} (hq : s.quiet = true) (hsh : i.shape = { transfer := true })
    (hx : exec i s = jump i (fun e => rQ a >>= fun q => branch (f q) disp e) s) (ha : s.cx.stepped.qOf a = .val q) :
    exec i s = .next (s.went (if f q then target s.cx.flow.pc 13 disp else s.cx.flow.pc + 4)) := by
  have hi : Issuable s i.shape := issuable_of_quiet hq (by rw [hsh]; rfl) (by simp [hsh]) (.inr (by rw [hsh]; rfl))
  rw [← State.cx_setCx s s.cx.stepped] at ha
  refine hx.trans (hi.leaves (by rw [hsh]) rfl ?_)
  rw [bind_ok (rQ_val ha), branch_unlooped (c := s.cx.stepped) hi.idle.lone.loops, hsh]
  rfl

/-- A branch on the negation of `p`. -/
theorem ite_not_decide (p : Prop) [Decidable p] (x y : W64) : (if !decide p then x else y) = if p then y else x := by
  by_cases hp : p <;> simp [hp]

theorem alignedTarget_ok (h : n.toNat % 4 = 0) : alignedTarget n s = .ok ((), s) := by
  rw [alignedTarget, if_neg (not_not.2 h)]
  rfl

theorem alignedTarget_trap (h : n.toNat % 4 ≠ 0) : alignedTarget n s = .error (.trap .align 0x36 n true) := by
  rw [alignedTarget, if_pos h]
  rfl

/-- Settles O7: a branch goes on at one of its two addresses, and with no loop level a transfer leaves none. -/
theorem branchResults : Obligations.BranchResults := by
  unfold Obligations.BranchResults
  intro s a b g disp hq
  have cmp {i : Instr} {n : W64} (f : W64 → W64 → Bool) := exec_branch (i := i) (a := a) (b := b) (disp := disp) (n := n) f hq
  have hloops : s.cx.stepped.flow.loops = [] := (State.lone_of_quiet hq).loops
  refine ⟨fun hg hal => ?_, fun q ha => ⟨exec_branchQ id hq rfl rfl ha, ?_⟩,
    cmp (fun x y => x == y) rfl rfl ?_, cmp (fun x y => x != y) rfl rfl ?_, cmp (fun x y => x.slt y) rfl rfl ?_,
    cmp (fun x y => !x.slt y) rfl rfl ?_, cmp (fun x y => x.ult y) rfl rfl ?_, cmp (fun x y => !x.ult y) rfl rfl ?_, ?_,
    rfl, rfl, rfl, rfl, rfl, rfl, rfl, rfl⟩
  · have hi : Issuable s (Instr.jr a g).shape := issuable_of_quiet hq hg (by simp) (.inr rfl)
    refine hi.leaves (go := jumpJr) rfl rfl ?_
    exact (bind_ok (alignedTarget_ok hal)).trans (goTo_unlooped hloops _)
  · rw [exec_branchQ (a := a) (disp := disp) (fun q => !q) hq rfl rfl ha]
    cases q <;> rfl
  · simp
  · simp
  · simp [BitVec.slt]
  · exact ite_not_decide ..
  · simp [BitVec.ult]
  · exact ite_not_decide ..
  · have hi : Issuable s (Instr.j disp).shape := issuable_of_quiet hq rfl (by simp) (.inr rfl)
    exact hi.leaves (go := jumpJ disp) rfl rfl (goTo_unlooped hloops _)

end Sys2Proof.Machine
end

/-! # Calls and returns (O8) -/

section
namespace Sys2Proof.Machine

variable {s t : State} {i : Instr} {a g disp : Nat} {n : W64}

theorem callChecks_ok (hdepth : t.cx.rf.cwp ≠ 2 ^ 32 - 1) (hfull : t.cx.rf.cwp - t.cx.rf.low ≠ 5) : callChecks t = .ok ((), t) := by
  rw [callChecks, bind_ok (m := getCx) rfl, if_neg hdepth, if_neg hfull]
  rfl

theorem callChecks_deepest (hdepth : t.cx.rf.cwp = 2 ^ 32 - 1) :
    callChecks t = .error (.trap .prot 0x1F (BitVec.ofNat 64 t.cx.rf.cwp) true) := by
  rw [callChecks, bind_ok (m := getCx) rfl, if_pos hdepth]
  rfl

theorem callChecks_full (hdepth : t.cx.rf.cwp ≠ 2 ^ 32 - 1) (hfull : t.cx.rf.cwp - t.cx.rf.low = 5) :
    callChecks t = .error (.trap .winovf 0 (BitVec.ofNat 64 t.cx.rf.cwp) true) := by
  rw [callChecks, bind_ok (m := getCx) rfl, if_neg hdepth, if_pos hfull]
  rfl

theorem bind_error {α β : Type} {m : M α} {k : α → M β} {x : Stop} (h : m s = .error x) : (m >>= k) s = .error x := by
  simp only [bind, StateT.bind, Except.bind, h]

theorem writeW_cwp (c : Ctx) (d : Nat) (v : W64) (b : Bool) : (c.writeW d v b).rf.cwp = c.rf.cwp := by
  obtain ⟨_, _, _, _, _, _, h⟩ := Ctx.writeW_writes c d v b
  rw [h]

/-- The context that a call leaves, but for the next address. -/
def Ctx.called (c : Ctx) (own : W64) : Ctx :=
  { c.writeW 31 (own + 4) false with rf := { (c.writeW 31 (own + 4) false).rf with cwp := c.rf.cwp + 1 } }

theorem enterCall_eq (c : Ctx) (own : W64) : enterCall own (s.setCx c) = .ok ((), (s.setCx c).setCx (c.called own)) := by
  rw [enterCall, modCx, State.cx_setCx, Ctx.called, ← writeW_cwp c 31 (own + 4) false]

theorem retCheck_ok (h : t.cx.rf.cwp ≠ 0) : retCheck t = .ok ((), t) := by
  rw [retCheck, bind_ok (m := getCx) rfl, if_neg h]
  rfl

/-- The context that a return leaves, but for the next address (14 R297). -/
def Ctx.returned (c : Ctx) : Ctx :=
  { c with rf := { c.rf with cwp := c.rf.cwp - 1 }, flow := { c.flow with loops := c.flow.loops.filter fun l => l.win != c.depth } }

theorem Ctx.returned_unlooped {c : Ctx} (hl : c.flow.loops = []) : c.returned = { c with rf := { c.rf with cwp := c.rf.cwp - 1 } } := by
  rw [Ctx.returned, hl, List.filter_nil, ← hl]

theorem jumpRet_ok {e : Entry} (hal : e.opa.toNat % 4 = 0) (hres : ¬ (2 ≤ t.cx.rf.cwp ∧ t.cx.rf.low + 1 = t.cx.rf.cwp)) :
    jumpRet e t = .ok (e.opa, t.setCx t.cx.returned) := by
  rw [jumpRet, bind_ok (m := getCx) rfl, bind_ok (alignedTarget_ok hal), if_neg hres]
  rfl

/-- The effect of a call to `n` that passes its checks. -/
theorem callEffect_ok (hdepth : s.cx.rf.cwp ≠ 2 ^ 32 - 1) (hfull : s.cx.rf.cwp - s.cx.rf.low ≠ 5) (own n : W64) :
    (callChecks >>= fun _ => enterCall own >>= fun _ => pure n) (s.setCx s.cx.stepped) =
      .ok (n, (s.setCx s.cx.stepped).setCx (s.cx.stepped.called own)) := by
  have hchecks : callChecks (s.setCx s.cx.stepped) = .ok ((), s.setCx s.cx.stepped) := by
    refine callChecks_ok ?_ ?_ <;> rw [State.cx_setCx] <;> assumption
  rw [bind_ok hchecks, bind_ok (enterCall_eq ..)]
  rfl

section
variable (hq : s.quiet = true) (hl : s.cx.level = 0)
include hq hl

/-- Nothing holds a word that moves the window. -/
theorem issuable_call {h : Shape} (hg : s.guardOk h.g = true) (hh : h.home ≠ some 3) : Issuable s h :=
  issuable_of_quiet hq hg hh (.inl hl)

section
variable (hdepth : s.cx.rf.cwp ≠ 2 ^ 32 - 1) (hfull : s.cx.rf.cwp - s.cx.rf.low ≠ 5)
include hdepth hfull

theorem exec_call_next : exec (.call disp) s = .next (s.after { s.cx.stepped.called s.cx.flow.pc with
    flow := { (s.cx.stepped.called s.cx.flow.pc).flow with pc := target s.cx.flow.pc 26 disp } }) :=
  (issuable_call (h := (Instr.call disp).shape) hq hl rfl (by simp)).departs (go := jumpCall disp) rfl rfl
    (callEffect_ok hdepth hfull ..) ((writeW_follow ..).trans (State.lone_of_quiet hq).follow)

theorem exec_callr_next (hg : s.guardOk g = true) (hal : (s.reg a).toNat % 4 = 0) :
    exec (.callr a g) s = .next (s.after { s.cx.stepped.called s.cx.flow.pc with
      flow := { (s.cx.stepped.called s.cx.flow.pc).flow with pc := s.reg a } }) :=
  (issuable_call (h := (Instr.callr a g).shape) hq hl hg (by simp)).departs (go := jumpCallr) rfl rfl
    ((bind_ok (alignedTarget_ok hal)).trans (callEffect_ok hdepth hfull ..))
    ((writeW_follow ..).trans (State.lone_of_quiet hq).follow)

end

theorem exec_ret_next (hg : s.guardOk g = true) (hdepth : s.cx.rf.cwp ≠ 0) (hal : (s.reg 15).toNat % 4 = 0)
    (hres : ¬ (2 ≤ s.cx.rf.cwp ∧ s.cx.rf.low + 1 = s.cx.rf.cwp)) : exec (.ret g) s = .next (s.after { s.cx.stepped with
      rf := { s.cx.rf with cwp := s.cx.rf.cwp - 1 }, flow := { s.cx.stepped.flow with pc := s.reg 15 } }) := by
  have hi : Issuable s (Instr.ret g).shape := issuable_call hq hl hg (by simp)
  have hloops : s.cx.stepped.flow.loops = [] := hi.idle.lone.loops
  refine hi.departs (pre := retCheck) (go := jumpRet) (c := s.cx.stepped.returned) rfl (retCheck_ok hdepth) ?_ hi.idle.lone.follow
    |>.trans (by rw [Ctx.returned_unlooped hloops]; rfl)
  rw [jumpRet_ok hal (by rw [State.cx_setCx]; exact hres), State.cx_setCx]
  rfl

end

theorem callResults : Stated.CallResults := by
  intro s a g disp hq hl hg
  exact ⟨fun hdepth hfull => ⟨exec_call_next hq hl hdepth hfull, exec_callr_next hq hl hdepth hfull hg⟩, fun hdepth hal hres =>
    exec_ret_next hq hl hg hdepth hal hres⟩

/-! ### The traps of the window (07 R123, R143, R145) -/

theorem retCheck_trap (h : t.cx.rf.cwp = 0) : retCheck t = .error (.trap .prot 0x1F 0 true) := by
  rw [retCheck, bind_ok (m := getCx) rfl, if_pos h]
  rfl

theorem jumpRet_misaligned {e : Entry} (hal : e.opa.toNat % 4 ≠ 0) : jumpRet e t = .error (.trap .align 0x36 e.opa true) := by
  rw [jumpRet, bind_ok (m := getCx) rfl, bind_error (alignedTarget_trap hal)]

theorem jumpRet_away {e : Entry} (hal : e.opa.toNat % 4 = 0) (hres : 2 ≤ t.cx.rf.cwp ∧ t.cx.rf.low + 1 = t.cx.rf.cwp) :
    jumpRet e t = .error (.trap .winunf 0 (BitVec.ofNat 64 t.cx.rf.cwp) true) := by
  rw [jumpRet, bind_ok (m := getCx) rfl, bind_ok (alignedTarget_ok hal), if_pos hres]
  rfl

theorem State.rf_issuedAs (s : State) (h : Shape) : (s.issuedAs h).cx.rf = s.cx.rf := by
  obtain ⟨_, _, hissue⟩ := s.cx.issue_eq h
  rw [State.cx_issuedAs, hissue]

/-- A call whose check of the window traps. -/
theorem calls_trap {c : Cause} {code : Nat} {aux : W64} (hq : s.quiet = true) (hl : s.cx.level = 0)
    (h : ∀ t, t.cx.rf = s.cx.rf → callChecks t = .error (.trap c code aux true)) (a g disp : Nat) :
    exec (.call disp) s = .next (s.trapHere c code aux).stamp ∧
      (s.guardOk g = true → (s.reg a).toNat % 4 = 0 → exec (.callr a g) s = .next (s.trapHere c code aux).stamp) := by
  constructor
  · exact (issuable_call (h := (Instr.call disp).shape) hq hl rfl (by simp)).balks (jump := jumpCall disp) (p := true)
      (.inr ⟨rfl, bind_error (h _ (s.rf_issuedAs _))⟩)
  · intro hg hal
    exact (issuable_call (h := (Instr.callr a g).shape) hq hl hg (by simp)).balks (jump := jumpCallr) (p := true)
      (.inr ⟨rfl, (bind_ok (alignedTarget_ok hal)).trans (bind_error (h _ (s.rf_issuedAs _)))⟩)

theorem windowTraps : Stated.WindowTraps := by
  intro s a g disp hq cwp traps
  refine ⟨fun hg hal => ?_, fun hl => ⟨fun hdepth hfull => ?_, fun hdepth => ?_, fun hg => ⟨fun hal => ?_, fun hdepth => ?_,
    fun hdepth hal => ?_, fun htwo hlow hal => ?_⟩⟩⟩
  · exact (issuable_of_quiet (h := (Instr.jr a g).shape) hq hg (by simp) (.inr rfl)).balks (jump := jumpJr) (p := true)
      (.inr ⟨rfl, bind_error (alignedTarget_trap hal)⟩)
  · exact calls_trap hq hl (fun t ht => by rw [callChecks_full (by rwa [ht]) (by rwa [ht]), ht]) a g disp
  · exact calls_trap hq hl (fun t ht => by rw [callChecks_deepest (by rwa [ht]), ht]) a g disp
  · exact (issuable_call (h := (Instr.callr a g).shape) hq hl hg (by simp)).balks (jump := jumpCallr) (p := true)
      (.inr ⟨rfl, bind_error (alignedTarget_trap hal)⟩)
  all_goals
    have hret {c : Cause} {code : Nat} {aux : W64} := (issuable_call (h := (Instr.ret g).shape) hq hl hg (by simp)).balks
      (word := (encodeNat (.ret g)).getD 0) (pre := retCheck) (jump := jumpRet) (p := true) (c := c) (code := code) (aux := aux)
  · exact hret (.inl (retCheck_trap hdepth))
  · exact hret (.inr ⟨retCheck_ok hdepth, jumpRet_misaligned hal⟩)
  · refine hret (.inr ⟨retCheck_ok (Nat.ne_of_gt (Nat.lt_of_lt_of_le Nat.two_pos htwo)), ?_⟩)
    rw [jumpRet_away hal (by rw [State.rf_issuedAs]; exact ⟨htwo, hlow⟩), State.rf_issuedAs]

/-- Settles O8: a call and a return change the window once their checks, in the stated order, let them pass. -/
theorem callWords : Obligations.CallWords := ⟨callResults, windowTraps⟩

end Sys2Proof.Machine
end

/-! # Operands that trap (O23) -/

section
namespace Sys2Proof.Machine

variable {s t : State} {h : Shape} {i : Instr} {eff : Eff} {e : Entry} {a b d g m n disp word want : Nat} {r : RegId} {x : Bool}

/-! ### Transient results (07 R128) -/

theorem rW_stale (hloc : s.cx.wloc n = some r) (hstale : ∃ k, s.cx.flow.staleTag r = some k) (hbypass : s.cx.flow.bypassed r = none) :
    rW n s = .error (.trap .stale 0 (BitVec.ofNat 64 n) true) := by
  obtain ⟨k, hk⟩ := hstale
  unfold rW
  simp only [hloc, hk, hbypass]

theorem staleOperandTraps : Stated.StaleOperandTraps := by
  intro s d a b t r hchain hin hgone hloops hfollow halone hloc hstale hbypass
  have hl : s.Lone := ⟨hloops, hfollow, halone⟩
  have hgate (word : Nat) : gate word (Instr.add d a b t 0).shape s = .ok (true, s) := by
    rw [gate_unwindowed hl hin hgone word (by rw [hchain]; exact Shape.accepts_nil (by simp))
      (by rw [hchain]; exact Shape.unfit_nil _), bind_ok (guard_ok rfl)]
    simp [Shape.barred, Shape.reads]
    rfl
  have hcapture (word : Nat) : capture (.add d a b t 0) word (Instr.add d a b t 0).shape false s =
      .error (.trap .stale 0 (BitVec.ofNat 64 a) true) := by
    rw [capture, bind_ok (m := rWo _) rfl]
    exact bind_error (rW_stale hloc hstale hbypass)
  have hrun (word : Nat) : runEff s (Instr.add d a b t 0).shape (.add d a b t 0) word (finAdd d t) =
      .next (s.trapHere .stale 0 (BitVec.ofNat 64 a)) := by
    have hvq : vqTrap s (Instr.add d a b t 0).shape (.add d a b t 0) word (finAdd d t) = none := by
      simp [vqTrap, Ctx.readsVq]
    unfold runEff
    simp only [hvq, hcapture]
  exact issueWord_runs hl (hgate _) (hrun _) (State.alone_trapHere halone _ _ _)

/-! ### Slots with no value (07 R132) -/

/-- A word of the guard-slot logic whose sources trap. -/
theorem exec_qlogic_traps (hq : s.quiet = true) (hg : s.guardOk g = true) (hsh : i.shape = { g := g }) (hx : exec i s = issue i eff s)
    (he : ∀ e, eff e (s.setCx s.cx.stepped) = .error (.trap .prot 0x16 (BitVec.ofNat 64 n) true)) :
    exec i s = .next (s.trapHere .prot 0x16 (BitVec.ofNat 64 n)).stamp := by
  have hi : Issuable s i.shape := issuable_of_quiet hq (by rwa [hsh]) (by simp [hsh]) (.inr (by rw [hsh]; rfl))
  refine hx.trans (hi.traps (by rw [hsh]) ?_)
  rw [State.issuedAs_short hi.idle (by rw [hsh]), he]

/-- The first source with no value. -/
theorem firstSlot_traps {k : Bool → M Unit} (ha : (s.setCx s.cx.stepped).cx.qOf a = .empty) (e : Entry) :
    plain (fun _ => rQ a >>= k) e (s.setCx s.cx.stepped) = .error (.trap .prot 0x16 (BitVec.ofNat 64 a) true) :=
  bind_error (bind_error (rQ_empty ha))

/-- The second source with no value. -/
theorem secondSlot_traps {k : Bool → Bool → M Unit} (ha : (s.setCx s.cx.stepped).cx.qOf a = .val x)
    (hb : (s.setCx s.cx.stepped).cx.qOf b = .empty) (e : Entry) :
    plain (fun _ => rQ a >>= fun x => rQ b >>= k x) e (s.setCx s.cx.stepped) = .error (.trap .prot 0x16 (BitVec.ofNat 64 b) true) := by
  exact bind_error ((bind_ok (rQ_val ha)).trans (bind_error (rQ_empty hb)))

/-- A branch on a slot with no value. -/
theorem exec_branchQ_traps {f : Bool → Bool} (hq : s.quiet = true) (hsh : i.shape = { transfer := true })
    (hx : exec i s = jump i (fun e => rQ a >>= fun q => branch (f q) disp e) s) (ha : (s.setCx s.cx.stepped).cx.qOf a = .empty) :
    exec i s = .next (s.trapHere .prot 0x16 (BitVec.ofNat 64 a)).stamp := by
  have hi : Issuable s i.shape := issuable_of_quiet hq (by rw [hsh]; rfl) (by simp [hsh]) (.inr (by rw [hsh]; rfl))
  refine hx.trans (hi.balks (p := true) (.inr ⟨rfl, ?_⟩))
  rw [State.issuedAs_short hi.idle (by rw [hsh])]
  exact bind_error (rQ_empty ha)

theorem emptySlotTraps : Stated.EmptySlotTraps := by
  intro s d a b g disp hq traps
  have hcx (n : Nat) : (s.setCx s.cx.stepped).cx.qOf n = s.cx.qOf n := by rw [State.cx_setCx]; rfl
  refine ⟨fun i hg hh hslot => ?_, fun ha => ?_, fun ⟨x, ha⟩ hb hg => ?_⟩
  · obtain ⟨run, hx⟩ := exec_guarded i hg s
    refine hx.trans (issueWord_stops (p := true) (State.lone_of_quiet hq) ?_)
    rw [gate_guard hq hh]
    exact bind_error (by rw [guard, if_neg hg, rQ_empty hslot])
  · rw [← hcx] at ha
    refine ⟨exec_branchQ_traps (f := id) hq rfl rfl ha, exec_branchQ_traps (f := fun q => !q) hq rfl rfl ha, fun hg => ?_⟩
    have one {i : Instr} {eff : Eff} := exec_qlogic_traps (i := i) (eff := eff) (n := a) hq hg
    exact ⟨one rfl rfl (firstSlot_traps ha), one rfl rfl (firstSlot_traps ha), one rfl rfl (firstSlot_traps ha),
      one rfl rfl (firstSlot_traps ha), one rfl rfl (firstSlot_traps ha)⟩
  · rw [← hcx] at ha hb
    have two {i : Instr} {eff : Eff} := exec_qlogic_traps (i := i) (eff := eff) (n := b) hq hg
    exact ⟨two rfl rfl (secondSlot_traps ha hb), two rfl rfl (secondSlot_traps ha hb), two rfl rfl (secondSlot_traps ha hb),
      two rfl rfl (secondSlot_traps ha hb)⟩

/-! ### Tags (08 R161, 09 R173) -/

/-- The auxiliary word of a FORMAT trap (08 R161). -/
def formatAux (want found reg : Nat) : W64 := BitVec.ofNat 64 (want * 2 ^ 16 + found * 2 ^ 8 + reg)

/-- The tag that a trap names as wanted where `ok` are accepted. -/
def wantedTag (ok : List Nat) : Nat :=
  match ok with
  | [x] => x
  | _ => 0xFF

theorem accept_refuses {ok : List Nat} (hok : e.ta (ok.headD 0) ∉ ok) (hst : t.cx.stream = none) :
    accept e a ok t = .error (.trap .format 0 (formatAux (wantedTag ok) (e.ta (ok.headD 0)) (32 + a)) true) := by
  have hsrc : t.cx.srcReg a = 32 + a := by simp [Ctx.srcReg, hst]
  have hno : ¬ ok.contains (e.ta (ok.headD 0)) = true := by simpa using hok
  unfold accept
  rw [if_neg hno]
  show format (wantedTag ok) _ (t.cx.srcReg a) t = _
  rw [format, trapPre, formatAux, hsrc]

theorem matchB_refuses (hb : e.tb want ≠ want) :
    matchB e b want t = .error (.trap .format 0 (formatAux want (e.tb want) (32 + b)) true) := by
  rw [matchB, if_neg hb]
  rfl

theorem maskedTag_refuses {d' : Nat} (hm : m ≠ 0) (hd : e.ext[2]? = some d') (hne : d' ≠ want) :
    maskedTag m d want e t = .error (.trap .format 0 (formatAux want d' (32 + d)) true) := by
  have htag (x : Nat) : e.ext.getD 2 x = d' := by simp [hd]
  rw [maskedTag, bind_ok (m := getCx) rfl, htag, if_pos ⟨hm, hne⟩]
  rfl

theorem descCheck_refuses {ok : Nat → Bool} (hd : descValid (t.cx.fOf n).toNat = false ∨ ok (descKind (t.cx.fOf n).toNat) = false) :
    descCheck ok n t = .error (.trap .format 0 (formatAux 0xFF 0xFF (96 + n)) true) := by
  have hno : ¬ (descValid (t.cx.fOf n).toNat && ok (descKind (t.cx.fOf n).toNat)) = true := by
    obtain h | h := hd <;> simp [h]
  rw [descCheck, bind_ok (m := getCx) rfl, if_neg hno]
  rfl

/-- A vector word that finds a tag which it does not accept. -/
theorem exec_refused {f : Entry → M Unit} {found reg : Nat} (hq : s.quiet = true) (hl : s.cx.level = 0) (hg : i.shape.g = 0)
    (hh : i.shape.home = none) (hla : i.shape.la = 0) (hx : exec i s = issue i (plain f) s)
    (he : f (s.entryAt i ((encodeNat i).getD 0) i.shape) (s.issuedAs i.shape) =
      .error (.trap .format 0 (formatAux want found reg) true)) :
    exec i s = .next (s.trapHere .format 0 (formatAux want found reg)).stamp := by
  have hi : Issuable s i.shape := issuable_of_quiet hq (by rw [hg]; rfl) (by simp [hh]) (.inl hl)
  exact hx.trans (hi.traps hla (bind_error he))

theorem formatTraps : Stated.FormatTraps := by
  intro s d a b m t hq hl refused
  have hs := State.idle_of_quiet hq
  have hstream (h : Shape) : (s.issuedAs h).cx.stream = none := by rw [State.cx_issuedAs, Ctx.issue_stream, hs.stream]
  have hspec (h : Shape) : (s.issuedAs h).cx.fOf b = s.cx.fOf b := by
    rw [State.cx_issuedAs, Ctx.fOf, (s.cx.issue_vec_spec h).2]
    rfl
  have no {i : Instr} {want found reg : Nat} {f : Entry → M Unit} :=
    exec_refused (i := i) (want := want) (found := found) (reg := reg) (f := f) hq hl
  refine ⟨fun ha => ?_, fun ha hb => ?_, fun ha hb hm hd => ?_, fun ha => ?_, fun ha => ?_, fun hd hlo hhi => ?_⟩
  · exact no rfl rfl rfl rfl (bind_error (accept_refuses ha (hstream _)))
  · exact no rfl rfl rfl rfl ((bind_ok (accept_run _ _ _ _ (List.contains_iff_mem.2 ha))).trans (bind_error (matchB_refuses hb)))
  · refine no rfl rfl rfl rfl ((bind_ok (accept_run _ _ _ _ (List.contains_iff_mem.2 ha))).trans
      ((bind_ok (matchB_run _ _ _ _ ?_)).trans (bind_error (maskedTag_refuses hm ?_ hd))))
    · exact hb
    · exact congrArg some (vtagOf_quiet s d hs.stale)
  · exact no rfl rfl rfl rfl (bind_error (accept_refuses (mt List.mem_singleton.1 ha) (hstream _)))
  · exact no rfl rfl rfl rfl (bind_error (accept_refuses (mt List.mem_singleton.1 ha) (hstream _)))
  · have htag : s.vtag a ∈ [1, 2, 3, 4, 5] := by
      simp only [List.mem_cons, List.not_mem_nil, or_false]
      omega
    refine no rfl rfl rfl rfl ((bind_ok (accept_run _ _ _ _ (List.contains_iff_mem.2 htag))).trans
      (bind_error (descCheck_refuses ?_)))
    rw [hspec]
    exact hd.imp_right fun h => decide_eq_false (not_le.2 h)

/-- Settles O23: each operand is read before any effect, and the word traps where it is read or where its tag is checked. -/
theorem operandTraps : Obligations.OperandTraps := ⟨staleOperandTraps, emptySlotTraps, formatTraps⟩

end Sys2Proof.Machine
end

/-! # Control registers (O42) -/

section
namespace Sys2Proof.Machine

variable {s t : State} {h : Shape} {i : Instr} {d n word core k : Nat} {v : W64} {rd wr : List Nat} {eff : Entry → M Unit}

/-! ### SYS words (07 R131) -/

theorem sysShape_unbarred (rd wr : List Nat) : (sysShape rd wr).barred = false := by
  cases hd : rd.head? <;> simp [Shape.barred, Shape.reads, sysShape, hd]

theorem issuable_sys (hq : s.quiet = true) (rd wr : List Nat) : Issuable s (sysShape rd wr) :=
  issuable_of_quiet hq rfl (by simp [sysShape]) (.inr (sysShape_unbarred rd wr))

theorem State.issuedAs_sys (hq : s.quiet = true) (rd wr : List Nat) : s.issuedAs (sysShape rd wr) = passed s :=
  State.issuedAs_short (State.idle_of_quiet hq) rfl

/-- The entry that a SYS word captures. -/
def State.sysEntry (s : State) (word : Nat) (rd wr : List Nat) : Entry := s.entryAt .nop word (sysShape rd wr)

/-- A SYS word whose effect completes. -/
theorem sysIssue_acts (hq : s.quiet = true) (he : eff (s.sysEntry word rd wr) (passed s) = .ok ((), t)) (ht : t.Lone) :
    sysIssue word (sysShape rd wr) eff s = .next t.stamp := by
  rw [← State.issuedAs_sys hq rd wr] at he
  exact (issuable_sys hq rd wr).acts rfl (plain_ok he) ht

/-- A SYS word that traps before its issue. -/
theorem sysIssue_traps {c : Cause} {code : Nat} {aux : W64} (hq : s.quiet = true)
    (he : eff (s.sysEntry word rd wr) (passed s) = .error (.trap c code aux true)) :
    sysIssue word (sysShape rd wr) eff s = .next (s.trapHere c code aux).stamp := by
  rw [← State.issuedAs_sys hq rd wr] at he
  exact (issuable_sys hq rd wr).traps rfl (bind_error he)

theorem State.lone_passed (hq : s.quiet = true) : (passed s).Lone :=
  (State.lone_of_quiet hq).setCx (State.lone_of_quiet hq).loops (State.lone_of_quiet hq).follow

theorem State.cx_passed (s : State) : (passed s).cx = s.cx.stepped := State.cx_setCx ..

theorem State.core_passed (s : State) : (passed s).core s.cur.1 = (s.core s.cur.1).setCtx s.cur.2 s.cx.stepped :=
  State.core_setCore_same ..

theorem State.ctx_passed (s : State) : (passed s).ctx s.cur.1 s.cur.2 = s.cx.stepped := s.cx_passed

theorem State.ctl_passed (s : State) (n : Nat) : (passed s).ctl s.cur.1 s.cur.2 n = s.ctl s.cur.1 s.cur.2 n := by
  unfold State.ctl State.privOf State.cimg
  rw [State.core_passed, State.ctx_passed]
  rfl

theorem State.privOf_passed (s : State) : (passed s).privOf s.cur.1 s.cur.2 = s.privOf s.cur.1 s.cur.2 := by
  unfold State.privOf
  rw [State.core_passed, State.ctx_passed]
  rfl

/-! ### What a write of a control register changes -/

theorem Ctx.setFlags_eq (c : Ctx) (f : Flags) : ∃ sp hf, c.setFlags f = { c with spec := sp, hflags := hf } := by
  unfold Ctx.setFlags
  split
  · exact ⟨_, c.hflags, rfl⟩
  · exact ⟨c.spec, f, rfl⟩

/-- What a write of control register `n` may make of `s`: nothing changes, or the registers of the context, those of the core, or its
rings. -/
inductive CtlWrites (s : State) (core k n : Nat) : State → Prop
  | nothing : CtlWrites s core k n s
  | ctx (sp : SpecFile) (hf : Flags) : CtlWrites s core k n (s.setCtx core k { s.ctx core k with spec := sp, hflags := hf })
  | core (cr : Tbl W64) (ov : W64) (dom : Nat) :
    CtlWrites s core k n (s.setCore core { s.core core with creg := cr, evovfb := ov, evdom := dom })
  | rings (v : Nat) (h : n = 0x041) : CtlWrites s core k n (s.rbenSet core (s.core core).domain v)

theorem CtlWrites.spec (sp : SpecFile) : CtlWrites s core k n (s.setCtx core k { s.ctx core k with spec := sp }) :=
  .ctx sp (s.ctx core k).hflags

theorem State.ctlPut_writes (s : State) (core k n : Nat) (v : W64) : CtlWrites s core k n (s.ctlPut core k n v) := by
  have hflags : CtlWrites s core k n (s.setCtx core k ((s.ctx core k).setFlags (BitVec.ofNat 5 v.toNat))) := by
    obtain ⟨sp, hf, h⟩ := (s.ctx core k).setFlags_eq (BitVec.ofNat 5 v.toNat)
    rw [h]
    exact .ctx sp hf
  have hcreg (cr : Tbl W64) : CtlWrites s core k n (s.setCore core { s.core core with creg := cr }) :=
    .core cr (s.core core).evovfb (s.core core).evdom
  refine iteInduction (fun _ => hflags) fun _ => iteInduction (fun _ => hcreg _) fun _ => iteInduction (fun h => .rings _ h) fun _ =>
    iteInduction (fun _ => hcreg _) fun _ => iteInduction (fun _ => .core (s.core core).creg _ (s.core core).domain) fun _ => ?_
  exact iteInduction (fun _ => .spec _) fun _ => iteInduction (fun _ => .spec _) fun _ => iteInduction (fun _ => .spec _) fun _ =>
    iteInduction (fun _ => .spec _) fun _ => iteInduction (fun _ => .spec _) fun _ => .nothing

theorem State.Lone.rbenOne (hl : s.Lone) (hc : core = s.cur.1) (dom v n : Nat) :
    (s.rbenOne core dom v n).Lone ∧ core = (s.rbenOne core dom v n).cur.1 := by
  subst hc
  obtain ⟨h, -⟩ | ⟨h, -⟩ | ⟨r, h, -⟩ := s.rbenOne_cases s.cur.1 dom v n
  · rw [h]
    exact ⟨hl, rfl⟩
  · rw [h]
    exact ⟨hl.setCc rfl, rfl⟩
  · rw [h]
    exact ⟨hl.setCc rfl, rfl⟩

theorem State.Lone.rbenSet (hl : s.Lone) (dom v : Nat) : (s.rbenSet s.cur.1 dom v).Lone := by
  rw [State.rbenSet_eq]
  have hfold (l : List Nat) (core : Nat) : ∀ {t : State}, t.Lone → core = t.cur.1 → (l.foldl (State.rbenOne core dom v) t).Lone := by
    induction l with
    | nil => exact fun ht _ => ht
    | cons n l ih => exact fun ht hc => ih (ht.rbenOne hc dom v n).1 (ht.rbenOne hc dom v n).2
  exact hfold _ _ hl rfl

theorem CtlWrites.lone (h : CtlWrites s s.cur.1 s.cur.2 n t) (hl : s.Lone) : t.Lone := by
  cases h with
  | nothing => exact hl
  | ctx sp hf => exact State.Lone.setCx hl hl.loops hl.follow
  | core cr ov dom => exact hl.setCc rfl
  | rings v h => exact hl.rbenSet _ _

theorem State.Lone.ctlClear (hl : s.Lone) (n : Nat) (v : W64) : (s.ctlClear s.cur.1 n v).Lone := hl.setCc rfl

/-! ### MFC, MTC, MSC and MCC (07 R133) -/

theorem ctlM_ok (hv : s.ctl s.cur.1 s.cur.2 n = some v) (hp : ctlPriv n = false ∨ s.privOf s.cur.1 s.cur.2 = true) :
    ctlM word n (passed s) = .ok (v, passed s) := by
  have hno : ¬ (ctlPriv n && !s.privOf s.cur.1 s.cur.2) = true := by
    obtain hp | hp := hp <;> simp [hp]
  have hcur : (passed s).cur = s.cur := rfl
  unfold ctlM
  rw [hcur, s.ctl_passed, s.privOf_passed, hv]
  exact if_neg hno

theorem ctlM_privileged (hv : (s.ctl s.cur.1 s.cur.2 n).isSome = true) (hp : ctlPriv n = true)
    (hno : s.privOf s.cur.1 s.cur.2 = false) : ctlM word n (passed s) = .error (.trap .prot 0x11 (BitVec.ofNat 64 n) true) := by
  obtain ⟨v, hv⟩ := Option.isSome_iff_exists.1 hv
  have hcur : (passed s).cur = s.cur := rfl
  unfold ctlM
  rw [hcur, s.ctl_passed, s.privOf_passed, hv]
  exact if_pos (by rw [hp, hno]; rfl)

/-- A word on control register `n`, of which `f` is the effect once the register's value is known. -/
def ctlWord (word n : Nat) (rd wr : List Nat) (f : Entry → W64 → M Unit) (s : State) : Host.Outcome State Fault Refusal :=
  assigned word n s (sysIssue word (sysShape rd wr) (fun e => ctlM word n >>= f e))

section
variable {f : Entry → W64 → M Unit} (hq : s.quiet = true)
include hq

theorem ctlWord_acts (hv : s.ctl s.cur.1 s.cur.2 n = some v) (hp : ctlPriv n = false ∨ s.privOf s.cur.1 s.cur.2 = true)
    (he : f (s.sysEntry word rd wr) v (passed s) = .ok ((), t)) (ht : t.Lone) : ctlWord word n rd wr f s = .next t.stamp := by
  rw [ctlWord, assigned, hv]
  exact sysIssue_acts hq ((bind_ok (ctlM_ok hv hp)).trans he) ht

theorem ctlWord_unassigned (hv : s.ctl s.cur.1 s.cur.2 n = none) :
    ctlWord word n rd wr f s = .next (s.trapHere .illegal 0 (BitVec.ofNat 64 word)).stamp := by
  have hclosed : s.cx.flow.closed = false := by rw [Flow.closed, (State.idle_of_quiet hq).inflight]; rfl
  rw [ctlWord, assigned, hv, illegal, hclosed, State.trapHere_stamp]
  rfl

theorem ctlWord_privileged (hv : (s.ctl s.cur.1 s.cur.2 n).isSome = true) (hp : ctlPriv n = true)
    (hno : s.privOf s.cur.1 s.cur.2 = false) :
    ctlWord word n rd wr f s = .next (s.trapHere .prot 0x11 (BitVec.ofNat 64 n)).stamp := by
  obtain ⟨v, hv'⟩ := Option.isSome_iff_exists.1 hv
  rw [ctlWord, assigned, hv']
  exact sysIssue_traps hq (bind_error (ctlM_privileged hv hp hno))

end

/-- The effect of a word that writes control register `n`: `clear` where ones of it are cleared, and else `f` of its value and wD. -/
def ctlEff (n : Nat) (clear : State → W64 → State) (f : W64 → W64 → W64) (e : Entry) (v : W64) : M Unit :=
  modify fun s => if ctlW1c n then clear s e.opd else s.ctlPut s.cur.1 s.cur.2 n (f v e.opd)

section
variable {clear : State → W64 → State} {f : W64 → W64 → W64} (hq : s.quiet = true) (hv : s.ctl s.cur.1 s.cur.2 n = some v)
  (hp : ctlPriv n = false ∨ s.privOf s.cur.1 s.cur.2 = true)
include hq hv hp

theorem ctlWord_puts (hw : ctlW1c n = false) : ctlWord word n [d] [] (ctlEff n clear f) s =
    .next ((passed s).ctlPut s.cur.1 s.cur.2 n (f v (s.reg d))).stamp := by
  have hput := ((passed s).ctlPut_writes s.cur.1 s.cur.2 n (f v (s.reg d))).lone (State.lone_passed hq)
  exact ctlWord_acts hq hv hp (congrArg (fun t => Except.ok ((), t)) (if_neg (by simp [hw]))) hput

theorem ctlWord_clears (hw : ctlW1c n = true) (hl : (clear (passed s) (s.reg d)).Lone) :
    ctlWord word n [d] [] (ctlEff n clear f) s = .next (clear (passed s) (s.reg d)).stamp :=
  ctlWord_acts hq hv hp (congrArg (fun t => Except.ok ((), t)) (if_pos hw)) hl

end

theorem execMfc_eq (d n : Nat) (s : State) : exec (.mfc d n) s = ctlWord (sysNum 0 d n) n [] [d] (fun _ v => wW d v false) s := rfl

theorem execMtc_eq (d n : Nat) (s : State) : exec (.mtc d n) s =
    ctlWord (sysNum 1 d n) n [d] [] (ctlEff n (fun s x => s.ctlClear s.cur.1 n x) fun _ x => x) s := rfl

theorem execMsc_eq (d n : Nat) (s : State) : exec (.msc d n) s =
    ctlWord (sysNum 2 d n) n [d] [] (ctlEff n (fun s _ => s) fun v x => v ||| x) s := rfl

theorem execMcc_eq (d n : Nat) (s : State) : exec (.mcc d n) s =
    ctlWord (sysNum 3 d n) n [d] [] (ctlEff n (fun s x => s.ctlClear s.cur.1 n x) fun v x => v &&& ~~~x) s := rfl

theorem controlRegisterWords : Stated.ControlRegisterWords := by
  intro s d n hq core k x
  have hl := State.lone_passed hq
  rw [execMfc_eq, execMtc_eq, execMsc_eq, execMcc_eq]
  refine ⟨fun v hv hp => ⟨?_, fun hw => ?_, fun hw => ?_⟩, ?_⟩
  · rw [ctlWord_acts (f := fun _ v => wW d v false) hq hv hp rfl
      (hl.setCx ((writeW_loops ..).trans hl.loops) ((writeW_follow ..).trans hl.follow)), State.cx_passed, passed, State.setCx_setCx,
      State.stamp_setCx]
    rfl
  · exact ⟨ctlWord_puts hq hv hp hw, ctlWord_puts hq hv hp hw, ctlWord_puts hq hv hp hw⟩
  · exact ⟨ctlWord_clears hq hv hp hw (hl.ctlClear _ _), ctlWord_clears hq hv hp hw hl, ctlWord_clears hq hv hp hw (hl.ctlClear _ _)⟩
  · intro stops
    refine ⟨fun hv => ?_, fun hv hp hno => ?_, rfl, rfl, rfl, rfl⟩
    · exact ⟨ctlWord_unassigned hq hv, ctlWord_unassigned hq hv, ctlWord_unassigned hq hv, ctlWord_unassigned hq hv⟩
    · exact ⟨ctlWord_privileged hq hv hp hno, ctlWord_privileged hq hv hp hno, ctlWord_privileged hq hv hp hno,
        ctlWord_privileged hq hv hp hno⟩

/-! ### What the registers keep (07 R134) -/

theorem Ctx.flags_setFlags (c : Ctx) (f : Flags) : (c.setFlags f).flags = f := by
  by_cases h : c.level = 0 <;> simp [Ctx.setFlags, Ctx.flags, h]

theorem ctl_descriptor {j : Nat} (hj : j < 16) (s : State) (core k : Nat) :
    s.ctl core k (0x0C0 + j) = some (BitVec.ofNat 64 ((s.ctx core k).fOf j).toNat) := by
  simp (disch := omega) only [State.ctl, if_neg, if_pos, Nat.add_sub_cancel_left]

theorem ctlPut_descriptor {j : Nat} (hj : j < 16) (s : State) (core k : Nat) (v : W64) :
    s.ctlPut core k (0x0C0 + j) v = s.setCtx core k { s.ctx core k with spec := { (s.ctx core k).spec with
      f := Tbl.set 0x70348 (s.ctx core k).spec.f j (BitVec.ofNat 32 (v &&& 0xF0FF1FF8).toNat) } } := by
  simp (disch := omega) only [State.ctlPut, if_neg, if_pos, Nat.add_sub_cancel_left]

theorem ctl_scale {j : Nat} (hj : j < 8) (s : State) (core k : Nat) :
    s.ctl core k (0x0D0 + j) = some (BitVec.ofNat 64 ((s.ctx core k).sOf j).toNat) := by
  simp (disch := omega) only [State.ctl, if_neg, if_pos, Nat.add_sub_cancel_left]

theorem ctlPut_scale {j : Nat} (hj : j < 8) (s : State) (core k : Nat) (v : W64) :
    s.ctlPut core k (0x0D0 + j) v = s.setCtx core k { s.ctx core k with spec := { (s.ctx core k).spec with
      s := Tbl.set 0x3F800000 (s.ctx core k).spec.s j (BitVec.ofNat 32 v.toNat) } } := by
  simp (disch := omega) only [State.ctlPut, if_neg, if_pos, Nat.add_sub_cancel_left]

/-- A register of `n` bits reads as the low-order bits written. -/
theorem lowBits_eq {n : Nat} (hn : n ≤ 64) (v : W64) :
    BitVec.ofNat 64 (BitVec.ofNat n v.toNat).toNat = v &&& BitVec.ofNat 64 (2 ^ n - 1) := by
  have hpow : 2 ^ n ≤ 2 ^ 64 := Nat.pow_le_pow_right (by decide) hn
  have hlt : 2 ^ n - 1 < 2 ^ 64 := Nat.lt_of_lt_of_le (Nat.sub_lt (Nat.two_pow_pos n) Nat.one_pos) hpow
  apply BitVec.eq_of_toNat_eq
  rw [BitVec.toNat_and, BitVec.toNat_ofNat, BitVec.toNat_ofNat, BitVec.toNat_ofNat, Nat.mod_eq_of_lt hlt,
    Nat.and_two_pow_sub_one_eq_mod, Nat.mod_eq_of_lt (Nat.lt_of_lt_of_le (Nat.mod_lt _ (Nat.two_pow_pos n)) hpow)]

theorem CtlWrites.keeps (h : CtlWrites s core k n t) (hn : n ≠ 0x041) : t.mem = s.mem ∧ (t.ctx core k).rf = (s.ctx core k).rf := by
  cases h with
  | nothing => exact ⟨rfl, rfl⟩
  | ctx sp hf => exact ⟨rfl, by rw [State.ctx_setCtx_same]⟩
  | core cr ov dom =>
    refine ⟨rfl, ?_⟩
    rw [State.ctx, State.core_setCore_same]
    rfl
  | rings v h => exact absurd h hn

theorem controlRegisterValues : Stated.ControlRegisterValues := by
  intro s core k v u
  refine ⟨?_, ?_, ?_, ?_, fun j hj => ?_, fun j hj => ?_, fun n hn => ?_, fun n hn => ?_⟩
  · show some (BitVec.ofNat 64 ((s.setCtx core k ((s.ctx core k).setFlags (BitVec.ofNat 5 v.toNat))).ctx core k).flags.toNat) = _
    rw [State.ctx_setCtx_same, Ctx.flags_setFlags, lowBits_eq (by decide)]
    rfl
  · show some (BitVec.ofNat 64 ((s.setCtx core k _).ctx core k).spec.xlfmt.toNat) = _
    rw [State.ctx_setCtx_same, lowBits_eq (by decide)]
    rfl
  · show some ((s.setCtx core k _).ctx core k).spec.pivthr = _
    rw [State.ctx_setCtx_same]
  · show some ((s.setCtx core k _).ctx core k).spec.pivreg = _
    rw [State.ctx_setCtx_same]
  · show State.ctl _ core k (0x0C0 + j) = _
    rw [ctlPut_descriptor hj, ctl_descriptor hj, State.ctx_setCtx_same, Ctx.fOf, Tbl.get_set_same, lowBits_eq (by decide),
      BitVec.and_assoc]
    rfl
  · show State.ctl _ core k (0x0D0 + j) = _
    rw [ctlPut_scale hj, ctl_scale hj, State.ctx_setCtx_same, Ctx.sOf, Tbl.get_set_same, lowBits_eq (by decide)]
    rfl
  · fin_cases hn <;> rfl
  · obtain ⟨hmem, hrf⟩ := (s.ctlPut_writes core k n v).keeps hn
    exact ⟨fun x => by rw [hmem], hrf⟩

/-- Settles O42: each word reads the register, checks privilege and makes the one write that the map gives. -/
theorem controlRegisters : Obligations.ControlRegisters := ⟨controlRegisterWords, controlRegisterValues⟩

end Sys2Proof.Machine
end

/-! # SPILLW and FILLW (O45) -/

section
namespace Sys2Proof.Machine

variable {s t u : State} {d win slot v low cwp a n : Nat}

/-! ### What the words read and write of the image (18 R337) -/

theorem imageM_ok {α : Type} {r : Except (Flt × W64) α} {x : α} (h : r = .ok x) (t : State) : imageM r t = .ok (x, t) := by
  rw [h]
  rfl

theorem trappedWin_ok (h : t.vread (t.hwWho t.cur.1) (t.cimg t.cur.1 t.cur.2 + frameOff 0 + 0x20) 8 = .ok win) :
    trappedWin t = .ok ((t.cimg t.cur.1 t.cur.2 + frameOff 0 + 0x20, win % 2 ^ 32, win / 2 ^ 32), t) := by
  rw [trappedWin, bind_ok (m := get) rfl, bind_ok (imageM_ok h t)]
  rfl

theorem slotM_ok (h : t.frameSlot t.cur.1 t.cur.2 d = .ok slot) : slotM d t = .ok (slot, t) := by
  rw [slotM, bind_ok (m := get) rfl, imageM_ok h]

theorem modCc_eq (f : Core → Core) (t : State) : modCc f t = .ok ((), t.setCc (f t.cc)) := rfl

theorem setLow_ok {core : Nat} (hc : t.cur.1 = core) (h : t.vwrite (t.hwWho core) a 8 (cwp + low * 2 ^ 32) = .ok u) :
    setLow a cwp low t = .ok ((), lowSet u low) := by
  subst hc
  rw [setLow, bind_ok (m := get) rfl, bind_ok (imageM_ok h t)]
  rfl

theorem State.Lone.vwrite {w : Who} {va n v : Nat} (hl : t.Lone) (h : t.vwrite w va n v = .ok u) : u.Lone := by
  obtain ⟨hcores, hcur⟩ := ExceptOk.of_ok h (ExceptOk.cores_vwrite w va n v)
  exact hl.congr hcores hcur

theorem State.cur_vwrite {w : Who} {va n v : Nat} (h : t.vwrite w va n v = .ok u) : u.cur = t.cur :=
  (ExceptOk.of_ok h (ExceptOk.cores_vwrite w va n v)).2

theorem State.Lone.lowSet (hl : t.Lone) (low : Nat) : (lowSet t low).Lone := hl.setCx hl.loops hl.follow

theorem State.Lone.unstale (hl : t.Lone) (low : Nat) : (unstale t low).Lone := hl.setCx hl.loops hl.follow

theorem State.Lone.writeW (hl : t.Lone) (d : Nat) (v : W64) : (t.setCx (t.cx.writeW d v false)).Lone :=
  hl.setCx ((writeW_loops ..).trans hl.loops) ((writeW_follow ..).trans hl.follow)

theorem State.cimg_passed (s : State) : (passed s).cimg s.cur.1 s.cur.2 = s.cimg s.cur.1 s.cur.2 := by
  unfold State.cimg
  rw [State.core_passed]
  rfl

theorem State.level_passed (s : State) : (passed s).cx.level = s.cx.level := by
  rw [State.cx_passed]
  rfl

theorem State.cc_passed (s : State) : (passed s).cc = s.cc.setCtx s.cur.2 s.cx.stepped := s.core_passed

/-! ### SPILLW (07 R124) -/

/-- The state once the frame at `low` is out of the register file. -/
def State.frameOut (u : State) (low : Nat) : State := unstale (lowSet u (low + 1)) low

/-- SPILLW has left the frame in its image slot. -/
def State.spillLeft (q : State) (d : Nat) : State := q.setCx (q.cx.writeW d 0 false)

/-- The entry of the spill map for frame `low` of context `k` in a half-row. -/
def spillPlace (k low row half : Nat) : W64 := BitVec.ofNat 64 (2 ^ 63 + k * 2 ^ 59 + low % 2 ^ 32 * 2 ^ 24 + row * 4 + half * 2)

/-- A half-row of the running core holds the frame `v`, and its spill map is `sp`. -/
def State.rowSet (t : State) (row half v : Nat) (sp : Tbl W64) : State := t.setCc { t.cc.parkFrame row half v with spmap := sp }

theorem State.Lone.rowSet (hl : t.Lone) (row half v : Nat) (sp : Tbl W64) : (t.rowSet row half v sp).Lone :=
  State.Lone.setCc (x := { t.cc.parkFrame row half v with spmap := sp }) hl rfl

/-- SPILLW has parked the frame, whose registers are `v`, in a half-row, with entry `n` of the spill map. -/
def State.spillParked (q : State) (d low v row half n : Nat) : State :=
  let z := q.rowSet row half v (Tbl.set 0 q.cc.spmap n (spillPlace q.cur.2 low row half))
  z.setCx (z.cx.writeW d (spillPlace q.cur.2 low row half) false)

theorem State.cur_frameOut (u : State) (low : Nat) : (u.frameOut low).cur = u.cur := rfl

theorem State.Lone.frameOut (hl : u.Lone) (low : Nat) : (u.frameOut low).Lone := (hl.lowSet _).unstale _

theorem State.Lone.spillLeft (hl : t.Lone) (d : Nat) : (t.spillLeft d).Lone := hl.writeW d 0

theorem State.Lone.spillParked (hl : t.Lone) (d low v row half n : Nat) : (t.spillParked d low v row half n).Lone :=
  (hl.rowSet row half v _).writeW d _

/-- The first free entry of the spill map. -/
def Core.spFree (x : Core) : Option Nat := (List.range 32).find? fun n => !bit (Tbl.get 0 x.spmap n).toNat 63

/-- The half-row that the operand `w` of SPILLW names is parked, or no entry is free. -/
def Core.spillRefused (x : Core) (w : Nat) : Bool :=
  (x.spFind fun y => bits y 10 2 == bits w 10 2 && bits y 1 1 == bits w 1 1).isSome || x.spFree.isNone

/-- The half-row that the operand `w` of SPILLW names is marked. -/
def Core.spillMarked (x : Core) (w : Nat) : Bool := Tbl.get false x.marks (2 * bits w 10 2 + bits w 1 1)

/-- What SPILLW does once its checks have passed. -/
theorem exec_spillw_next (hq : s.quiet = true) (hlevel : s.cx.level ≠ 0)
    (hwin : (passed s).vread ((passed s).hwWho s.cur.1) (s.cimg s.cur.1 s.cur.2 + frameOff 0 + 0x20) 8 = .ok win)
    (hlow : win / 2 ^ 32 + 1 < win % 2 ^ 32) (hbits : bits (s.reg d).toNat 62 11 = 0) (hbit : bit (s.reg d).toNat 0 = false)
    (hpark : (bit (s.reg d).toNat 63 && s.cc.spillRefused (s.reg d).toNat) = false)
    (hslot : (passed s).frameSlot s.cur.1 s.cur.2 (win / 2 ^ 32) = .ok slot)
    (hv : (passed s).vread ((passed s).hwWho s.cur.1) slot 128 = .ok v)
    (hu : (passed s).vwrite ((passed s).hwWho s.cur.1) (s.cimg s.cur.1 s.cur.2 + frameOff 0 + 0x20) 8
      (win % 2 ^ 32 + (win / 2 ^ 32 + 1) * 2 ^ 32) = .ok u) :
    exec (.spillw d) s = .next (if bit (s.reg d).toNat 63 && !s.cc.spillMarked (s.reg d).toNat
      then (u.frameOut (win / 2 ^ 32)).spillParked d (win / 2 ^ 32) v (bits (s.reg d).toNat 10 2) (bits (s.reg d).toNat 1 1)
        (s.cc.spFree.getD 0)
      else (u.frameOut (win / 2 ^ 32)).spillLeft d).stamp := by
  have hl : u.Lone := (State.lone_passed hq).vwrite hu
  have hcuru := State.cur_vwrite hu
  rw [← s.cimg_passed] at hwin hu
  rw [← s.level_passed] at hlevel
  refine sysIssue_acts hq ?_ (iteInduction (fun _ => (hl.frameOut _).spillParked ..) fun _ => (hl.frameOut _).spillLeft _)
  refine (bind_ok (m := getCx) rfl).trans ?_
  rw [if_neg hlevel]
  refine (bind_ok (trappedWin_ok hwin)).trans ?_
  have hopd : (s.sysEntry (sysNum 9 d 0) [d] [d]).opd = s.reg d := rfl
  have hcur : (passed s).cur = s.cur := rfl
  dsimp only
  rw [hopd, hcur, if_neg (not_le.2 hlow), if_neg (by simp [hbits, hbit])]
  refine (bind_ok (m := getCc) rfl).trans ?_
  rw [if_neg (by rw [s.cc_passed]; exact (Bool.eq_false_iff.1 hpark))]
  refine (bind_ok (slotM_ok hslot)).trans ((bind_ok (m := get) rfl).trans ((bind_ok (imageM_ok hv _)).trans ?_))
  refine (bind_ok (setLow_ok rfl hu)).trans ((bind_ok (m := modCx _) rfl).trans ?_)
  have hmark : Tbl.get false (passed s).cc.marks (2 * bits (s.reg d).toNat 10 2 + bits (s.reg d).toNat 1 1) =
      s.cc.spillMarked (s.reg d).toNat := by rw [s.cc_passed]; rfl
  rw [hmark]
  by_cases hc : (bit (s.reg d).toNat 63 && !s.cc.spillMarked (s.reg d).toNat) = true
  · rw [if_pos hc, if_pos hc, State.spillParked, spillPlace, State.cur_frameOut, hcuru, hcur, s.cc_passed]
    rfl
  · rw [if_neg hc, if_neg hc]
    rfl

/-! ### FILLW (07 R125) -/

/-- The valid spill map entry of the frame below `low` of context `k`. -/
def Core.spHolds (x : Core) (k low : Nat) : Option Nat := x.spFind fun y => bits y 62 59 == k && bits y 55 24 == low - 1

/-- The half-row of spill map entry `n` holds zeros, and the entry is free. -/
def State.unparked (t : State) (n row half : Nat) : State :=
  t.rowSet row half 0 (Tbl.set 0 t.cc.spmap n 0)

/-- What FILLW makes of the frame below LOW, `u` being the state once WIN is written: the frame stands in its image slot, or in the half-row
of spill map entry `n`. -/
inductive Refills (s : State) (win slot : Nat) : State → Prop
  | fromSlot (v : Nat) (u : State) (hfound : s.cc.spHolds s.cur.2 (win / 2 ^ 32) = none)
    (hv : (passed s).vread ((passed s).hwWho s.cur.1) slot 128 = .ok v)
    (hu : (passed s).vwrite ((passed s).hwWho s.cur.1) (s.cimg s.cur.1 s.cur.2 + frameOff 0 + 0x20) 8
      (win % 2 ^ 32 + (win / 2 ^ 32 - 1) * 2 ^ 32) = .ok u) : Refills s win slot u
  | fromRow (n y : Nat) (t u : State) (hfound : s.cc.spHolds s.cur.2 (win / 2 ^ 32) = some n)
    (hy : (Tbl.get 0 s.cc.spmap n).toNat = y)
    (ht : (passed s).vwrite ((passed s).hwWho s.cur.1) slot 128 (s.cc.parkedFrame (bits y 10 2) (bits y 1 1)) = .ok t)
    (hu : (t.unparked n (bits y 10 2) (bits y 1 1)).vwrite ((t.unparked n (bits y 10 2) (bits y 1 1)).hwWho s.cur.1)
      (s.cimg s.cur.1 s.cur.2 + frameOff 0 + 0x20) 8 (win % 2 ^ 32 + (win / 2 ^ 32 - 1) * 2 ^ 32) = .ok u) : Refills s win slot u

theorem Refills.lone (h : Refills s win slot u) (hq : s.quiet = true) : u.Lone := by
  cases h with
  | fromSlot v _ _ _ hu => exact (State.lone_passed hq).vwrite hu
  | fromRow n y t _ _ _ ht hu => exact (((State.lone_passed hq).vwrite ht).rowSet ..).vwrite hu

theorem State.spHolds_passed (s : State) (low : Nat) :
    ((passed s).cc.spFind fun y => bits y 62 59 == (passed s).cur.2 && bits y 55 24 == low - 1) = s.cc.spHolds s.cur.2 low := by
  rw [s.cc_passed]
  rfl

theorem State.parkedFrame_passed (s : State) (row half : Nat) : (passed s).cc.parkedFrame row half = s.cc.parkedFrame row half := by
  rw [s.cc_passed]
  rfl

theorem State.spmap_passed (s : State) : (passed s).cc.spmap = s.cc.spmap := by
  rw [s.cc_passed]
  rfl

/-- What FILLW does once its checks have passed. -/
theorem exec_fillw_next (hq : s.quiet = true) (hlevel : s.cx.level ≠ 0)
    (hwin : (passed s).vread ((passed s).hwWho s.cur.1) (s.cimg s.cur.1 s.cur.2 + frameOff 0 + 0x20) 8 = .ok win)
    (hlow : win / 2 ^ 32 ≠ 0) (hroom : win % 2 ^ 32 - win / 2 ^ 32 ≠ 5)
    (hslot : (passed s).frameSlot s.cur.1 s.cur.2 (win / 2 ^ 32 - 1) = .ok slot) (h : Refills s win slot u) :
    exec .fillw s = .next (lowSet u (win / 2 ^ 32 - 1)).stamp := by
  have hcur : (passed s).cur = s.cur := rfl
  rw [← s.cimg_passed] at hwin
  rw [← s.level_passed] at hlevel
  refine sysIssue_acts hq ?_ ((h.lone hq).lowSet _)
  refine (bind_ok (m := getCx) rfl).trans ?_
  rw [if_neg hlevel]
  refine (bind_ok (trappedWin_ok hwin)).trans ?_
  dsimp only
  rw [hcur, if_neg (not_or.2 ⟨hlow, hroom⟩)]
  refine (bind_ok (m := get) rfl).trans ((bind_ok (m := getCc) rfl).trans ?_)
  rw [s.spHolds_passed]
  cases h with
  | fromSlot v _ hfound hv hu =>
    rw [← s.cimg_passed] at hu
    rw [hfound]
    exact (bind_ok (slotM_ok hslot)).trans ((bind_ok (imageM_ok hv _)).trans
      (setLow_ok (cwp := win % 2 ^ 32) (low := win / 2 ^ 32 - 1) rfl hu))
  | fromRow n y t _ hfound hy ht hu =>
    have hcurt := State.cur_vwrite ht
    have hzcur : (t.unparked n (bits y 10 2) (bits y 1 1)).cur.1 = s.cur.1 := congrArg Prod.fst hcurt
    rw [State.unparked, State.rowSet] at hu hzcur
    rw [← s.cimg_passed] at hu
    rw [hfound]
    dsimp only
    rw [s.spmap_passed, hy, s.parkedFrame_passed, hcur]
    refine (bind_ok (slotM_ok hslot)).trans ((bind_ok (imageM_ok ht _)).trans ((bind_ok (m := set t) rfl).trans ?_))
    rw [bind_ok (modCc_eq ..), setLow_ok (cwp := win % 2 ^ 32) (low := win / 2 ^ 32 - 1) hzcur hu]

/-- Settles O45: each word reads the window of the trapped context, moves one frame and writes LOW. -/
theorem spillAndFill : Obligations.SpillAndFill := by
  unfold Obligations.SpillAndFill
  intro s d hq core p a w row half
  have hpassed (h : s.cx.level = 0) : (passed s).cx.level = 0 := s.level_passed.trans h
  refine ⟨fun hl => ⟨?_, ?_⟩, ?_, ?_⟩
  · refine sysIssue_traps hq ((bind_ok (m := getCx) rfl).trans ?_)
    rw [if_pos (hpassed hl)]
    rfl
  · refine sysIssue_traps hq ((bind_ok (m := getCx) rfl).trans ?_)
    rw [if_pos (hpassed hl)]
    rfl
  · intro win slot v u hl hwin cwp low hlow hbits hbit hslot hv hu q left
    have hnext (hpark) := exec_spillw_next hq hl hwin hlow hbits hbit hpark hslot hv hu
    refine ⟨fun h63 => ?_, fun n h63 hfree htaken => ?_⟩
    · refine (hnext (by rw [h63]; rfl)).trans ?_
      rw [h63]
      rfl
    · have hspFree : s.cc.spFree = some n := hfree
      have htaken' : (s.cc.spFind fun y => bits y 10 2 == bits (s.reg d).toNat 10 2 && bits y 1 1 == bits (s.reg d).toNat 1 1) = none :=
        htaken
      have hpark : (bit (s.reg d).toNat 63 && s.cc.spillRefused (s.reg d).toNat) = false := by
        rw [Core.spillRefused, htaken', hspFree]
        exact Bool.and_false _
      refine ⟨fun hmark => (hnext hpark).trans ?_, fun hmark => (hnext hpark).trans ?_⟩
      · rw [h63, show s.cc.spillMarked (s.reg d).toNat = true from hmark]
        rfl
      · rw [h63, show s.cc.spillMarked (s.reg d).toNat = false from hmark, hspFree,
          if_pos (show (true && !false) = true from rfl), State.spillParked, State.cur_frameOut, State.cur_vwrite hu,
          show p.cur = s.cur from rfl, spillPlace]
        rfl
  · intro win slot hl hwin cwp low found hlow hroom hslot
    refine ⟨fun v u hfound hv hu => ?_, fun n t u hfound => ?_⟩
    · exact exec_fillw_next hq hl hwin hlow hroom hslot (.fromSlot v u hfound hv hu)
    · intro y ht z hu
      exact exec_fillw_next hq hl hwin hlow hroom hslot (.fromRow n y t u hfound rfl ht hu)

end Sys2Proof.Machine
end

/-! # Lookahead windows (O55)

The statement says of every entry with an open window that the next word issues. A matrix command that has found no place in the queue of
its core stalls its context whatever is left of its window (10 R191, `Entry.stalls`). -/

section
namespace Sys2Proof.Machine

variable {s : State}

/-- A word behind an instruction with a closed window, or a matrix command with no place in the queue, waits. -/
theorem issue_waits (hl : s.Lone) (hclosed : s.cx.flow.closed = true) (i : Instr) (eff : Eff) : issue i eff s = .next s := by
  have hg (word : Nat) : gate word i.shape s = .error .wait := by
    rw [gate, bind_ok (m := getCx) rfl, if_pos hclosed]
    rfl
  unfold issue tryIssue issueWord
  simp only [State.following_none _ hl.follow, State.heldByFollower_none _ hl.alone, hg]
  rfl

/-- A matrix multiply with a window of one instruction (10 R196). -/
def stalledMma : Instr := .mma 0 1 0 0 0 0 1

/-- Its entry, which has not been admitted. -/
def stalledEntry : Entry where
  seq := 0
  instr := stalledMma
  word := BitVec.ofNat 32 ((encodeNat stalledMma).getD 0)
  pc := 0
  own := 0
  imm := none
  opd := 0
  opa := 0
  opb := 0
  mask := 0
  hints := 0
  va := 0
  vb := 0
  left := 1
  await := false
  atEnd := false
  ext := []
  priv := false
  cyc := 0

/-- Context 0 of core 0 stalls behind the matrix multiply. -/
def stalledBehindMma : State :=
  { State.reset with
    cores := [(0, { Core.reset with ctxs := [(0, { Ctx.reset with
      life := .live, flow := { Ctx.reset.flow with pc := 4, inflight := [stalledEntry], seq := 1 } })] })] }

theorem stalledBehindMma_alone : stalledBehindMma.alone := by
  rintro p hp
  obtain rfl := List.mem_singleton.1 hp
  rfl

theorem stalledBehindMma_oneLeft : OneLeft stalledBehindMma stalledEntry := ⟨rfl, rfl, rfl, stalledBehindMma_alone⟩

theorem stalledBehindMma_lone : stalledBehindMma.Lone := ⟨rfl, rfl, stalledBehindMma_alone⟩

/-- Refutes O55: behind a matrix command that has not been admitted, an ADD which does not depend on it waits, though an instruction of
its window is left. -/
theorem not_lookaheadWindow : ¬ Obligations.LookaheadWindow := by
  unfold Obligations.LookaheadWindow
  intro h
  obtain ⟨-, -, hleft⟩ := h
  obtain ⟨hissues, -, -⟩ := hleft stalledBehindMma stalledEntry 3 1 2 stalledBehindMma_oneLeft
  obtain ⟨t, ht, hpc, -⟩ := hissues 0 rfl rfl
  have hwaits : exec (.add 3 1 2 false 0) stalledBehindMma = .next stalledBehindMma :=
    issue_waits stalledBehindMma_lone rfl (.add 3 1 2 false 0) (finAdd 3 false)
  obtain rfl : stalledBehindMma = t := by
    injection hwaits.symm.trans ht
  exact absurd hpc (by decide)

end Sys2Proof.Machine
end

/-! # Frame of the vector and mask results (O24) -/

section
namespace Sys2Proof.Machine

variable {s u : State} {c : Ctx} {h : Shape} {n d v tag : Nat} {w : W64} {t : Bool} {fl : Flags}

/-! ### What a result leaves to be read (07 R128) -/

theorem Flow.staleTag_freshen_ne (f : Flow) {x y : RegId} (h : y ≠ x) : (f.freshen x).staleTag y = f.staleTag y := by
  have hpred : (fun p : RegId × Nat => decide ((!decide (p.1 = x)) = true ∧ decide (p.1 = y) = true)) = fun p => decide (p.1 = y) := by
    funext p
    by_cases hp : p.1 = y <;> simp [hp, h]
  rw [Flow.staleTag, Flow.freshen, List.find?_filter, hpred]
  rfl

theorem Flow.staleTag_markStale_ne (f : Flow) {x y : RegId} (h : y ≠ x) (k : Nat) : (f.markStale x k).staleTag y = f.staleTag y := by
  rw [← f.staleTag_freshen_ne h, Flow.staleTag, Flow.markStale, List.find?_cons_of_neg (by simpa using h.symm)]
  rfl

/-- A vector result leaves every other register as stale or fresh as it was. -/
theorem Ctx.staleTag_writeV_ne (c : Ctx) (v tag : Nat) (t : Bool) {x : RegId} (hx : x ≠ .v d) :
    (c.writeV d v tag t).flow.staleTag x = c.flow.staleTag x := by
  cases t with
  | true => exact Flow.staleTag_markStale_ne _ hx _
  | false => exact Flow.staleTag_freshen_ne _ hx

theorem Ctx.staleTag_writeM_ne (c : Ctx) (w : W64) (t : Bool) {x : RegId} (hx : x ≠ .m d) :
    (c.writeM d w t).flow.staleTag x = c.flow.staleTag x := by
  cases t with
  | true => exact Flow.staleTag_markStale_ne _ hx _
  | false => exact Flow.staleTag_freshen_ne _ hx

theorem Ctx.get_v_writeV_ne (c : Ctx) (v tag : Nat) (t : Bool) (hn : n ≠ d) :
    Tbl.get 0 (c.writeV d v tag t).vec.v n = Tbl.get 0 c.vec.v n := by
  cases t with
  | true => rfl
  | false => exact Tbl.get_set_ne _ _ _ _ _ _ hn

theorem Ctx.get_vtag_writeV_ne (c : Ctx) (v tag : Nat) (t : Bool) (hn : n ≠ d) :
    Tbl.get 0 (c.writeV d v tag t).vec.vtag n = Tbl.get 0 c.vec.vtag n := by
  cases t with
  | true => rfl
  | false => exact Tbl.get_set_ne _ _ _ _ _ _ hn

theorem Ctx.get_m_writeM_ne (c : Ctx) (w : W64) (t : Bool) (hn : n ≠ d) :
    Tbl.get 0 (c.writeM d w t).vec.m n = Tbl.get 0 c.vec.m n := by
  cases t with
  | true => rfl
  | false => exact Tbl.get_set_ne _ _ _ _ _ _ hn

/-- Every other vector register keeps its tag. -/
theorem Ctx.vtagOf_writeV_ne (c : Ctx) (v tag : Nat) (t : Bool) (hn : n ≠ d) : (c.writeV d v tag t).vtagOf n = c.vtagOf n := by
  rw [Ctx.vtagOf, Ctx.vtagOf, c.staleTag_writeV_ne v tag t (by simpa using hn), c.get_vtag_writeV_ne v tag t hn]

theorem rV_of_fresh (h : u.cx.flow.staleTag (.v n) = none) : rV n u = .ok (u.vreg n, u) := by
  rw [rV, h]
  rfl

theorem rM_of_fresh (h : u.cx.flow.staleTag (.m n) = none) : rM n u = .ok (u.mreg n, u) := by
  rw [rM, State.mreg]
  split
  · rfl
  · rw [h]

/-- A mask register other than m0 that has been written, transient or not, reads as its value. -/
theorem rM_writeM_same (hd : d ≠ 0) (hflow : u.cx.flow = (c.writeM d w t).flow) (hvec : u.cx.vec = (c.writeM d w t).vec) :
    rM d u = .ok (w, u) := by
  cases t with
  | true =>
    have hstale : (c.writeM d w true).flow.staleTag (.m d) = some 0 := Flow.staleTag_markStale _ _ _
    have hbypass : (c.writeM d w true).flow.bypassed (.m d) = some w.toNat := Flow.bypassed_push c.flow ⟨.m d, none, w.toNat, 0⟩
    simp [rM, hd, hflow, hstale, hbypass]
  | false =>
    have hfresh : (c.writeM d w false).flow.staleTag (.m d) = none := Flow.staleTag_freshen _ _
    rw [rM_of_fresh (by rw [hflow, hfresh]), State.mreg, if_neg hd, hvec]
    exact congrArg (fun x => Except.ok (x, u)) (Tbl.get_set_same ..)

/-! ### What a word that writes vector and mask registers alone leaves -/

/-- Nothing but vector and mask registers, the bypass and the stale registers differs between two contexts. -/
def Ctx.WritesVec (c c' : Ctx) : Prop := ∃ v vtag m byp st, c' = { c with
  vec := { c.vec with v := v, vtag := vtag, m := m }, flow := { c.flow with bypass := byp, stale := st } }

theorem Ctx.writeV_writesVec (c : Ctx) (d v tag : Nat) (t : Bool) : c.WritesVec (c.writeV d v tag t) := by
  cases t <;> exact ⟨_, _, _, _, _, rfl⟩

theorem Ctx.writeM_writesVec (c : Ctx) (d : Nat) (w : W64) (t : Bool) : c.WritesVec (c.writeM d w t) := by
  cases t <;> exact ⟨_, _, _, _, _, rfl⟩

theorem State.resultVCx_writesVec (s : State) (h : Shape) (d tag v : Nat) (fl : Flags) :
    ((s.cx.issue h).orFlags fl).WritesVec (s.resultVCx h d tag v fl) := ⟨_, _, _, _, _, rfl⟩

/-- At level 0 flags join FSTAT (07 R135). -/
theorem Ctx.orFlags_of_level (hl : c.level = 0) (fl : Flags) :
    c.orFlags fl = { c with spec := { c.spec with fstat := c.spec.fstat ||| fl } } := if_pos hl

/-- The flags join FSTAT, every register but the vectors and masks is as before, and the context goes on at the next address. -/
theorem after_of_writesVec (hin : s.cx.flow.inflight = []) (hl : s.cx.level = 0)
    (hw : ((s.cx.issue h).orFlags fl).WritesVec c) :
    (s.after c).cx.spec = { s.cx.spec with fstat := s.cx.spec.fstat ||| fl } ∧ (∀ n, (s.after c).reg n = s.reg n) ∧
      (s.after c).cx.vec.x = s.cx.vec.x ∧ (s.after c).cx.flow.q = s.cx.flow.q ∧ SameElse s (s.after c) ∧ SameMem s (s.after c) ∧
      Ran s (s.after c) := by
  have hcx : (s.after c).cx = { c with last := s.cc.cycle, passed := 0 } := State.cx_setCx ..
  obtain ⟨_, _, hissue⟩ := s.cx.issue_eq h
  rw [Ctx.orFlags_of_level ((s.cx.issue_level h).trans hl), hissue] at hw
  obtain ⟨_, _, _, _, _, hc⟩ := hw
  have hreg (n : Nat) : (s.after c).reg n = s.reg n := by
    rw [State.after, State.reg_setCx_stamped, hc]
    rfl
  subst hc
  rw [Ran, hcx]
  exact ⟨rfl, hreg, rfl, rfl, ⟨_, rfl⟩, fun _ => rfl, rfl, rfl, rfl, rfl, List.map_eq_nil_iff.2 hin⟩

/-! ### The three results -/

/-- A context as an issue stamps it keeps its registers and their staleness. -/
theorem State.flow_vec_after (s : State) (c : Ctx) : (s.after c).cx.flow = c.flow ∧ (s.after c).cx.vec = c.vec := by
  rw [State.after, State.cx_setCx]
  exact ⟨rfl, rfl⟩

theorem State.vec_resultV (s : State) (i : Instr) (d tag v : Nat) (fl : Flags) : (s.resultV i d tag v fl).cx.vec =
    { s.cx.vec with v := Tbl.set 0 s.cx.vec.v d v, vtag := Tbl.set 0 s.cx.vec.vtag d tag } := by
  rw [← (s.cx.issue_vec_spec i.shape).1, ← orFlags_vec (s.cx.issue i.shape) fl]
  exact (s.flow_vec_after _).2

/-- Settles O24: each result writes vector or mask registers alone, and the bypass serves a transient one. -/
theorem vectorFrame : Obligations.VectorFrame := by
  unfold Obligations.VectorFrame
  intro s d tag v w t fl i hq hl _ _
  obtain ⟨-, hin, -, hstale, -, -, -, hgone, -⟩ := s.quiet_iff.1 hq
  have hissue : s.cx.issue {} = s.cx.stepped := s.cx.issue_of_no_result {} rfl hgone
  have hfresh (x : RegId) : (s.cx.stepped.orFlags fl).flow.staleTag x = none := by
    rw [orFlags_loops, Ctx.stepped, Flow.staleTag]
    simp [Flow.issued, hstale]
  have hvec : (s.cx.stepped.orFlags fl).vec = s.cx.vec := orFlags_vec ..
  obtain ⟨hflowV, hvecV⟩ : (s.wroteV d tag v t fl).cx.flow = _ ∧ (s.wroteV d tag v t fl).cx.vec = _ := s.flow_vec_after _
  obtain ⟨hflowM, hvecM⟩ : (s.wroteM d w t fl).cx.flow = _ ∧ (s.wroteM d w t fl).cx.vec = _ := s.flow_vec_after _
  have hvecR := s.vec_resultV i d tag v fl
  have htag (n : Nat) : (s.wroteV d tag v t fl).cx.vtagOf n = ((s.cx.stepped.orFlags fl).writeV d v tag t).vtagOf n := by
    rw [Ctx.vtagOf, Ctx.vtagOf, hflowV, hvecV]
  refine ⟨⟨rV_writeV _ d v tag t hflowV hvecV, by rw [htag, Ctx.vtagOf_writeV]⟩, ⟨?_, ?_⟩, fun hd => rM_writeM_same hd hflowM hvecM,
    rfl, ?_, by rw [hvecR], ?_, ?_, fun n hn => ⟨?_, ?_, ?_, ?_, ?_⟩, ?_⟩
  · rw [State.vreg, hvecR, Tbl.get_set_same]
  · rw [State.vtag, hvecR, Tbl.get_set_same]
  · rw [hvecV, ← hvec]
    cases t <;> rfl
  · rw [hvecM, ← hvec]
    cases t <;> rfl
  · rw [hvecM, ← hvec]
    cases t <;> rfl
  · rw [rV_of_fresh, State.vreg, hvecV, Ctx.get_v_writeV_ne _ v tag t hn, hvec, State.vreg]
    rw [hflowV, Ctx.staleTag_writeV_ne _ v tag t (by simpa using hn), hfresh]
  · rw [htag, Ctx.vtagOf_writeV_ne _ v tag t hn, Ctx.vtagOf, hfresh, hvec]
    rfl
  · rw [State.vreg, hvecR]
    exact Tbl.get_set_ne _ _ _ _ _ _ hn
  · rw [State.vtag, hvecR]
    exact Tbl.get_set_ne _ _ _ _ _ _ hn
  · rw [rM_of_fresh, State.mreg, hvecM, Ctx.get_m_writeM_ne _ w t hn, hvec, State.mreg]
    rw [hflowM, Ctx.staleTag_writeM_ne _ w t (by simpa using hn), hfresh]
  · rintro u (rfl | rfl | rfl)
    · exact after_of_writesVec (h := {}) hin hl (by rw [hissue]; exact Ctx.writeV_writesVec ..)
    · exact after_of_writesVec hin hl (s.resultVCx_writesVec ..)
    · exact after_of_writesVec (h := {}) hin hl (by rw [hissue]; exact Ctx.writeM_writesVec ..)

end Sys2Proof.Machine
end

/-! # Division, roots, functions, reductions and scans of vectors (O21)

Each word writes a function of what its entry holds: `Issues.vecLong`, `Issues.vecResult`, `Issues.wroteF` and `Issues.wrote` say once
what the next state of such a word is. What is left for each word is its function, and for the scans that an element's result is that of
its place among the active ones. -/

section
namespace Sys2Proof.Machine

variable {s p : State} {i : Instr} {e : Entry} {g : Entry → M Unit} {a b d m x : Nat} {f : Nat → Nat × Flags}

/-! ### What the entry holds (07 R130) -/

/-- The entry that the issue of a word captures. -/
def State.entryFor (s : State) (i : Instr) : Entry := s.entryOf i ((encodeNat i).getD 0) i.shape

theorem State.mask_entryFor (h : i.shape.mask = some m) : (s.entryFor i).mask = s.mreg m := by
  rw [State.entryFor, State.entryOf, h]
  rfl

theorem State.first_entryFor (h : i.shape.va = some (.src a)) : (s.entryFor i).va = s.vreg a ∧ ∀ y, (s.entryFor i).ta y = s.vtag a := by
  rw [State.entryFor, State.entryOf, h]
  exact ⟨rfl, fun _ => rfl⟩

theorem State.second_entryFor (h : i.shape.vb = some (.v b)) : (s.entryFor i).vb = s.vreg b ∧ ∀ y, (s.entryFor i).tb y = s.vtag b := by
  rw [State.entryFor, State.entryOf, h]
  exact ⟨rfl, fun _ => rfl⟩

/-- The first operand carries a tag that the word accepts. -/
theorem accept_ok {ok : List Nat} (h : i.shape.va = some (.src a)) (htag : s.vtag a ∈ ok) : accept (s.entryFor i) a ok p = .ok ((), p) :=
  accept_run _ _ _ _ (by rw [(State.first_entryFor h).2]; exact List.contains_iff_mem.2 htag)

/-! ### Words that write a vector register -/

/-- A word with the mask `m` and the vector destination `d`, and the tag that a masked write needs (08 R160). -/
structure WritesVector (s : State) (i : Instr) (d m x : Nat) : Prop where
  mask : i.shape.mask = some m
  wr : i.shape.wr = [.v d]
  ex : i.shape.ex = []
  tag : m = 0 ∨ s.vtag d = x

namespace WritesVector

variable (hw : WritesVector s i d m x) (hq : s.quiet = true)
include hw hq

theorem dst_entryFor (c : Ctx) : (s.entryFor i).dst c d = s.vreg d := by
  rw [Entry.dst, State.entryFor, (s.ext_entryOf hq _ hw.ex).1 hw.wr]
  rfl

theorem tag_entryFor (c : Ctx) : m = 0 ∨ (s.entryFor i).ext.getD 2 (c.vtagOf d) = x := by
  rw [State.entryFor, (s.ext_entryOf hq _ hw.ex).1 hw.wr]
  exact hw.tag

end WritesVector

/-- What `vlOut` writes when its tag check passes. -/
theorem vlOut_ok (ht : m = 0 ∨ e.ext.getD 2 (p.cx.vtagOf d) = x) : vlOut e d m x f p = .ok ((), p.setCx
    ((p.cx.orFlags (mapElems x e.mask (e.dst p.cx d) f).2).finV e d (mapElems x e.mask (e.dst p.cx d) f).1 x)) := by
  rw [vlOut, bind_ok (maskedTag_ok ht), bind_ok (m := getCx) rfl]
  simp only [raiseFlags, vFin, bind_ok (m := modCx _) rfl]
  rw [modCx, State.cx_setCx, State.setCx_setCx]
  rfl

/-- A long-latency word that ends in `vlOut`. -/
theorem Issues.vecLong (h : Issues s i (plain g)) (hw : WritesVector s i d m x)
    (hg : g (s.entryFor i) (s.issuedAs i.shape) = vlOut (s.entryFor i) d m x f (s.issuedAs i.shape)) : VecLong i s d m x f := by
  rw [vlOut_ok (hw.tag_entryFor h.quiet _), State.mask_entryFor hw.mask, hw.dst_entryFor h.quiet, State.cx_issuedAs] at hg
  have hplace := ((s.cx.issue i.shape).samePlace_orFlags (mapElems x (s.mreg m) (s.vreg d) f).2).trans
    (Ctx.samePlace_finV _ (s.entryFor i) d (mapElems x (s.mreg m) (s.vreg d) f).1 x)
  exact ⟨_, _, h.after (plain_ok hg) hplace, mapElems_are x (s.mreg m) (s.vreg d) f⟩

/-- A word, not long-latency, that leaves its running context as `c` and changes nothing else. -/
theorem Issues.afterShort {c : Ctx} (h : Issues s i (plain g)) (hshort : i.shape.long = false)
    (hg : g (s.entryFor i) (s.setCx s.cx.stepped) = .ok ((), s.setCx c)) (hc : s.cx.stepped.SamePlace c) :
    exec i s = .next (s.after c) := by
  have hlone := State.lone_of_quiet h.quiet
  exact h.issued.trans (issue_stepped s c i _ h.quiet h.guard h.home h.level hshort h.la (plain_ok hg) (hc.loops.trans hlone.loops)
    (hc.follow.trans hlone.follow))

theorem Ctx.samePlace_writeV (c : Ctx) (d v tag : Nat) (t : Bool) : c.SamePlace (c.writeV d v tag t) := by
  cases t <;> exact ⟨rfl, rfl, rfl, rfl, rfl, rfl⟩

/-- A word, not long-latency, that ends in `vecOut`. -/
theorem Issues.vecResult {t : Bool} (h : Issues s i (plain g)) (hshort : i.shape.long = false) (hw : WritesVector s i d m x)
    (hg : g (s.entryFor i) (s.setCx s.cx.stepped) = vecOut (s.entryFor i) d m x t f (s.setCx s.cx.stepped)) :
    VecResult i s d m x x t f := by
  rw [vecOut_run _ _ _ _ _ _ _ _ (hw.tag_entryFor h.quiet _), State.mask_entryFor hw.mask, hw.dst_entryFor h.quiet] at hg
  exact ⟨_, _, h.afterShort hshort hg ((Ctx.samePlace_orFlags ..).trans (Ctx.samePlace_writeV ..)),
    mapElems_are x (s.mreg m) (s.vreg d) f⟩

/-- A word, not long-latency, that raises flags and writes a w register. -/
theorem Issues.wroteF {v : W64} {t : Bool} {fl : Flags} (h : Issues s i (plain g)) (hshort : i.shape.long = false)
    (hg : g (s.entryFor i) (s.setCx s.cx.stepped) = (do raiseFlags fl; wW d v t : M Unit) (s.setCx s.cx.stepped)) :
    exec i s = .next (s.wroteF d v t fl) := by
  have hrun : (do raiseFlags fl; wW d v t : M Unit) (s.setCx s.cx.stepped) =
      .ok ((), s.setCx ((s.cx.stepped.orFlags fl).writeW d v t)) := by
    rw [raiseFlags, wW, bind_ok (m := modCx _) rfl, modCx, State.cx_setCx, State.cx_setCx, State.setCx_setCx, State.setCx_setCx]
  exact h.afterShort hshort (hg.trans hrun) ((Ctx.samePlace_orFlags ..).trans (Ctx.writeW_writes ..).samePlace)

/-- A word, not long-latency, that writes a w register. -/
theorem Issues.wrote {v : W64} {t : Bool} (h : Issues s i (plain g)) (hshort : i.shape.long = false)
    (hg : g (s.entryFor i) (s.setCx s.cx.stepped) = wW d v t (s.setCx s.cx.stepped)) : exec i s = .next (s.wrote d v t) := by
  have hrun : wW d v t (s.setCx s.cx.stepped) = .ok ((), s.setCx (s.cx.stepped.writeW d v t)) := by
    rw [wW, modCx, State.cx_setCx, State.setCx_setCx]
  exact h.afterShort hshort (hg.trans hrun) (Ctx.writeW_writes ..).samePlace

/-! ### Division, roots and functions (09 R183) -/

/-- A word of the vector unit with a lookahead of 0 and no guard, in a quiet context at level 0. -/
theorem issues_of_vector (hq : s.quiet = true) (hl : s.cx.level = 0) (hx : exec i s = issue i (plain g) s) (hg : i.shape.g = 0)
    (hh : i.shape.home = none) (hla : i.shape.la = 0) : Issues s i (plain g) :=
  ⟨hx, hq, by rw [hg]; rfl, by simp [hh], .inl hl, hla⟩

/-- The function `f` of the active elements of one operand. -/
theorem Issues.vl1 {f : Nat → Nat × Flags} (h : Issues s i (plain fun e => vl1 e d a m x f)) (hw : WritesVector s i d m x)
    (hva : i.shape.va = some (.src a)) (ha : s.vtag a = x) : VecLong i s d m x (fun j => f (elemOf x (s.vreg a) j)) := by
  refine h.vecLong hw ?_
  rw [Machine.vl1, bind_ok (accept_ok hva (List.mem_singleton.2 ha)), (State.first_entryFor hva).1]

theorem subTag_eq {p : Nat} (hp : p < 2) : subTag p = p + 1 := by
  obtain rfl | rfl : p = 0 ∨ p = 1 := by omega
  · rfl
  · rfl

theorem vectorLongResults : Stated.VectorLongResults := by
  intro s d a b m p hq hl hp x A B E
  have hsub : subTag p = x := subTag_eq hp
  clear_value x
  subst hsub
  have iss {i : Instr} {g : Entry → M Unit} := issues_of_vector (i := i) (g := g) hq hl
  refine ⟨fun ha hd => ⟨fun hb => ?_, ?_, ?_⟩, fun ha hd => ⟨?_, ?_⟩⟩
  · have hw : WritesVector s (.vdiv d a b m p 0) d m (subTag p) := ⟨rfl, rfl, rfl, hd⟩
    refine (iss (exec_vdiv ..) rfl rfl rfl).vecLong hw ?_
    obtain ⟨hvb, htb⟩ := State.second_entryFor (s := s) (i := .vdiv d a b m p 0) rfl
    rw [bind_ok (accept_ok rfl (List.mem_singleton.2 ha)), bind_ok (matchB_run _ _ _ _ ((htb _).trans hb)),
      (State.first_entryFor rfl).1, hvb]
  · exact (iss (exec_vsqrt ..) rfl rfl rfl).vl1 ⟨rfl, rfl, rfl, hd⟩ rfl ha
  · exact (iss (exec_vrcp ..) rfl rfl rfl).vl1 ⟨rfl, rfl, rfl, hd⟩ rfl ha
  · exact (iss (exec_vexp2 ..) rfl rfl rfl).vl1 ⟨rfl, rfl, rfl, hd⟩ rfl ha
  · exact (iss (exec_vlog2 ..) rfl rfl rfl).vl1 ⟨rfl, rfl, rfl, hd⟩ rfl ha

end Sys2Proof.Machine
end

section
namespace Sys2Proof.Machine

variable {s : State} {i : Instr} {a b d m x : Nat} {t : Bool}

/-! ### Reductions (09 R184) -/

theorem activeUpTo_last (s : State) (a m x : Nat) : activeUpTo s a m x (elemN x - 1) = onElems x (s.mreg m) (s.vreg a) := by
  have hpos : 0 < elemN x := by unfold elemN; split <;> decide
  rw [activeUpTo, Nat.sub_add_cancel hpos]
  rfl

/-- A fold that keeps, of what it has and the next element, the one that stands before the other ends at one that stands before all. -/
theorem foldl_selects {α : Type} {le : α → α → Prop} {pick : α → α → α} (hrefl : ∀ y, le y y)
    (htrans : ∀ x y z, le x y → le y z → le x z)
    (hpick : ∀ r y, (pick r y = r ∨ pick r y = y) ∧ le (pick r y) r ∧ le (pick r y) y) (l : List α) (r : α) :
    (∀ y ∈ l, le (l.foldl pick r) y) ∧ le (l.foldl pick r) r ∧ (l.foldl pick r = r ∨ l.foldl pick r ∈ l) := by
  induction l generalizing r with
  | nil => exact ⟨by simp, hrefl r, .inl rfl⟩
  | cons z l ih =>
    obtain ⟨hone, hr, hz⟩ := hpick r z
    obtain ⟨hall, hstart, hend⟩ := ih (pick r z)
    refine ⟨List.forall_mem_cons.2 ⟨htrans _ _ _ hstart hz, hall⟩, htrans _ _ _ hstart hr, ?_⟩
    rw [List.foldl_cons]
    obtain hend | hend := hend
    · rw [hend]
      exact hone.imp_right fun h => by rw [h]; exact List.mem_cons_self
    · exact .inr (List.mem_cons_of_mem _ hend)

/-- The I32 element that VRMIN or VRMAX keeps of `r` and `y`. -/
def pickI32 (greatest : Bool) (r y : Nat) : Nat := if (signed 32 y < signed 32 r) = !greatest ∧ y ≠ r then y else r

theorem pickI32_least (r y : Nat) : (pickI32 false r y = r ∨ pickI32 false r y = y) ∧
    signed 32 (pickI32 false r y) ≤ signed 32 r ∧ signed 32 (pickI32 false r y) ≤ signed 32 y := by
  unfold pickI32
  split
  next h =>
    have hlt : signed 32 y < signed 32 r := by simpa using h.1
    exact ⟨.inr rfl, hlt.le, le_rfl⟩
  next h =>
    refine ⟨.inl rfl, le_rfl, not_lt.1 fun hlt => h ⟨by simpa using hlt, ?_⟩⟩
    rintro rfl
    exact lt_irrefl _ hlt

theorem pickI32_greatest (r y : Nat) : (pickI32 true r y = r ∨ pickI32 true r y = y) ∧
    signed 32 r ≤ signed 32 (pickI32 true r y) ∧ signed 32 y ≤ signed 32 (pickI32 true r y) := by
  unfold pickI32
  split
  next h =>
    have hle : signed 32 r ≤ signed 32 y := by simpa using h.1
    exact ⟨.inr rfl, hle, le_rfl⟩
  next h =>
    refine ⟨.inl rfl, le_rfl, not_lt.1 fun hlt => h ⟨by simpa using hlt.le, ?_⟩⟩
    rintro rfl
    exact lt_irrefl _ hlt

/-- What VRMIN or VRMAX keeps of a list of elements. -/
def extremeOf (greatest : Bool) (x : Nat) (l : List Nat) : Nat :=
  if x = 5 then l.foldl (pickI32 greatest) (if greatest then 0x80000000 else 0x7FFFFFFF)
  else l.foldl (fun r y => if greatest then fmax2 (elemFmt x) r y else fmin (elemFmt x) r y) ((elemFmt x).infCode greatest)

theorem extremeOf_least (l : List Nat) : (∀ y ∈ l, signed 32 (extremeOf false 5 l) ≤ signed 32 y) ∧
    (signed 32 (extremeOf false 5 l) = 2 ^ 31 - 1 ∨ ∃ y ∈ l, signed 32 (extremeOf false 5 l) = signed 32 y) := by
  obtain ⟨hall, -, hend⟩ := foldl_selects (le := fun x y => signed 32 x ≤ signed 32 y) (fun _ => le_rfl) (fun _ _ _ => le_trans)
    pickI32_least l 0x7FFFFFFF
  exact ⟨hall, hend.imp (fun h => (congrArg (signed 32) h).trans (by decide)) fun h => ⟨_, h, rfl⟩⟩

theorem extremeOf_greatest (l : List Nat) : (∀ y ∈ l, signed 32 y ≤ signed 32 (extremeOf true 5 l)) ∧
    (signed 32 (extremeOf true 5 l) = -(2 ^ 31) ∨ ∃ y ∈ l, signed 32 (extremeOf true 5 l) = signed 32 y) := by
  obtain ⟨hall, -, hend⟩ := foldl_selects (le := fun x y => signed 32 y ≤ signed 32 x) (fun _ => le_rfl)
    (fun _ _ _ h h' => le_trans h' h) pickI32_greatest l 0x80000000
  exact ⟨hall, hend.imp (fun h => (congrArg (signed 32) h).trans (by decide)) fun h => ⟨_, h, rfl⟩⟩

/-- The least or the greatest of the active elements. -/
theorem Issues.vecExtreme {greatest : Bool} (h : Issues s i (plain fun e => vrm e d a t greatest)) (hshort : i.shape.long = false)
    (hva : i.shape.va = some (.src a)) (hmask : i.shape.mask = some m) (ha : s.vtag a ∈ numTag) :
    exec i s = .next (s.wrote d (redOut (s.vtag a) (extremeOf greatest (s.vtag a) (onElems (s.vtag a) (s.mreg m) (s.vreg a)))) t) := by
  refine h.wrote hshort ?_
  obtain ⟨hv, htag⟩ := State.first_entryFor (s := s) hva
  rw [vrm, bind_ok (accept_ok hva ha), htag, hv, State.mask_entryFor hmask]
  rfl

theorem mem_floatTag (hx : x = 1 ∨ x = 2) : x ∈ floatTag := by simpa [floatTag] using hx

theorem mem_numTag (hx : x = 1 ∨ x = 2) : x ∈ numTag := List.mem_append_left [5] (mem_floatTag hx)

theorem redOut_float (hx : x = 1 ∨ x = 2) (v : Nat) : redOut x v = BitVec.ofNat 64 v := if_neg (by omega)

theorem combine_float (hx : x = 1 ∨ x = 2) : combine x = fadd (elemFmt x) := by
  funext p q
  exact if_neg (by omega)

theorem canonElem_float (hx : x = 1 ∨ x = 2) : canonElem x = (elemFmt x).canon := by
  funext v
  exact if_neg (by omega)

theorem extremeOf_float (hx : x = 1 ∨ x = 2) (greatest : Bool) (l : List Nat) : extremeOf greatest x l =
    l.foldl (fun r y => if greatest then fmax2 (elemFmt x) r y else fmin (elemFmt x) r y) ((elemFmt x).infCode greatest) :=
  if_neg (by omega)

/-! ### Scans (09 R184, 08 R167) -/

/-- An element of the active ones below `n` stands behind as many of them as are below its own index. -/
theorem filter_range_take {on : Nat → Bool} {j n : Nat} (hj : j < n) (hon : on j = true) :
    ((List.range j).filter on).length < ((List.range n).filter on).length ∧
      ((List.range n).filter on).take (((List.range j).filter on).length + 1) = (List.range (j + 1)).filter on := by
  have hlen : ((List.range (j + 1)).filter on).length = ((List.range j).filter on).length + 1 := by
    rw [List.range_succ, List.filter_append, List.length_append, List.filter_singleton, hon]
    rfl
  obtain ⟨k, rfl⟩ := Nat.exists_eq_add_of_le (Nat.succ_le_of_lt hj)
  rw [Nat.succ_eq_add_one, List.range_add, List.filter_append, ← hlen, List.take_left, List.length_append]
  exact ⟨by omega, rfl⟩

/-- The results of a scan of the active elements, in their order. -/
def scanOf (ordered : Bool) (x : Nat) (l : List Nat) : List (Nat × Flags) :=
  if ordered && x != 5 then exactScan (elemFmt x) l else seqScan (combine x) none (l.map (canonElem x))

/-- The last of the sums of a list, each made by `comb` of the sum before and the element, and the flags of that. -/
def lastSum (comb : Nat → Nat → Nat × Flags) : List Nat → Nat × Flags
  | [] => (0, 0)
  | y :: r => r.foldl (fun q z => comb q.1 z) (y, 0)

theorem lastSum_fadd (f : Fmt) (l : List Nat) : lastSum (fadd f) l = runningSum f l := by
  cases l <;> rfl

theorem exactScan_getD (f : Fmt) {l : List Nat} {k : Nat} (hk : k < l.length) :
    (exactScan f l).getD k (0, 0) = exactSum f ((l.take (k + 1)).map f.decode) := by
  simp [exactScan, hk]

theorem seqScan_some_getD (comb : Nat → Nat → Nat × Flags) (l : List Nat) {k : Nat} (hk : k < l.length) (q : Nat × Flags) :
    (seqScan comb (some q.1) l).getD k (0, 0) = (l.take (k + 1)).foldl (fun q z => comb q.1 z) q := by
  induction l generalizing k q with
  | nil => exact absurd hk (Nat.not_lt_zero k)
  | cons y l ih =>
    cases k with
    | zero => rfl
    | succ k => exact ih (Nat.lt_of_succ_lt_succ hk) (comb q.1 y)

theorem seqScan_getD (comb : Nat → Nat → Nat × Flags) {l : List Nat} {k : Nat} (hk : k < l.length) :
    (seqScan comb none l).getD k (0, 0) = lastSum comb (l.take (k + 1)) := by
  cases l with
  | nil => exact absurd hk (Nat.not_lt_zero k)
  | cons y l =>
    cases k with
    | zero => rfl
    | succ k => exact seqScan_some_getD comb l (Nat.lt_of_succ_lt_succ hk) (y, 0)

/-- A sum of I32 elements is modulo 2^32 and raises nothing. -/
theorem foldl_combine_int (l : List Nat) (y : Nat) : ∃ z, l.foldl (fun q z => combine 5 q.1 z) (y, 0) = (z, 0) ∧
    z % 2 ^ 32 = (y + l.sum) % 2 ^ 32 := by
  induction l generalizing y with
  | nil => exact ⟨y, rfl, by simp⟩
  | cons w l ih =>
    obtain ⟨z, hz, hmod⟩ := ih ((y + w) % 2 ^ 32)
    exact ⟨z, hz, by rw [hmod, Nat.mod_add_mod, List.sum_cons, Nat.add_assoc]⟩

theorem lastSum_combine_int (l : List Nat) : (lastSum (combine 5) l).1 % 2 ^ 32 = l.sum % 2 ^ 32 ∧ (lastSum (combine 5) l).2 = 0 := by
  cases l with
  | nil => exact ⟨rfl, rfl⟩
  | cons y l =>
    obtain ⟨z, hz, hmod⟩ := foldl_combine_int l y
    rw [lastSum, hz, List.sum_cons]
    exact ⟨hmod, rfl⟩

theorem VecResult.congr {c tag : Nat} {f f' : Nat → Nat × Flags} (h : VecResult i s d m c tag t f)
    (hf : ∀ j, j < elemN c → elemOn c (s.mreg m) j = true → (f j).1 % 2 ^ elemW c = (f' j).1 % 2 ^ elemW c ∧ (f j).2 = (f' j).2) :
    VecResult i s d m c tag t f' := by
  obtain ⟨v, fl, hexec, hare⟩ := h
  exact ⟨v, fl, hexec, hare.congr hf⟩

/-- A scan gives each active element the result of its place among them. -/
theorem Issues.vecScan {ordered : Bool} (h : Issues s i (plain fun e => vscan e d a m t ordered)) (hshort : i.shape.long = false)
    (hva : i.shape.va = some (.src a)) (hw : WritesVector s i d m (s.vtag a)) (ha : s.vtag a ∈ numTag) :
    VecResult i s d m (s.vtag a) (s.vtag a) t fun j =>
      (scanOf ordered (s.vtag a) (onElems (s.vtag a) (s.mreg m) (s.vreg a))).getD
        ((List.range j).filter (elemOn (s.vtag a) (s.mreg m))).length (0, 0) := by
  refine h.vecResult hshort hw ?_
  obtain ⟨hv, htag⟩ := State.first_entryFor (s := s) hva
  rw [vscan, bind_ok (accept_ok hva ha), htag, hv, State.mask_entryFor hw.mask]
  rfl

/-- The active elements up to and with an active one are as many of all of them as its place among them says. -/
theorem onElems_take {j : Nat} (hj : j < elemN x) (hon : elemOn x (s.mreg m) j = true) :
    ((List.range j).filter (elemOn x (s.mreg m))).length < (onElems x (s.mreg m) (s.vreg a)).length ∧
      (onElems x (s.mreg m) (s.vreg a)).take (((List.range j).filter (elemOn x (s.mreg m))).length + 1) = activeUpTo s a m x j := by
  obtain ⟨hlt, htake⟩ := filter_range_take hj hon
  rw [onElems, activeUpTo, List.length_map, ← List.map_take, htake]
  exact ⟨hlt, rfl⟩

/-- A sequential scan gives each active element the last sum of those up to and with it. -/
theorem Issues.vecScan_sequential {ordered : Bool} (h : Issues s i (plain fun e => vscan e d a m t ordered))
    (hshort : i.shape.long = false) (hva : i.shape.va = some (.src a)) (hw : WritesVector s i d m (s.vtag a)) (ha : s.vtag a ∈ numTag)
    (hseq : (ordered && s.vtag a != 5) = false) : VecResult i s d m (s.vtag a) (s.vtag a) t fun k =>
      lastSum (combine (s.vtag a)) ((activeUpTo s a m (s.vtag a) k).map (canonElem (s.vtag a))) := by
  refine (h.vecScan hshort hva hw ha).congr fun j hj hon => ?_
  obtain ⟨hlt, htake⟩ := onElems_take (a := a) hj hon
  rw [scanOf, hseq, if_neg Bool.false_ne_true, seqScan_getD _ (by rwa [List.length_map]), ← List.map_take, htake]
  exact ⟨rfl, rfl⟩

/-- An exact scan gives each active element the exact sum of those up to and with it, rounded once. -/
theorem Issues.vecScan_exact (h : Issues s i (plain fun e => vscan e d a m t true)) (hshort : i.shape.long = false)
    (hva : i.shape.va = some (.src a)) (hw : WritesVector s i d m (s.vtag a)) (ha : s.vtag a = 1 ∨ s.vtag a = 2) :
    VecResult i s d m (s.vtag a) (s.vtag a) t fun k =>
      exactSum (elemFmt (s.vtag a)) ((activeUpTo s a m (s.vtag a) k).map (elemFmt (s.vtag a)).decode) := by
  have hexact : (true && s.vtag a != 5) = true := by obtain h | h := ha <;> rw [h] <;> rfl
  refine (h.vecScan hshort hva hw (mem_numTag ha)).congr fun j hj hon => ?_
  obtain ⟨hlt, htake⟩ := onElems_take (a := a) hj hon
  rw [scanOf, hexact, if_pos rfl, exactScan_getD _ hlt, htake]
  exact ⟨rfl, rfl⟩

/-- A scan of I32 elements gives each the sum of those up to and with it, modulo 2^32. -/
theorem Issues.vecScan_int {ordered : Bool} (h : Issues s i (plain fun e => vscan e d a m t ordered)) (hshort : i.shape.long = false)
    (hva : i.shape.va = some (.src a)) (hw : WritesVector s i d m 5) (ha : s.vtag a = 5) :
    VecResult i s d m 5 5 t fun k => ((activeUpTo s a m 5 k).sum % 2 ^ 32, 0) := by
  have hscan := h.vecScan_sequential hshort hva (by rwa [ha]) (by rw [ha]; decide) (by rw [ha]; exact Bool.and_false _)
  rw [ha] at hscan
  refine hscan.congr fun j _ _ => ?_
  obtain ⟨hsum, hflags⟩ := lastSum_combine_int ((activeUpTo s a m 5 j).map (canonElem 5))
  rw [List.map_id'' (f := canonElem 5) (fun _ => rfl)] at hsum hflags ⊢
  exact ⟨hsum.trans (Nat.mod_mod _ _).symm, hflags⟩

/-! ### The words -/

section
variable (hq : s.quiet = true) (hl : s.cx.level = 0)
include hq hl

theorem exec_vraddO_float (hx : s.vtag a = 1 ∨ s.vtag a = 2) {l : List Nat} (hon : onElems (s.vtag a) (s.mreg m) (s.vreg a) = l) :
    exec (.vraddO d a m t) s = .next (s.wroteF d (BitVec.ofNat 64 (exactSum (elemFmt (s.vtag a)) (l.map (elemFmt (s.vtag a)).decode)).1)
      t (exactSum (elemFmt (s.vtag a)) (l.map (elemFmt (s.vtag a)).decode)).2) := by
  refine (issues_of_vector hq hl (exec_vraddO ..) rfl rfl rfl).wroteF rfl ?_
  obtain ⟨hv, htag⟩ := State.first_entryFor (s := s) (i := .vraddO d a m t) rfl
  rw [bind_ok (accept_ok rfl (mem_floatTag hx)), htag, hv, State.mask_entryFor rfl, hon, redOut_float hx]

theorem exec_vraddU_float (hx : s.vtag a = 1 ∨ s.vtag a = 2) {tree : Option Nat × Flags}
    (htree : treeSum (fadd (elemFmt (s.vtag a))) 6 ((List.range (elemN (s.vtag a))).map fun i =>
      if elemOn (s.vtag a) (s.mreg m) i then some (elemOf (s.vtag a) (s.vreg a) i) else none) = tree) :
    exec (.vraddU d a m t) s =
      .next (s.wroteF d (BitVec.ofNat 64 ((elemFmt (s.vtag a)).canon (tree.1.getD 0))) t tree.2) := by
  refine (issues_of_vector hq hl (exec_vraddU ..) rfl rfl rfl).wroteF rfl ?_
  obtain ⟨hv, htag⟩ := State.first_entryFor (s := s) (i := .vraddU d a m t) rfl
  rw [bind_ok (accept_ok rfl (mem_floatTag hx)), htag, hv, State.mask_entryFor rfl, combine_float hx, htree,
    redOut_float hx]

theorem exec_viradd_int (hx : s.vtag a = 5) :
    exec (.viradd d a m t) s = .next (s.wrote d (w64OfInt (signed 32 ((onElems 5 (s.mreg m) (s.vreg a)).sum % 2 ^ 32))) t) := by
  refine (issues_of_vector hq hl (exec_viradd ..) rfl rfl rfl).wrote rfl ?_
  rw [bind_ok (accept_ok rfl (List.mem_singleton.2 hx)), (State.first_entryFor rfl).1, State.mask_entryFor rfl, List.foldl_eq_foldr]
  rfl

end

theorem reductionsAndScans : Stated.ReductionsAndScans := by
  intro s d a b m x t hq hl ha L F tree sum32
  subst ha
  have hL : onElems (s.vtag a) (s.mreg m) (s.vreg a) = L := (activeUpTo_last ..).symm
  have iss {i : Instr} {g : Entry → M Unit} := issues_of_vector (i := i) (g := g) hq hl
  refine ⟨fun hx => ?_, fun hx => ?_⟩
  · have hnum := mem_numTag hx
    refine ⟨exec_vraddO_float hq hl hx hL, exec_vraddU_float hq hl hx rfl, ?_, ?_, fun hd => ⟨?_, ?_⟩⟩
    · rw [(iss (exec_vrmin ..) rfl rfl rfl).vecExtreme rfl rfl rfl hnum, hL, redOut_float hx, extremeOf_float hx]
      rfl
    · rw [(iss (exec_vrmax ..) rfl rfl rfl).vecExtreme rfl rfl rfl hnum, hL, redOut_float hx, extremeOf_float hx]
      rfl
    · exact (iss (exec_vscanO ..) rfl rfl rfl).vecScan_exact rfl rfl ⟨rfl, rfl, rfl, hd⟩ hx
    · have hscan := (iss (exec_vscanU d a b m t s) rfl rfl rfl).vecScan_sequential rfl rfl ⟨rfl, rfl, rfl, hd⟩ hnum rfl
      rw [combine_float hx, canonElem_float hx] at hscan
      exact hscan.congr fun _ _ _ => ⟨by rw [lastSum_fadd], by rw [lastSum_fadd]⟩
  · have hnum : s.vtag a ∈ numTag := by rw [hx]; decide
    rw [hx] at hL
    refine ⟨?_, ⟨signed 32 (extremeOf false 5 L), ?_, extremeOf_least L⟩, ⟨signed 32 (extremeOf true 5 L), ?_, extremeOf_greatest L⟩,
      fun hd => ⟨?_, ?_⟩⟩
    · rw [exec_viradd_int hq hl hx, hL]
      rfl
    · rw [(iss (exec_vrmin ..) rfl rfl rfl).vecExtreme rfl rfl rfl hnum, hx, hL]
      rfl
    · rw [(iss (exec_vrmax ..) rfl rfl rfl).vecExtreme rfl rfl rfl hnum, hx, hL]
      rfl
    · exact (iss (exec_vscanO ..) rfl rfl rfl).vecScan_int rfl rfl ⟨rfl, rfl, rfl, hd⟩ hx
    · exact (iss (exec_vscanU ..) rfl rfl rfl).vecScan_int rfl rfl ⟨rfl, rfl, rfl, hd⟩ hx

/-- Settles O21: each word is the model's element function over the captured operands; a scan's result of an element is that of its place
among the active ones. -/
theorem vectorLongWords : Obligations.VectorLongWords := ⟨vectorLongResults, reductionsAndScans⟩

end Sys2Proof.Machine
end
